-- ==== Sys2Proof/Word.lean ====
section
/-! DEFINITION. The word types of the ZNX-9640 and its plainest arithmetic. -/

namespace Sys2Proof

/-- One byte of a packet, of DRAM or of an SRAM. -/
abbrev Byte := BitVec 8
/-- A 16-bit field. -/
abbrev Half := BitVec 16
/-- A 32-bit register word. -/
abbrev Word := BitVec 32
/-- A 64-bit field: an address or a device time. -/
abbrev DWord := BitVec 64

end Sys2Proof
end

