-- ==== Sys2Proof/Syntax.lean ====
section
/-! DEFINITION. The commands the block takes: one constructor for each row of the opcode table, and
the types of their operands. A host command carries the header fields of its packet and its PARAMS
bytes (Table 5 of chapter 02); an event carries what it happens to and the values it measures. -/

namespace Sys2Proof

/-- The two host ports (Table 1 of chapter 02). -/
inductive Port where
  | hp0 | hp1
  deriving DecidableEq, Repr

/-- The command phase of a transaction (R42): its two bytes as they arrive, of which the second is the
bitwise inverse of the first in a well-formed one. -/
structure CmdPhase where
  code : Byte
  inv : Byte
  deriving DecidableEq, Repr

/-- The header fields of a command packet on a port (Table 5 of chapter 02). -/
structure Hdr where
  port : Port
  tenant : Byte
  queue : Byte
  tag : Half
  seq : Half
  /-- Firmware finds an internal inconsistency as it executes this command (INTERNAL of R55). -/
  inconsistent : Bool
  deriving DecidableEq, Repr

/-- Operand families of the matrix unit (Table 2 of chapter 03), with the widths or formats of A and
B: code width of ZQ and plain integers, 0 E4M3 and 1 E5M2. -/
inductive Fam where
  | zq (wa wb g : Nat)
  | int (wa wb : Nat)
  | fp8 (fa fb : Nat)
  | bf16
  | fp16
  deriving DecidableEq, Repr

/-- One dimension of a window operator (Table 1 of chapter 05). -/
structure WinDim where
  inp : Nat
  k : Nat
  s : Nat
  d : Nat
  plo : Nat
  phi : Nat
  deriving DecidableEq, Repr, Inhabited

/-- What a window operator computes (R140, R155 to R158): a convolution with its channel groups, input and
output channels; maximum; average with its COUNT_PAD; global average. -/
inductive WinKind where
  | conv (groups cin cout : Nat)
  | max
  | avg (countPad : Bool)
  | global
  deriving DecidableEq, Repr, Inhabited

/-- The geometry of a window operator: both dimensions and the padding mode by its code, 0 zero, 1 replicate,
2 reflect (Table 1 of chapter 05; the codes are the model's, log 11). -/
structure WinGeom where
  kind : WinKind
  h : WinDim
  w : WinDim
  mode : Nat
  deriving DecidableEq, Repr, Inhabited

/-- Element formats of stored tensors (Tables 1 and 3 of chapter 03); plain integers by width, ZQ by code width
and group size. -/
inductive ElFmt where
  | fp32 | fp16 | bf16 | e5m2 | e4m3
  | int (w : Nat)
  | zq (w g : Nat)
  deriving DecidableEq, Repr

/-- A tensor as a transfer descriptor names it (R93 to R96): its format, where it lies (DRAM, or the SRAM of
tile `unit` of the cluster, 13 for cluster SRAM), its data stream, and for ZQ its scale stream, the index that
the descriptor assigns to the block at `base`, and the tensor's group count. -/
structure Streams where
  fmt : ElFmt
  unit : Option Nat
  base : Nat
  scale : Nat
  blk : Nat
  groups : Nat
  deriving DecidableEq, Repr

/-- Rows of `k` elements of a stored tensor, `rows` of them: row r starts at element (for ZQ: at group) `first` +
r × `pitch`. `dma` is the DMA engine that brings its blocks into use, none for the tile address generator. -/
structure Stored where
  str : Streams
  first : Nat
  pitch : Nat
  k : Nat
  rows : Nat
  dma : Option Nat
  deriving DecidableEq, Repr

/-- An expanded copy that the tile address generator builds (R144 to R147): the operator, its input with one row
a pixel in row-major order, the first output position and the number of rows of the pass, and the place of the
copy in the SRAM of tile `unit`: data stream and scale stream. -/
structure Expand where
  geom : WinGeom
  inp : Stored
  pos : Nat
  rows : Nat
  unit : Nat
  base : Nat
  scale : Nat
  deriving DecidableEq, Repr

/-- One pass of the matrix unit (R77): the copy that it expands first, where it reads one, and its operands A by
rows and B by columns along K. -/
structure MatPass where
  ex : Option Expand
  a : Stored
  b : Stored
  deriving DecidableEq, Repr

/-- A window operator on the vector engine (R155 to R159): the operator, BF16 mode, its input with one row a
pixel, the weights with one row an output channel in the order (kh, kw, input channel within the group), the bias
of each output channel, and the output positions and channels that it computes. -/
structure VecWin where
  geom : WinGeom
  bf : Bool
  inp : Stored
  weights : Option Stored
  bias : List Nat
  pos : Nat
  nPos : Nat
  chan : Nat
  nChan : Nat
  deriving DecidableEq, Repr

/-- The optimiser step of R103: what it leaves (0 w, 1 m, 2 v), Adam or SGD with momentum (`b1` is then mu),
the hyperparameters as FP32 codes, the step count, LOSS_SHIFT and the tensors W, M, V and G. -/
structure OptStep where
  out : Nat
  sgd : Bool
  b1 : Nat
  b2 : Nat
  eps : Nat
  lr : Nat
  wd : Nat
  t : Nat
  lossShift : Nat
  w : Stored
  m : Stored
  v : Stored
  g : Stored
  deriving DecidableEq, Repr

/-- What the vector engine computes (R79, R103, R155 to R159), row by row: rows of a stored tensor widened on
entry, constants of the schedule as FP32 codes, and the operations; `bf` selects BF16 mode. Where one operand has a single column it meets every column of the other. -/
inductive VecExpr where
  | load (bf : Bool) (t : Stored)
  | const (rows : List (List Nat))
  | add (bf : Bool) (x y : VecExpr)
  | mul (bf : Bool) (x y : VecExpr)
  | fma (bf : Bool) (x y z : VecExpr)
  | div (bf : Bool) (x y : VecExpr)
  | sqrt (bf : Bool) (x : VecExpr)
  /-- 0 exp, 1 log, 2 tanh, 3 sigmoid, 4 the erf form of GELU, 5 reciprocal square root. -/
  | trans (f : Nat) (bf : Bool) (x : VecExpr)
  /-- The sum of each row in the fixed pairwise tree (R79). -/
  | sum (bf : Bool) (x : VecExpr)
  | win (w : VecWin)
  | opt (o : OptStep)
  /-- The loss gradient times 2^LOSS_SHIFT (R102). -/
  | lossScale (shift : Nat) (x : VecExpr)
  deriving DecidableEq, Repr

/-- One accumulator block: its number, its initialisation (zero, or one bias for each column) and its
passes in the order of the placement (R77, R78). -/
structure AccBlk where
  blk : Nat
  bias : Option (List Nat)
  passes : List MatPass
  deriving DecidableEq, Repr

/-- A partial sum of an output to which `need` slots contribute (R124): the output, and the logical cluster and
schedule slot that contribute. -/
structure PartOf where
  out : Nat
  lc : Nat
  slot : Nat
  need : Nat
  deriving DecidableEq, Repr

/-- What a writeback writes: an accumulator block of up to 64 rows and columns, or two adjacent ones
side by side for groups of 128 (R78), whole or as a partial sum, or rows of results of the vector engine. -/
inductive WbSrc where
  | acc (fam : Fam) (blks : List AccBlk) (part : Option PartOf)
  | vec (e : VecExpr)
  deriving DecidableEq, Repr

/-- Statistic extents (R86); the elements of the extent outside this writeback come with it. -/
inductive Extent where
  | group
  | channel (others : List (List Nat))
  | tensor (others : List Nat)
  deriving DecidableEq, Repr

/-- Output conversions (Table 5 of chapter 03). -/
inductive Conv where
  | f32 | bf16 | fp16 | e5m2 | e4m3
  | zq (w g : Nat) (ext : Extent)
  | i2f
  | i32
  | requant (w : Nat) (mult : List Nat) (shift : Nat)
  deriving DecidableEq, Repr

/-- The tensor of a training job that a writeback writes (Table 12 of chapter 03): none of them, gradients, the
moments, the master weights, the candidate working weights. -/
inductive TrainRole where
  | other | grad | mom1 | mom2 | master | cand
  deriving DecidableEq, Repr

/-- Where a writeback goes: DRAM, or the SRAM of tile `unit` of the cluster (13 is cluster SRAM).
Rows lie `pitch` bytes apart. A ZQ tensor has a data and a scale stream: `scale` is the scale stream,
row r starts at group `first + r × pitch` and the tensor holds `groups` groups. -/
structure WbDest where
  unit : Option Nat
  base : Nat
  pitch : Nat
  scale : Nat
  first : Nat
  groups : Nat
  role : TrainRole
  deriving DecidableEq, Repr

/-- A block pair that a DMA engine or a tile address generator brings into use (R96, R100): its job, the tiles
that are to receive it in slot order (none for the vector engine alone), the DMA engine, or none for an address
generator and then its physical tile, the transfer descriptor, the block of the tensor, and for a DMA engine the
SRAM unit and the places that the data block and the scale block go to. -/
structure PairFetch where
  job : Nat
  tiles : List Nat
  dma : Option Nat
  gen : Nat
  src : Streams
  blk : Nat
  dst : Option (Nat × Nat × Nat)
  deriving DecidableEq, Repr

/-- What a sensor port receives (Table 4 of chapter 08): CSI frame start, long packet and frame end,
an Ethernet frame from destination address to last payload byte, a CAN frame, an ISOBUS message or
its abort (ISO 11783-3 transport taken as received), and a packet with an unusable header or FCS. -/
inductive Ingress where
  | csiFs (port vc frame : Nat)
  | csiPkt (port vc dt : Nat) (data : List Byte) (crcErr eccFix : Bool)
  | csiFe (port vc frame : Nat)
  | eth (mac : Nat) (frame : List Byte)
  | can (ctl id : Nat) (ide : Bool) (dlc flags : Nat) (data : List Byte)
  | iso (ctl id pgn : Nat) (data : List Byte)
  | isoAbort (ctl pgn : Nat)
  | bad (csi : Bool) (port : Nat)
  deriving DecidableEq, Repr


/-- A part of a window of a layer's output (R316): rows of a stored tensor on a cluster. -/
structure WinPart where
  cl : Nat
  t : Stored
  deriving DecidableEq, Repr

/-- A corridor rectangle of PATH (R323): centre, length, width and heading, FP32 codes. -/
structure Corridor where
  cx : Nat
  cy : Nat
  len : Nat
  wid : Nat
  head : Nat
  deriving DecidableEq, Repr

/-- What a debug action reaches (R340): a slot of a copy of a program at an instruction position, copy B's matching
slot at the position of the oldest action logged, or a Skink core (0 A, 1 B, 2 C). -/
inductive DbgTarget where
  | slot (prog lc slot pos : Nat) (copyB : Bool)
  | replay (prog : Nat)
  | skink (core : Nat)
  deriving DecidableEq, Repr

/-- A posted write (R373): source device and entry, owner, target device and port, egress kind
plus 16 × ingress kind, identifier, PRIO, FD and BRS, DLC, ingress port and timestamp, data. -/
structure Posted where
  src : Nat
  entry : Nat
  tenant : Nat
  dev : Nat
  port : Nat
  kind : Nat
  id : Nat
  prio : Nat
  flags : Nat
  dlc : Nat
  inPort : Nat
  ts : Nat
  data : List Byte
  deriving DecidableEq, Repr

/-- A link between two chain members and its LINKDLY. -/
structure ChLink where
  a : Nat
  b : Nat
  dly : Nat
  deriving DecidableEq, Repr

/-- What the far end of a Svajor link tells in IDENTIFY (R375). -/
structure ChainPeer where
  part : Nat
  chainId : Nat
  role : Nat
  member : Bool
  id : Nat
  epoch : Nat
  reqId : Nat
  deriving DecidableEq, Repr

/-- A route generation as the master distributes it (R381): generation, chain latency, master, the
identifier of this device while it is a member, every member with its role, and this device's routes. -/
structure ChainGen where
  gen : Nat
  lat : Nat
  master : Nat
  me : Option Nat
  members : List (Nat × Nat)
  routes : List (Nat × Nat)
  deriving DecidableEq, Repr

/-- A join (R383): the request as it reaches the master, through member `via` (at `port` where that is the master), or
the master's refusal as it reaches the joining device. -/
inductive JoinMsg where
  | request (via port dly chainId role epoch reqId st : Nat)
  | refused (reason : Nat)
  deriving DecidableEq, Repr

/-- A DRAM error met by a read or by the scrub (R201): 64-byte block, whether it cannot be corrected, bank
and row of its stack, and every block of that row (the row geometry is not given, log 15). -/
structure DramErr where
  blk : Nat
  unc : Bool
  bank : Nat
  row : Nat
  blocks : List Nat
  deriving DecidableEq, Repr

/-- A host write to the doorbell BAR (BAR2, R174): offset, size in bytes, and value. -/
structure DoorWrite where
  off : Nat
  size : Nat
  val : Nat
  deriving DecidableEq, Repr

/-- The device blocks that make DRAM accesses of their own (Table 4 of chapter 07); a program-store fetch is for a
program. -/
inductive DevBlock where
  | sec | pmc | sch | ccc | scrub
  | storeFetch (prog : Nat)
  deriving DecidableEq, Repr

/-- Who makes a DRAM access (Table 4 of chapter 07): work of a job on a cluster, by copy A (0) or B (1), or
a device block, on behalf of a tenant or of none. -/
inductive DramSrc where
  | work (job cl copy : Nat)
  | block (b : DevBlock) (tenant : Option Nat)
  deriving DecidableEq, Repr

/-- A demand read, a speculative or prefetch read (R212), or a write. -/
inductive DramOp where
  | read (n : Nat)
  | ahead (n : Nat)
  | write (data : List Byte)
  deriving DecidableEq, Repr

/-- Who holds a granule of cluster SRAM: nobody, a program by its handle, a reservation by its place among
the loads. -/
inductive GranHolder where
  | none | prog (h : Nat) | load (i : Nat)
  deriving DecidableEq, Repr

/-- An error in tile or cluster SRAM: tile (global number) and sub-array, or cluster and granule; row and
column; whether it cannot be corrected; the job it meets; the holder of the granule. -/
structure SramErr where
  clus : Bool
  unit : Nat
  part : Nat
  row : Nat
  col : Nat
  unc : Bool
  job : Option Nat
  holder : GranHolder
  deriving DecidableEq, Repr

/-- Temperatures in °C: for each cluster its tile and fabric sensors, for each compute die and each edge die
its fabric sensors, for each stack; and for each compute die the factor in 64ths that the PMC estimates would
hold TTHROT. -/
structure Temps where
  clusters : List (List Int)
  dies : List (List Int)
  edges : List (List Int)
  nHbm : List Int
  hold : List Nat
  deriving DecidableEq, Repr

/-- An error-injection item that failed (Table 6 of chapter 12): its bit, the island of the failing unit, and
the unit by kind and instance of Tables 7 and 8 of chapter 15 where it is of such a kind. -/
structure BistFail where
  item : Nat
  kind : Nat
  inst : Nat
  unit : Option (Nat × Nat)
  deriving DecidableEq, Repr

/-- The commands of the block, one for each row of the opcode table. -/
inductive Instr where
  /-- WRITE_PACKET (R42). A host xSPI transaction carries one or more whole command packets into the port's input buffer. -/
  | writePacket (p : Port) (ph : CmdPhase) (data : List Byte)
  /-- READ_REPLY (R44). A host transaction reads whole reply and event packets in FIFO order, then fill bytes. -/
  | readReply (p : Port) (ph : CmdPhase) (n : Nat)
  /-- READ_PORT_STATUS (R42). A host transaction reads the 8-byte port status. -/
  | readPortStatus (p : Port) (ph : CmdPhase)
  /-- PORT_RESET (R45). The port's buffers are emptied, its session is closed, awaited completions are counted as lost and CMD_HPn_CNT is cleared. -/
  | portReset (p : Port) (ph : CmdPhase)
  /-- SESSION_OPEN (R49). Opens a normal-world or secure-world session on the port and sets the expected sequence. -/
  | sessionOpen (h : Hdr) (ps : List Byte)
  /-- SESSION_CLOSE (R49). Closes the port's session; awaited completions are discarded. -/
  | sessionClose (h : Hdr) (ps : List Byte)
  /-- NOP (R66). Replies OK and echoes its parameters. -/
  | nop (h : Hdr) (ps : List Byte)
  /-- DEV_START (R58). Moves the device from READY to RUN, or to DEGRADED when a unit is retired with no spare. -/
  | devStart (h : Hdr) (ps : List Byte)
  /-- DEV_STOP (R59). Stops dispatch and ingest, unless a control loop is enabled. -/
  | devStop (h : Hdr) (ps : List Byte)
  /-- DEV_STOP_COMPLETE (R59). When the last running job has committed or ended, the device enters READY and DEV_STOP completes. -/
  | devStopComplete
  /-- DEV_RESET (R62). Checks CONFIRM and replies ACCEPTED, with no completion to follow. -/
  | devReset (h : Hdr) (ps : List Byte)
  /-- DEV_RESET_INIT (R62). When the reply has been read, or 100 µs after it was placed, INIT begins: ports reset, locks released, all configuration lost. -/
  | devResetInit
  /-- SERVICE_ENTER (R57). Arms SERVICE in AWAIT_FW, or enters SERVICE from READY on HP0 or from SAFE on HP1. -/
  | serviceEnter (h : Hdr) (ps : List Byte)
  /-- SERVICE_EXIT (R57). Leaves a SERVICE state not entered from SAFE and returns to READY. -/
  | serviceExit (h : Hdr) (ps : List Byte)
  /-- REG_READ (R67). Reads 1 to 256 register words. -/
  | regRead (h : Hdr) (ps : List Byte)
  /-- REG_WRITE (R67). Writes 1 to 256 register words after the world, port and lock checks, for registers with no row of their own. -/
  | regWrite (h : Hdr) (ps : List Byte)
  /-- REG_MODIFY (R67). Performs an indivisible masked read-modify-write of one register word. -/
  | regModify (h : Hdr) (ps : List Byte)
  /-- EV_LOST (R68). When room returns after discards, one event reports the count of events discarded and how many were safety events. -/
  | evLost (p : Port)
  /-- VIN_VALID (R391). VIN rises through the valid threshold and the device enters INIT. -/
  | vinValid
  /-- VIN_LOSS (R391). VIN stays below the falling threshold for 2 µs; the device enters OFF and its islands and rails stop. -/
  | vinLoss
  /-- AWAIT_FW_ENTRY (R31). Once rails are up, the reference has been valid for 100 µs and fuses and Larder are read, the device enters AWAIT_FW and drives the ports. -/
  | awaitFwEntry
  /-- SELF_TEST_END (R61). When the tests are done, the device enters READY, or SERVICE if armed, or SAFE on a latent fault. -/
  | selfTestEnd (fails : List BistFail)
  /-- REF_INVALID (R32). Loss of the reference is detected; the FLLs and time bases enter hold and REF_LOST is set. -/
  | refInvalid (missing range : Bool)
  /-- REF_RESTORED (R33). After the reference has been valid for 100 µs the FLLs relock, HOLD_ACTIVE clears and an event is placed. -/
  | refRestored
  /-- HOLD_LIMIT_EXPIRY (R35). When the hold time counted in RUN or DEGRADED exceeds HOLD_MS, SAFE is latched with cause REFHOLD. -/
  | holdLimitExpiry
  /-- TENANT_OPEN (R70). Opens a CLOSED tenant with an empty partition. -/
  | tenantOpen (h : Hdr) (ps : List Byte)
  /-- TENANT_QUIESCE (R70). Makes the tenant QUIESCED at its turn and stops its dispatch. -/
  | tenantQuiesce (h : Hdr) (ps : List Byte)
  /-- TENANT_QUIESCE_DRAINED (R70). When the tenant's running jobs have committed or ended, TENANT_QUIESCE completes and DRAINING clears. -/
  | tenantQuiesceDrained (t : Nat)
  /-- TENANT_RESUME (R69). Returns a QUIESCED tenant to OPEN and resumes dispatch. -/
  | tenantResume (h : Hdr) (ps : List Byte)
  /-- TENANT_RESET (R69). Returns a FAULTED tenant to OPEN and discards its queued jobs. -/
  | tenantReset (h : Hdr) (ps : List Byte)
  /-- TENANT_CLOSE (R70). Starts closing the tenant: dispatch stops, queued jobs are cancelled and pending loads are abandoned. -/
  | tenantClose (h : Hdr) (ps : List Byte)
  /-- TENANT_CLOSE_DRAINED (R70). When the running jobs have drained, the tenant's queues, programs, pages and contexts are released and it becomes CLOSED. -/
  | tenantCloseDrained (t : Nat)
  /-- TENANT_STATUS (R70). Returns the tenant's state, queue mask, fault cause and flags. -/
  | tenantStatus (h : Hdr) (ps : List Byte)
  /-- QUEUE_CREATE (R71). Creates a queue and reserves DEPTH job contexts. -/
  | queueCreate (h : Hdr) (ps : List Byte)
  /-- QUEUE_DESTROY (R72). Destroys an empty queue and frees its job contexts. -/
  | queueDestroy (h : Hdr) (ps : List Byte)
  /-- QUEUE_STATUS (R71). Returns the queue's class, depth and job counts. -/
  | queueStatus (h : Hdr) (ps : List Byte)
  /-- WBANK_STATUS (R109). Returns the weight-bank state of a program. -/
  | wbankStatus (h : Hdr) (ps : List Byte)
  /-- WBANK_OPEN (R105). Opens a FREE standby bank for writing by the host. -/
  | wbankOpen (h : Hdr) (ps : List Byte)
  /-- WBANK_SUBMIT (R105). Submits the host-written candidate for evaluation. -/
  | wbankSubmit (h : Hdr) (ps : List Byte)
  /-- WBANK_ABANDON (R109). Abandons the candidate and returns the standby bank to FREE. -/
  | wbankAbandon (h : Hdr) (ps : List Byte)
  /-- EVAL_MS_EXPIRY (R105). When EVAL_MS elapses the evaluation ends with reason TIMEOUT and the bank returns to FREE. -/
  | evalMsExpiry (prog : Nat)
  /-- WRITEBACK (R92). Accumulator blocks are written out through an output conversion, with saturation flags. -/
  | writeback (job cl tile : Nat) (src : WbSrc) (conv : Conv) (dest : WbDest)
  /-- BLOCK_PAIR_FETCH (R96). A DMA engine or address generator brings a scale and data block pair into use. -/
  | blockPairFetch (cl : Nat) (fs : List PairFetch)
  /-- PROG_LOAD (R119). Checks and binds an image, reserves resources and starts copying it. -/
  | progLoad (h : Hdr) (ps : List Byte)
  /-- PROG_LOAD_COMPLETE (R134). When copying ends, the load completes with a handle and its bindings. -/
  | progLoadComplete (n : Nat)
  /-- PROG_FITCHECK (R123). Runs the load checks without reserving anything and reports the outcome. -/
  | progFitcheck (h : Hdr) (ps : List Byte)
  /-- PROG_UNLOAD (R137). Starts unloading a program, discarding its queued jobs when DISCARD is set. -/
  | progUnload (h : Hdr) (ps : List Byte)
  /-- PROG_UNLOAD_DRAINED (R137). When no job of the program remains, its resources and banks are freed and EV_PROG reports UNLOADED. -/
  | progUnloadDrained (prog : Nat)
  /-- PROG_REPLACE (R138). Starts replacing a program's image, side by side or in place. -/
  | progReplace (h : Hdr) (ps : List Byte)
  /-- PROG_REPLACE_DRAINED (R138). In MODE 1, once in-flight jobs have drained, the new image's fit check runs, or the old program is restored. -/
  | progReplaceDrained (prog : Nat)
  /-- PROG_REPLACE_SWITCH (R138). When the new image is fully copied, later jobs run it and the generation rises. -/
  | progReplaceSwitch (prog : Nat)
  /-- PROG_INFO (R135). Returns a program's information, or the supported formats and store space. -/
  | progInfo (h : Hdr) (ps : List Byte)
  /-- HALO_ENTRY_WRITE (R150). A producer that holds a space credit writes a step's halo rows and passes a data credit. -/
  | haloEntryWrite (job idx copy step waitUs : Nat) (rows : List Byte)
  /-- HALO_ENTRY_READ (R152). A consumer that holds a data credit checks STEP and JOBTAG, copies the rows and returns the space credit. -/
  | haloEntryRead (job idx copy step waitUs unit off : Nat)
  /-- COLANDER_CALL (R168). A slot issues a Colander call, which queues by class and may pre-empt a best-effort call. -/
  | colanderCall (job cl : Nat) (desc : List Byte)
  /-- COLANDER_CALL_DONE (R164). The call finishes decode, selection and suppression and writes its output area. -/
  | colanderCallDone (die : Nat)
  /-- QUEUE_RINGS (R173). Turns a command-fed queue into a ring-fed queue. -/
  | queueRings (h : Hdr) (ps : List Byte)
  /-- SQ_TAIL_WRITE (R175). A host doorbell write of SQ_TAIL; an overrun faults the tenant with RINGOVR. -/
  | sqTailWrite (w : DoorWrite)
  /-- CQ_HEAD_WRITE (R176). A host doorbell write of CQ_HEAD frees completion-record places. -/
  | cqHeadWrite (w : DoorWrite)
  /-- SQ_ENTRY_TAKE (R175). The device takes a submission-ring entry when a job context and a completion place are free. -/
  | sqEntryTake (tenant queue : Nat)
  /-- JOB_SUBMIT (R177). Submits a job descriptor to a command-fed queue. -/
  | jobSubmit (h : Hdr) (ps : List Byte)
  /-- JOB_CANCEL (R196). Cancels a queued, running or pre-empted job with FAULT CANCELLED. -/
  | jobCancel (h : Hdr) (ps : List Byte)
  /-- JOB_STATUS (R196). Returns a job's state and pre-emption count. -/
  | jobStatus (h : Hdr) (ps : List Byte)
  /-- PARTITION_SET (R194). Replaces the tenant's partition, allowances, BWMIN and LCSHARE. -/
  | partitionSet (h : Hdr) (ps : List Byte)
  /-- PARTITION_GET (R194). Returns the tenant's partition in force. -/
  | partitionGet (h : Hdr) (ps : List Byte)
  /-- BATCH_JOIN (R192). Queues a member join for the next step boundary. -/
  | batchJoin (h : Hdr) (ps : List Byte)
  /-- BATCH_LEAVE (R192). Queues a member leave for the next step boundary. -/
  | batchLeave (h : Hdr) (ps : List Byte)
  /-- BATCH_STATUS (R196). Returns a sequence program's members, free pages and committed steps. -/
  | batchStatus (h : Hdr) (ps : List Byte)
  /-- JOB_DISPATCH (R182). The dispatcher starts a ready job on its tiles by class, share and order, and binds it to a weight bank. -/
  | jobDispatch
  /-- YIELD_POINT_STOP (R185). A slot under pre-emption request stops at its yield point and begins saving its context. -/
  | yieldPointStop (job tile : Nat) (reads : List (Nat × Nat)) (writes : List Nat)
  /-- CONTEXT_SAVE_DONE (R185). A slot's context is saved and the waiting latency-critical job starts on that tile. -/
  | contextSaveDone (job tile : Nat)
  /-- JOB_RESUME (R186). A pre-empted job resumes on its own tiles and receives any held remote replies. -/
  | jobResume
  /-- REMOTE_REPLY (R187). A remote read reply arrives and is delivered, held in a park entry, or discarded. -/
  | remoteReply (job port tile token : Nat) (data : List Byte)
  /-- REMOTE_WRITE_DONE (R187). An outstanding remote write completes, or fails and ends its job with FAULT REMOTE. -/
  | remoteWriteDone (job token : Nat) (ok : Bool)
  /-- PARK_TIMEOUT (R187). After PARK_US a park entry is freed and PARKEXP is counted. -/
  | parkTimeout (job token : Nat)
  /-- TLIMIT_EXPIRY (R190). A job exceeding TLIMIT_US stops at its next yield point and ends with TIMEOUT. -/
  | tlimitExpiry (job : Nat)
  /-- JOB_SLOTS_FINISHED (R188). Every slot of a job has finished; the job enters COMMITTING and is checked or committed. -/
  | jobSlotsFinished (job : Nat)
  /-- LO_WORD_READ (R197). A read of a tenant accounting _LO word latches the matching _HI word. -/
  | loWordRead (h : Hdr) (tenant word : Nat)
  /-- SCH_TNN_ACTL_CLR (R197). Writing CLR clears every accounting word of the tenant except VT. -/
  | schTnnActlClr (h : Hdr) (tenant : Nat)
  /-- SCH_EPOCH_LO_READ (R191). A read of SCH_EPOCH_LO latches SCH_EPOCH_HI. -/
  | schEpochLoRead (h : Hdr)
  /-- DRAM_TRANSACTION (R206). A DRAM access is checked against page ownership and world, then served or cached. -/
  | dramTransaction (src : DramSrc) (addr label : Nat) (op : DramOp) (dst : Option (Nat × Nat)) (async : Bool) (err : Option DramErr)
  /-- HOST_BAR4_ACCESS (R200). A host access through BAR4 is checked and served, or completes as Unsupported Request. -/
  | hostBar4Access (ep addr : Nat) (op : DramOp) (err : Option DramErr)
  /-- PATROL_SCRUB (R201). The controller reads and corrects every location once in 24 hours. -/
  | patrolScrub (errs : List DramErr)
  /-- MEM_ASSIGN (R209). Assigns unowned pages to a tenant with flags. -/
  | memAssign (h : Hdr) (ps : List Byte)
  /-- MEM_RELEASE (R209). Releases a tenant's unlocked pages. -/
  | memRelease (h : Hdr) (ps : List Byte)
  /-- MEM_FLAGS (R209). Sets PREF and SIDEFX of pages, and may set LOCK. -/
  | memFlags (h : Hdr) (ps : List Byte)
  /-- MEM_QUERY (R209). Returns ownership-table entries. -/
  | memQuery (h : Hdr) (ps : List Byte)
  /-- MEM_COMMAND_DONE (R209). Zeroing and cache drops finish and the ownership command completes. -/
  | memCommandDone (n : Nat)
  /-- BWR_PERIOD (R217). Every 256 ns the regulator samples queue occupancy and sets tenant budgets and queue shares. -/
  | bwrPeriod (q iso dev : Nat) (tens : List (Nat × Nat × Bool))
  /-- BWR_TNN_BLO_READ (R220). A read of BWR_Tnn_BLO latches BWR_Tnn_BHI. -/
  | bwrTnnBloRead (h : Hdr) (tenant : Nat)
  /-- STREAM_OPEN (R227). Binds a stream context to a port, filter and buffers, in IDLE. -/
  | streamOpen (h : Hdr) (ps : List Byte)
  /-- STREAM_CLOSE (R231). Closes a stream context and discards any unit in progress. -/
  | streamClose (h : Hdr) (ps : List Byte)
  /-- STREAM_START (R230). Starts ingest on a context, which enters SEEKING when ingest runs. -/
  | streamStart (h : Hdr) (ps : List Byte)
  /-- STREAM_STOP (R230). Stops ingest; the context goes IDLE and a unit in progress is truncated. -/
  | streamStop (h : Hdr) (ps : List Byte)
  /-- STREAM_STATUS (R230). Returns a stream context's state and counts. -/
  | streamStatus (h : Hdr) (ps : List Byte)
  /-- UNIT_START (R231). A unit start arrives; it takes a buffer, or is dropped, and the context moves to LIVE. -/
  | unitStart (f : Ingress) (err : Int)
  /-- STREAM_PACKET (R226). A packet of a unit is written with a header and timestamp, or discarded in SEEKING or STALLED. -/
  | streamPacket (f : Ingress) (err : Int)
  /-- UNIT_END (R229). A unit ends and its descriptor is written OK or TRUNCATED, then TAIL advances. -/
  | unitEnd (f : Ingress) (err : Int)
  /-- STREAM_HOLD_EXPIRY (R231). HOLD elapses without data or a unit start; the context enters STALLED and truncates a unit in progress. -/
  | streamHoldExpiry (ctx : Nat)
  /-- STREAM_DONE_WRITE (R228). A host doorbell write of DONE frees consumed descriptors. -/
  | streamDoneWrite (w : DoorWrite)
  /-- SNS_TNOW_LO_READ (R222). A read of SNS_TNOW_LO latches device time high word and fraction. -/
  | snsTnowLoRead (h : Hdr)
  /-- TIME_CFG (R243). Configures the two gPTP domains, preference, servo and AUTOSTEP. -/
  | timeCfg (h : Hdr) (ps : List Byte)
  /-- TIME_STATUS (R234). Returns the active domain, rate and per-domain status. -/
  | timeStatus (h : Hdr) (ps : List Byte)
  /-- TIME_STEP (R243). Steps device time forward in READY. -/
  | timeStep (h : Hdr) (ps : List Byte)
  /-- SYNC_RECEIVED (R234). A gPTP Sync of a configured domain is taken, updating validity, offset and the active domain. -/
  | syncReceived (mac domNum gm : Nat) (offset rate : Int)
  /-- SYNC_TIMEOUT (R234). When 3 × 2^LOGSYNC s pass without Sync, the domain stops being VALID and the active domain may change. -/
  | syncTimeout (dom : Nat)
  /-- ETH_LINK_LOSS (R234). Link loss on a domain's MAC makes the domain not VALID at once. -/
  | ethLinkLoss (mac : Nat)
  /-- DOMAIN_REVERT (R235). After PREF has been VALID for REVERT_S, it becomes the active domain again. -/
  | domainRevert
  /-- PULSE_ARM (R240). Arms a time pulse output programme. -/
  | pulseArm (h : Hdr) (ps : List Byte)
  /-- PULSE_CANCEL (R240). Cancels further edges of a pulse output. -/
  | pulseCancel (h : Hdr) (ps : List Byte)
  /-- PULSE_EDGE (R239). A programmed pulse edge reaches its device time and is driven. -/
  | pulseEdge (tpo : Nat)
  /-- CAPTURE_CFG (R241). Selects the edges a time capture input stamps. -/
  | captureCfg (h : Hdr) (ps : List Byte)
  /-- TCI_EDGE (R241). A selected edge on a capture input is stamped into its FIFO, or lost when the FIFO is full. -/
  | tciEdge (tci : Nat) (rising : Bool) (err : Int)
  /-- LAUNCH_CFG (R242). Gives a MAC a timed-launch ring. -/
  | launchCfg (h : Hdr) (ps : List Byte)
  /-- LTAIL_WRITE (R242). A host doorbell write of LTAIL adds launch entries. -/
  | ltailWrite (w : DoorWrite)
  /-- LAUNCH_ENTRY (R242). The head launch entry is sent at its LTIME, or marked expired, late or refused, and LHEAD advances. -/
  | launchEntry (mac : Nat) (busy : Bool) (err : Int)
  /-- FUS_MAP_CFG (R244). Configures a stream's clock map and clears its pairs. -/
  | fusMapCfg (h : Hdr) (ps : List Byte)
  /-- FUS_MAP_STATUS (R245). Returns a clock map's state and fit. -/
  | fusMapStatus (h : Hdr) (ps : List Byte)
  /-- FUS_OPEN (R264). Opens a fusion context with its grid and tracking parameters. -/
  | fusOpen (h : Hdr) (ps : List Byte)
  /-- FUS_CLOSE (R264). Stops new calls on a fusion context. -/
  | fusClose (h : Hdr) (ps : List Byte)
  /-- FUS_CLOSE_DONE (R264). When no call is running the context's state is freed and FUS_CLOSE completes. -/
  | fusCloseDone (ctx : Nat)
  /-- FUS_SENSOR_SET (R264). Queues a sensor configuration as a pending change. -/
  | fusSensorSet (h : Hdr) (ps : List Byte)
  /-- FUS_STATUS (R260). Returns a fusion context's generation, track counts and last TV. -/
  | fusStatus (h : Hdr) (ps : List Byte)
  /-- FUS_SENSOR_STATUS (R263). Returns a sensor's report record at the committed generation. -/
  | fusSensorStatus (h : Hdr) (ps : List Byte)
  /-- FUS_CALIB_RESET (R256). Queues a reset of sensor corrections and CONF as a pending change. -/
  | fusCalibReset (h : Hdr) (ps : List Byte)
  /-- FUSION_CALL (R261). A slot issues a fusion call that waits for earlier jobs on its context and for its engine. -/
  | fusionCall (job cl copy : Nat) (desc : List Byte)
  /-- FUSION_CALL_START (R262). The fusion engine starts a call after its waits. -/
  | fusionCallStart (die : Nat)
  /-- FUSION_CALL_DONE (R262). The call finishes placement, contested cells, refinement and tracks and writes its outputs. -/
  | fusionCallDone (die : Nat)
  /-- RAS_OPEN (R281). Opens a render context with its tile-list pool. -/
  | rasOpen (h : Hdr) (ps : List Byte)
  /-- RAS_CLOSE (R281). Stops new passes on a render context. -/
  | rasClose (h : Hdr) (ps : List Byte)
  /-- RAS_CLOSE_DONE (R281). When no pass is running or pre-empted, RAS_CLOSE completes. -/
  | rasCloseDone (rctx : Nat)
  /-- RAS_STATUS (R281). Returns a render context's status, flushes and pool use. -/
  | rasStatus (h : Hdr) (ps : List Byte)
  /-- RENDER_PASS_ISSUE (R275). A slot issues a render pass that waits for earlier passes and overlapping locks. -/
  | renderPassIssue (job cl : Nat) (desc : List Byte)
  /-- RENDER_PASS_START (R267). A pass checks its inputs, takes its locks and runs fetch, shading, binning and tile rendering. -/
  | renderPassStart (rctx : Nat)
  /-- RENDER_PASS_DONE (R274). The pass's last store completes and its locks are released. -/
  | renderPassDone (rctx : Nat)
  /-- DISP_CFG (R278). Configures a display's timing and starts link training. -/
  | dispCfg (h : Hdr) (ps : List Byte)
  /-- DISP_TRAINING_DONE (R278). Link training succeeds and scanout runs, or fails with TIMEOUT after 100 ms. -/
  | dispTrainingDone (disp : Nat) (ok : Bool)
  /-- DISP_OFF (R280). Turns a display output off. -/
  | dispOff (h : Hdr) (ps : List Byte)
  /-- DISP_FLIP (R280). Latches a new plane surface for the next eligible blanking. -/
  | dispFlip (h : Hdr) (ps : List Byte)
  /-- DISP_STATUS (R283). Returns a display's state, link, frame count and underruns. -/
  | dispStatus (h : Hdr) (ps : List Byte)
  /-- VBLANK (R280). At the start of vertical blanking, latched flips are applied. -/
  | vblank (disp : Nat)
  /-- UNDERRUN (R279). Scanout cannot deliver some pixels (column, row) in time; they show the border colour and are counted. -/
  | underrun (disp : Nat) (pixels : List (Nat × Nat))
  /-- HPD_CHANGE (R283). A hot-plug level change is reported. -/
  | hpdChange (disp : Nat) (plugged : Bool)
  /-- DISP_LINK_LOSS (R283). A display link is lost and retrains with the configuration in force. -/
  | dispLinkLoss (disp : Nat)
  /-- CTL_ASSIGN (R294). Assigns or releases a control engine to a tenant. -/
  | ctlAssign (h : Hdr) (ps : List Byte)
  /-- CTL_BANK_WRITE (R294). Writes loop standby bank entries. -/
  | ctlBankWrite (h : Hdr) (ps : List Byte)
  /-- CTL_BANK_READ (R294). Returns a loop's live or standby entry. -/
  | ctlBankRead (h : Hdr) (ps : List Byte)
  /-- CTL_SWAP (R294). Checks the named loops' standby entries and schedules an atomic swap. -/
  | ctlSwap (h : Hdr) (ps : List Byte)
  /-- CTL_ENABLE (R297). Enables loops from the first tick at least 2 µs after its turn. -/
  | ctlEnable (h : Hdr) (ps : List Byte)
  /-- CTL_DISABLE (R297). Disables loops from the first tick at least 2 µs after its turn. -/
  | ctlDisable (h : Hdr) (ps : List Byte)
  /-- CTL_SETPT (R289). Writes setpoint registers, which take effect at one tick. -/
  | ctlSetpt (h : Hdr) (ps : List Byte)
  /-- SETPOINT_PAGE_WRITE (R289). A PCIe write to an engine's setpoint page updates a setpoint register. -/
  | setpointPageWrite (w : DoorWrite)
  /-- CTL_STATUS (R295). Returns loop states, flags, causes and group winners. -/
  | ctlStatus (h : Hdr) (ps : List Byte)
  /-- CTL_IO_CFG (R301). Configures a PWM, sigma-delta, encoder or SENT channel. -/
  | ctlIoCfg (h : Hdr) (ps : List Byte)
  /-- CTL_TRACE_CFG (R299). Arms an engine's trace with nodes, trigger and divider. -/
  | ctlTraceCfg (h : Hdr) (ps : List Byte)
  /-- CTL_TRACE_DUMP (R300). Starts writing a done trace to the tenant's pages. -/
  | ctlTraceDump (h : Hdr) (ps : List Byte)
  /-- CTL_TRACE_DUMP_DONE (R300). The trace has been written and the dump completes. -/
  | ctlTraceDumpDone (ce : Nat)
  /-- ENGINE_TICK (R285). At each 1 µs tick the engine snapshots its nodes and evaluates the loops that sample. -/
  | engineTick (ce : Nat) (skip : Bool)
  /-- FOLLOWING_ERROR_TIMEOUT (R295). The following-error timer reaches FETIME and sets FEOVER or trips the loop. -/
  | followingErrorTimeout (ce loop : Nat)
  /-- TRACE_DONE (R299). After the trigger and 8,192 − PRE further samples, recording stops. -/
  | traceDone (ce : Nat)
  /-- PWM_PERIOD (R302). A PWM period begins and latches its compare value from the source node. -/
  | pwmPeriod (pwm : Nat)
  /-- SIGMA_DELTA_OUTPUT (R303). A sinc3 decimation completes and updates the channel node. -/
  | sigmaDeltaOutput (sd : Nat) (stream : List Bool)
  /-- SD_CLOCK_LOSS (R303). 1 µs without a sigma-delta clock edge sets the channel fault CLKLOSS. -/
  | sdClockLoss (sd : Nat)
  /-- ENC_ILLEGAL_TRANSITION (R304). A simultaneous change of A and B sets the fault ILLEGAL and leaves the count unchanged. -/
  | encIllegalTransition (enc : Nat)
  /-- ENC_INDEX (R304). The first index rising edge clears the counter and sets HOMED. -/
  | encIndex (enc : Nat)
  /-- SENT_MESSAGE (R305). A SENT message is checked and updates the fast-channel nodes, or is discarded and counted. -/
  | sentMessage (enc sync : Nat) (ticks : List Nat)
  /-- SENT_TIMEOUT (R305). No valid SENT message within the timeout sets the fault SENTTOUT. -/
  | sentTimeout (enc : Nat)
  /-- CHANNEL_FAULT_CLEAR (R306). A W1C write clears a channel fault flag unless its cause persists. -/
  | channelFaultClear (h : Hdr) (isEnc : Bool) (ch : Nat)
  /-- SKK_ARM (R332). Arms or disarms the safe-state pins from HP1. -/
  | skkArm (h : Hdr) (ps : List Byte)
  /-- SKK_PROG_CFG (R320). Sets a safety program's coverage window, verdict limit, retries, eligibility and checker. -/
  | skkProgCfg (h : Hdr) (ps : List Byte)
  /-- SKK_PROG_STATUS (R328). Returns a safety program's coverage and failure status. -/
  | skkProgStatus (h : Hdr) (ps : List Byte)
  /-- SKK_SAFE_REQ (R333). Requests SAFE with cause REQUEST. -/
  | skkSafeReq (h : Hdr) (ps : List Byte)
  /-- SWEEP_DONE (R335). VALID has been cleared in the recent output headers, SWEEPDONE is set and EV_SAFE phase 2 is placed. -/
  | sweepDone
  /-- SKK_MBOX (R325). Writes 64 bytes for the checker from HP1 and counts the write. -/
  | skkMbox (h : Hdr) (ps : List Byte)
  /-- SKK_GOLDEN_NOW (R326). Makes a program's golden test eligible at once. -/
  | skkGoldenNow (h : Hdr) (ps : List Byte)
  /-- SKK_BIST_GET (R338). Returns the error-injection result and the first failing unit. -/
  | skkBistGet (h : Hdr) (ps : List Byte)
  /-- SKK_LTIME_LO_READ (R344). A read of SKK_LTIME_LO latches SKK_LTIME_HI. -/
  | skkLtimeLoRead (h : Hdr)
  /-- KICK (R312). The checker restarts the Skink watchdog and, the first time, sets CHKRUN. -/
  | skKick
  /-- NEXT (R320). The checker takes the next queued frame-check request. -/
  | skNext
  /-- VERDICT (R320). The checker passes or fails a frame; a pass lets commit proceed and a fail invalidates the job. -/
  | skVerdict (prog jobseq : Nat) (pass : Bool)
  /-- READ (R207). The checker reads permitted job or frame data into Skink SRAM. -/
  | skRead (addr len dst : Nat)
  /-- PATH (R323). The checker counts occupied, contested and unknown cells in corridor rectangles. -/
  | skPath (grid thr : Nat) (rects : List Corridor)
  /-- DISPREG (R324). The checker programs a display CRC region. -/
  | skDispreg (disp region x y w h : Nat)
  /-- DISPCRC (R324). The checker reads a display region's CRC-64. -/
  | skDispcrc (disp region : Nat)
  /-- MBOX (R325). The checker reads the mailbox contents and count. -/
  | skMbox
  /-- TIME (R222). The checker reads device time. -/
  | skTime
  /-- SAFE (R333). The checker latches SAFE with cause CHECKER. -/
  | skSafe (detail : Nat)
  /-- VERDICT_TIMEOUT (R320). No verdict within VERDICT_US ends the frame with INVALID_OUTPUT, reason CHECK_LATE. -/
  | verdictTimeout (job : Nat)
  /-- WINDOW_CLOSE (R317). A copy B signature window closes and is compared with copy A's. -/
  | windowClose (job layer window : Nat) (a b : List WinPart) (diff : List (Nat × Byte)) (ckpt : Bool)
  /-- GOLDEN_ELIGIBLE (R326). GELIG_PCT of GWIN_MS after the last pass, the golden test becomes eligible. -/
  | goldenEligible (prog : Nat)
  /-- COVERAGE_DUE (R328). The due time passes without a pass; coverage lapses, or SAFE latches with LAPSELATCH. -/
  | coverageDue (prog : Nat)
  /-- PLACEMENT_DEADLINE (R329). A lost-placement record's deadline passes and SAFE latches with cause PLACEMENT. -/
  | placementDeadline (n : Nat)
  /-- CORE_DISSENT (R309). A Skink core dissents; it is masked, counted and resynchronised, or SAFE latches VOTER with no majority. -/
  | coreDissent (core : Nat) (majority : Bool)
  /-- SKINK_SRAM_ERROR (R311). A Skink SRAM error is corrected, or latches SAFE SKECC when uncorrectable. -/
  | skinkSramError (unc : Bool)
  /-- SKWDT_EXPIRY (R312). No KICK within SKWDT_MS latches SAFE with cause SKWDT. -/
  | skwdtExpiry
  /-- PIN_FEEDBACK_MISMATCH (R331). A pin readback differing for 1 µs latches SAFE with cause PINFB. -/
  | pinFeedbackMismatch
  /-- DEBUGGER_ATTACH (R339). An invasive debugger attaches; DEBUG is set and comparisons end. -/
  | debuggerAttach (kind inst : Nat) (secure : Bool)
  /-- DEBUG_ACTION (R340). In SERVICE, a debug action on copy A or Skink A is logged and replayed on the partners. -/
  | debugAction (tgt : DbgTarget) (off : Nat) (bytes : List Byte)
  /-- HEARTBEAT (R343). Every HBMS ms an EV_SKSTAT is placed on HP1. -/
  | heartbeat
  /-- FW_BEGIN (R347). Declares a bundle's total length and discards any partial bundle. -/
  | fwBegin (h : Hdr) (ps : List Byte)
  /-- FW_CHUNK (R347). Carries the next bytes of the bundle in order. -/
  | fwChunk (h : Hdr) (ps : List Byte)
  /-- FW_END (R347). Starts bundle verification. -/
  | fwEnd (h : Hdr) (ps : List Byte)
  /-- FW_VERIFY_DONE (R346). Verification ends; the device enters SELF_TEST or stays in AWAIT_FW with a REASON. -/
  | fwVerifyDone
  /-- FW_INFO (R348). Returns the interface revision, SVN and component digests. -/
  | fwInfo (h : Hdr) (ps : List Byte)
  /-- FW_LOG_READ (R351). Returns firmware log records. -/
  | fwLogRead (h : Hdr) (ps : List Byte)
  /-- FW_RESTART (R349). Restarts a named firmware processor. -/
  | fwRestart (h : Hdr) (ps : List Byte)
  /-- FW_WATCHDOG_EXPIRY (R349). A firmware processor's watchdog expires and the processor restarts alone. -/
  | fwWatchdogExpiry (proc : Nat)
  /-- FW_EXCEPTION (R349). An unrecoverable exception or memory error restarts the processor alone. -/
  | fwException (proc : Nat) (memory : Bool)
  /-- FW_RESTART_DONE (R350). The processor's restart ends; its accepted commands resume and EV_FWRESTART is placed. -/
  | fwRestartDone (proc : Nat)
  /-- FW_SVN_COMMIT (R360). Raises the SVN floor to the loaded bundle's SVN. -/
  | fwSvnCommit (h : Hdr) (ps : List Byte)
  /-- FW_SEC_CHALLENGE (R352). Returns a port-bound nonce valid for 100 ms. -/
  | fwSecChallenge (h : Hdr) (ps : List Byte)
  /-- FW_SEC_PROVE (R352). Checks the KMAC proof of the SSK over the nonce. -/
  | fwSecProve (h : Hdr) (ps : List Byte)
  /-- NONCE_EXPIRY (R352). A nonce's 100 ms validity ends. -/
  | nonceExpiry (p : Port) (proof : Bool)
  /-- PROVE_LOCKOUT_END (R352). The 10 s refusal period after 8 failed proofs ends. -/
  | proveLockoutEnd (p : Port)
  /-- FW_SSK_SET (R414). Provisions the session key SSK in the Larder. -/
  | fwSskSet (h : Hdr) (ps : List Byte)
  /-- FW_ATTEST (R359). Signs and returns an attestation statement. -/
  | fwAttest (h : Hdr) (ps : List Byte)
  /-- FW_ATTEST_CERT (R358). Returns the identity or attestation public key and its certifying signature. -/
  | fwAttestCert (h : Hdr) (ps : List Byte)
  /-- FW_JOURNAL_READ (R361). Returns change journal entries. -/
  | fwJournalRead (h : Hdr) (ps : List Byte)
  /-- FW_MCOUNTER (R360). Reads, or in the secure world increments, a monotonic user counter. -/
  | fwMcounter (h : Hdr) (ps : List Byte)
  /-- FW_INTKEY_BURN (R414). Burns the integrator key hash into one-time fuses. -/
  | fwIntkeyBurn (h : Hdr) (ps : List Byte)
  /-- JOURNAL_DRAIN (R361). SEC drains the hardware journal buffer to the Larder in order. -/
  | journalDrain
  /-- FWS_DBGEN_WRITE (R362). A write of the debug enables; clearing an enable detaches the debugger from that world. -/
  | fwsDbgenWrite (h : Hdr) (v : Nat)
  /-- GATEWAY_FRAME (R366). A frame entering the gateway is looked up, rate-limited, translated and forwarded or discarded. -/
  | gatewayFrame (f : Ingress) (err : Int)
  /-- POSTED_WRITE (R373). A posted write reaches its target device and is delivered, or fails and an error report is sent. -/
  | postedWrite (p : Posted)
  /-- ERROR_REPORT (R374). A far-side error report is received, recorded and counted. -/
  | errorReport (reason outport outdev ident idx tenant : Nat)
  /-- CAN_TX_TIMEOUT (R370). A frame waiting more than 1 ms in a CAN controller is discarded. -/
  | canTxTimeout (ctl : Nat)
  /-- TXTAIL_WRITE (R369). A host doorbell write of a gateway ring's TXTAIL submits frames. -/
  | txtailWrite (w : DoorWrite)
  /-- RXDONE_WRITE (R369). A host doorbell write of RXDONE frees receive slots. -/
  | rxdoneWrite (w : DoorWrite)
  /-- ADDRESS_CLAIM (R371). An ISO 11783-5 address-claim exchange sets or changes the claimed address. -/
  | addressClaim (ctl : Nat) (won : Bool)
  /-- C3_TIMEOUT (R372). A C3 packet waiting 1 ms at a hop is discarded. -/
  | c3Timeout (port : Nat)
  /-- CHAIN_PACKET_FORWARD (R378). A member forwards a transit packet between two of its Svajor ports. -/
  | chainPacketForward (gen dst : Nat) (upper : Bool) (post : Option Posted)
  /-- FLIT_RECEIVED (R376). A flit arrives and is accepted, or replayed after a CRC failure. -/
  | flitReceived (port corr uncorr : Nat) (ok : Bool)
  /-- LINK_UP (R375). Training completes, identities are exchanged, LINKDLY is measured and the port is UP. -/
  | linkUp (port : Nat) (peer : ChainPeer) (lanes dly : Nat)
  /-- LINK_TRAINING_TIMEOUT (R375). A training state lasting 5 ms returns the port to DOWN. -/
  | linkTrainingTimeout (port : Nat)
  /-- LINK_RETRY (R375). Every 1 ms a port in DOWN retries training. -/
  | linkRetry (port : Nat)
  /-- LINKDLY_MEASURE (R375). Each second LINKDLY is measured again and the chain latency rechecked. -/
  | linkdlyMeasure (port dly : Nat) (far : List ChLink)
  /-- LINK_DOWN (R376). Loss of FEC lock for 10 µs or 16 failed replays takes the port DOWN. -/
  | linkDown (port : Nat)
  /-- LANE_SPARE (R377). A lane with excessive errors or lost lock is replaced by the spare, or retires and the port retrains to two lanes. -/
  | laneSpare (port lane symErr : Nat)
  /-- JOIN_REQ (R383). The master admits or refuses a joining device. -/
  | joinReq (m : JoinMsg)
  /-- PORT_DOWN_REPORT (R384). The master removes unreachable members and computes new routes. -/
  | portDownReport (a b : Nat)
  /-- EPOCH_ADVANCE (R382). Every EPOCH_US the master sends ADVANCE and switches route generations. -/
  | epochAdvance (leaves : List Nat)
  /-- ADVANCE (R382). A member adopts a new epoch and acknowledges it. -/
  | advance (epoch : Nat) (isOver : Bool) (sw : Option ChainGen)
  /-- MASTER_LOST (R385). No ADVANCE for the limit; the backup becomes master or the member becomes ORPHAN. -/
  | masterLost (by_ : Option Nat) (links : List ChLink)
  /-- REMOTE_TIMEOUT (R386). An unanswered remote request is reissued once, then ends its job with FAULT. -/
  | remoteTimeout (job port tile token : Nat) (write : Bool)
  /-- PREPARE_TIMEOUT (R191). A chain job not prepared within PREP_US ends on every participant with TIMEOUT. -/
  | prepareTimeout (job : Nat)
  /-- GW_ROUTE_SET (R389). Writes a routing-table entry. -/
  | gwRouteSet (h : Hdr) (ps : List Byte)
  /-- GW_ROUTE_CLEAR (R389). Clears routing-table entries. -/
  | gwRouteClear (h : Hdr) (ps : List Byte)
  /-- GW_ROUTE_GET (R366). Returns a routing-table entry and its hit count. -/
  | gwRouteGet (h : Hdr) (ps : List Byte)
  /-- GW_RING_CFG (R369). Configures a tenant gateway ring. -/
  | gwRingCfg (h : Hdr) (ps : List Byte)
  /-- GW_PORT_CFG (R368). Configures a CAN controller or MAC for the gateway. -/
  | gwPortCfg (h : Hdr) (ps : List Byte)
  /-- GW_ISO_CFG (R371). Configures ISOBUS address claiming on a CAN controller. -/
  | gwIsoCfg (h : Hdr) (ps : List Byte)
  /-- CHN_CFG (R389). Configures chain membership, role, topology and limits. -/
  | chnCfg (h : Hdr) (ps : List Byte)
  /-- CHN_LEAVE (R384). Asks to leave the chain at the next epoch advance. -/
  | chnLeave (h : Hdr) (ps : List Byte)
  /-- CHN_STATUS (R380). Returns the device's chain state. -/
  | chnStatus (h : Hdr) (ps : List Byte)
  /-- CHN_MEMBERS (R389). Returns the chain members on the master. -/
  | chnMembers (h : Hdr) (ps : List Byte)
  /-- CHN_EVICT (R384). Removes a named member at the next generation switch. -/
  | chnEvict (h : Hdr) (ps : List Byte)
  /-- VIN_DROOP (R397). VIN falls below DROOP_V and every island is stretched. -/
  | vinDroop (mv : Nat)
  /-- RAIL_DROOP (R397). An island's local supply falls 3% below nominal and that island is stretched. -/
  | railDroop (kind inst permille : Nat)
  /-- DROOP_RELEASE (R398). Once supplies have been back for 1 µs, the stretch is released in steps. -/
  | droopRelease (island : Option (Nat × Nat))
  /-- PMC_INTERVAL (R395). Every 100 µs the PMC adjusts the throttle factor F toward the cap. -/
  | pmcInterval (share : Nat)
  /-- FAST_LIMIT (R395). Input current above 1.25 × cap ÷ VIN for 1 µs stretches every throttled island to 75%. -/
  | fastLimit (vin iin : Nat)
  /-- PHASE_FAULT (R393). A faulted regulator phase is disconnected and replaced by a spare, or the effective cap falls. -/
  | phaseFault (die phase : Nat)
  /-- THERMAL_SAMPLE (R399). Every 1 ms the sensors are read, driving throttle, hot stretch, thermal trip and refresh rate. -/
  | thermalSample (t : Temps)
  /-- CLUSTER_TRIP (R400). A sensor at or above 125 °C for 100 µs powers the cluster off and unloads its programs. -/
  | clusterTrip (cl temp : Nat)
  /-- WEAR_MEASURE (R403). Every 10 minutes the aging oscillators are measured, giving warnings or retirements. -/
  | wearMeasure (drops : List (Nat × Nat))
  /-- SRAM_ECC_ERROR (R405). An SRAM error is corrected or, when uncorrectable, restarts the job after remapping. -/
  | sramEccError (e : SramErr)
  /-- PWR_STATUS (R415). Returns the power, clock and thermal registers. -/
  | pwrStatus (h : Hdr) (ps : List Byte)
  /-- PWR_GATE (R401). Sets a block to run, clock-stopped or powered off. -/
  | pwrGate (h : Hdr) (ps : List Byte)
  /-- PWR_GATE_DONE (R402). The block has reached the requested mode and PWR_GATE completes. -/
  | pwrGateDone (kind inst : Nat)
  /-- PWR_WEAR_READ (R403). Returns wear log records. -/
  | pwrWearRead (h : Hdr) (ps : List Byte)
  /-- PWR_RETIRE (R404). Retires a named unit in SERVICE. -/
  | pwrRetire (h : Hdr) (ps : List Byte)
  /-- PWR_CFG_CAP (R395). A write of CAP changes the selected power cap. -/
  | pwrCfgCap (h : Hdr) (v : Nat)
  /-- PWR_CFG_CAPMAX (R392). A write of CAPMAX sets the cap ceiling and may reduce CAP. -/
  | pwrCfgCapmax (h : Hdr) (v : Nat)
  /-- PWR_CFG_DRAMRATE (R38). A write of DRAMRATE changes the DRAM pin rate, stalling DRAM for up to 5 ms. -/
  | pwrCfgDramrate (h : Hdr) (v : Nat)
  /-- PWR_FSEL_WRITE (R36). Selecting an island clears VALID until a complete measurement window. -/
  | pwrFselWrite (h : Hdr) (v : Nat)
  /-- FMEAS_WINDOW (R36). Every 10.24 µs PWR_FMEAS is updated for the selected island. -/
  | fmeasWindow (freq : Nat)
  /-- PWR_POWER_READ (R415). A read of PWR_POWER returns and restarts the PEAK record. -/
  | pwrPowerRead (h : Hdr)
  /-- CLRCNT_WRITE (R99). Writing CLRCNT clears the cluster's arithmetic counters. -/
  | clrcntWrite (h : Hdr) (cl : Nat)
  /-- HALOSTAT_CLRWAIT (R154). Writing CLRWAIT clears the cluster's halo wait counters. -/
  | halostatClrwait (h : Hdr) (cl : Nat)
  /-- QUADRATURE_EDGE (R304). A valid edge on ENCn_A or ENCn_B, held for FILT_NS, counts the 32-bit quadrature counter up or down. -/
  | quadratureEdge (enc : Nat) (aLeads : Bool)
  /-- REMOTE_REQUEST (R372). A C2 remote read or acknowledged remote write arriving from another chain member is served and answered in C1. -/
  | remoteRequest (token tenant addr n : Nat) (write : Option (List Byte))
  /-- CHAIN_JOB_PREPARE (R191). A participant's prepare report for a chain job reaches the epoch master, which commits the job with the present epoch once the last participant has prepared. -/
  | chainJobPrepare (job member : Nat)
  /-- CHAIN_JOB_COMMIT (R191). The master's commit for a prepared chain job reaches a participant, which commits the job with the EPOCH the master gives. -/
  | chainJobCommit (job epoch : Nat)
  /-- SIGNAL_DETECTED (R375). A signal appears on an enabled Svajor port in DOWN, which leaves DOWN and begins training. -/
  | signalDetected (port : Nat)
  /-- ETH_LINK_UP (R234). A MAC's link comes up, so its port can become asCapable and its gPTP domain can again become VALID. -/
  | ethLinkUp (mac mbps : Nat)
  /-- PEER_DELAY_MESSAGE (R234). A peer-delay message of a configured domain is received or due on its MAC, is answered or sent, and updates the port's asCapable status. -/
  | peerDelayMessage (mac domNum : Nat) (capable : Bool)
  /-- INPUT_MONITOR_SAMPLE (R415). Every 10 µs the hardware input monitor samples VIN and the input current and updates PWR_PIN and PWR_POWER. -/
  | inputMonitorSample (vin iin : Nat)
  deriving DecidableEq, Repr

end Sys2Proof
end

