-- ==== Sys2Proof/Decode.lean ====
section
/-! DEFINITION. Commands from words: the opcode table gives no row any bits (the commands are packets of bytes, whose
fields Wire.lean reads, and events), so no word spells a command. -/

namespace Sys2Proof

/-- The command that a word spells by the table's bits: none, since the table gives no row any. -/
def decodeTableWord (_nbits _w : Nat) : Option Instr := none

end Sys2Proof
end

