-- ==== Sys2Proof/Config.lean ====
section
/-! DEFINITION. What the manual leaves to an implementation, to an external standard or to a format
it does not give: free values and uninterpreted functions. Nothing here has a body. -/

namespace Sys2Proof

/-- A window operator of a schedule (R142). -/
structure WinOp where
  layer : Nat
  geom : WinGeom
  deriving DecidableEq, Repr, Inhabited

/-- What the loader reads in a SCHEDULE section (R75, R142, R149, R160, R248, R266): operand pairs (format
codes of Table 9 of chapter 04), window operators, halo declarations of the normal and of the degraded placements
(depth, producer, consumer, lag), the places of resident tensors in cluster SRAM (logical cluster, bank, tensor,
offset), Colander descriptors, fusion call descriptors, render-pass steps, and the other chain members on which a job
writes results (R191). -/
structure SchedInfo where
  resident : List (Nat × Nat × Nat × Nat)
  pairs : List (Nat × Nat)
  wins : List WinOp
  halos : List (Nat × Nat × Nat × Nat)
  halosD : List (Nat × Nat × Nat × Nat)
  calls : List (List Byte)
  fus : List (List Byte)
  passes : List (List Byte)
  chain : List Nat
  deriving DecidableEq, Repr, Inhabited

/-- The contents of a SCHEDULE section, whose encoding the manual does not give (log 11). -/
opaque Config.schedule : List Byte → SchedInfo

/-- The tensors an IFACE section describes: output or input, extent in bytes (log 11). -/
opaque Config.ifaceTensors : List Byte → List (Bool × Nat)

/-- An address of a call descriptor names the start of an output tensor of the IFACE section (R248),
for a program whose region starts at a base (log 11). -/
opaque Config.ifaceOutAt : List Byte → Nat → Nat → Bool

/-- The scale stream of a ZQ tensor that a frame block names by its data stream alone: data address and
number of groups (R250, log 21). -/
opaque Config.scaleStream : Nat → Nat → Nat

/-- What a shader and state table of a render-pass step holds (R266 to R268): its shader pairs and fixed-function
states by number, and the formats of the colour attachments by the codes of Table 6 of chapter 10. -/
structure ShaderTable where
  nShader : Nat
  nState : Nat
  colour : List Nat
  deriving DecidableEq, Repr, Inhabited

/-- The shader and state table at the start of some bytes of SCHEDULE, a form the manual does not give (log 23). -/
opaque Config.shaderTable : List Byte → ShaderTable

/-- A shaded vertex (R268): clip-space position and varyings, FP32 codes. -/
structure Vtx where
  pos : List Nat
  vary : List Nat
  deriving DecidableEq, Repr, Inhabited

/-- A vertex after clipping, culling by face and the viewport: x and y in pixels, depth, and the values that are
interpolated over the primitive, FP32 codes. -/
structure WinVtx where
  x : Nat
  y : Nat
  z : Nat
  vals : List Nat
  deriving DecidableEq, Repr, Inhabited

/-- A texel that a sample uses: its address and format (Table 6 of chapter 10); on a surface with clear flags the flag
array, the screen tile and CLEARVAL; in a sparse texture the residency map and the 64 KiB block (R273, R276). -/
structure Texel where
  addr : Nat
  fmt : Nat
  clear : Option (Nat × Nat × List Nat)
  block : Option (Nat × Nat)
  deriving DecidableEq, Repr, Inhabited

/-- A sample: its texels, FALLBACK and its constant, and the number of the filter. -/
structure TexSample where
  texels : List Texel
  fallback : Nat
  const : List Nat
  filter : Nat
  deriving DecidableEq, Repr, Inhabited

/-- What a fragment shader does next: it samples a texture, discards the fragment, or gives a colour for each
attachment and, where it replaces it, a depth. -/
inductive FragStep where
  | sample (t : TexSample)
  | discard
  | done (colours : List (List Nat)) (depth : Option Nat)
  deriving DecidableEq, Repr, Inhabited

/-- The shaders and fixed-function states of a table, whose form and arithmetic the manual does not give (log 23).
What a vertex reads: offsets and lengths in the vertex and constant block, by table, shader pair, vertex and instance;
and the shaded vertex, by table, shader pair, NVARY, vertex, instance and those bytes (R268 stage 2). -/
opaque Config.vertexFetch : List Byte → Nat → Nat → Nat → List (Nat × Nat)
opaque Config.vertexShade : List Byte → Nat → Nat → Nat → Nat → List Byte → Vtx
/-- Clipping, culling by face and the viewport of one primitive: the triangles that cover it, by table, state, WIDTH and
HEIGHT (R268 stage 3, log 23). -/
opaque Config.setup : List Byte → Nat → Nat → Nat → List Vtx → List (List WinVtx)
/-- Scissor of a state: x and y from and to; whether it allows the early test; depth of a triangle at a place in 1/256
pixel; the test of a sample against the stored depth and stencil, and what it stores; the blend, by table, state,
attachment, source and destination (R268 stages 5, log 23). -/
opaque Config.scissor : List Byte → Nat → Nat × Nat × Nat × Nat
opaque Config.earlyTest : List Byte → Nat → Nat → Bool
opaque Config.depthAt : List WinVtx → Nat → Nat → Nat
opaque Config.depthTest : List Byte → Nat → Nat → List WinVtx → Nat → Nat → Bool × Nat
opaque Config.blend : List Byte → Nat → Nat → List Nat → List Nat → List Nat
/-- The fragment shader: by table, shader pair, triangle, pixel and the samples taken so far with their non-resident
codes; the most steps it takes; and the filtering of a sample's texels (R268, R276, log 23). -/
opaque Config.fragStep : List Byte → Nat → List WinVtx → Nat → Nat → List (List Nat × Bool) → FragStep
opaque Config.fragRounds : List Byte → Nat → Nat
opaque Config.texFilter : TexSample → List (List Nat) → List Nat
/-- The sRGB transfer curve, an external standard: an 8-bit code as a linear FP32 code, and back (log 23). -/
opaque Config.srgbDec : Nat → Nat
opaque Config.srgbEnc : Nat → Nat

/-- A component of a display pixel brought from one width to another; the blend of a base and an overlay component by
an alpha that is neither 0 nor 1.0, all at the link's width: the manual gives no arithmetic (R279, log 23). The bytes of
a pixel of 6 bits per component in a CRC (R324). -/
opaque Config.scanDepth : Nat → Nat → Nat → Nat
opaque Config.planeBlend : Nat → Nat → Nat → Nat → Nat
opaque Config.scan6 : List Nat → List Byte

/-- The expected frame signatures a GOLDEN section holds (log 11). -/
opaque Config.goldenSigs : List Byte → List Nat

/-- Where the input (or output) tensors of an evaluation job lie, by handle, golden input and tensor: the manual
gives them no place (R107, log 20). -/
opaque Config.evalAt : Nat → Nat → Nat → Nat

/-- The program a TRAIN section names and the EVAL_MS of its candidates (log 11). -/
opaque Config.trainOf : List Byte → Nat × Nat

/-- Spare rows that each bank of a stack was made with, part by part (R201, Table 3 of chapter 07, log 15). -/
opaque Config.spareRows : Nat → Nat

/-- A value the manual leaves open, one for each use (log 9). -/
opaque Config.freeNat : Nat → Nat
/-- Bytes the manual leaves open, one list for each use (log 9). -/
opaque Config.freeBytes : Nat → List Byte

/-- Which of the FP32 codes within the stated error a function gives, by function and operands (R79, R161,
R251, log 12): 0 exp, 1 log, 2 tanh, 3 sigmoid, 4 the erf form of GELU, 5 reciprocal square root, 6 sine,
7 cosine, 8 the fusion engines' division. -/
opaque Config.ulpPick : Nat → Nat → Nat

/-- The data bytes of a CAN packet of a stream: identifier word, DLC, flags and data, whose layout the
manual does not give (R226, log 22). -/
opaque Config.canBytes : Nat → Nat → Nat → List Byte → List Byte

/-- The CRC nibble of a SENT message (legacy or recommended; status nibble excluded) and the serial
message that a run of status nibbles, newest first, completes: identifier, enhanced, data. SAE J2716 is
an external standard (R305, log 13). -/
opaque Config.sentCrc : Bool → List Nat → Nat
opaque Config.sentSlow : List Nat → Option (Nat × Bool × Nat)

/-- The Ethernet frame of a peer-delay message that a time-aware end station sends on a MAC for a domain, by a number for
each message: IEEE 802.1AS is an external standard (R234, log 22). -/
opaque Config.peerDelay : Nat → Nat → Nat → List Byte

/-- SHAKE256 with 32 bytes of output, KMAC256 with 32 bytes of output (key, customisation, message),
XMSS verification (public key, message, signature) and signing (key 0 attestation, 1 identity; index;
message), the public keys and certificates: external standards (log 13). -/
opaque Config.shake256 : List Byte → List Byte
opaque Config.kmac256 : List Byte → List Byte → List Byte → List Byte
opaque Config.xmssVerify : List Byte → List Byte → List Byte → Bool
opaque Config.xmssSign : Nat → Nat → List Byte → List Byte
opaque Config.publicKey : Nat → List Byte
opaque Config.certificate : Nat → List Byte
/-- SHA root hash fused in manufacture (R346). -/
opaque Config.rootHash : List Byte

end Sys2Proof
end

