-- ==== Sys2Proof/Machine/Bits.lean ====
section
/-! DEFINITION. Tables keyed by a number, little-endian byte fields (R10), bit fields, saturation
and the two CRCs of the manual (R47, R316). -/

namespace Sys2Proof.Machine

/-! ## Tables keyed by a number -/

/-- A sparse table: pairs of a key and a value, kept in rising key order by `Map.set`. -/
structure Map (α : Type) where
  cells : List (Nat × α)
  deriving DecidableEq, Repr

/-- The table that lists nothing. -/
def Map.empty {α : Type} : Map α := ⟨[]⟩

/-- The first value listed under a key. -/
def Map.lookup {α : Type} : List (Nat × α) → Nat → Option α
  | [], _ => none
  | (j, w) :: t, k => if k = j then some w else Map.lookup t k

/-- Put a value under a key, in rising key order. -/
def Map.insert {α : Type} : List (Nat × α) → Nat → α → List (Nat × α)
  | [], k, v => [(k, v)]
  | (j, w) :: t, k, v =>
    if k < j then (k, v) :: (j, w) :: t
    else if k = j then (k, v) :: t
    else (j, w) :: Map.insert t k v

/-- Drop every pair of a key. -/
def Map.remove {α : Type} : List (Nat × α) → Nat → List (Nat × α)
  | [], _ => []
  | (j, w) :: t, k => if k = j then Map.remove t k else (j, w) :: Map.remove t k

/-- The value under a key, if one is listed. -/
def Map.get? {α : Type} (m : Map α) (k : Nat) : Option α := Map.lookup m.cells k

/-- The value under a key, `d` where none is listed. -/
def Map.getD {α : Type} (m : Map α) (k : Nat) (d : α) : α := (m.get? k).getD d

/-- List `v` under `k`. -/
def Map.set {α : Type} (m : Map α) (k : Nat) (v : α) : Map α := ⟨Map.insert m.cells k v⟩

/-- List nothing under `k`. -/
def Map.erase {α : Type} (m : Map α) (k : Nat) : Map α := ⟨Map.remove m.cells k⟩

/-- The keys that are listed, in rising order. -/
def Map.keys {α : Type} (m : Map α) : List Nat := m.cells.map (·.1)

/-- The values that are listed, in rising key order. -/
def Map.vals {α : Type} (m : Map α) : List α := m.cells.map (·.2)

/-- Change every listed value. -/
def Map.mapV {α β : Type} (m : Map α) (f : α → β) : Map β := ⟨m.cells.map (fun c => (c.1, f c.2))⟩

/-- Change every listed value with its key in view. -/
def Map.mapKV {α β : Type} (m : Map α) (f : Nat → α → β) : Map β :=
  ⟨m.cells.map (fun c => (c.1, f c.1 c.2))⟩

/-- Keep the pairs that pass. -/
def Map.filter {α : Type} (m : Map α) (p : Nat → α → Bool) : Map α :=
  ⟨m.cells.filter (fun c => p c.1 c.2)⟩

/-- Whether some pair passes. -/
def Map.any {α : Type} (m : Map α) (p : Nat → α → Bool) : Bool := m.cells.any (fun c => p c.1 c.2)

/-- How many pairs pass. -/
def Map.count {α : Type} (m : Map α) (p : Nat → α → Bool) : Nat :=
  (m.cells.filter (fun c => p c.1 c.2)).length

/-- The sum of a number over the listed pairs. -/
def Map.sum {α : Type} (m : Map α) (f : Nat → α → Nat) : Nat :=
  m.cells.foldl (fun a c => a + f c.1 c.2) 0

/-! ## Bytes and fields -/

/-- The number that bytes spell, least significant first (R10). -/
def leNat : List Byte → Nat
  | [] => 0
  | b :: t => b.toNat + 256 * leNat t

/-- `n` bytes that spell a number modulo 2^(8n), least significant first (R10). -/
def leBytes : Nat → Nat → List Byte
  | 0, _ => []
  | n + 1, v => BitVec.ofNat 8 v :: leBytes n (v / 256)

/-- The field of `n` bytes at byte offset `off`; bytes that are absent count as zero. -/
def fieldAt (bs : List Byte) (off n : Nat) : Nat := leNat ((bs.drop off).take n)

/-- The byte at an offset. -/
def u8 (bs : List Byte) (off : Nat) : Nat := fieldAt bs off 1
/-- The 2-byte field at an offset. -/
def u16 (bs : List Byte) (off : Nat) : Nat := fieldAt bs off 2
/-- The 4-byte field at an offset. -/
def u32 (bs : List Byte) (off : Nat) : Nat := fieldAt bs off 4
/-- The 8-byte field at an offset. -/
def u64 (bs : List Byte) (off : Nat) : Nat := fieldAt bs off 8

/-- The `n` bytes at an offset. -/
def sub (bs : List Byte) (off n : Nat) : List Byte := (bs.drop off).take n

/-- Whether `n` bytes at an offset are zero: what a layout marks as zero (R50 step 8). -/
def zeroAt (bs : List Byte) (off n : Nat) : Bool := fieldAt bs off n == 0

/-- `n` zero bytes. -/
def zeros (n : Nat) : List Byte := List.replicate n 0

/-- A list of bytes filled with zeros, or cut, to `n` bytes. -/
def padTo (n : Nat) (bs : List Byte) : List Byte := (bs ++ zeros n).take n

/-- Overwrite bytes at an offset. -/
def patch (bs : List Byte) (off : Nat) (w : List Byte) : List Byte :=
  bs.take off ++ w ++ bs.drop (off + w.length)

/-- Bit `i` of a number. -/
def bit (v i : Nat) : Bool := v.testBit i

/-- A Bool as a bit. -/
def b2n (b : Bool) : Nat := if b then 1 else 0

/-- The field [lo + w - 1 : lo] of a number. -/
def bits (v lo w : Nat) : Nat := (v / 2 ^ lo) % 2 ^ w

/-- A number placed in the field [lo + w - 1 : lo], cut to the field. -/
def fld (v lo w : Nat) : Nat := (v % 2 ^ w) * 2 ^ lo

/-- A number placed in a field where it saturates at the field's largest value. -/
def sfld (v lo w : Nat) : Nat := (min v (2 ^ w - 1)) * 2 ^ lo

/-- A number as a two's complement value of `w` bits. -/
def asInt (w v : Nat) : Int :=
  if v % 2 ^ w < 2 ^ (w - 1) then (v % 2 ^ w : Nat) else (v % 2 ^ w : Nat) - (2 ^ w : Nat)

/-- A two's complement value of `w` bits as the number of its bits. -/
def ofInt (w : Nat) (i : Int) : Nat := (i % (2 ^ w : Nat)).toNat

/-- Clamp an integer to a signed range of `w` bits. -/
def satInt (w : Nat) (i : Int) : Int :=
  max (-(2 ^ (w - 1) : Nat)) (min i ((2 ^ (w - 1) : Nat) - 1))

/-- Count upwards, saturating at `m`. -/
def satAdd (m v d : Nat) : Nat := min m (v + d)

/-- `v` rounded up to a multiple of `g`. -/
def roundup (v g : Nat) : Nat := (v + g - 1) / g * g

/-- Whether a number is a power of two from `lo` to `hi`. -/
def isPow2In (v lo hi : Nat) : Bool :=
  lo ≤ v && v ≤ hi && (List.range 33).any (fun i => v == 2 ^ i)

/-- How many bits of the low `n` are set. -/
def popcount (n v : Nat) : Nat := ((List.range n).filter (fun i => v.testBit i)).length

/-- Put bit `i` of a mask to `b`. -/
def setBit (v i : Nat) (b : Bool) : Nat :=
  if b then v ||| 2 ^ i else if v.testBit i then v - 2 ^ i else v

/-- The maximum of a list of numbers, 0 for none. -/
def maxOf (l : List Nat) : Nat := l.foldl max 0

/-- The minimum of a list of numbers, `d` for none. -/
def minOf (d : Nat) : List Nat → Nat
  | [] => d
  | x :: t => t.foldl min x

/-! ## CRC-32C of packets (R47) -/

/-- One bit step of the reflected CRC. -/
def crc32Bit (c : Nat) : Nat := if c % 2 = 1 then (c / 2) ^^^ 0x82F63B78 else c / 2

/-- One byte of CRC-32C. -/
def crc32Byte (c : Nat) (b : Byte) : Nat :=
  crc32Bit (crc32Bit (crc32Bit (crc32Bit (crc32Bit (crc32Bit (crc32Bit (crc32Bit
    (c ^^^ b.toNat))))))))

/-- CRC-32C: initial value and final XOR 0xFFFF_FFFF, reflected (R47). -/
def crc32c (bs : List Byte) : Nat := (bs.foldl crc32Byte 0xFFFFFFFF) ^^^ 0xFFFFFFFF

/-! ## CRC-64/ECMA-182 of signatures (R316) -/

/-- One bit step of CRC-64. -/
def crc64Bit (c : Nat) : Nat :=
  if c.testBit 63 then ((c * 2) % 2 ^ 64) ^^^ 0x42F0E1EBA9EA3693 else (c * 2) % 2 ^ 64

/-- One byte of CRC-64. -/
def crc64Byte (c : Nat) (b : Byte) : Nat :=
  crc64Bit (crc64Bit (crc64Bit (crc64Bit (crc64Bit (crc64Bit (crc64Bit (crc64Bit
    (c ^^^ (b.toNat * 2 ^ 56)))))))))

/-- CRC-64/ECMA-182: initial value 0, not reflected, no final XOR (R316). -/
def crc64 (bs : List Byte) : Nat := bs.foldl crc64Byte 0

/-! ## Byte memories -/

/-- A byte memory in ONE canonical form: addresses strictly rising, no entry equal to what an
unlisted address reads as, which is 0 (log 5). -/
structure Mem where
  cells : List (Nat × Byte)
  deriving DecidableEq, Repr

/-- The memory that lists nothing. -/
def Mem.empty : Mem := ⟨[]⟩

/-- The byte at an address; an unlisted address reads 0. -/
def Mem.read (m : Mem) (a : Nat) : Byte := (Map.lookup m.cells a).getD 0

/-- Write one byte. -/
def Mem.write (m : Mem) (a : Nat) (v : Byte) : Mem :=
  if v = 0 then ⟨Map.remove m.cells a⟩ else ⟨Map.insert m.cells a v⟩

/-- The bytes of `n` addresses from `a`. -/
def Mem.readN (m : Mem) (a : Nat) : Nat → List Byte
  | 0 => []
  | n + 1 => m.read a :: m.readN (a + 1) n

/-- Write bytes from address `a` upwards. -/
def Mem.writeN (m : Mem) (a : Nat) : List Byte → Mem
  | [] => m
  | b :: t => (m.write a b).writeN (a + 1) t

/-- Zero `n` bytes from address `a`. -/
def Mem.zeroRange (m : Mem) (a n : Nat) : Mem :=
  ⟨m.cells.filter (fun c => !(a ≤ c.1 && c.1 < a + n))⟩

/-- The number in `n` little-endian bytes at `a`. -/
def Mem.readLE (m : Mem) (a n : Nat) : Nat := leNat (m.readN a n)

/-- Strictly rising addresses, each above `lo` where one is given, no zero byte. -/
def Mem.rising : Option Nat → List (Nat × Byte) → Bool
  | _, [] => true
  | lo, (a, v) :: t =>
    (match lo with | none => true | some l => decide (l < a)) && v != 0 && Mem.rising (some a) t

/-- The canonical form of a memory. -/
def Mem.wf (m : Mem) : Bool := Mem.rising none m.cells

end Sys2Proof.Machine
end

