-- ==== Sys2Proof/Machine/Float.lean ====
section
/-! DEFINITION. The floating-point formats of the manual (R80, R81) and exact arithmetic on them
with ONE rounding, to nearest, ties to even (R77, R79, R92). -/

namespace Sys2Proof.Machine

/-- A binary floating-point format: widths of exponent and stored mantissa, bias, and which
special codes it has (Table 3 of chapter 03). -/
structure FFmt where
  ebits : Nat
  mbits : Nat
  bias : Nat
  /-- true: IEEE codes (top exponent holds infinities and NaNs); false: E4M3, where only the code
  with all ones is a NaN and there is no infinity. -/
  ieee : Bool
  deriving DecidableEq, Repr

def fp32 : FFmt := ⟨8, 23, 127, true⟩
def bf16 : FFmt := ⟨8, 7, 127, true⟩
def fp16 : FFmt := ⟨5, 10, 15, true⟩
/-- FP64, in which the clock maps fit (R245). -/
def fp64 : FFmt := ⟨11, 52, 1023, true⟩
def e5m2 : FFmt := ⟨5, 2, 15, true⟩
def e4m3 : FFmt := ⟨4, 3, 7, false⟩

/-- The value a code denotes: a NaN, an infinity, or an exact dyadic number m × 2^e with a sign. -/
inductive FVal where
  | nan (neg : Bool)
  | inf (neg : Bool)
  | fin (neg : Bool) (m : Nat) (e : Int)
  deriving DecidableEq, Repr

/-- The value of a code (R80, R81); subnormals are honoured. -/
def fdecode (f : FFmt) (c : Nat) : FVal :=
  let s := bit c (f.ebits + f.mbits)
  let x := bits c f.mbits f.ebits
  let m := bits c 0 f.mbits
  if f.ieee && x == 2 ^ f.ebits - 1 then
    if m = 0 then .inf s else .nan s
  else if !f.ieee && x == 2 ^ f.ebits - 1 && m == 2 ^ f.mbits - 1 then .nan s
  else if x = 0 then .fin s m (1 - (f.bias : Int) - f.mbits)
  else .fin s (2 ^ f.mbits + m) ((x : Int) - f.bias - f.mbits)

/-- The sign bit of a code. -/
def fsign (f : FFmt) (neg : Bool) : Nat := if neg then 2 ^ (f.ebits + f.mbits) else 0

/-- The code of an infinity (a NaN code in E4M3, which has none: Table 5). -/
def finf (f : FFmt) (neg : Bool) : Nat :=
  fsign f neg + (if f.ieee then (2 ^ f.ebits - 1) * 2 ^ f.mbits else 2 ^ (f.ebits + f.mbits) - 1)

/-- The largest finite magnitude. -/
def fmaxfin (f : FFmt) (neg : Bool) : Nat :=
  fsign f neg + (if f.ieee then (2 ^ f.ebits - 1) * 2 ^ f.mbits - 1 else 2 ^ (f.ebits + f.mbits) - 2)

/-- The canonical NaN of BF16, FP16 and FP32; for the FP8 formats the code with all mantissa bits
set, sign kept (Tables 3 and 5). -/
def fnan (f : FFmt) (neg : Bool) : Nat :=
  if f.mbits < 7 then fsign f neg + (2 ^ (f.ebits + f.mbits) - 1)
  else (2 ^ f.ebits - 1) * 2 ^ f.mbits + 2 ^ (f.mbits - 1)

/-- Bit length of a number. -/
def blen (m : Nat) : Nat := if m = 0 then 0 else Nat.log2 m + 1

/-- Round m × 2^sh' down in exponent: the integer nearest to m ÷ 2^sh, ties to even, where `sticky`
says that the exact value lies a little above m. -/
def rne (m sh : Nat) (sticky : Bool) : Nat :=
  if sh = 0 then m
  else
    let q := m / 2 ^ sh
    let r := m % 2 ^ sh
    let h := 2 ^ (sh - 1)
    if r > h || (r == h && (sticky || q % 2 == 1)) then q + 1 else q

/-- The code of an exact value rounded once, ties to even, and whether a finite value overflowed.
`ovInf` says what an overflow gives: an infinity (IEEE arithmetic, R79) or the largest finite
magnitude (output conversions, R92). -/
def fround (f : FFmt) (ovInf neg : Bool) (m : Nat) (e : Int) (sticky : Bool) : Nat × Bool :=
  if m = 0 then (fsign f neg, false)
  else
    let emin : Int := 1 - (f.bias : Int) - f.mbits
    let q0 : Int := max (e + blen m - 1 - f.mbits) emin
    let sig := if q0 ≤ e then m * 2 ^ (e - q0).toNat else rne m (q0 - e).toNat sticky
    let (sig, q) := if sig = 2 ^ (f.mbits + 1) then (2 ^ f.mbits, q0 + 1) else (sig, q0)
    let code : Int :=
      if sig < 2 ^ f.mbits then (sig : Int)
      else (q + f.mbits + f.bias) * (2 ^ f.mbits : Nat) + ((sig : Int) - (2 ^ f.mbits : Nat))
    if code > (fmaxfin f false : Int) then
      (if ovInf then finf f neg else fmaxfin f neg, true)
    else (fsign f neg + code.toNat, false)

/-- The code of a value in a format as IEEE arithmetic rounds it. -/
def fenc (f : FFmt) : FVal → Nat
  | .nan n => fnan f n
  | .inf n => finf f n
  | .fin n m e => (fround f true n m e false).1

/-- An exact signed dyadic as a value; an exact zero is positive unless `zneg`. -/
def FVal.ofInt (i : Int) (e : Int) (zneg : Bool) : FVal :=
  if i = 0 then .fin zneg 0 e else .fin (decide (i < 0)) i.natAbs e

/-- The signed significand of a finite value at an exponent not above its own. -/
def alignTo (n : Bool) (m : Nat) (e q0 : Int) : Int :=
  (if n then -1 else 1) * ((m : Int) * (2 ^ (e - q0).toNat : Nat))

/-- The exact sum of two values. -/
def FVal.add : FVal → FVal → FVal
  | .nan n, _ => .nan n
  | _, .nan n => .nan n
  | .inf a, .inf b => if a = b then .inf a else .nan false
  | .inf a, _ => .inf a
  | _, .inf b => .inf b
  | .fin a m e, .fin b k g =>
    let t := min e g
    FVal.ofInt (alignTo a m e t + alignTo b k g t) t (a && b)

/-- The exact product of two values. -/
def FVal.mul : FVal → FVal → FVal
  | .nan n, _ => .nan n
  | _, .nan n => .nan n
  | .inf a, .inf b => .inf (a != b)
  | .inf a, .fin b k _ => if k = 0 then .nan false else .inf (a != b)
  | .fin a k _, .inf b => if k = 0 then .nan false else .inf (a != b)
  | .fin a m e, .fin b k g => .fin (a != b) (m * k) (e + g)

/-- The value with its sign turned. -/
def FVal.neg : FVal → FVal
  | .nan n => .nan n
  | .inf n => .inf (!n)
  | .fin n m e => .fin (!n) m e

/-- Whether a value is neither a NaN nor an infinity. -/
def FVal.isFin : FVal → Bool
  | .fin _ _ _ => true
  | _ => false

/-- FP32 addition (R79). -/
def fadd (a b : Nat) : Nat := fenc fp32 ((fdecode fp32 a).add (fdecode fp32 b))
/-- FP32 negation. -/
def fneg (a : Nat) : Nat := if bit a 31 then a - 2 ^ 31 else a + 2 ^ 31
/-- FP32 subtraction (R79). -/
def fsub (a b : Nat) : Nat := fenc fp32 ((fdecode fp32 a).add (fdecode fp32 b).neg)
/-- FP32 multiplication (R79). -/
def fmul (a b : Nat) : Nat := fenc fp32 ((fdecode fp32 a).mul (fdecode fp32 b))
/-- FP32 fused multiply-add a × b + c, one rounding (R79). -/
def ffma (a b c : Nat) : Nat :=
  fenc fp32 (((fdecode fp32 a).mul (fdecode fp32 b)).add (fdecode fp32 c))

/-- The quotient of two values, correctly rounded into a format (R79). -/
def fdivIn (f : FFmt) (a b : FVal) : Nat :=
  match a, b with
  | .nan n, _ => fnan f n
  | _, .nan n => fnan f n
  | .inf _, .inf _ => fnan f false
  | .inf x, .fin y _ _ => finf f (x != y)
  | .fin x _ _, .inf y => fsign f (x != y)
  | .fin x m e, .fin y k g =>
    if k = 0 then (if m = 0 then fnan f false else finf f (x != y))
    else
      let s := 64 + blen k
      let q := m * 2 ^ s / k
      (fround f true (x != y) q (e - g - s) (decide (m * 2 ^ s % k ≠ 0))).1

/-- FP32 division, correctly rounded (R79). -/
def fdiv (a b : Nat) : Nat := fdivIn fp32 (fdecode fp32 a) (fdecode fp32 b)

/-- The integer square root, found bit by bit from bit `i - 1` down. -/
def isqrtFrom (n : Nat) : Nat → Nat → Nat
  | 0, r => r
  | i + 1, r =>
    let t := r + 2 ^ i
    isqrtFrom n i (if t * t ≤ n then t else r)

/-- The integer square root. -/
def isqrt (n : Nat) : Nat := isqrtFrom n (blen n / 2 + 1) 0

/-- The square root of a value, correctly rounded into a format (R79). -/
def fsqrtIn (f : FFmt) (a : FVal) : Nat :=
  match a with
  | .nan n => fnan f n
  | .inf n => if n then fnan f false else finf f false
  | .fin n m e =>
    if m = 0 then fsign f n
    else if n then fnan f false
    else
      let odd := e % 2 ≠ 0
      let m1 := (if odd then 2 * m else m) * 2 ^ 60
      let e1 := (if odd then e - 1 else e) - 60
      let r := isqrt m1
      (fround f true false r (e1 / 2) (decide (r * r ≠ m1))).1

/-- FP32 square root, correctly rounded (R79). -/
def fsqrt (a : Nat) : Nat := fsqrtIn fp32 (fdecode fp32 a)

/-- Whether a ≤ b between FP32 codes; −0 equals +0, a NaN compares with nothing. -/
def fle (a b : Nat) : Bool :=
  match fdecode fp32 a, fdecode fp32 b with
  | .nan _, _ => false
  | _, .nan _ => false
  | .inf x, .inf y => x || !y
  | .inf x, _ => x
  | _, .inf y => !y
  | .fin x m e, .fin y k g =>
    let t := min e g
    decide (alignTo x m e t ≤ alignTo y k g t)

/-- Whether a < b between FP32 codes. -/
def flt (a b : Nat) : Bool := fle a b && !fle b a

/-- Whether two FP32 codes are equal as numbers. -/
def feq (a b : Nat) : Bool := fle a b && fle b a

/-- The smaller of two FP32 codes, the first where they are equal. -/
def fmin (a b : Nat) : Nat := if flt b a then b else a
/-- The larger of two FP32 codes, the first where they are equal. -/
def fmax (a b : Nat) : Nat := if flt a b then b else a

/-- Whether an FP32 code is a NaN or an infinity. -/
def fnonfin (a : Nat) : Bool := !(fdecode fp32 a).isFin

/-- The FP32 code nearest to an integer. -/
def fofInt (i : Int) : Nat := (fround fp32 true (decide (i < 0)) i.natAbs 0 false).1

/-- The FP32 code nearest to n ÷ d. -/
def fofRat (n : Int) (d : Nat) : Nat :=
  fdivIn fp32 (FVal.ofInt n 0 false) (.fin false d 0)

/-- The greatest integer not above a finite FP32 code; `none` for a NaN or an infinity. -/
def ffloor (a : Nat) : Option Int :=
  match fdecode fp32 a with
  | .fin n m e =>
    let i : Int := if n then -(m : Int) else m
    if 0 ≤ e then some (i * (2 ^ e.toNat : Nat)) else some (i / (2 ^ (-e).toNat : Nat))
  | _ => none

/-- A value of one format as an FP32 code: exact for every narrower format. -/
def widen (f : FFmt) (c : Nat) : Nat := fenc fp32 (fdecode f c)

def f32zero : Nat := 0
def f32one : Nat := 0x3F800000
def f32half : Nat := 0x3F000000
def f32inf : Nat := 0x7F800000

/-- A value rounded once to BF16, as the FP32 code of the result (BF16 mode of the vector engine, R79). -/
def bfRes (v : FVal) : Nat := widen bf16 (fenc bf16 v)

/-- BF16 mode: operands and result are FP32 codes of BF16 values (R79). -/
def bfadd (a b : Nat) : Nat := bfRes ((fdecode fp32 a).add (fdecode fp32 b))
def bfdiv (a b : Nat) : Nat := widen bf16 (fdivIn bf16 (fdecode fp32 a) (fdecode fp32 b))
def bfsqrt (a : Nat) : Nat := widen bf16 (fsqrtIn bf16 (fdecode fp32 a))
def bfmul (a b : Nat) : Nat := bfRes ((fdecode fp32 a).mul (fdecode fp32 b))
def bffma (a b c : Nat) : Nat := bfRes (((fdecode fp32 a).mul (fdecode fp32 b)).add (fdecode fp32 c))

end Sys2Proof.Machine
end

