-- ==== Sys2Proof/Machine/Real.lean ====
section
/-! DEFINITION. The functions whose results the manual bounds in ulp (R79, R161, R251): the exact value to far
more bits than the bound needs, and among the FP32 codes within the bound the one the free value takes (log 12). -/

namespace Sys2Proof.Machine

open Sys2Proof

/-! ## Fixed-point values with `fxP` fraction bits -/

/-- Fraction bits. -/
def fxP : Nat := 512
def fxOne : Nat := 2 ^ fxP
def fxMul (a b : Nat) : Nat := a * b / fxOne
def fxDiv (a b : Nat) : Nat := a * fxOne / b

/-- m × 2^e as a fixed-point value. -/
def fxOf (m : Nat) (e : Int) : Nat :=
  if 0 ≤ e + fxP then m * 2 ^ (e + fxP).toNat else m / 2 ^ (-(e + fxP)).toNat

/-- Terms of an alternating or one-signed odd power series Σ ± y^(2i+1) ÷ (2i+1), from i on. -/
def oddSeries (alt : Bool) (y2 : Nat) : Nat → Nat → Nat → Int
  | 0, _, _ => 0
  | n + 1, i, p =>
    (if alt && i % 2 == 1 then -(p / (2 * i + 1) : Nat) else (p / (2 * i + 1) : Nat) : Int)
      + oddSeries alt y2 n (i + 1) (fxMul p y2)

/-- atanh y and atan y for 0 ≤ y ≤ 1/3. -/
def fxAtanh (y : Nat) : Nat := (oddSeries false (fxMul y y) 200 0 y).toNat
def fxAtan (y : Nat) : Nat := (oddSeries true (fxMul y y) 200 0 y).toNat

/-- ln 2 = 2 atanh (1/3). -/
def fxLn2 : Nat := 2 * fxAtanh (fxOne / 3)
/-- π = 16 atan (1/5) − 4 atan (1/239). -/
def fxPi : Nat := 16 * fxAtan (fxOne / 5) - 4 * fxAtan (fxOne / 239)

/-- Σ x^n ÷ n! from a term on: every second one where `step` is 2, with alternating signs where `alt`. -/
def powSeries (x : Nat) (step : Nat) (alt : Bool) : Nat → Nat → Nat → Int
  | 0, _, _ => 0
  | f + 1, n, t =>
    let t' := if step = 2 then fxMul (fxMul t x / (n + 1)) x / (n + 2) else fxMul t x / (n + 1)
    (t : Int) + (if alt then -1 else 1) * powSeries x step alt f (n + step) t'

/-! ## Exact values -/

/-- e^x for a finite x. -/
def expFin (n : Bool) (m : Nat) (e : Int) : FVal :=
  if 2 ^ (9 + fxP) ≤ fxOf m e then (if n then .fin false 1 (-1000) else .fin false 1 1000)
  else
    let x : Int := if n then -(fxOf m e : Int) else fxOf m e
    let k := x / (fxLn2 : Int)
    let r := (x - k * fxLn2).toNat
    .fin false (powSeries r 1 false 120 0 fxOne).toNat (k - fxP)

/-- The fixed-point part of e^−|x|. -/
def expNegFx (m : Nat) (e : Int) : Nat :=
  match expFin true m e with
  | .fin _ f g => fxOf f g
  | _ => 0

def expVal : FVal → FVal
  | .nan n => .nan n
  | .inf n => if n then .fin false 0 0 else .inf false
  | .fin n m e => expFin n m e

def logVal : FVal → FVal
  | .nan n => .nan n
  | .inf n => if n then .nan false else .inf false
  | .fin n m e =>
    if m = 0 then .inf true
    else if n then .nan false
    else
      let b := blen m
      let q := fxOf m (1 - (b : Int))
      FVal.ofInt ((e + b - 1) * fxLn2 + 2 * fxAtanh (fxDiv (q - fxOne) (q + fxOne))) (-(fxP : Int)) false

def tanhVal : FVal → FVal
  | .nan n => .nan n
  | .inf n => .fin n 1 0
  | .fin n m e =>
    let x := fxOf m e
    if x < 2 ^ (fxP - 12) then
      let y := fxMul x x
      let y2 := fxMul y y
      .fin n (m * (fxOne - y / 3 + 2 * y2 / 15 - 17 * fxMul y y2 / 315)) (e - fxP)
    else
      let t := expNegFx m (e + 1)
      .fin n (fxDiv (fxOne - t) (fxOne + t)) (-(fxP : Int))

def sigmoidVal : FVal → FVal
  | .nan n => .nan n
  | .inf n => if n then .fin false 0 0 else .fin false 1 0
  | .fin n m e =>
    let c := fxDiv fxOne (fxOne + expNegFx m e)
    if n then
      match expFin true m e with
      | .fin _ f g => .fin false (f * c) (g - fxP)
      | v => v
    else .fin false c (-(fxP : Int))

/-- Σ t with t' = t × 2z² ÷ (2i + 3). -/
def erfSeries (z2 : Nat) : Nat → Nat → Nat → Nat
  | 0, _, _ => 0
  | f + 1, i, t => t + erfSeries z2 f (i + 1) (fxMul t (2 * z2) / (2 * i + 3))

/-- erf (|x| ÷ √2). -/
def fxErf (m : Nat) (e : Int) : Nat :=
  let x := fxOf m e
  let z2 := fxMul x x / 2
  let z := fxMul x (isqrt (2 * fxOne * fxOne)) / 2
  let s := erfSeries z2 1600 0 z
  match expFin true z2 (-(fxP : Int)) with
  | .fin _ f g =>
    let p := s * f
    let v := if 0 ≤ g then p * 2 ^ g.toNat else p / 2 ^ (-g).toNat
    min fxOne (fxMul v (2 * isqrt (fxOne * fxOne * fxOne / fxPi)))
  | _ => fxOne

/-- x ÷ 2 × (1 + erf (x ÷ √2)). -/
def geluVal : FVal → FVal
  | .nan n => .nan n
  | .inf n => if n then .fin true 0 0 else .inf false
  | .fin n m e =>
    if 2 ^ (4 + fxP) ≤ fxOf m e then (if n then .fin true 1 (-1000) else .fin false m e)
    else .fin n (m * (if n then fxOne - fxErf m e else fxOne + fxErf m e)) (e - 1 - fxP)

def rsqrtVal : FVal → FVal
  | .nan n => .nan n
  | .inf n => if n then .nan false else .fin false 0 0
  | .fin n m e =>
    if m = 0 then .inf n
    else if n then .nan false
    else
      let odd := e % 2 ≠ 0
      let m1 := if odd then 2 * m else m
      let e1 := if odd then e - 1 else e
      .fin false (isqrt (fxOne * fxOne / m1)) (-(fxP : Int) - e1 / 2)

/-- Sine (`q` 0) or cosine (`q` 1). -/
def sinVal (q : Nat) : FVal → FVal
  | .nan n => .nan n
  | .inf _ => .nan false
  | .fin n m e =>
    let x : Int := if n then -(fxOf m e : Int) else fxOf m e
    let hp : Int := (fxPi / 2 : Nat)
    let k := (x + hp / 2) / hp
    let r := x - k * hp
    let a := r.natAbs
    let j := (k + q) % 4
    let v : Int :=
      if j % 2 = 0 then (if r < 0 then -1 else 1) * powSeries a 2 true 70 1 a
      else powSeries a 2 true 70 0 fxOne
    FVal.ofInt (if 2 ≤ j then -v else v) (-(fxP : Int)) (n && q == 0)

/-! ## The codes within a bound -/

/-- An FP32 code counted from zero: negative numbers are the codes with the sign set. -/
def codeOfInt (i : Int) : Nat := if i < 0 then 2 ^ 31 + i.natAbs else i.natAbs

/-- The FP32 codes within `k` ulp of (−1)^n × m × 2^e, where an ulp is that of the exact value. -/
def ulpCodes (k : Nat) (n : Bool) (m : Nat) (e : Int) : List Nat :=
  let c := (fround fp32 true false m e false).1
  if 0x7F800000 ≤ c then [finf fp32 n]
  else
    let q : Int := if m = 0 then -149 else max (e + blen m - 24) (-149)
    ((List.range (8 * k + 1)).filterMap (fun i =>
      let o : Int := (c : Int) + i - (4 * k : Nat)
      if 0x7F800000 ≤ o then none
      else
        match fdecode fp32 (codeOfInt o) with
        | .fin b d g =>
          let t := min (min g e) q
          if decide ((alignTo b d g t - alignTo false m e t).natAbs ≤ k * 2 ^ (q - t).toNat)
          then some (codeOfInt (if n then -o else o)) else none
        | _ => none))

/-- The FP32 result of a function within `k` ulp: special values as IEEE 754 gives them, else the code that the
free value picks (log 12). -/
def ulpRes (k f key : Nat) (v : FVal) : Nat :=
  match v with
  | .fin n m e =>
    let l := ulpCodes k n m e
    l[Config.ulpPick f key % max 1 l.length]?.getD (fenc fp32 v)
  | _ => fenc fp32 v

/-- The exact value of function `f` of R79. -/
def transVal : Nat → FVal → FVal
  | 0, v => expVal v
  | 1, v => logVal v
  | 2, v => tanhVal v
  | 3, v => sigmoidVal v
  | 4, v => geluVal v
  | _, v => rsqrtVal v

/-- A function of R79 on an FP32 code. -/
def ftrans (f x : Nat) : Nat := ulpRes (if f = 5 then 1 else 2) f x (transVal f (fdecode fp32 x))
/-- In BF16 mode: the exact result rounded once (R79). -/
def bftrans (f x : Nat) : Nat := bfRes (transVal f (fdecode fp32 x))
def fexp (x : Nat) : Nat := ftrans 0 x
/-- Sine and cosine of the fusion engines (R251). -/
def fsin (x : Nat) : Nat := ulpRes 2 6 x (sinVal 0 (fdecode fp32 x))
def fcos (x : Nat) : Nat := ulpRes 2 7 x (sinVal 1 (fdecode fp32 x))

/-- Division of the fusion engines, within 2 ulp (R251). -/
def fdivUlp (a b : Nat) : Nat :=
  match fdecode fp32 a, fdecode fp32 b with
  | .fin x m e, .fin y k g =>
    if k = 0 then fdiv a b
    else ulpRes 2 8 (a * 2 ^ 32 + b) (.fin (x != y) (m * 2 ^ 128 / k) (e - g - 128))
  | _, _ => fdiv a b

/-- b^t for a natural number t, the exact power rounded once (R103; DEDUCED, log 12). -/
def fpowNat (b t : Nat) : Nat :=
  match fdecode fp32 b with
  | .fin n m e => fenc fp32 (.fin (n && t % 2 == 1) (m ^ t) (e * t))
  | v => if t = 0 then f32one else fenc fp32 v

end Sys2Proof.Machine
end

