-- ==== Sys2Proof/Machine/Geom.lean ====
section
/-! DEFINITION. Window geometry: output extents, taps and padding (R140 to R143), the layout and size of the
expanded copy (R145, R147), and which engine a convolution runs on (R155). -/

namespace Sys2Proof.Machine

open Sys2Proof

/-- Output extent of a window operator in one dimension (R140). -/
def outExtent (i k s d plo phi : Nat) : Nat :=
  let span := d * (k - 1) + 1
  if span ≤ i + plo + phi then (i + plo + phi - span) / s + 1 else 0

/-- Parameters within Table 1 of chapter 05. -/
def dimInRange (x : WinDim) : Bool :=
  1 ≤ x.inp && x.inp ≤ 65535 && 1 ≤ x.k && x.k ≤ 255 && 1 ≤ x.s && x.s ≤ 255 && 1 ≤ x.d
    && x.d ≤ 255 && x.plo ≤ 255 && x.phi ≤ 255

def dimExtent (x : WinDim) : Nat := outExtent x.inp x.k x.s x.d x.plo x.phi

/-- The parameters of an operator lie within Table 1. Global pooling has no window: of its dimensions only the
input extents count (R157; DEDUCED, log 20). -/
def geomInRange (g : WinGeom) : Bool :=
  decide (g.mode ≤ 2) && (match g.kind with
    | .global => 1 ≤ g.h.inp && g.h.inp ≤ 65535 && 1 ≤ g.w.inp && g.w.inp ≤ 65535
    | .conv gr ci co => dimInRange g.h && dimInRange g.w && 1 ≤ gr && ci % gr == 0 && co % gr == 0
    | _ => dimInRange g.h && dimInRange g.w)

/-- Output extents, 1 by 1 of global pooling (R140). -/
def geomH (g : WinGeom) : Nat := if g.kind = .global then 1 else dimExtent g.h
def geomW (g : WinGeom) : Nat := if g.kind = .global then 1 else dimExtent g.w

/-- The input coordinate that output o and tap k read (R141). -/
def tapCoord (s plo d o k : Nat) : Int := (o * s : Nat) - (plo : Int) + (k * d : Nat)

/-- The real pixel a reflected coordinate names (R143). -/
def reflectIdx (i : Int) (w : Nat) : Nat :=
  if w ≤ 1 then 0
  else
    let p : Int := 2 * ((w : Int) - 1)
    let r := i % p
    if r < w then r.toNat else (p - r).toNat

/-- The real pixel a replicated coordinate names (R143). -/
def replicateIdx (i : Int) (w : Nat) : Nat := if i < 0 then 0 else min i.toNat (w - 1)

/-- The pixel a tap reads in a padding mode: none for a zero-padding position (R141, R143). -/
def tapPixel (mode : Nat) (i : Int) (w : Nat) : Option Nat :=
  if 0 ≤ i && i < (w : Int) then some i.toNat
  else match mode with
    | 0 => none
    | 1 => some (replicateIdx i w)
    | _ => some (reflectIdx i w)

/-- The real pixels, numbered row by row, that the taps of output position `o` read in the order (kh, kw); none
for a zero-padding position. Global pooling reads the whole input (R141, R157). -/
def geomTaps (g : WinGeom) (o : Nat) : List (Option Nat) :=
  if g.kind = .global then (List.range (g.h.inp * g.w.inp)).map some
  else
    let y := o / max 1 (geomW g)
    let x := o % max 1 (geomW g)
    (List.range g.h.k).flatMap (fun kh => (List.range g.w.k).map (fun kw =>
      match tapPixel g.mode (tapCoord g.h.s g.h.plo g.h.d y kh) g.h.inp,
            tapPixel g.mode (tapCoord g.w.s g.w.plo g.w.d x kw) g.w.inp with
      | some a, some b => some (a * g.w.inp + b)
      | _, _ => none))

/-- The pixels that some tap of some of `n` positions reads; no other is fetched (R144). -/
def geomPixels (g : WinGeom) (pos n : Nat) : List Nat :=
  ((List.range n).flatMap (fun i => (geomTaps g (pos + i)).filterMap id)).eraseDups

/-- Channels of one tap of an expanded row, and the reduction length (R145). -/
def tapChannels (zq : Option Nat) (cin : Nat) : Nat := match zq with
  | some g => roundup cin g
  | none => cin
def kPad (zq : Option Nat) (kh kw cin : Nat) : Nat := match zq with
  | some g => kh * kw * roundup cin g
  | none => roundup (kh * kw * cin) 16

/-- Bytes and granules of an expanded buffer (R147); `zq` with its group size. -/
def expandedBytes (zq : Option Nat) (r kh kw cin b : Nat) : Nat :=
  match zq with
  | some g =>
    let groups := r * (kPad zq kh kw cin / g)
    (groups + 47) / 48 * 128 + roundup (groups * g * b / 8) 64
  | none => roundup (r * kPad zq kh kw cin * b / 8) 64

def expandedGranules (nb : Nat) (zq : Option Nat) (r kh kw cin b : Nat) : Nat :=
  (nb * expandedBytes zq r kh kw cin b + 16383) / 16384

/-- A convolution that may run on the matrix units, as one product for each channel group (R155). -/
def onMatrix (k : WinKind) : Bool := match k with
  | .conv 1 _ _ => true
  | .conv g ci co => decide (64 * g ≤ ci) && decide (64 * g ≤ co)
  | _ => false

/-- An operator that may run on the vector engine: depth-wise and grouped convolutions, pooling (R155, R157). -/
def onVector (k : WinKind) : Bool := match k with
  | .conv g ci _ => decide (2 ≤ g) || g == ci
  | _ => true

end Sys2Proof.Machine
end

