-- ==== Sys2Proof/Machine/Types.lean ====
section
/-! DEFINITION. The pieces the state is made of, block by block. All plain data. -/

namespace Sys2Proof.Machine

/-! ## The part and the Larder -/

/-- The five stack and edge-die combinations (R1). -/
inductive Variant where
  | m4e1 | m4e2 | m6e2 | m8e2 | m8e4
  deriving DecidableEq, Repr

/-- What manufacture fixes in one part (R5, R365, R414). -/
structure Part where
  variant : Variant
  /-- LID: liquid cold-plate lid (R4, R5). -/
  lidL : Bool
  stepLet : Nat
  stepNum : Nat
  /-- FDIS_SID and FDIS_NSID fuses (R365). -/
  fdisSid : Bool
  fdisNsid : Bool
  /-- Integrator key hash fuses; blank on a part as delivered (R414). -/
  intKey : Option (List Byte)
  deriving DecidableEq, Repr

/-- A change journal entry (Table 6 of chapter 13). -/
structure JEntry where
  seq : Nat
  boot : Nat
  time : Nat
  opcode : Nat
  port : Nat
  secure : Bool
  tenant : Nat
  object : Nat
  value : Nat
  deriving DecidableEq, Repr

/-- A wear log record (Table 8 of chapter 15). -/
structure WearRec where
  seq : Nat
  boot : Nat
  time : Nat
  kind : Nat
  action : Nat
  cause : Nat
  inst : Nat
  value : Nat
  deriving DecidableEq, Repr

/-- The retirement map of one cluster's tiles (R416). -/
structure TileMap where
  /-- The physical tile that holds the spare role, while the cluster has its spare. -/
  spare : Option Nat
  /-- Retired tiles. -/
  retired : List Nat
  deriving DecidableEq, Repr

/-- The Larder's retirement map (R403, R416). -/
structure RetMap where
  /-- Per cluster; a cluster not listed has its spare role on T12 and no retired tile (log 3). -/
  tiles : Map TileMap
  /-- Per compute die whose spare CCC is no longer unused: the CCC it serves, 0xFF when it was lost. -/
  ccc : Map Nat
  /-- Spare phases no longer unused (edge die × 256 + phase): the rail each serves, 0xFF when it was lost. -/
  phaseSub : Map Nat
  /-- Per edge die and rail (die × 16 + rail): phases out of service with no spare left. -/
  phaseOut : Map Nat
  /-- Per Svajor port: the physical lane the spare replaced, 0xFF when the spare itself was lost. -/
  laneSub : Map Nat
  /-- Svajor ports that run on two lanes (R377). -/
  laneOut : List Nat
  /-- Retired Skink cores, bit n (R310). -/
  skink : Nat
  /-- Every other unit retired: kind and instance. -/
  units : List (Nat × Nat)
  /-- Spares used by kind × 2^32 + scope: of a tile SRAM sub-array (tile × 256 + sub-array) or a cluster SRAM
  bank (cluster × 256 + bank) the rows and columns, of a DRAM bank (stack × 2^16 + bank) the rows. -/
  rows : Map (Nat × Nat)
  /-- 64-byte blocks of DRAM rows retired with no spare (R404). -/
  dead : List Nat
  /-- Retirements and repairs recorded, and those with no spare (PWR_WEAR RETIRED, NOSPARE). -/
  nRetired : Nat
  nNoSpare : Nat
  deriving DecidableEq, Repr

/-- One EV_SECLOSS notice (R356, R364): kind, instance, tenant, device time. -/
structure SecNotice where
  kind : Nat
  inst : Nat
  tenant : Nat
  time : Nat
  deriving DecidableEq, Repr

/-- The Larder, which alone keeps its contents across power-off (R9, Table 5 of chapter 13). -/
structure Larder where
  journal : List JEntry
  wear : List WearRec
  wearSeq : Nat
  map : RetMap
  boot : Nat
  jseq : Nat
  svnFloor : Nat
  user : Map Nat
  ssk : Option (List Byte)
  seclive : Bool
  notices : List SecNotice
  idIndex : Nat
  attIndex : Nat
  deriving DecidableEq, Repr

/-! ## Device state, reference, time -/

/-- Device states (Table 9 of chapter 02), in the order of their codes. -/
inductive DevSt where
  | off | init | awaitFw | selfTest | ready | run | degraded | safe | service
  deriving DecidableEq, Repr

/-- The device state machine (R57 to R62). -/
structure Dev where
  st : DevSt
  prev : DevSt
  /-- CAUSE of IDS_STATE. -/
  cause : Nat
  resets : Nat
  svcArmed : Bool
  svcFromSafe : Bool
  /-- RETIRED of IDS_STATE: a unit is retired with no spare (R58, R404). -/
  retired : Bool
  /-- DEV_STOP accepted and not yet complete: its token (R59). -/
  stopTok : Option Nat
  /-- DEV_RESET accepted; INIT has not begun (R62). -/
  resetPend : Bool
  deriving DecidableEq, Repr

/-- Reference monitor and frequency measurement (R30 to R36). -/
structure Clk where
  refOk : Bool
  refLost : Bool
  hold : Bool
  /-- Ticks of the 125 MHz time base that this hold has lasted, in all and in RUN or DEGRADED (R34, R35). -/
  holdT : Nat
  holdRunT : Nat
  missing : Bool
  range : Bool
  holdMs : Nat
  lock : Bool
  fselKind : Nat
  fselInst : Nat
  fmValid : Bool
  /-- The selection has seen the start of a measurement window (R36). -/
  fmArmed : Bool
  fmMinPct : Nat
  fmFreq : Nat
  /-- In the window that runs: the deepest stretch of the selected island in percent, and its lowest and
  highest clock in 0.1 MHz (R36). -/
  fwPct : Nat
  fwLo : Nat
  fwHi : Nat
  /-- DATA of EV_REFCLK reports delayed by a PMC restart (R34). -/
  refEvents : List (List Byte)
  deriving DecidableEq, Repr

/-! ## Host ports -/

/-- A reply, completion or event packet in an output FIFO (Table 6 of chapter 02). -/
structure OutPkt where
  opcode : Nat
  status : Nat
  evt : Bool
  cpl : Bool
  tag : Nat
  seq : Nat
  data : List Byte
  deriving DecidableEq, Repr

/-- An awaited completion; not live once the session that awaits it has ended (R49, R53). -/
structure Await where
  /-- The token that names the command inside the device (the model's own). -/
  tok : Nat
  opcode : Nat
  tag : Nat
  seq : Nat
  /-- Completion space reserved in the reply area (R52). -/
  space : Nat
  live : Bool
  deriving DecidableEq, Repr

/-- A packet in a port's input buffer (Table 5 of chapter 02). `bad` is the status of a framing
or CRC failure found on the wire (R50 steps 1 and 2). -/
structure InPkt where
  opcode : Nat
  tenant : Nat
  queue : Nat
  tag : Nat
  seq : Nat
  params : List Byte
  bad : Option Nat
  deriving DecidableEq, Repr

/-- One host port (R41 to R53, R68, R73, R352, R410). -/
structure PortSt where
  openS : Bool
  secure : Bool
  expSeq : Nat
  /-- TAG of the last packet that consumed a sequence number and the reply to it (R51). -/
  kept : Option (Nat × OutPkt)
  /-- Packets admitted and waiting their turn (R52). -/
  inb : List InPkt
  out : List OutPkt
  /-- The packet at the head was cut short by the end of a read transaction (R44). -/
  begun : Bool
  awaiting : List Await
  evCount : Nat
  /-- Events discarded since the last EV_LOST, and how many were safety events (R68). -/
  lostEv : Nat
  lostSafety : Nat
  evlost : Bool
  cpllost : Bool
  crcerr : Bool
  ovf : Bool
  discards : Nat
  crcerrs : Nat
  /-- Bytes the device drove in the data phase of the last read transaction. -/
  dq : List Byte
  /-- Secure-session exchange (R352): nonce, proof held, failed proofs, lockout. -/
  nonce : Option (List Byte)
  proveOk : Bool
  proveFails : Nat
  lockout : Bool
  deriving DecidableEq, Repr

/-! ## Tenants, queues, jobs -/

/-- Tenant states (Table 17 of chapter 02), in the order of their codes. -/
inductive TenSt where
  | closed | opened | quiesced | faulted
  deriving DecidableEq, Repr

/-- A partition (Table 11 of chapter 06): tile masks and cluster SRAM allowances by cluster. -/
structure Partition where
  tiles : Map Nat
  csram : Map Nat
  bwmin : Nat
  lcshare : Nat
  deriving DecidableEq, Repr

/-- The accounting words of a tenant (Table 13 of chapter 06); engine times in tile-ns. -/
structure Acct where
  etlc : Nat
  etbe : Nat
  /-- _HI words as latched. -/
  etlcHi : Nat
  etbeHi : Nat
  pre : Nat
  rty : Nat
  dbign : Nat
  whlc : Map Nat
  whbe : Map Nat
  deriving DecidableEq, Repr

/-- An MSI-X vector of a PCIe endpoint: its mask and pending bit, and the signals sent (R179). -/
structure MsixVec where
  mask : Bool
  pend : Bool
  sent : Nat
  deriving DecidableEq, Repr

/-- MSI-X of a PCIe endpoint: its enable, and the vectors by tenant. -/
structure PcieEp where
  enable : Bool
  vecs : Map MsixVec
  deriving DecidableEq, Repr

structure Tenant where
  st : TenSt
  /-- World of the session that opened it (R203). -/
  secure : Bool
  closing : Bool
  draining : Bool
  cause : Nat
  /-- The TENANT_QUIESCE or TENANT_CLOSE that awaits its drain. -/
  tok : Option Nat
  part : Partition
  acct : Acct
  /-- Virtual time (R183), in tile-µs × 1,024 ÷ LCSHARE. -/
  vt : Nat
  deriving DecidableEq, Repr

/-- A queue (R71, R172 to R178), keyed tenant × 16 + queue. -/
structure Queue where
  cls : Nat
  depth : Nat
  /-- Submission ring and completion ring addresses of a ring-fed queue. -/
  rings : Option (Nat × Nat)
  /-- Doorbell words SQ_TAIL and CQ_HEAD as last written (32 bits), and the device's counts. -/
  sqTail : Nat
  cqHead : Nat
  sqHead : Nat
  cqTail : Nat
  /-- Jobs taken since the queue was created; JOBSEQ is this modulo 2^32 (R172). -/
  nextSeq : Nat
  /-- The last SQ_TAIL write overran: no entry is taken on its strength (R175). -/
  overrun : Bool
  /-- Outcomes of JOBSEQ values: final status and PREEMPTS (R178, R196). -/
  outcomes : Map (Nat × Nat)
  deriving DecidableEq, Repr

inductive JobSt where
  | queued | running | preempted | committing
  deriving DecidableEq, Repr

/-- What a job is: a submitted job, a golden test, or an evaluation job (R107, R326). -/
inductive JobRole where
  | user | golden (idx : Nat) | eval (idx : Nat)
  deriving DecidableEq, Repr

/-- Where a frame in COMMITTING stands (R320, R322). -/
inductive ChkSt where
  | none | waiting | queued | taken
  deriving DecidableEq, Repr

/-- A remote read outstanding for a job (R187, R386). -/
structure RemRead where
  port : Nat
  token : Nat
  tile : Nat
  parked : Bool
  held : Option (List Byte)
  /-- To be issued again at resumption. -/
  reissue : Bool
  /-- Already reissued once (R386). -/
  again : Bool
  deriving DecidableEq, Repr

/-- A remote acknowledged write outstanding for a job. -/
structure RemWrite where
  token : Nat
  again : Bool
  deriving DecidableEq, Repr

/-- A window signature of copy A held by the comparator (R316, R317). -/
structure WinSig where
  /-- The position in IFACE of the output tensor it belongs to; then it enters the frame signature. -/
  iface : Option Nat
  layer : Nat
  window : Nat
  sig : Nat
  deriving DecidableEq, Repr

/-- The clear flags of a surface: their array, screen tiles in a row, CLEARVAL (R273). -/
structure ClearFlags where
  base : Nat
  cols : Nat
  val : List Nat
  deriving DecidableEq, Repr

/-- The surface of a display plane (R279). -/
structure Plane where
  base : Nat
  pitch : Nat
  fmt : Nat
  clear : Option ClearFlags
  deriving DecidableEq, Repr

/-- A flip that a job's commit requests (R280). -/
structure FlipReq where
  disp : Nat
  plane : Nat
  surf : Plane
  deriving DecidableEq, Repr

/-- A grid that a fusion call of a safety program wrote, with the mask of the same call (R323): addresses
of data stream, scale stream and mask, GX, GY, CELL in mm, OCCCH. -/
structure GridRef where
  data : Nat
  scale : Nat
  mask : Nat
  gx : Nat
  gy : Nat
  cellMm : Nat
  occ : Nat
  deriving DecidableEq, Repr

/-- A slot's partial sum of an output that waits for the others in cluster SRAM (R124): rows of FP32 or INT32 codes. -/
structure PartSum where
  out : Nat
  copyB : Bool
  lc : Nat
  slot : Nat
  rows : List (List Nat)
  deriving DecidableEq, Repr

/-- A job (R170 to R191), keyed by the order in which the device took it. -/
structure Job where
  tenant : Nat
  queue : Nat
  jobseq : Nat
  prog : Nat
  kind : Nat
  irq : Bool
  role : JobRole
  userTag : Nat
  args : Nat
  tlimit : Nat
  /-- Named dependencies: queue and JOBSEQ. -/
  deps : List (Nat × Nat)
  st : JobSt
  /-- Class of its queue: latency-critical (golden tests are dispatched in an order of their own). -/
  lc : Bool
  ring : Bool
  tok : Option Nat
  /-- Order of its first dispatch. -/
  dispNo : Nat
  tSubmit : Nat
  tDispatch : Option Nat
  /-- Its placement, and the tiles it holds with the device time since when. -/
  tiles : List Nat
  hold : Map Nat
  /-- Tiles it starts on as soon as the context on them is saved (R185). -/
  waitTiles : List Nat
  /-- Engine time consumed so far, tile-ns (R184). -/
  etime : Nat
  bank : Nat
  gen : Nat
  /-- Expected frame signature a golden test is compared with (R108). -/
  expSig : Nat
  /-- IFACE tensors it was given: address and extent of inputs and outputs (R177, R181). -/
  ins : List (Nat × Nat)
  outs : List (Nat × Nat)
  /-- The image it runs (a PROG_REPLACE may switch the program while it runs, R138). -/
  image : Nat
  preempts : Nat
  restarted : Bool
  degraded : Bool
  /-- Restarts on pair mismatches (R319). -/
  pairRestarts : Nat
  /-- Pre-emption requested; tiles whose slot has stopped (R185). -/
  stopReq : Bool
  stopped : List Nat
  /-- Stops at its next yield point with this status and cause (R190, R196). -/
  endAt : Option (Nat × Nat)
  reads : List RemRead
  writes : List RemWrite
  /-- Replies handed to its slots, newest first. -/
  got : List (Nat × List Byte)
  /-- Window signatures since its start, and those of its last checkpoint (R316 to R318). -/
  sigs : List WinSig
  ckSigs : List WinSig
  ckpt : Bool
  /-- Asynchronous reads (R313, R318): data in copy B's delay FIFO, data read since the last
  checkpoint, and how many of them this attempt has used. -/
  fifo : List (List Byte)
  replay : List (List Byte)
  replayAt : Nat
  /-- A mismatch found before a pre-emption waits for the resumption (R319). -/
  pendMis : Bool
  chk : ChkSt
  /-- A chain job: its other participants, and those that have reported to this master (R191). -/
  parts : List Nat
  reported : List Nat
  /-- Bytes 32 to 63 of the headers of outputs that a fusion call wrote, by tensor address (R263). -/
  hdrs : List (Nat × List Byte)
  grids : List GridRef
  /-- The checker has passed the frame. -/
  checked : Bool
  /-- Prepared here and waiting for the master's commit (R191). -/
  prepared : Bool
  flips : List FlipReq
  /-- Partial sums in the order in which they arrived (R124). -/
  partials : List PartSum
  /-- What copy B has written to output tensors: signed, then discarded (R315). -/
  bOut : Mem
  deriving DecidableEq, Repr

/-! ## Programs -/

/-- The binding of one logical cluster (R120 to R129). -/
structure LcBind where
  lc : Nat
  hasDeg : Bool
  /-- Slots of the placement in force. -/
  nslot : Nat
  degraded : Bool
  clA : Nat
  clB : Option Nat
  /-- Physical tiles (T0 to T12) of the slots, in slot order. -/
  tilesA : List Nat
  tilesB : List Nat
  /-- Tiles that left the slot map and keep their granules (R129). -/
  leftA : List Nat
  leftB : List Nat
  tgran : Nat
  cgran : Nat
  deriving DecidableEq, Repr

/-- One tensor of an image's IFACE section: output or input, extent in bytes (R177). -/
structure IfTensor where
  out : Bool
  extent : Nat
  deriving DecidableEq, Repr

/-- A halo buffer declaration (R149 to R151). Slots are named logical cluster × 16 + slot. -/
structure HaloDecl where
  depth : Nat
  producer : Nat
  consumer : Nat
  /-- Rows sent at step s are outputs of step s − lag (rule 1 of R151). -/
  lag : Nat
  deriving DecidableEq, Repr

/-- A logical-cluster record (Table 4 of chapter 04). -/
structure LcRec where
  diegrp : Nat
  nslot : Nat
  hasDeg : Bool
  tsram : Nat
  tsramD : Nat
  csram : Nat
  csramD : Nat
  resBytes : Nat
  sched : Nat
  schedD : Nat
  deriving DecidableEq, Repr

/-- A record of the tensor table of WEIGHTS (Table 9 of chapter 04): format byte, RESIDENT, LCMASK, and the
offsets and lengths of both streams in a bank. -/
structure WTensor where
  fmt : Nat
  resident : Bool
  lcmask : Nat
  dofs : Nat
  dlen : Nat
  sofs : Nat
  slen : Nat
  deriving DecidableEq, Repr

/-- What of an image stays with the program (R112, R113, R133, R135). -/
structure Image where
  kind : Nat
  flags : Nat
  nlc : Nat
  nfmode : Nat
  slotBytes : Nat
  dramBytes : Nat
  bankStride : Nat
  bankBytes : Nat
  fmtver : Nat
  iface : List Byte
  tensors : List IfTensor
  halos : List HaloDecl
  /-- Expected frame signatures of the golden inputs (R326). -/
  golden : List Nat
  /-- Program trained and EVAL_MS of its candidates, for KIND 2. -/
  trains : Nat
  trainMs : Nat
  /-- Halo declarations of the degraded placements (R153). -/
  halosD : List HaloDecl
  /-- Logical-cluster records, and the tensor table (R113, R131). -/
  lcs : List LcRec
  /-- Places of resident tensors in cluster SRAM: logical cluster, bank, tensor, offset (R132). -/
  resAt : List (Nat × Nat × Nat × Nat)
  weights : List WTensor
  /-- Fusion contexts that its calls name (R261). -/
  fctxs : List Nat
  /-- Other chain members on which its jobs write results (R191). -/
  parts : List Nat
  /-- The SCHEDULE section, with the shader and state tables of its render passes (R266). -/
  sched : List Byte
  storeBytes : Nat
  deriving DecidableEq, Repr

/-- A member of a sequence program's batch (R192). -/
structure Member where
  member : Nat
  pos : Nat
  /-- Slot-store pages it holds. -/
  pages : List Nat
  deriving DecidableEq, Repr

/-- A pending batch change (R192). -/
structure BatchChg where
  join : Bool
  member : Nat
  pages : Nat
  tok : Nat
  deriving DecidableEq, Repr

/-- A committed job of a program, for the sweep, READ and PATH: JOBSEQ, queue and the addresses
and extents of its output tensors (R335, Table 3 of chapter 12). -/
structure Recent where
  jobseq : Nat
  queue : Nat
  outs : List (Nat × Nat)
  grids : List GridRef
  deriving DecidableEq, Repr

/-- Standby bank states (Table 13 of chapter 03), in the order of their codes. -/
inductive BankSt where
  | free | writing | evaluating | accepted | draining
  deriving DecidableEq, Repr

/-- An image that a PROG_REPLACE has switched away from: its number, itself, its binding. -/
structure OldImg where
  no : Nat
  img : Image
  binds : List LcBind
  deriving DecidableEq, Repr

/-- A loaded program (R119 to R139, R104 to R111, R313 to R329), keyed by its handle. -/
structure Prog where
  tenant : Nat
  img : Image
  imageNo : Nat
  regBase : Nat
  regSize : Nat
  batch : Nat
  binds : List LcBind
  /-- Former images while their jobs run on (R138). -/
  old : List OldImg
  /-- Weight banks (R104, R105). -/
  live : Nat
  gen : Nat
  sb : BankSt
  sbHost : Bool
  /-- Job that writes the standby bank. -/
  sbJob : Option Nat
  reason : Nat
  /-- Golden signatures of an accepted candidate, and those gathered so far (R108). -/
  cand : Option (List Nat)
  candSigs : List Nat
  evalTok : Option Nat
  evalMs : Nat
  /-- Golden inputs the evaluation has still to run, counted from the last. -/
  evalLeft : Nat
  /-- Unload or in-place replacement under way: dispatch stopped. -/
  stopped : Bool
  unloadTok : Option Nat
  replacing : Bool
  /-- Safety program configuration (Table 7 of chapter 12); `gwinOn` is the GWIN_MS in force since the last pass or the
  first coverage, because a new one applies from the next pass. -/
  gwin : Nat
  gwinOn : Nat
  verdictUs : Nat
  retries : Nat
  gelig : Nat
  chkId : Nat
  /-- Golden tests and coverage (R326 to R328). -/
  expected : List Nat
  covered : Bool
  eligible : Bool
  gNext : Nat
  gPasses : Nat
  lastPass : Nat
  due : Nat
  lapsed : Bool
  /-- Failed flags of the last 16 completed frames, newest first (R322). -/
  frames : List Bool
  mismatch : Nat
  recent : List Recent
  /-- Sequence batch (R192). -/
  members : List Member
  changes : List BatchChg
  steps : Nat
  deriving DecidableEq, Repr

/-- Which step a PROG_LOAD, PROG_FITCHECK or PROG_REPLACE waits for. -/
inductive LoadSt where
  /-- MODE 1: in-flight jobs drain (R138). -/
  | draining
  /-- A PROG_LOAD or PROG_REPLACE, or a PROG_FITCHECK, waits for the steps of an earlier command
  (R119). -/
  | waitLoad
  | waitFit
  /-- Steps 1 to 8 passed; weights and schedule are being copied. -/
  | copying
  deriving DecidableEq, Repr

/-- A PROG_LOAD or PROG_REPLACE not yet completed (R119, R138, R412). -/
structure Load where
  tok : Nat
  tenant : Nat
  st : LoadSt
  img : Image
  imgAddr : Nat
  imgLen : Nat
  regBase : Nat
  regSize : Nat
  batch : Nat
  binds : List LcBind
  /-- Weight copies: source address, destination address, length (R411). -/
  copies : List (Nat × Nat × Nat)
  /-- Handle replaced and MODE, for PROG_REPLACE. -/
  replace : Option (Nat × Nat)
  /-- PARAMS, for the fit check of a MODE 1 replacement. -/
  params : List Byte
  deriving DecidableEq, Repr

/-- A record of a lost safety program (R329). -/
structure LostRec where
  tenant : Nat
  iface : List Byte
  prog : Nat
  deadline : Nat
  deriving DecidableEq, Repr

/-! ## Clusters -/

/-- Power mode of a cluster (R400 to R402). -/
inductive PowMode where
  | run | clockStopped | off
  deriving DecidableEq, Repr

/-- A line of a cluster cache (R214): world, tenant, line number; the oldest use first. -/
structure CLine where
  secure : Bool
  tenant : Nat
  line : Nat
  deriving DecidableEq, Repr

/-- One cluster: arithmetic status (R99), halo status (R154), cache (R214), stores (R78, R115),
power (R400, R401). -/
structure Cluster where
  skew : Bool
  qsat : Bool
  accsat : Bool
  ocsat : Bool
  nonfin : Bool
  nonfinCnt : Nat
  qsatCnt : Nat
  scaleTag : Nat
  dataTag : Nat
  expTag : Nat
  skTile : Nat
  skDma : Nat
  skGen : Bool
  skFmt : Bool
  stale : Bool
  haloDw : Nat
  haloSw : Nat
  /-- Non-resident texture samples (R271). -/
  nonres : Nat
  cache : List CLine
  /-- Accumulator stores: tile × 16 + block to the 4,096 values, row by row (R78). -/
  acc : Map (List Nat)
  /-- Tile and cluster SRAM: bytes at tile × 2^24 + offset, cluster SRAM as tile 13. -/
  sram : Mem
  mode : PowMode
  /-- Powered off by a thermal trip (R400). -/
  tripped : Bool
  deriving DecidableEq, Repr

/-- A halo buffer of a running job's copy A (0) or B (1) (R149 to R153): entries written and not yet
returned hold STEP, JOBTAG and rows, and space credits. -/
structure HaloBuf where
  job : Nat
  idx : Nat
  copy : Nat
  entries : List (Nat × Nat × List Byte)
  space : Nat
  deriving DecidableEq, Repr

/-! ## DRAM, ownership, regulation -/

/-- An ownership-table entry (Table 5 of chapter 07). -/
structure PageEnt where
  owner : Nat
  lock : Bool
  sidefx : Bool
  pref : Bool
  secure : Bool
  deriving DecidableEq, Repr

/-- An ownership command not yet completed (R209). -/
structure MemCmd where
  tok : Nat
  /-- Pages whose cached lines are still to be dropped: first and count. -/
  drop : List (Nat × Nat)
  deriving DecidableEq, Repr

/-- ECC counters of one stack (R201). -/
structure EccSt where
  ce : Nat
  ue : Nat
  soft : Nat
  deriving DecidableEq, Repr

/-- DRAM, its ownership table and its error state (R198 to R214). -/
structure MemSt where
  dram : Mem
  own : Map PageEnt
  poison : List Nat
  /-- Device times of a row's last corrected errors (R201). -/
  rowErr : Map (List Nat)
  ecc : Map EccSt
  viol : Bool
  ue : Bool
  ce : Bool
  violCnt : Nat
  violAddr : Nat
  /-- MEM_VIOL1 without ADDRHI: REASON, SOURCE, WORLD, WRITE, TENANT. -/
  violWord : Nat
  sfxDrop : Nat
  npfDrop : Nat
  cmds : List MemCmd
  /-- Data of the last DRAM read and whether the host read was poisoned or unsupported. -/
  rdata : List Byte
  rbad : Nat
  deriving DecidableEq, Repr

/-- The bandwidth regulator (R216 to R220). -/
structure Bwr where
  qhi : Nat
  qlo : Nat
  lock : Bool
  /-- BWR_LABELk: STREAM, PRIO, CALLOC; an unlisted label is at its reset value. -/
  labels : Map (Bool × Nat × Bool)
  /-- BWR_Tnn_CFG: CSHARE and WEIGHT; an unlisted tenant is at 16 and 16. -/
  cfg : Map (Nat × Nat)
  beats : Map Nat
  beatsHi : Map Nat
  lim : Map Nat
  c : Nat
  cbudget : Nat
  iso : Nat
  limited : Nat
  qavg : Nat
  /-- Demand of the last period, budgets and queue shares of the coming one. -/
  demand : List Nat
  budget : Map Nat
  qshare : Map Nat
  deriving DecidableEq, Repr

/-! ## The Colanders -/

/-- A Colander call (R160 to R168). -/
structure ClCall where
  job : Nat
  /-- Cluster of the issuing slot. -/
  cl : Nat
  lc : Bool
  desc : List Byte
  deriving DecidableEq, Repr

structure Colander where
  running : Option ClCall
  /-- A best-effort call that was pre-empted and keeps its place. -/
  saved : Option ClCall
  queue : List ClCall
  preempted : Bool
  preempts : Nat
  calls : Nat
  deriving DecidableEq, Repr

/-! ## Skink -/

/-- A rectangle of a display CRC region (R324). -/
structure DispRect where
  x : Nat
  y : Nat
  w : Nat
  h : Nat
  deriving DecidableEq, Repr

/-- A debug action in a replay log: logical cluster, slot, instruction position, offset and bytes of an SRAM write. -/
structure DbgLog where
  lc : Nat
  slot : Nat
  pos : Nat
  off : Nat
  bytes : List Byte
  deriving DecidableEq, Repr

/-- Skink, the pair comparators and the safe-state controller (R309 to R344). -/
structure Skk where
  latched : Bool
  cause : Nat
  ltime : Nat
  ltimeHi : Nat
  lprog : Nat
  ldetail : Nat
  armed : Bool
  chkrun : Bool
  debug : Bool
  sweepDone : Bool
  hbms : Nat
  skwdt : Nat
  pclock : Bool
  lapseLatch : Bool
  lock : Bool
  /-- Device time of the last KICK (R312). -/
  kickAt : Nat
  mismatch : Nat
  failfr : Nat
  dissA : Nat
  dissB : Nat
  dissC : Nat
  /-- Device times of each core's last dissents, newest first (R310). -/
  diss24 : Map (List Nat)
  bistDone : Bool
  bistFail : Nat
  bistKind : Nat
  bistInst : Nat
  /-- Jobs whose check requests are queued, and frames waiting for an entry (R320). -/
  chkq : List Nat
  chkWait : List Nat
  mbox : List Byte
  mboxCnt : Nat
  /-- Display regions by display × 4 + region: as programmed, as the frame in scanout uses them, and the
  CRC-64 over each in the last complete frame (R324). -/
  regions : Map DispRect
  regionsOn : Map DispRect
  crcs : Map Nat
  lost : List LostRec
  hbCount : Nat
  sram : Mem
  sramCorr : Nat
  /-- Result bytes of the last service call. -/
  result : List Byte
  /-- Replay log of each safety program (R340): the actions on copy A that wait for copy B. -/
  replay : Map (List DbgLog)
  deriving DecidableEq, Repr

/-! ## Firmware -/

/-- A bundle component entry (Table 3 of chapter 13). -/
structure Comp where
  typ : Nat
  offset : Nat
  len : Nat
  digest : List Byte
  deriving DecidableEq, Repr

/-- The bundle in force (R346, R348, R359, R365). -/
structure Bundle where
  ifrev : Nat
  svn : Nat
  comps : List Comp
  mdigest : List Byte
  checker : Bool
  chkDigest : List Byte
  /-- The bundle as verified: the protected image SRAMs and Skink hold its parts (R345). -/
  raw : List Byte
  deriving DecidableEq, Repr

/-- Firmware, worlds and debug enables (R345 to R365). -/
structure Fws where
  /-- Bundle in progress: TOTAL and the bytes received. -/
  part : Option (Nat × List Byte)
  /-- FW_END accepted and its verification running. -/
  verify : Option Nat
  loaded : Option Bundle
  loadFails : Nat
  pmcMs : Nat
  schMs : Nat
  secMs : Nat
  cccMs : Nat
  rstSec : Nat
  rstPmc : Nat
  rstSch : Nat
  /-- Restarts of each CCC and spare CCC since INIT, by processor code (R364). -/
  rstCcc : Map Nat
  /-- Device times of each CCC's restarts within the last 24 hours, newest first (R351). -/
  cccTimes : Map (List Nat)
  /-- Processors restarting now with the cause (R349), by processor code. -/
  restarting : Map Nat
  /-- Firmware log, oldest first: records of 64 bytes, marked secure (R351). -/
  log : List (Bool × List Byte)
  /-- Hardware journal buffer, oldest first (R361). -/
  jbuf : List JEntry
  attQuotes : Nat
  idQuotes : Nat
  lockS : Bool
  lockNs : Bool
  allowNs : Bool
  sid : Bool
  snid : Bool
  nsid : Bool
  nsnid : Bool
  /-- Units an invasive debugger is attached to: kind, instance, secure world. -/
  attached : List (Nat × Nat × Bool)
  deriving DecidableEq, Repr

/-! ## Scheduler words -/

/-- Scheduler state that belongs to no tenant (R133, R134, R171, R187, R191, R197). -/
structure Sch where
  parkUs : Nat
  parkExp : Nat
  parkDrop : Nat
  cseq : Nat
  epoch : Nat
  epochHi : Nat
  /-- Handle issued last, images loaded, jobs taken, first dispatches, commands accepted. -/
  lastHandle : Nat
  nImages : Nat
  nTaken : Nat
  nDisp : Nat
  nTok : Nat
  deriving DecidableEq, Repr

/-! ## Device time -/

/-- A gPTP domain (R234 to R236, Table 14 of chapter 08). -/
structure Dom where
  enabled : Bool
  mac : Nat
  domNum : Nat
  logSync : Int
  valid : Bool
  gm : Nat
  /-- Consecutive Syncs of one grandmaster, up to 4. -/
  run : Nat
  gmchg : Nat
  /-- Domain time minus device time at the last Sync, ns; the same less the steps made since; and by how much the two
  have run apart since, in units of 2^-32 ns ÷ 10^6. -/
  offset : Int
  serv : Int
  drift : Int
  /-- Measured rate of the domain against the reference, 2^-16 ppm. -/
  rate : Int
  /-- Device time of the last Sync accepted. -/
  lastSync : Option Nat
  deriving DecidableEq, Repr

/-- Device time and its discipline (R222 to R224, R234 to R243). -/
structure Time where
  ns : Nat
  /-- Fraction below 1 ns, in units of 2^-32 (top 16 bits published). -/
  frac : Nat
  /-- INC ÷ 8 ns − 1, in 2^-16 ppm, and the device time up to which the servo has moved it. -/
  rate : Int
  rateAt : Nat
  latHi : Nat
  latFr : Nat
  d0 : Dom
  d1 : Dom
  pref : Nat
  tauS : Nat
  revertS : Nat
  autostep : Bool
  /-- Active domain: 0, 1, or 3 for none. -/
  active : Nat
  switches : Nat
  /-- Since INIT, newest first: device times at which NOREF or HOLDOVER came into force (true) or no longer was
  (false), which FFLAGS[2] looks up at TV (R263). -/
  unsure : List (Nat × Bool)
  deriving DecidableEq, Repr

/-- A MAC's link, its rate in Mb/s (Table 1 of chapter 08), and its port's asCapable status (R234). -/
structure EthSt where
  link : Bool
  asCap : Bool
  mbps : Nat
  deriving DecidableEq, Repr

/-! ## Stream contexts -/

/-- Stream context states (Table 7 of chapter 08), in the order of their codes. -/
inductive CtxSt where
  | closed | idle | seeking | live | stalled
  deriving DecidableEq, Repr

/-- A unit in progress (R226 to R229); times in units of 2^-16 ns. -/
structure UnitSt where
  no : Nat
  tstart : Nat
  resync : Bool
  noref : Bool
  holdover : Bool
  domain : Nat
  buf : Nat
  bytes : Nat
  pkts : Nat
  pktErrs : Nat
  frame : Nat
  portInfo : Nat
  /-- OVERSIZE or LOCKED: nothing more is written, and it ends TRUNCATED. -/
  bad : Nat
  /-- The packet the clock map reads its sensor time in has come; its field, where it has one (R244). -/
  keyed : Bool
  field : Option Nat
  deriving DecidableEq, Repr

/-- A stream context (R225 to R233, Table 13 of chapter 08). -/
structure StreamCtx where
  st : CtxSt
  tenant : Nat
  kind : Nat
  port : Nat
  flags : Nat
  filter : List Byte
  unitPkts : Nat
  startOff : Nat
  startVal : Nat
  startMask : Nat
  period : Nat
  margin : Nat
  latency : Nat
  bufBase : Nat
  bufBytes : Nat
  nbuf : Nat
  ring : Nat
  started : Bool
  /-- Unit starts seen since STREAM_START. -/
  units : Nat
  tail : Nat
  done_ : Nat
  /-- The next unit carries RESYNC. -/
  resync : Bool
  unit : Option UnitSt
  truncs : Nat
  stalls : Nat
  drops : Nat
  dropsSince : Nat
  discards : Nat
  reason : Nat
  deriving DecidableEq, Repr

/-! ## Pulses, captures, timed launch -/

/-- Counts of a stream context that was closed: TRUNCS, STALLS, DROPS, DISCARDS (R233). -/
structure CtxLeft where
  truncs : Nat
  stalls : Nat
  drops : Nat
  discards : Nat
  deriving DecidableEq, Repr

/-- A pulse programme (R239, R240); times in units of 2^-16 ns. -/
structure PulseProg where
  start : Nat
  period : Nat
  width : Nat
  /-- 0 without end; 1 for a single pulse. -/
  count : Nat
  low : Bool
  deriving DecidableEq, Repr

structure Tpo where
  prog : Option PulseProg
  /-- Programme that replaces it after the pulse in progress. -/
  next : Option PulseProg
  /-- Edges produced, and the device time of the last. -/
  n : Nat
  edgeAt : Nat
  inPulse : Bool
  cancelled : Bool
  /-- Armed at least once since INIT: the output is driven, with this polarity (R239). -/
  driven : Bool
  low : Bool
  deriving DecidableEq, Repr

/-- A time capture input (R241): selected edges, FIFO of edge and time, lost edges. -/
structure Tci where
  edge : Nat
  fifo : List (Nat × Nat)
  lost : Nat
  deriving DecidableEq, Repr

/-- A launch ring of a MAC (R242). -/
structure Launch where
  tenant : Nat
  depth : Nat
  lateUs : Nat
  base : Nat
  ltail : Nat
  lhead : Nat
  deriving DecidableEq, Repr

/-! ## Clock maps (R244 to R247) -/

/-- A fit in force: d ≈ a + (1 + r) × s in ns, a and r as FP64 codes (R245). -/
structure Fit where
  a : Nat
  r : Nat
  deriving DecidableEq, Repr

/-- The frozen record of a unit: UNIT, tov in ns, map state (R247). -/
structure UnitRec where
  no : Nat
  tov : Int
  mst : Nat
  deriving DecidableEq, Repr

/-- A clock map. `mst` is 0 not configured, 1 ACQUIRING, 2 SYNC, 3 UNSYNCHRONISED. -/
structure ClockMap where
  cfg : Bool
  src : Nat
  flags : Nat
  kindSel : Nat
  off : Nat
  tickPs : Nat
  errNs : Nat
  ofsNs : Int
  nfit : Nat
  limPpm : Nat
  mst : Nat
  /-- Pairs kept, newest first: sensor time in ps, TSTART in 2^-16 ns. -/
  pairs : List (Int × Int)
  fit : Option Fit
  /-- Largest residual of the fit, ns, and whether both conditions of R246 held, for how many units. -/
  maperr : Nat
  good : Nat
  unsyncs : Nat
  /-- Unwrapped ticks of the previous unit. -/
  prev : Option Int
  table : List UnitRec
  deriving DecidableEq, Repr

/-! ## Fusion contexts (R244 to R265) -/

/-- A sensor's configuration (Table 10 of chapter 09); FP32 codes. -/
structure FusSensor where
  flags : Nat
  kind : Nat
  stream : Nat
  maxAge : Nat
  ext : List Nat
  fx : Nat
  fy : Nat
  cx : Nat
  cy : Nat
  sx : Nat
  sy : Nat
  dmin : Nat
  dmax : Nat
  nd : Nat
  stepT : Nat
  stepR : Nat
  limT : Nat
  limR : Nat
  deriving DecidableEq, Repr

/-- A sensor's correction (FP32 c_x, c_y, c_yaw) and its last 64 refinement frames, newest first:
true where no move was made (R255, R256). -/
structure FusCorr where
  cx : Nat
  cy : Nat
  cyaw : Nat
  still : List Bool
  deriving DecidableEq, Repr

/-- A track or candidate (R257 to R259); FP32 codes. -/
structure Track where
  /-- Track ID; for a candidate its slot. -/
  id : Nat
  /-- 0 CANDIDATE, 1 TENTATIVE, 2 CONFIRMED, 3 COASTING. -/
  st : Nat
  cls : Nat
  hits : Nat
  misses : Nat
  age : Nat
  /-- Consecutive associations since birth. -/
  run : Nat
  x : Nat
  y : Nat
  vx : Nat
  vy : Nat
  len : Nat
  wid : Nat
  score : Nat
  tlast : Nat
  deriving DecidableEq, Repr

/-- The state area of a fusion context (R260), with the report records and contested cells of the
call that wrote it. -/
structure FusState where
  corr : Map FusCorr
  tracks : List Track
  cands : List Track
  nextId : Nat
  lastTv : Nat
  report : Map (List Byte)
  ncont : Nat
  deriving DecidableEq, Repr

/-- A pending change (R264). -/
inductive FusChange where
  | sensor (i : Nat) (c : FusSensor)
  | reset (i : Nat)
  deriving DecidableEq, Repr

/-- What stays of a fusion context that was closed: jobs dispatched before its close (R264), and GEN, NCONT and TRACKS
(R265). -/
structure FusLeft where
  at_ : Nat
  gen : Nat
  ncont : Nat
  tracks : Nat
  deriving DecidableEq, Repr

/-- A fusion context (Table 9 of chapter 09). -/
structure FusCtx where
  tenant : Nat
  flags : Nat
  gx : Nat
  gy : Nat
  cellMm : Nat
  occ : Nat
  birthM : Nat
  birthN : Nat
  confC : Nat
  delK : Nat
  gateMm : Nat
  alpha : Nat
  beta : Nat
  wmin : Nat
  cthr : Nat
  hyst : Nat
  minCells : Nat
  sensors : Map FusSensor
  st : FusState
  gen : Nat
  /-- The other area: written by a job that has not committed. -/
  next : Option (Nat × FusState)
  /-- The job whose call has started from the committed generation and that has neither committed nor ended. -/
  began : Option Nat
  pend : List (Nat × FusChange)
  /-- FUS_CLOSE accepted: its token. -/
  closing : Option Nat
  deriving DecidableEq, Repr

/-- A fusion call (R248, R261); copy 0 is A. -/
structure FusCall where
  job : Nat
  cl : Nat
  copy : Nat
  lc : Bool
  desc : List Byte
  deriving DecidableEq, Repr

/-- A fusion engine: the call it runs, the best-effort call it pre-empted, the calls that wait. -/
structure FusEng where
  running : Option FusCall
  saved : Option FusCall
  queue : List FusCall
  deriving DecidableEq, Repr

/-! ## Render contexts and displays (R266 to R284) -/

/-- A render pass that a slot issued (Table 2 of chapter 10). -/
structure RPass where
  job : Nat
  cl : Nat
  lc : Bool
  desc : List Byte
  deriving DecidableEq, Repr

/-- A primitive in the pool: shader pair, state, its triangles, and the screen tiles that list it (R268). -/
structure RPrim where
  shader : Nat
  fixed : Nat
  tris : List (List WinVtx)
  tiles : List Nat
  deriving DecidableEq, Repr

/-- A pass that has started: pass block, locked ranges, and the primitives of each rendering phase (R271). -/
structure RRun where
  pass : RPass
  blk : List Byte
  locks : List (Nat × Nat)
  phases : List (List RPrim)
  deriving DecidableEq, Repr

structure RasCtx where
  tenant : Nat
  poolMib : Nat
  poolBase : Nat
  running : Option RRun
  flushes : Nat
  peak : Nat
  passes : Nat
  closing : Option Nat
  deriving DecidableEq, Repr

/-- A DISP_CFG whose training runs: token, tenant, parameters, and the state to go back to. -/
structure Train where
  tok : Nat
  tenant : Nat
  ps : List Byte
  prev : Nat
  deriving DecidableEq, Repr

/-- A display output; `cfg` is the 48 bytes of the DISP_CFG in force. -/
structure Disp where
  owner : Option Nat
  cfg : List Byte
  /-- 0 off, 1 training, 2 scanning, 3 link lost. -/
  st : Nat
  hpd : Bool
  base : Option Plane
  overlay : Option Plane
  /-- Flips latched, with the device time of the latch (R280). -/
  nbase : Option (Plane × Nat)
  noverlay : Option (Plane × Nat)
  flipSkip : Nat
  underrun : Bool
  underruns : Nat
  frames : Nat
  train : Option Train
  /-- Pixels of the present frame that scanout did not deliver in time (R279). -/
  under : List (Nat × Nat)
  deriving DecidableEq, Repr

/-- Raster words outside the contexts (Table 12 of chapter 10). -/
structure RasSt where
  nfprim : Nat
  rtlock : Bool
  nonres : Bool
  /-- FLUSHES and PASSES of contexts that are closed (R284). -/
  counts : Map (Nat × Nat)
  deriving DecidableEq, Repr

/-! ## Control engines and motion I/O (R285 to R308) -/

/-- A control loop (Tables 4 and 5 of chapter 11); signals are integers. -/
structure Loop where
  live : List Byte
  standby : List Byte
  /-- 0 DISABLED, 1 ENABLED, 2 TRIPPED, 3 HALTED. -/
  st : Nat
  cause : Nat
  accsat : Bool
  feover : Bool
  ist : Int
  dst : Int
  ePrev : Int
  yPrev : Int
  /-- The next sample is the first since the loop was enabled (R291). -/
  first : Bool
  u : Int
  /-- Following-error timer, ns, and the tick of the previous sample. -/
  timer : Nat
  last : Option Nat
  /-- FEACT 0 has reported since the timer was last clear. -/
  feRep : Bool
  /-- Values of the last sample: e, p, d, feedforward, v, flags (Table 8). -/
  e : Int
  p : Int
  dd : Int
  ff : Int
  v : Int
  flags : Nat
  /-- A channel that the loop reads has had an input fault since its last sample (R296). -/
  inFault : Bool
  deriving DecidableEq, Repr

/-- A swap that is pending (R294). -/
structure Swap where
  tok : Nat
  mask : Nat
  bumpless : Bool
  tick : Nat
  deriving DecidableEq, Repr

/-- A trace (R299). -/
structure Trace where
  nn : Nat
  trig : Nat
  edge : Nat
  nodes : List Nat
  tdiv : Nat
  pre : Nat
  tnode : Nat
  thresh : Int
  /-- 0 idle, 1 armed, 2 triggered, 3 done. -/
  st : Nat
  /-- Samples, newest first: tick and values. -/
  samples : List (Nat × List Int)
  /-- Samples kept from before the trigger, and samples still to record. -/
  npre : Nat
  left : Nat
  /-- TNODE at the last sample. -/
  prev : Option Int
  deriving DecidableEq, Repr

/-- A CTL_TRACE_DUMP that is not yet written: token, tenant, address, and the bytes of the trace at its turn (R300). -/
structure TraceDump where
  tok : Nat
  tenant : Nat
  addr : Nat
  bytes : List Byte
  deriving DecidableEq, Repr

structure Engine where
  owner : Option Nat
  loops : Map Loop
  /-- Setpoint registers, and writes that wait: tick, register, value. -/
  sp : Map Int
  spPend : List (Nat × Nat × Int)
  /-- CTL_ENABLE and CTL_DISABLE that wait: tick, mask, enable. -/
  enPend : List (Nat × Nat × Bool)
  swaps : List Swap
  /-- A halt at the next tick: cause 3 SAFE or 4 TENANT (R298). -/
  halt : Option Nat
  /-- Group outputs and winning loops by group number 1 to 16. -/
  gout : Map Int
  gwin : Map Nat
  /-- Last tick, and the outputs of loops and groups before it (R288). -/
  tick : Option Nat
  pu : Map Int
  pg : Map Int
  trip : Bool
  late : Nat
  trips : Nat
  trace : Trace
  dumps : List TraceDump
  deriving DecidableEq, Repr

/-- A PWM channel: owner, the 16 bytes of CTL_IO_CFG in force (none before the first), compare value, and the parts of
the period in which it is active, from and to in ns. -/
structure Pwm where
  owner : Option Nat
  cfg : Option (List Byte)
  c : Nat
  active : List (Nat × Nat)
  deriving DecidableEq, Repr

/-- A sigma-delta channel. -/
structure SdCh where
  owner : Option Nat
  cfg : List Byte
  /-- Bits received, newest first. -/
  win : List Bool
  node : Int
  fault : Bool
  /-- The cause of the fault persists. -/
  bad : Bool
  errs : Nat
  deriving DecidableEq, Repr

/-- An encoder or SENT channel. -/
structure EncCh where
  owner : Option Nat
  cfg : List Byte
  count : Int
  /-- Counter as at the last ticks, newest first. -/
  hist : List Int
  homed : Bool
  n1 : Int
  n2 : Int
  /-- Last synchronisation pulse in ns; status nibbles, newest first; last serial message. -/
  sync : Option Nat
  stat : List Nat
  slowId : Nat
  slowEnh : Bool
  slowData : Nat
  fault : Bool
  bad : Bool
  errs : Nat
  deriving DecidableEq, Repr

/-! ## Gateway (R366 to R374) -/

/-- A routing-table entry with its 32 bytes, its hits and its token bucket: millionths of a frame, and the
device time of the last refill. -/
structure RouteEnt where
  raw : List Byte
  hits : Nat
  tokens : Nat
  filled : Nat
  deriving DecidableEq, Repr

/-- A tenant gateway ring (R369). -/
structure GwRing where
  tenant : Nat
  depth : Nat
  slot : Nat
  tx : Nat
  rx : Nat
  txTail : Nat
  rxDone : Nat
  txHead : Nat
  rxTail : Nat
  seq : Nat
  deriving DecidableEq, Repr

/-- A frame that waits in a controller or MAC: PRIO, device time of its arrival there, kind, identifier,
FD and BRS, DLC (of a CAN frame), data (for a MAC the whole frame). -/
structure TxFrame where
  prio : Nat
  since : Nat
  kind : Nat
  id : Nat
  flags : Nat
  dlc : Nat
  data : List Byte
  deriving DecidableEq, Repr

/-- ISOBUS address claiming on a controller (R371): preferred address, range, NAME, the address it claims
now, and the address held (254 when it claimed the null address). -/
structure IsoCfg where
  pref : Nat
  lo : Nat
  hi : Nat
  name : Nat
  claim : Nat
  addr : Option Nat
  deriving DecidableEq, Repr

/-- A frame that leaves, with the claimed address it carries as source address on ISOBUS (R371). -/
structure TxOut where
  frame : TxFrame
  sa : Option Nat
  deriving DecidableEq, Repr

/-- A CAN controller or MAC on the transmit side: the 20 bytes of GW_PORT_CFG, none before the first; what has left it
since the last tick. -/
structure NetPort where
  cfg : List Byte
  iso : Option IsoCfg
  txq : List TxFrame
  sent : List TxOut
  deriving DecidableEq, Repr

structure Gwy where
  routes : Map RouteEnt
  rings : Map GwRing
  /-- By port code of Table 1 of chapter 14. -/
  ports : Map NetPort
  pwerr : Bool
  pwerrCnt : Nat
  noroute : Bool
  norouteCnt : Nat
  drops : Nat
  /-- The report recorded: OUTID, GWY_PWERR1, entry. -/
  e0 : Nat
  e1 : Nat
  e2 : Nat
  /-- Device time of the last report sent for an entry of a device (device × 8,192 + entry, R373). -/
  reps : Map Nat
  deriving DecidableEq, Repr

/-! ## Svajor ports and the chain (R375 to R386) -/

/-- A C3 packet stored at an egress port (R378), in the lower or the upper set of buffers (R372). -/
structure C3Pkt where
  gen : Nat
  dst : Nat
  upper : Bool
  post : Posted
  deriving DecidableEq, Repr

/-- A Svajor port (Tables 6, 13 and 14 of chapter 14). -/
structure SlPort where
  lstate : Nat
  signal : Bool
  lanes : Nat
  width : Nat
  dly : Nat
  replays : Nat
  corr : Nat
  uncorr : Nat
  peerId : Nat
  peerPart : Nat
  peerMember : Bool
  /-- It trains again on two lanes (R377). -/
  retrain : Bool
  c3 : List C3Pkt
  deriving DecidableEq, Repr

/-- A change the master makes at the next epoch advance (R383, R384): a device joins through `via` (at `port` where that
is the master), a member goes, a link between two members has come UP, routes are computed anew. -/
inductive ChainOp where
  | join (id role via port dly epoch : Nat)
  | remove (id : Nat)
  | link (a b dly : Nat)
  | reroute
  deriving DecidableEq, Repr

/-- A C0 message that waits to leave (R373, R382 to R384): an error report to a device, a join request
through a port, a refusal or an epoch advance of the master, an acknowledgement, a report of a port that
went DOWN or of a link's delay, a wish to leave, word that the chain latency exceeds the budget, a participant's prepare
report and the master's commit of a chain job. -/
inductive C0Msg where
  | report (dst reason outport outdev ident idx tenant : Nat)
  | join (port chainId role epoch reqId st : Nat)
  | refused (via reason : Nat)
  | advance (epoch gen : Nat)
  | ack (epoch : Nat)
  | portDown (a b : Nat)
  | leave (id : Nat)
  | linkDly (a b dly : Nat)
  | overBudget
  | prepared (job : Nat)
  | commit (job epoch : Nat)
  deriving DecidableEq, Repr

structure Chn where
  /-- The 24 bytes of CHN_CFG, none before the first. -/
  cfg : List Byte
  /-- Table 11 of chapter 14: 0 DISABLED to 4 ORPHAN. -/
  st : Nat
  devid : Nat
  role : Nat
  master : Nat
  /-- Members known, with their roles; links between members, known to the master. -/
  members : Map Nat
  links : List ChLink
  gen : Nat
  lat : Nat
  /-- Route table in force; the one before it, with the device time until which it is held. -/
  table : Map Nat
  old : Map Nat
  oldUntil : Nat
  pend : List ChainOp
  leaveTok : Option Nat
  evicts : List (Nat × Nat)
  /-- An epoch received that prepared chain jobs keep from being adopted (R191). -/
  advTo : Option Nat
  /-- The last answer to a remote request: token, success, data (R372). -/
  answer : Option (Nat × Bool × List Byte)
  /-- C0 messages that wait to leave. -/
  sent : List C0Msg
  deriving DecidableEq, Repr

/-! ## Supply, droop, temperature (R391 to R408) -/

structure Pow where
  cap : Nat
  capmax : Nat
  dramRate : Nat
  lockCfg : Bool
  /-- Throttle factor in 64ths, and the thermal factor of a die below 64. -/
  f : Nat
  therm : Map Nat
  fastlim : Bool
  phaseflt : Bool
  thermtrip : Bool
  /-- Clusters hot-stretched, bit n. -/
  hot : Nat
  /-- A VIN droop stretch: device time of the trigger; percent of target. -/
  droop : Option Nat
  droopPct : Nat
  /-- Rail-triggered stretches by kind × 256 + instance: percent of target. -/
  rail : Map Nat
  vdroops : Nat
  rdroops : Nat
  droopV : Nat
  lockDroop : Bool
  tthrot : Nat
  lockT : Bool
  tjmax : Nat
  thbm : Nat
  trips : Nat
  vin : Nat
  iin : Nat
  peak : Nat
  mean : Nat
  /-- Gated blocks, by KIND × 256 + instance: 1 clock-stopped, 2 powered off (R401). -/
  gates : Map Nat
  /-- Accepted PWR_GATE commands whose block is not yet in its mode: token, KIND, instance, MODE. -/
  gatePend : List (Nat × Nat × Nat × Nat)
  /-- A fast-limit stretch is in force until the PMC's next interval (R395). -/
  fastOn : Bool
  /-- Samples of VIN in mV and input current in 10 mA, newest first: the last 1,000, 10 ms (R415). -/
  samples : List (Nat × Nat)
  /-- Device times of the corrected errors of the last 24 hours in a row or column of tile or cluster SRAM
  (Table 7 of chapter 15). -/
  sramErr : Map (List Nat)
  /-- Stacks refreshed at twice the normal rate, bit k. -/
  refresh2 : Nat
  warns : Nat
  deriving DecidableEq, Repr

end Sys2Proof.Machine
end

