-- ==== Sys2Proof/Machine/State.lean ====
section
/-! DEFINITION. The state of the block, right after reset, and the reasons a command can stop. -/

namespace Sys2Proof.Machine

/-- Everything the manual gives the device, and the queue of the commands that wait. -/
structure State where
  part : Part
  larder : Larder
  dev : Dev
  clk : Clk
  time : Time
  hp0 : PortSt
  hp1 : PortSt
  /-- By tenant number; a tenant not listed was never opened since INIT. -/
  tens : Map Tenant
  /-- By tenant × 16 + queue. -/
  queues : Map Queue
  /-- PCIe endpoints by edge die (R179). -/
  pcie : Map PcieEp
  jobs : Map Job
  /-- By handle. -/
  progs : Map Prog
  loads : List Load
  sch : Sch
  /-- By cluster; a cluster not listed is at its reset state. -/
  cls : Map Cluster
  halos : List HaloBuf
  cld0 : Colander
  cld1 : Colander
  /-- By number: MACs, stream contexts, their clock maps, pulse outputs, capture inputs, launch rings. -/
  eth : Map EthSt
  ctxs : Map StreamCtx
  maps : Map ClockMap
  tpos : Map Tpo
  tcis : Map Tci
  launch : Map Launch
  /-- Open fusion contexts, and the engines of the two dies. -/
  fctxs : Map FusCtx
  /-- What stays of the fusion contexts and of the stream contexts that were closed. -/
  fclosed : Map FusLeft
  ctxLeft : Map CtxLeft
  feng0 : FusEng
  feng1 : FusEng
  /-- Render contexts open, passes that wait, displays configured at least once, raster status. -/
  rctxs : Map RasCtx
  rwait : List RPass
  disps : Map Disp
  ras : RasSt
  /-- Control engines and motion channels; configurations that wait for the next tick (channel kind,
  channel, parameters); last tick of each edge die. -/
  ces : Map Engine
  pwms : Map Pwm
  sds : Map SdCh
  encs : Map EncCh
  ioPend : List (Nat × Nat × List Byte)
  dieTick : Map Nat
  mem : MemSt
  bwr : Bwr
  skk : Skk
  /-- Gateway, Svajor ports by number, chain membership, supply and thermal state. -/
  gwy : Gwy
  sls : Map SlPort
  chn : Chn
  pow : Pow
  fws : Fws
  /-- Completions that wait for the restart of the processor that executes their commands (R350): token, status,
  data. -/
  heldCpl : List (Nat × Nat × List Byte)
  /-- Advanced for every free value the model takes (log 9). -/
  freeCtr : Nat
  /-- The commands that wait, first in, first out. -/
  pending : List Instr
  deriving DecidableEq, Repr

/-- Why a command stops the model. No command raises one: every command of the table has an effect
or leaves the state as it is. -/
inductive Fault where
  /-- Raised by no command; safe. -/
  | never
  deriving DecidableEq, Repr

/-- Why a command has no meaning. -/
inductive Refusal where
  /-- The command is not modelled; safe. -/
  | notModelled (mnemonic : String)
  deriving DecidableEq, Repr

/-! ## The machine right after a start -/

/-- Highest selectable power cap in W. -/
def Variant.capW : Variant → Nat
  | .m4e1 => 400
  | .m4e2 => 425
  | .m6e2 => 475
  | .m8e2 => 500
  | .m8e4 => 550

/-- A host port after INIT (R45, R73, R410). -/
def PortSt.init : PortSt :=
  { openS := false, secure := false, expSeq := 0, kept := none, inb := [], out := [], begun := false, awaiting := [],
    evCount := 0, lostEv := 0, lostSafety := 0, evlost := false, cpllost := false, crcerr := false, ovf := false,
    discards := 0, crcerrs := 0, dq := [], nonce := none, proveOk := false, proveFails := 0, lockout := false }

def Clk.init : Clk :=
  { refOk := true, refLost := false, hold := false, holdT := 0, holdRunT := 0, missing := false, range := false,
    holdMs := 10, lock := false, fselKind := 0, fselInst := 0, fmValid := false, fmArmed := false, fmMinPct := 0,
    fmFreq := 0, fwPct := 100, fwLo := 20000, fwHi := 20000, refEvents := [] }

/-- A domain that is not configured. -/
def Dom.init : Dom := ⟨false, 0, 0, 0, false, 0, 0, 0, 0, 0, 0, 0, none⟩

def Time.init : Time :=
  { ns := 0, frac := 0, rate := 0, rateAt := 0, latHi := 0, latFr := 0x20000, d0 := Dom.init, d1 := Dom.init, pref := 0,
    tauS := 8, revertS := 10, autostep := false, active := 3, switches := 0, unsure := [] }

def Sch.init : Sch :=
  { parkUs := 1000, parkExp := 0, parkDrop := 0, cseq := 0, epoch := 0, epochHi := 0, lastHandle := 0, nImages := 0,
    nTaken := 0, nDisp := 0, nTok := 0 }

def MemSt.init : MemSt :=
  { dram := Mem.empty, own := Map.empty, poison := [], rowErr := Map.empty, ecc := Map.empty, viol := false,
    ue := false, ce := false, violCnt := 0, violAddr := 0, violWord := 0, sfxDrop := 0, npfDrop := 0, cmds := [],
    rdata := [], rbad := 0 }

def Bwr.init : Bwr :=
  { qhi := 0x4B, qlo := 0x19, lock := false, labels := Map.empty, cfg := Map.empty, beats := Map.empty,
    beatsHi := Map.empty, lim := Map.empty, c := 0, cbudget := 0, iso := 0, limited := 0, qavg := 0, demand := [],
    budget := Map.empty, qshare := Map.empty }

def Skk.init : Skk :=
  { latched := false, cause := 0, ltime := 0, ltimeHi := 0, lprog := 0, ldetail := 0, armed := false,
    chkrun := false, debug := false, sweepDone := false, hbms := 10, skwdt := 10, pclock := false,
    lapseLatch := false, lock := false, mismatch := 0, failfr := 0, dissA := 0, dissB := 0, dissC := 0,
    diss24 := Map.empty, bistDone := false, bistFail := 0, bistKind := 0, bistInst := 0, chkq := [], chkWait := [],
    mbox := [], mboxCnt := 0, kickAt := 0, regions := Map.empty, regionsOn := Map.empty, crcs := Map.empty, lost := [],
    hbCount := 0, sram := Mem.empty, sramCorr := 0, result := [], replay := Map.empty }

def Fws.init : Fws :=
  { part := none, verify := none, loaded := none, loadFails := 0, pmcMs := 20, schMs := 10, secMs := 100, cccMs := 10,
    rstSec := 0, rstPmc := 0, rstSch := 0, rstCcc := Map.empty, cccTimes := Map.empty, restarting := Map.empty,
    log := [], jbuf := [], attQuotes := 0, idQuotes := 0, lockS := false, lockNs := false, allowNs := false,
    sid := false, snid := false, nsid := false, nsnid := false, attached := [] }

def Gwy.init : Gwy :=
  { routes := Map.empty, rings := Map.empty, ports := Map.empty, pwerr := false, pwerrCnt := 0, noroute := false,
    norouteCnt := 0, drops := 0, e0 := 0, e1 := 0, e2 := 0, reps := Map.empty }

def Chn.init : Chn :=
  { cfg := [], st := 0, devid := 0, role := 0, master := 0, members := Map.empty, links := [], gen := 0, lat := 0,
    table := Map.empty, old := Map.empty, oldUntil := 0, pend := [], leaveTok := none, evicts := [], advTo := none,
    answer := none, sent := [] }

def Pow.init (v : Variant) : Pow :=
  { cap := 6, capmax := v.capW / 25, dramRate := 0, lockCfg := false, f := 64, therm := Map.empty, fastlim := false,
    phaseflt := false, thermtrip := false, hot := 0, droop := none, droopPct := 100, rail := Map.empty, vdroops := 0,
    rdroops := 0, droopV := 0x66, lockDroop := false, tthrot := 0x69, lockT := false, tjmax := 0, thbm := 0,
    trips := 0, vin := 0, iin := 0, peak := 0, mean := 0, gates := Map.empty, gatePend := [], fastOn := false,
    samples := [], sramErr := Map.empty, refresh2 := 0, warns := 0 }

/-- A part and its Larder as INIT leaves them: every other field at its reset value, in AWAIT_FW, the state of
the first possible read (Table 12 of chapter 02). -/
def State.fresh (p : Part) (l : Larder) : State :=
  { part := p, larder := l,
    dev := ⟨.awaitFw, .init, 0, 0, false, false, l.map.nNoSpare != 0, none, false⟩,
    clk := Clk.init, time := Time.init, hp0 := PortSt.init, hp1 := PortSt.init, tens := Map.empty,
    queues := Map.empty, pcie := Map.empty, jobs := Map.empty, progs := Map.empty, loads := [], sch := Sch.init, cls := Map.empty,
    halos := [], cld0 := ⟨none, none, [], false, 0, 0⟩, cld1 := ⟨none, none, [], false, 0, 0⟩, eth := Map.empty,
    ctxs := Map.empty, maps := Map.empty, tpos := Map.empty, tcis := Map.empty, launch := Map.empty,
    fctxs := Map.empty, fclosed := Map.empty, ctxLeft := Map.empty, feng0 := ⟨none, none, []⟩, feng1 := ⟨none, none, []⟩,
    rctxs := Map.empty, rwait := [], disps := Map.empty, ras := ⟨0, false, false, Map.empty⟩, ces := Map.empty,
    pwms := Map.empty, sds := Map.empty, encs := Map.empty, ioPend := [], dieTick := Map.empty, mem := MemSt.init,
    bwr := Bwr.init, skk := Skk.init, gwy := Gwy.init, sls := Map.empty, chn := Chn.init, pow := Pow.init p.variant,
    fws := Fws.init, heldCpl := [], freeCtr := 0, pending := [] }

/-- A retirement map as manufacture leaves it: every spare unused (log 3). -/
def RetMap.new : RetMap :=
  { tiles := Map.empty, ccc := Map.empty, phaseSub := Map.empty, phaseOut := Map.empty, laneSub := Map.empty,
    laneOut := [], skink := 0, units := [], rows := Map.empty, dead := [], nRetired := 0, nNoSpare := 0 }

/-- The Larder of a new part in its first start (log 3). -/
def Larder.new : Larder :=
  { journal := [], wear := [], wearSeq := 0, map := RetMap.new, boot := 1, jseq := 0, svnFloor := 0,
    user := Map.empty, ssk := none, seclive := false, notices := [], idIndex := 0, attIndex := 0 }

/-- A ZNX-9640-M8E4-A of stepping A0, as delivered (log 3). -/
def Part.reset : Part := ⟨.m8e4, false, 1, 0, false, false, none⟩

/-- The block right after reset: a new part in its first start, in AWAIT_FW. -/
def State.reset : State := State.fresh Part.reset Larder.new

end Sys2Proof.Machine
end

