-- ==== Sys2Proof/Machine/Ops.lean ====
section
/-! DEFINITION. The named operations on the state that commands and events share: instances present
(R1 to R3), host ports and their FIFOs (R41 to R55), events (R68, R410), tokens of accepted
commands (R48, R53), device state (R57, R60) and the journal buffer (R361). -/

namespace Sys2Proof.Machine

/-! ## Instances present (Table 1 of chapter 00) -/

def Variant.nHbm : Variant → Nat
  | .m4e1 | .m4e2 => 4
  | .m6e2 => 6
  | .m8e2 | .m8e4 => 8

def Variant.edies : Variant → Nat
  | .m4e1 => 1
  | .m4e2 | .m6e2 | .m8e2 => 2
  | .m8e4 => 4

def State.nHbm (s : State) : Nat := s.part.variant.nHbm
def State.edies (s : State) : Nat := s.part.variant.edies
def State.nStreams (s : State) : Nat := 24 * s.edies
def State.nMacs (s : State) : Nat := 2 * s.edies
def State.nCsi (s : State) : Nat := 8 * s.edies
def State.nCan (s : State) : Nat := 4 * s.edies
def State.nCe (s : State) : Nat := 4 * s.edies
def State.nDisp (s : State) : Nat := s.edies
def State.nSl (s : State) : Nat := 2 * s.edies
/-- PCIe endpoints: ED0, and ED1 where present (R2). -/
def State.nEp (s : State) : Nat := min 2 s.edies

/-- Stepping as IDS_VARIANT [23:16] codes it. -/
def State.stepping (s : State) : Nat := s.part.stepLet * 16 + s.part.stepNum

/-! ## Status codes (Table 8 of chapter 02) -/

def OK : Nat := 0x00
def ACCEPTED : Nat := 0x01
def BAD_OPCODE : Nat := 0x10
def BAD_LENGTH : Nat := 0x11
def BAD_PARAM : Nat := 0x12
def BAD_CRC : Nat := 0x13
def BAD_SEQUENCE : Nat := 0x14
def STATE : Nat := 0x20
def DENIED : Nat := 0x21
def NO_RESOURCE : Nat := 0x30
def NOT_FIT : Nat := 0x31
def RETRY_LATER : Nat := 0x32
def PLACEMENT_LOST : Nat := 0x33
def TIMEOUT : Nat := 0x40
def FAULT : Nat := 0x41
def SCALE_SKEW : Nat := 0x42
def TRUNCATED : Nat := 0x43
def INVALID_OUTPUT : Nat := 0x50
def INTERNAL : Nat := 0xFF

/-! ## Host ports -/

/-- One port's state. -/
def State.port (s : State) (p : Port) : PortSt :=
  match p with
  | .hp0 => s.hp0
  | .hp1 => s.hp1

/-- Replace one port's state. -/
def State.setPort (s : State) (p : Port) (v : PortSt) : State :=
  match p with
  | .hp0 => { s with hp0 := v }
  | .hp1 => { s with hp1 := v }

/-- Number of a port as instance names and journal entries give it. -/
def portNum (p : Port) : Nat :=
  match p with
  | .hp0 => 0
  | .hp1 => 1

/-- Length of a reply or event packet (R48). -/
def OutPkt.len (o : OutPkt) : Nat := 14 + o.data.length

/-- Length of a command packet (R46). -/
def InPkt.len (k : InPkt) : Nat := 14 + k.params.length

/-- The bytes of a reply or event packet (Table 6 of chapter 02, R47). -/
def OutPkt.bytes (o : OutPkt) : List Byte :=
  let body := leBytes 2 o.opcode ++ leBytes 1 o.status ++ leBytes 1 (b2n o.evt + 2 * b2n o.cpl)
    ++ leBytes 2 o.tag ++ leBytes 2 o.data.length ++ leBytes 2 o.seq ++ o.data
  body ++ leBytes 4 (crc32c body)

/-- Sum of packet lengths. -/
def pktBytes (l : List OutPkt) : Nat := l.foldl (fun a o => a + o.len) 0

/-- Bytes of replies and completions in a FIFO (R52). -/
def PortSt.replyBytes (v : PortSt) : Nat := pktBytes (v.out.filter (fun o => !o.evt))

/-- Space reserved for completions still awaited (R52). -/
def PortSt.reserved (v : PortSt) : Nat := v.awaiting.foldl (fun a w => a + w.space) 0

/-- The 240 KiB reply area. -/
def replyArea : Nat := 240 * 1024

/-- Place a reply or completion at the end of a FIFO. -/
def putReply (p : Port) (o : OutPkt) (s : State) : State :=
  let v := s.port p
  s.setPort p { v with out := v.out ++ [o] }

/-- End the session of a port: awaited completions are dropped when their commands complete
(R45, R49). -/
def PortSt.endSession (v : PortSt) : PortSt :=
  { v with openS := false, secure := false, kept := none,
           awaiting := v.awaiting.map (fun w => { w with live := false, space := 0 }) }

/-! ## Events (R68, R410) -/

def evStateOp : Nat := 0x01F0
def evLostOp : Nat := 0x01F1
def evRefclkOp : Nat := 0x01F2
def evSafeOp : Nat := 0x09F0
def evFrameOp : Nat := 0x09F1
def evCoverageOp : Nat := 0x09F2
def evSkstatOp : Nat := 0x09F3
def evDebugOp : Nat := 0x09F4

/-- Events of group 0x09xx are safety events. -/
def isSafetyOp (op : Nat) : Bool := op / 256 == 9

/-- EV_SAFE and EV_DEBUG, which are never discarded. -/
def isHeldOp (op : Nat) : Bool := op == evSafeOp || op == evDebugOp

/-- Bytes of the 4 KiB safety reserve that ordinary safety events may use. -/
def safetyOwn : Nat := 4096 - 256
/-- Bytes of the event reserve outside the safety reserve. -/
def eventShared : Nat := 12 * 1024

/-- Bytes held by ordinary safety events. -/
def PortSt.safetyBytes (v : PortSt) : Nat :=
  pktBytes (v.out.filter (fun o => o.evt && isSafetyOp o.opcode && !isHeldOp o.opcode))

/-- Bytes held by events that are not safety events. -/
def PortSt.plainBytes (v : PortSt) : Nat :=
  pktBytes (v.out.filter (fun o => o.evt && !isSafetyOp o.opcode))

/-- Room for `n` more bytes of ordinary safety events. -/
def PortSt.safetyRoom (v : PortSt) (n : Nat) : Bool :=
  decide ((v.safetyBytes + n - safetyOwn) + v.plainBytes ≤ eventShared)

/-- Room for `n` more bytes of other events. -/
def PortSt.plainRoom (v : PortSt) (n : Nat) : Bool :=
  decide ((v.safetyBytes - safetyOwn) + v.plainBytes + n ≤ eventShared)

/-- Count a discarded event. -/
def PortSt.discard (v : PortSt) (safety : Bool) : PortSt :=
  { v with evlost := true, lostEv := v.lostEv + 1, lostSafety := v.lostSafety + b2n safety }

/-- The FIFO split after a packet that has begun to be read. -/
def PortSt.begunPart (v : PortSt) : List OutPkt := if v.begun then v.out.take 1 else []
def PortSt.freshPart (v : PortSt) : List OutPkt := if v.begun then v.out.drop 1 else v.out

/-- Drop the first packet of a list that passes a test. -/
def dropFirst (f : OutPkt → Bool) : List OutPkt → List OutPkt
  | [] => []
  | o :: t => if f o then t else o :: dropFirst f t

/-- Discard unread events that are not safety events, oldest first, until `n` bytes fit. Where safety events leave
too little room even so, those discarded before stay discarded (DESIGN CHOICE, log 32: R68 does not say). -/
def makeRoom : Nat → Nat → PortSt → PortSt
  | 0, _, v => v
  | k + 1, n, v =>
    if v.safetyRoom n then v
    else if v.freshPart.any (fun o => o.evt && !isSafetyOp o.opcode) then
      let rest := dropFirst (fun o => o.evt && !isSafetyOp o.opcode) v.freshPart
      makeRoom k n (PortSt.discard { v with out := v.begunPart ++ rest } false)
    else v

/-- Place a safety event ahead of every packet that has not begun to be read. -/
def PortSt.putAhead (v : PortSt) (o : OutPkt) : PortSt :=
  { v with out := v.begunPart ++ o :: v.freshPart }

/-- Offer an event to a port (R68, R410). -/
def PortSt.offer (v : PortSt) (op : Nat) (data : List Byte) : PortSt :=
  if v.openS then
    let v1 := { v with evCount := v.evCount + 1 }
    let o : OutPkt := ⟨op, OK, true, false, 0, (v.evCount + 1) % 65536, data⟩
    if isHeldOp op then v1.putAhead o
    else if isSafetyOp op then
      let v2 := if op == evSkstatOp then
          { v1 with out := v1.begunPart ++ v1.freshPart.filter (fun o => !(o.evt && o.opcode == evSkstatOp)) }
        else v1
      let v3 := makeRoom v2.out.length o.len v2
      if v3.safetyRoom o.len then v3.putAhead o else v3.discard true
    else if v1.plainRoom o.len then { v1 with out := v1.out ++ [o] }
    else v1.discard false
  else v

/-- Offer an event to one port. -/
def offer (p : Port) (op : Nat) (data : List Byte) (s : State) : State :=
  s.setPort p ((s.port p).offer op data)

/-- Offer an event to HP0. -/
def offer0 (op : Nat) (data : List Byte) (s : State) : State := offer .hp0 op data s

/-- Offer an event to HP1 and HP0. -/
def offerBoth (op : Nat) (data : List Byte) (s : State) : State :=
  offer .hp0 op data (offer .hp1 op data s)

/-- Firmware processor codes of EV_FWRESTART (R364). -/
def fwSec : Nat := 0
def fwPmc : Nat := 1
def fwSch : Nat := 2
def State.fwDown (s : State) (p : Nat) : Bool := (s.fws.restarting.get? p).isSome

/-! ## Accepted commands (R48, R49, R53) -/

/-- At most 1,024 accepted commands await completion on a port. -/
def awaitMax : Nat := 1024

/-- Completions a session still awaits. -/
def PortSt.liveCount (v : PortSt) : Nat := (v.awaiting.filter (·.live)).length

/-- Hand out the token of a newly accepted command and reserve its completion space. -/
def accept (p : Port) (op tag seq space : Nat) (s : State) : Nat × State :=
  let t := s.sch.nTok
  let s := { s with sch := { s.sch with nTok := t + 1 } }
  let v := s.port p
  (t, s.setPort p { v with awaiting := v.awaiting ++ [⟨t, op, tag, seq, space, true⟩] })

/-- Complete an accepted command on one port, if that port awaits it. -/
def PortSt.complete (v : PortSt) (t st : Nat) (data : List Byte) : PortSt :=
  match v.awaiting.find? (fun w => w.tok == t) with
  | none => v
  | some w =>
    let v := { v with awaiting := v.awaiting.filter (fun x => !(x.tok == t)) }
    if w.live then { v with out := v.out ++ [⟨w.opcode, st, false, true, w.tag, w.seq, data⟩] }
    else { v with cpllost := true }

/-- The completion of an accepted command is placed on the port that awaits it. -/
def completeNow (t st : Nat) (data : List Byte) (s : State) : State :=
  { s with hp0 := s.hp0.complete t st data, hp1 := s.hp1.complete t st data }

/-- The processor whose restart delays the completion of a command, by opcode (R350, Table 20 of chapter 02); none of
SEC's boot code for FW_END. -/
def cplProc (op : Nat) : Option Nat :=
  if op == 0x0A03 then none
  else if op == 0x0C02 then some fwPmc
  else if op == 0x0C04 then some fwSec
  else some fwSch

/-- The completion of a command waits for its processor, which restarts. -/
def cplHeld (t : Nat) (s : State) : Bool :=
  (s.hp0.awaiting ++ s.hp1.awaiting).any (fun w => w.tok == t && (match cplProc w.opcode with
    | some p => s.fwDown p
    | none => false))

/-- Complete an accepted command: its one completion, with the final status (R48), delayed while the processor that
executes it restarts (R350). -/
def complete (t st : Nat) (data : List Byte) (s : State) : State :=
  if cplHeld t s then { s with heldCpl := s.heldCpl ++ [(t, st, data)] } else completeNow t st data s

/-- A restart has ended: the completions that waited for it, in order. -/
def releaseCpl (s : State) : State :=
  (s.heldCpl).foldl (fun s c => complete c.1 c.2.1 c.2.2 s) { s with heldCpl := [] }

/-- Complete a command that may not have one waiting. -/
def completeOpt (t : Option Nat) (st : Nat) (data : List Byte) (s : State) : State :=
  match t with
  | none => s
  | some t => complete t st data s

/-- The port whose accepted command a token names. -/
def tokPort (t : Nat) (s : State) : Port :=
  if s.hp1.awaiting.any (fun w => w.tok == t) then .hp1 else .hp0

/-! ## Device state (R57, R60) -/

/-- Code of a device state (Table 9 of chapter 02). -/
def DevSt.code : DevSt → Nat
  | .off => 0
  | .init => 1
  | .awaitFw => 2
  | .selfTest => 3
  | .ready => 4
  | .run => 5
  | .degraded => 6
  | .safe => 7
  | .service => 8

/-- The device has power. -/
def State.powered (s : State) : Bool := s.dev.st != .off

/-- RUN or DEGRADED. -/
def State.running (s : State) : Bool := s.dev.st == .run || s.dev.st == .degraded

/-- Change the device state and place EV_STATE on each port with a session (R60). -/
def setDevSt (n : DevSt) (s : State) : State :=
  let d := s.dev
  let s := { s with dev := { d with st := n, prev := d.st } }
  offerBoth evStateOp (leBytes 1 n.code ++ leBytes 1 d.st.code ++ leBytes 1 s.dev.cause ++ [0]) s

/-- A unit retired with no spare of its kind: RUN becomes DEGRADED (Table 10 of chapter 02). -/
def retireNoSpare (s : State) : State :=
  let s := { s with dev := { s.dev with retired := true } }
  if s.dev.st == .run then setDevSt .degraded s else s

/-! ## The change journal's buffer (R361) -/

def journalMax : Nat := 64

/-- Whether `n` more entries fit in the hardware journal buffer. -/
def journalRoom (n : Nat) (s : State) : Bool := decide (s.fws.jbuf.length + n ≤ journalMax)

/-- Put one entry into the journal buffer; SEC numbers it when it drains it to the Larder. -/
def journal (op port : Nat) (secure : Bool) (tenant object value : Nat) (s : State) : State :=
  let e : JEntry := ⟨0, s.larder.boot, s.time.ns, op, port, secure, tenant, object, value⟩
  { s with fws := { s.fws with jbuf := s.fws.jbuf ++ [e] } }

/-- Journal a command at its port. -/
def journalCmd (h : Hdr) (op object value : Nat) (s : State) : State :=
  journal op (portNum h.port) (s.port h.port).secure h.tenant.toNat object value s

/-! ## Tenants and instances by number -/

/-- A tenant never opened since INIT: CLOSED, with the empty partition (R69, R70). -/
def Partition.none : Partition := ⟨Map.empty, Map.empty, 0, 1⟩
def Acct.zero : Acct := ⟨0, 0, 0, 0, 0, 0, 0, Map.empty, Map.empty⟩
def Tenant.fresh : Tenant :=
  ⟨.closed, false, false, false, 0, none, Partition.none, Acct.zero, 0⟩

def State.ten (s : State) (t : Nat) : Tenant := s.tens.getD t Tenant.fresh
def State.setTen (s : State) (t : Nat) (v : Tenant) : State := { s with tens := s.tens.set t v }

def TenSt.code : TenSt → Nat
  | .closed => 0
  | .opened => 1
  | .quiesced => 2
  | .faulted => 3

/-- Key of a queue. -/
def qkey (t q : Nat) : Nat := t * 16 + q
def State.queue? (s : State) (t q : Nat) : Option Queue := s.queues.get? (qkey t q)

/-- A cluster at its reset state. -/
def Cluster.fresh : Cluster :=
  ⟨false, false, false, false, false, 0, 0, 0, 0, 0, 0, 0, false, false, false, 0, 0, 0, [],
   Map.empty, Mem.empty, .run, false⟩
def State.cl (s : State) (n : Nat) : Cluster := s.cls.getD n Cluster.fresh
def State.setCl (s : State) (n : Nat) (c : Cluster) : State := { s with cls := s.cls.set n c }

/-- A Colander at its reset state. -/
def Colander.idle : Colander := ⟨none, none, [], false, 0, 0⟩

/-- A tenant's state change, with EV_TENANT on HP0 (R69). -/
def setTenSt (t : Nat) (n : TenSt) (s : State) : State :=
  let v := s.ten t
  if v.st == n then s
  else
    let s := s.setTen t { v with st := n }
    offer0 0x03F0 (leBytes 1 t ++ leBytes 1 n.code ++ leBytes 1 v.st.code
      ++ leBytes 1 (if n == .faulted then v.cause else 0)) s

/-- A block that PWR_GATE has stopped or powered off, by KIND of Table 6 of chapter 15 and instance (R402). -/
def State.gated (s : State) (kind inst : Nat) : Bool := (s.pow.gates.get? (kind * 256 + inst)).isSome

/-- Physical tiles of a cluster and their die (Table 7 of chapter 00). -/
def gtile (cl t : Nat) : Nat := cl * 13 + t
def dieOf (cl : Nat) : Nat := cl / 6

/-! ## Regulator phases and rails (Table 3 of chapter 15, R20, R394) -/

/-- Phases of each rail, in the order of Table 3: TILE, FAB, SRAM, ED, SERDES, HBM, VDDQ, VPP, IO18, IO33. -/
def railPhases : List Nat := [54, 10, 8, 6, 6, 4, 2, 2, 2, 2]

/-- Phases of a rail on an edge die. -/
def diePhases : Variant → Nat → List Nat
  | .m4e1, _ => railPhases
  | .m4e2, _ | .m6e2, _ | .m8e2, _ => [27, 5, 4, 3, 3, 2, 1, 1, 1, 1]
  | .m8e4, 0 => [12, 2, 2, 3, 1, 1, 0, 0, 2, 1]
  | .m8e4, 1 => [12, 3, 2, 1, 2, 1, 1, 1, 0, 1]
  | .m8e4, 2 => [15, 2, 2, 1, 2, 1, 0, 1, 0, 0]
  | .m8e4, _ => [15, 3, 2, 1, 1, 1, 1, 0, 0, 0]

/-- Active and spare phases of an edge die (Table 3 of chapter 01). -/
def activePhases (v : Variant) : Nat := 96 / v.edies
def sparePhases (v : Variant) : Nat := 8 / v.edies

/-- Phases of a rail in service. -/
def State.railIn (s : State) (r : Nat) : Nat :=
  railPhases.getD r 0 - (List.range 4).foldl (fun a d => a + s.larder.map.phaseOut.getD (d * 16 + r) 0) 0

/-- A rail with fewer than half of its phases in service is switched off (R394). -/
def State.railOff (s : State) (r : Nat) : Bool := decide (2 * s.railIn r < railPhases.getD r 0)

/-- The DRAM has no power: a rail of the stacks, their PHYs or their controllers is off. -/
def State.dramOff (s : State) : Bool := [1, 4, 5, 6, 7].any s.railOff

/-- Allocatable granules of cluster SRAM: 188 less those retired (R404). -/
def State.maxCgran (s : State) (cl : Nat) : Nat :=
  188 - (s.larder.map.units.filter (fun u => u.1 == 3 && u.2 / 256 == cl)).length

/-- The CCC code that serves a cluster: its own, or the die's spare that took over (R351). -/
def State.cccOf (s : State) (cl : Nat) : Nat :=
  if s.larder.map.ccc.getD (dieOf cl) 0xFE == cl then 0x20 + dieOf cl else 0x10 + cl

/-! ## Free values and device time (log 9, R222) -/

/-- Take one free value: the number it is known by. -/
def takeFree (s : State) : Nat × State := (s.freeCtr, { s with freeCtr := s.freeCtr + 1 })

/-- Device time in units of 2^-16 ns. -/
def State.now (s : State) : Nat := s.time.ns * 65536 + s.time.frac / 65536

/-- A number clamped to a signed field of `n` bytes. -/
def satBytes (n : Nat) (i : Int) : List Byte := leBytes n (ofInt (8 * n) (satInt (8 * n) i))

end Sys2Proof.Machine
end

