-- ==== Sys2Proof/Machine/Access.lean ====
section
/-! DEFINITION. DRAM: the address map and interleave (R198, R199), page ownership (R204 to R206), the
checks at targets (R206, R207), cache lines (R214, R215) and the reads and writes that every block
uses. -/

namespace Sys2Proof.Machine

open Sys2Proof

/-! ## Address map (R198, R199) -/

/-- Pages of 1 MiB below the capacity. -/
def State.nPages (s : State) : Nat := s.nHbm * 16384
/-- Assignable pages: all but the program store and the firmware private region. -/
def State.nAssignable (s : State) : Nat := s.nPages - 2048

/-- Stack and pseudo-channel of an address (R199). -/
def stackOf (s : State) (a : Nat) : Nat := a / 4096 % s.nHbm
def pchanOf (s : State) (a : Nat) : Nat := (a / 4096 / s.nHbm) % 2 * 16 + (a / 256) % 16

/-- An unowned page (R205). -/
def PageEnt.unowned : PageEnt := ⟨0xFF, false, false, false, false⟩

/-- The entry of a page: the program store and the firmware private region read OWNER 0xFE with
LOCK 1 and never change (R204); so do the pages of a retired row once they are unowned (R404). -/
def State.pageOf (s : State) (pg : Nat) : PageEnt :=
  if pg < s.nAssignable then
    match s.mem.own.get? pg with
    | some e => e
    | none => if s.larder.map.units.contains (4, pg) || s.dramOff then ⟨0xFE, true, false, false, false⟩ else PageEnt.unowned
  else ⟨0xFE, true, false, false, decide (s.nAssignable + 1024 ≤ pg)⟩

/-- A page entry as Table 5 of chapter 07 lays it out. -/
def PageEnt.word (e : PageEnt) : Nat :=
  fld (b2n e.lock) 31 1 + fld (b2n e.sidefx) 30 1 + fld (b2n e.pref) 29 1 + fld (b2n e.secure) 28 1
    + fld e.owner 16 8

/-- The pages that `n` bytes from `a` touch. -/
def pagesOf (a n : Nat) : List Nat :=
  if n = 0 then [] else (List.range ((a + n - 1) / 2 ^ 20 - a / 2 ^ 20 + 1)).map (· + a / 2 ^ 20)

/-! ## Checks (R203, R206) -/

/-- Who makes an access (Table 4 of chapter 07): SOURCE of MEM_VIOL1, world, tenant field. -/
structure Acc where
  /-- 0 tenant work, 1 PCIe host, 2 device block. -/
  src : Nat
  secure : Bool
  /-- Tenant of the request; for a device block the tenant on whose behalf it acts, 0xFE none. -/
  tenant : Nat
  /-- The tenant field that the request carries (Table 8 of chapter 07). -/
  field : Nat
  deriving DecidableEq, Repr

/-- Work of a tenant, in that tenant's world. -/
def accTenant (s : State) (t : Nat) : Acc := ⟨0, (s.ten t).secure, t, t⟩
def accHost : Acc := ⟨1, false, 0xFF, 0xFF⟩
/-- A device block of a world on behalf of a tenant, 0xFE none. -/
def accDev (secure : Bool) (t : Nat) : Acc := ⟨2, secure, t, 0xFE⟩
/-- SCH on behalf of a tenant: normal world (Table 4 of chapter 07). -/
def accSch (t : Nat) : Acc := accDev false t
/-- The blocks that write a tenant's headers, status words and dumps: in that tenant's world (DEDUCED, log 31: Table 4
names no such block apart from SCH, and an output of a secure tenant has its header in the same page). -/
def accOwn (s : State) (t : Nat) : Acc := accDev (s.ten t).secure t

/-- Attributes of a device block's access (Table 4 of chapter 07). -/
def accBlock (s : State) (b : DevBlock) (t : Option Nat) : Acc :=
  match b with
  | .sec => accDev true (t.getD 0xFE)
  | .pmc | .sch | .ccc | .scrub => accDev false (t.getD 0xFE)
  | .storeFetch h => { accDev false 0xFE with field := match s.progs.get? h with
      | some p => p.tenant
      | none => 0xFE }

/-- 0 when an access to a page passes, else REASON of MEM_VIOL1 (R206, Table 8 of chapter 07). -/
def pageCheck (s : State) (c : Acc) (pg : Nat) : Nat :=
  if s.nPages ≤ pg then 1
  else
    let e := s.pageOf pg
    if e.owner == 0xFF then 1
    else if e.owner == 0xFE then
      (if c.src == 2 then (if e.secure && !c.secure then 3 else 0) else 4)
    else if c.src == 1 then (if e.secure then 3 else 0)
    else if e.owner != c.tenant then 2
    else if e.secure && !c.secure then 3
    else 0

/-- 0 when every page that an access touches passes, else the first reason. -/
def accessCheck (s : State) (c : Acc) (a n : Nat) : Nat :=
  ((pagesOf a n).map (pageCheck s c)).find? (· != 0) |>.getD 0

/-- All of `n` bytes from `a` lie in pages owned by a tenant. -/
def ownedBy (s : State) (t a n : Nat) : Bool :=
  decide (a + n ≤ s.nAssignable * 2 ^ 20) && (pagesOf a n).all (fun pg => (s.pageOf pg).owner == t)

/-! ## Cache lines (R214, R215) -/

/-- Cluster SRAM granules that programs and reservations hold in a cluster (R115, R116). -/
def bindCgran (cl : Nat) (l : List LcBind) : Nat :=
  l.foldl (fun a b => a + (if b.clA == cl then b.cgran else 0)
    + (if b.clB == some cl then b.cgran else 0)) 0

/-- A reservation that a MODE 1 replacement has made for a program (R138). -/
def inPlaceOf (h : Nat) (l : Load) : Bool := l.replace == some (h, 1)
def inPlace (l : Load) : Bool := match l.replace with
  | some (_, m) => m == 1
  | none => false

/-- What bindings hold by a measure `f`, over those programs and loads that `t` selects. The image a
MODE 1 replacement has reserved and the image it replaces share what they hold until the switch
(R138, R412). -/
def State.heldSum (s : State) (t : Nat → Bool) (f : List LcBind → Nat) : Nat :=
  s.progs.sum (fun h p =>
    if t p.tenant then
      max (f p.binds) (f ((s.loads.filter (inPlaceOf h)).flatMap (·.binds)))
        + f (p.old.flatMap (·.binds))
    else 0)
  + s.loads.foldl (fun a l => a + (if t l.tenant && !inPlace l then f l.binds else 0)) 0

def State.usedCgran (s : State) (cl : Nat) : Nat := s.heldSum (fun _ => true) (bindCgran cl)

/-- F of R215: 256 lines in each granule no program holds; none while the cluster is off. -/
def State.cacheLines (s : State) (cl : Nat) : Nat :=
  if (s.cl cl).mode == .run then (s.maxCgran cl - s.usedCgran cl) * 256 else 0

def State.cshare (s : State) (t : Nat) : Nat := (s.bwr.cfg.getD t (16, 16)).1

/-- Cache share of a tenant in a cluster (R215). -/
def State.cacheShare (s : State) (cl t : Nat) : Nat :=
  let tot := s.tens.sum (fun k v => if v.st == .closed then 0 else s.cshare k)
  s.cacheLines cl * s.cshare t / max 1024 tot

/-- Drop the first line a test picks. -/
def dropLine (f : CLine → Bool) : List CLine → List CLine
  | [] => []
  | c :: t => if f c then t else c :: dropLine f t

/-- Lines of a tenant. -/
def occ (l : List CLine) (t : Nat) : Nat := (l.filter (fun c => c.tenant == t)).length

/-- The tenant whose occupancy exceeds its share by the largest fraction (R215). -/
def worstTenant (s : State) (cl : Nat) (l : List CLine) : Option Nat :=
  let ts := (l.map (·.tenant)).eraseDups.filter (fun t => s.cacheShare cl t < occ l t)
  ts.foldl (fun best t =>
    match best with
    | none => some t
    | some b =>
      -- (occ t - share t) / share t compared by cross multiplication
      if (occ l t - s.cacheShare cl t) * s.cacheShare cl b
          > (occ l b - s.cacheShare cl b) * s.cacheShare cl t
      then some t else some b) none

/-- Lines dropped because the free granules no longer hold them: least recently used first. -/
def trimCache (s : State) (cl : Nat) : State :=
  let c := s.cl cl
  let n := s.cacheLines cl
  if c.cache.length ≤ n then s
  else s.setCl cl { c with cache := c.cache.drop (c.cache.length - n) }

/-- Look a line up, or fill it where the label and page permit (R214 to R216). -/
def cacheRead (cl : Nat) (secure : Bool) (t line : Nat) (alloc stream : Bool) (s : State) : State :=
  let c := s.cl cl
  let e : CLine := ⟨secure, t, line⟩
  if c.cache.contains e then s.setCl cl { c with cache := dropLine (· == e) c.cache ++ [e] }
  else if !alloc || s.cacheLines cl == 0 then s
  else
    let room := decide (c.cache.length < s.cacheLines cl)
    let own := decide (s.cacheShare cl t ≤ occ c.cache t)
    let cache :=
      if room then some c.cache
      else match worstTenant s cl c.cache with
        | some w => some (dropLine (fun x => x.tenant == w) c.cache)
        | none => if own && occ c.cache t != 0 then some (dropLine (fun x => x.tenant == t) c.cache) else none
    match cache with
    | none => s
    | some l => s.setCl cl { c with cache := if stream then e :: l else l ++ [e] }

/-- Invalidate the lines that a written range touches in every cluster cache (R214). -/
def dropLines (a n : Nat) (s : State) : State :=
  { s with cls := s.cls.mapV (fun c =>
      { c with cache := c.cache.filter (fun l => decide (l.line * 256 + 256 ≤ a) || decide (a + n ≤ l.line * 256)) }) }

/-! ## Reads and writes -/

/-- The bytes of DRAM from an address. -/
def dramRead (s : State) (a n : Nat) : List Byte := s.mem.dram.readN a n

/-- A write that passed its check: bytes stored, matching cache lines invalidated (R214), poison of
the blocks written cleared (R201). -/
def dramWrite (a : Nat) (bs : List Byte) (s : State) : State :=
  if bs.isEmpty then s
  else
    let s := dropLines a bs.length s
    { s with mem := { s.mem with
        dram := s.mem.dram.writeN a bs,
        poison := s.mem.poison.filter (fun b =>
          decide (b * 64 + 64 ≤ a) || decide (a + bs.length ≤ b * 64)) } }

/-- Zero a run of pages (R209); a write invalidates the matching lines (R214). -/
def zeroPages (first count : Nat) (s : State) : State :=
  let s := dropLines (first * 2 ^ 20) (count * 2 ^ 20) s
  { s with mem := { s.mem with
      dram := s.mem.dram.zeroRange (first * 2 ^ 20) (count * 2 ^ 20),
      poison := s.mem.poison.filter (fun b =>
        decide (b * 64 < first * 2 ^ 20) || decide ((first + count) * 2 ^ 20 ≤ b * 64)) } }

/-- Whether some 64-byte block of a range is poisoned (R201) or lies in a retired row (R404). -/
def poisoned (s : State) (a n : Nat) : Bool :=
  s.dramOff || (s.mem.poison ++ s.larder.map.dead).any (fun b => decide (b * 64 < a + n) && decide (a < b * 64 + 64))

/-- Record a failed check (R208): the first since VIOL was cleared, and the count. -/
def recordViol (src : Nat) (secure write : Bool) (ten reason a : Nat) (s : State) : State :=
  let m := s.mem
  let m := if m.viol then m else
    { m with violAddr := a % 2 ^ 48,
             violWord := fld reason 28 4 + fld src 26 2 + fld (b2n secure) 25 1
               + fld (b2n write) 24 1 + fld ten 16 8 }
  { s with mem := { m with viol := true, violCnt := satAdd 0xFFFF m.violCnt 1 } }

/-! ## Doorbell pages (R174, R228, R242, R369) -/

/-- An aligned 32-bit access of one of the 4 KiB pages from `base` on: the page and the word's offset in it. Every
other access is ignored (R174). -/
def doorWord (base pages : Nat) (w : DoorWrite) : Option (Nat × Nat) :=
  if w.size = 4 ∧ w.off % 4 = 0 ∧ base ≤ w.off ∧ w.off < base + pages * 4096 then
    some ((w.off - base) / 4096, (w.off - base) % 4096)
  else none

/-- A queue's doorbell word: tenant, queue and byte offset in the queue's 16 bytes; none for the other bytes of the
page (Table 2 of chapter 06). -/
def queueDoor (w : DoorWrite) : Option (Nat × Nat × Nat) :=
  match doorWord 0 64 w with
  | some (t, o) => if o < 0x400 ∧ o % 0x40 < 16 then some (t, o / 0x40, o % 0x40) else none
  | none => none

/-! ## The firmware log (R351) -/

/-- A 64-byte record: kind (1; 1 restart, 2 DRAM row repair, 3 violation, 4 SRAM repair, 5 INTERNAL), zero (3), unit (4),
device time (8), detail (8), zero. The layout is the model's (DESIGN CHOICE, log 14). The last 4,096 are kept. -/
def fwLog (secure : Bool) (kind unit detail : Nat) (s : State) : State :=
  let r := leBytes 1 kind ++ zeros 3 ++ leBytes 4 unit ++ leBytes 8 s.time.ns ++ leBytes 8 detail
    ++ zeros 40
  let l := s.fws.log ++ [(secure, r)]
  { s with fws := { s.fws with log := l.drop (l.length - 4096) } }

/-! ## Render-target locks (R274) and writes on a tenant's behalf (R206, R208) -/

/-- Two address ranges overlap. -/
def overlaps (a n b m : Nat) : Bool := decide (a < b + m) && decide (b < a + n)

/-- The ranges a context locks: its pool, and those of the pass that runs or is pre-empted on it. -/
def RasCtx.locks (c : RasCtx) : List (Nat × Nat) :=
  (c.poolBase, c.poolMib * 2 ^ 20) :: (match c.running with
    | some r => r.locks
    | none => [])

/-- A range overlaps a locked one. -/
def rtLocked (s : State) (a n : Nat) : Bool :=
  s.rctxs.any (fun _ c => c.locks.any (fun l => overlaps a n l.1 l.2))
/-- A write fell under a lock. -/
def markRtLock (s : State) : State := { s with ras := { s.ras with rtlock := true } }

/-- A device block's write: stored, or discarded whole under a lock, or where its check fails; then recorded and logged
(R208, R274). -/
def devWrite (c : Acc) (a : Nat) (bs : List Byte) (s : State) : State :=
  match accessCheck s c a bs.length with
  | 0 => if rtLocked s a bs.length then markRtLock s else dramWrite a bs s
  | r => fwLog c.secure 3 0 (a % 2 ^ 48) (recordViol c.src c.secure true c.field r a s)

/-- A device's write on a tenant's behalf, in that tenant's world. -/
def ownWrite (t a : Nat) (bs : List Byte) (s : State) : State := devWrite (accOwn s t) a bs s

/-- Bytes that a read of a locked surface returns: undefined (R274). -/
def undefBytes (n : Nat) (s : State) : List Byte × State :=
  let f := takeFree s
  (padTo n (Config.freeBytes f.1), f.2)

/-- A device block's read of a tenant's bytes: zeros where its check fails; then recorded and logged (R208). -/
def devRead (c : Acc) (a n : Nat) (s : State) : List Byte × State :=
  match accessCheck s c a n with
  | 0 => if rtLocked s a n then undefBytes n s else (dramRead s a n, s)
  | r => (zeros n, fwLog c.secure 3 0 (a % 2 ^ 48) (recordViol c.src c.secure false c.field r a s))

end Sys2Proof.Machine
end

