-- ==== Sys2Proof/Machine/Units.lean ====
section
/-! DEFINITION. What the end of a job, its commit, entry to SAFE, a tenant's fault and its closing do
in the units outside the scheduler: stream contexts (R230, R231), fusion (R260, R264). -/

namespace Sys2Proof.Machine

/-- NOREF or HOLDOVER is in force: a reference hold, or no active domain (R224). -/
def State.degNow (s : State) : Bool := s.clk.hold || s.time.active == 3

/-- Whether it was in force at a device time; before the first change no domain had been active. -/
def State.degAt (s : State) (t : Nat) : Bool :=
  match s.time.unsure.find? (fun e => e.1 ≤ t) with
  | some e => e.2
  | none => true

/-- A change of the hold or of the active domain: what is in force from now on. -/
def noteDeg (s : State) : State :=
  if s.degAt s.time.ns == s.degNow then s
  else { s with time := { s.time with unsure := (s.time.ns, s.degNow) :: s.time.unsure } }

/-! ## Stream contexts (R230 to R232) -/

def CtxSt.code : CtxSt → Nat
  | .closed => 0
  | .idle => 1
  | .seeking => 2
  | .live => 3
  | .stalled => 4

/-- Change one stream context. -/
def modCtx (k : Nat) (f : StreamCtx → StreamCtx) (s : State) : State :=
  match s.ctxs.get? k with
  | none => s
  | some c => { s with ctxs := s.ctxs.set k (f c) }

/-- A context's state change, with EV_STREAM (R232). SEEKING and STALLED mark the next unit RESYNC. -/
def setCtxSt (k : Nat) (n : CtxSt) (reason : Nat) (s : State) : State :=
  match s.ctxs.get? k with
  | none => s
  | some c =>
    if c.st == n then s
    else
      let c' := { c with
        st := n, resync := c.resync || n == .seeking || n == .stalled,
        stalls := if n == .stalled then satAdd 0xFF c.stalls 1 else c.stalls }
      offer0 0x05F0 (leBytes 1 k ++ leBytes 1 n.code ++ leBytes 1 c.st.code ++ leBytes 1 reason
        ++ leBytes 4 c.units) { s with ctxs := s.ctxs.set k c' }

/-- Ingest runs for a context (R230, R59). -/
def ingestRuns (s : State) (c : StreamCtx) : Bool :=
  c.started && (s.dev.st == .run || s.dev.st == .degraded || s.dev.st == .safe || s.dev.st == .service)
    && s.dev.stopTok.isNone
    && ((s.ten c.tenant).st == .opened || (s.ten c.tenant).st == .quiesced)

/-- Idle contexts whose ingest begins enter SEEKING. -/
def startStreams (s : State) : State :=
  (s.ctxs.filter (fun _ c => c.st == .idle && ingestRuns s c)).keys.foldl
    (fun s k => setCtxSt k .seeking 0 s) s

/-- The contexts of a faulted tenant go to IDLE; a unit in progress is discarded (R231). -/
def faultStreams (t : Nat) (s : State) : State :=
  (s.ctxs.filter (fun _ c => c.tenant == t)).keys.foldl
    (fun s k => setCtxSt k .idle 0 (modCtx k (fun c => { c with unit := none }) s)) s

/-- A context closes; a unit in progress is discarded with no descriptor (R231). -/
def closeStream (k : Nat) (s : State) : State :=
  let s := setCtxSt k .closed 0 s
  match s.ctxs.get? k with
  | none => s
  | some c => { s with
      ctxs := s.ctxs.erase k, ctxLeft := s.ctxLeft.set k ⟨c.truncs, c.stalls, c.drops, c.discards⟩ }

/-! ## Render-target locks (R274) -/

/-- A job's passes go, with their locks. -/
def dropPasses (id : Nat) (s : State) : State :=
  { s with
    rwait := s.rwait.filter (fun p => p.job != id),
    rctxs := s.rctxs.mapV (fun c => match c.running with
      | some r => if r.pass.job == id then { c with running := none } else c
      | none => c) }

/-! ## Flips and displays (R280) -/

/-- Latch a surface for a plane: one latched before and not yet applied is skipped. -/
def latchFlip (f : FlipReq) (now : Nat) (d : Disp) : Disp :=
  let p := f.surf
  let old := if f.plane = 0 then d.nbase else d.noverlay
  let d := { d with flipSkip := if old.isSome then satAdd 0xFFFF d.flipSkip 1 else d.flipSkip }
  if f.plane = 0 then { d with nbase := some (p, now) } else { d with noverlay := some (p, now) }

/-- Flips that a job's passes requested are latched at its commit. -/
def commitFlips (id : Nat) (s : State) : State :=
  match s.jobs.get? id with
  | none => s
  | some j => j.flips.foldl (fun s f =>
      match s.disps.get? f.disp with
      | some d => if d.owner == some j.tenant
        then { s with disps := s.disps.set f.disp (latchFlip f s.time.ns d) } else s
      | none => s) s

/-- Both planes without a surface. -/
def Disp.blank (d : Disp) : Disp := { d with base := none, overlay := none, nbase := none, noverlay := none }

/-- A DISP_CFG whose training runs ends without effect: the display is again as it was before it (log 23). -/
def untrain (k : Nat) (status : Nat) (s : State) : State :=
  match s.disps.get? k with
  | none => s
  | some d =>
    match d.train with
    | none => s
    | some n => complete n.tok status [] { s with disps := s.disps.set k { d with train := none, st := n.prev } }

/-- A display's scanout stops for the loss of its owner: no plane has a surface, so the output shows the border colour
(R280, log 23). -/
def faultDisp (t k : Nat) (s : State) : State :=
  match s.disps.get? k with
  | none => s
  | some d => if d.owner == some t then { s with disps := s.disps.set k { d.blank with st := 0 } } else s

/-- The displays of a tenant that becomes FAULTED (R280). -/
def faultDisps (t : Nat) (s : State) : State :=
  s.disps.keys.foldl (fun s k =>
    faultDisp t k (if ((s.disps.get? k).bind (·.train)).map (·.tenant) == some t then untrain k STATE s else s)) s

/-- A display is turned off; a DISP_CFG whose training runs ends with STATE (log 23). -/
def dispOff (k : Nat) (s : State) : State :=
  let s := untrain k STATE s
  match s.disps.get? k with
  | none => s
  | some d => { s with disps := s.disps.set k { d.blank with owner := none, st := 0, under := [] } }

/-- A render context closes; its counts stay (R284). -/
def closeRctx (n : Nat) (s : State) : State :=
  match s.rctxs.get? n with
  | none => s
  | some c =>
    completeOpt c.closing OK [] { s with
      rctxs := s.rctxs.erase n,
      ras := { s.ras with counts := s.ras.counts.set n (c.flushes, c.passes) } }

/-- A tenant's render contexts close and its displays go off (R281). -/
def closeRaster (t : Nat) (s : State) : State :=
  let s := (s.rctxs.filter (fun _ c => c.tenant == t)).keys.foldl (fun s k => closeRctx k s) s
  (s.disps.filter (fun _ d => d.owner == some t || (d.train.map (·.tenant)) == some t)).keys.foldl
    (fun s k => dispOff k s) s

/-! ## Fusion (R260, R261, R264) -/

def State.feng (s : State) (die : Nat) : FusEng := if die = 0 then s.feng0 else s.feng1
def State.setFeng (s : State) (die : Nat) (e : FusEng) : State :=
  if die = 0 then { s with feng0 := e } else { s with feng1 := e }

/-- A job's calls leave an engine. -/
def FusEng.drop (id : Nat) (e : FusEng) : FusEng :=
  let keep := fun (c : Option FusCall) => match c with
    | some r => if r.job == id then none else some r
    | none => none
  ⟨keep e.running, keep e.saved, e.queue.filter (fun r => r.job != id)⟩

/-- EV_FUSION (R263). -/
def evFusion (ctx ev idx st g : Nat) (s : State) : State :=
  offer0 0x06F0 (leBytes 1 ctx ++ leBytes 1 ev ++ leBytes 1 idx ++ leBytes 1 st ++ leBytes 4 g) s

/-- A limit of a sensor's correction as FP32, and its negative test. -/
def limT (c : FusSensor) : Nat := fofRat c.limT 1000
def limR (c : FusSensor) : Nat := fofRat c.limR 1000000
/-- The magnitude of an FP32 code. -/
def fabs (x : Nat) : Nat := x % 2 ^ 31

def FusCorr.zero : FusCorr := ⟨0, 0, 0, []⟩
def FusCorr.conf (k : FusCorr) : Nat := (k.still.filter id).length

/-- AT_BOUND: some component equals its limit (R256). -/
def atBound (c : FusSensor) (k : FusCorr) : Bool :=
  fabs k.cx == limT c || fabs k.cy == limT c || fabs k.cyaw == limR c

/-- AT_BOUND of a sensor of a context under a state. -/
def ctxBound (c : FusCtx) (st : FusState) (i : Nat) : Bool :=
  match c.sensors.get? i with
  | some x => atBound x (st.corr.getD i FusCorr.zero)
  | none => false

/-- A fusion context's state is freed; changes that pend complete with STATE (log 21). -/
def freeFusCtx (n : Nat) (s : State) : State :=
  match s.fctxs.get? n with
  | none => s
  | some c =>
    let s := c.pend.foldl (fun s p => complete p.1 STATE [] s) s
    completeOpt c.closing OK [] { s with
      fctxs := s.fctxs.erase n, fclosed := s.fclosed.set n ⟨s.sch.nDisp, c.gen, c.st.ncont, c.st.tracks.length⟩ }

/-- Place the AT_BOUND events of a change of committed state (R256, R263). -/
def boundEvents (n : Nat) (old new : FusCtx) (s : State) : State :=
  (List.range 32).foldl (fun s i =>
    let a := ctxBound old old.st i
    let b := ctxBound new new.st i
    if a == b then s else evFusion n (if b then 1 else 2) i 0 (new.gen % 2 ^ 32) s) s

/-- The commit of a job makes the new state of its contexts the committed one (R260). -/
def commitFusion (id : Nat) (s : State) : State :=
  s.fctxs.cells.foldl (fun s c =>
    match c.2.next with
    | some (j, st) =>
      if j == id then
        let n := { c.2 with st := st, gen := (c.2.gen + 1) % 2 ^ 32, next := none, began := none }
        boundEvents c.1 c.2 n { s with fctxs := s.fctxs.set c.1 n }
      else s
    | none => s) s

/-- A job's calls leave the engines. -/
def dropFusion (id : Nat) (s : State) : State :=
  { s with feng0 := s.feng0.drop id, feng1 := s.feng1.drop id }

/-- A job that ends without committing leaves the generation as it is (R260). -/
def endFusion (id : Nat) (s : State) : State :=
  { s with
    fctxs := s.fctxs.mapV (fun c =>
      let next := match c.next with
        | some (j, _) => if j == id then none else c.next
        | none => none
      { c with next := next, began := if c.began == some id then none else c.began }) }

/-! ## Control engines (R298) -/

/-- Engines that a test picks halt their SAFEMODE 1 loops at the next tick. -/
def haltEngines (f : Engine → Bool) (cause : Nat) (s : State) : State :=
  { s with ces := s.ces.mapV (fun e => if f e then { e with halt := some cause } else e) }

/-- A tenant closes: every loop of its engines is disabled, engines and channels are released; a swap
or trace dump that waits completes with STATE. -/
def closeControl (t : Nat) (s : State) : State :=
  let s := s.ces.vals.foldl (fun s e =>
    let toks := (e.dumps.filter (fun d => d.tenant == t)).map (·.tok)
      ++ (if e.owner == some t then e.swaps.map (·.tok) else [])
    toks.foldl (fun s k => complete k STATE [] s) s) s
  let own := fun (o : Option Nat) => if o == some t then none else o
  { s with
    ces := s.ces.mapV (fun e =>
      let e := { e with dumps := e.dumps.filter (fun d => d.tenant != t) }
      if e.owner == some t then { e with
        owner := none, swaps := [], enPend := [], loops := e.loops.mapV (fun l => { l with st := 0, cause := 0 }) } else e),
    pwms := s.pwms.mapV (fun p => if p.owner == some t then { p with
      owner := none, cfg := p.cfg.map (fun c => patch c 2 (leBytes 1 (setBit (u8 c 2) 3 false))), active := [] } else p),
    sds := s.sds.mapV (fun c => { c with owner := own c.owner }),
    encs := s.encs.mapV (fun c => { c with owner := own c.owner }) }

/-! ## The hooks -/

/-- A job's work in other units is given up: it ends, or restarts. -/
def dropUnits (id : Nat) (s : State) : State := dropPasses id (dropFusion id s)
/-- A job ends, committed or not. -/
def endUnits (id : Nat) (s : State) : State := endFusion id s
def commitUnits (id : Nat) (s : State) : State := commitFlips id (commitFusion id s)
/-- Entry to SAFE: loops with SAFEMODE 1 halt. -/
def safeUnits (s : State) : State := haltEngines (fun _ => true) 3 s
/-- After the device has entered SAFE: idle contexts that were started ingest again (R230). -/
def afterSafe (s : State) : State := startStreams s
/-- A tenant becomes FAULTED. -/
def faultUnits (t : Nat) (s : State) : State :=
  haltEngines (fun e => e.owner == some t) 4 (faultDisps t (faultStreams t s))
/-- A tenant's routing entries are cleared and its gateway rings closed (R369). -/
def closeGateway (t : Nat) (s : State) : State :=
  { s with gwy := { s.gwy with
      routes := s.gwy.routes.filter (fun _ r => u8 r.raw 24 != t),
      rings := s.gwy.rings.filter (fun _ r => r.tenant != t) } }

/-- Accepted commands of these units that have had no effect yet and are illegal in SAFE complete with STATE
(R65): display training, changes of fusion sensors, bank swaps, blocks to be powered again, evictions from the
chain. -/
def abortUnits (s : State) : State :=
  let s := s.disps.keys.foldl (fun s k => untrain k STATE s) s
  let s := s.fctxs.cells.foldl (fun s c =>
    c.2.pend.foldl (fun s (p : Nat × FusChange) => complete p.1 STATE [] s)
      { s with fctxs := s.fctxs.set c.1 { c.2 with pend := [] } }) s
  let s := s.ces.cells.foldl (fun s c =>
    c.2.swaps.foldl (fun s (w : Swap) => complete w.tok STATE [] s)
      { s with ces := s.ces.set c.1 { c.2 with swaps := [] } }) s
  let gs := s.pow.gatePend.filter (fun g => g.2.2.2 == 0)
  let s := gs.foldl (fun s (g : Nat × Nat × Nat × Nat) => complete g.1 STATE [] s)
    { s with pow := { s.pow with gatePend := s.pow.gatePend.filter (fun g => g.2.2.2 != 0) } }
  let ev := s.chn.evicts
  let c := { s.chn with
    evicts := [],
    pend := s.chn.pend.filter (fun o => match o with
      | .remove id => !ev.any (fun e => e.1 == id)
      | _ => true) }
  ev.foldl (fun s e => complete e.2 STATE [] s) { s with chn := c }

/-- A tenant closes: its stream contexts, its launch rings, gateway entries and fusion contexts go; registers keep what
the manual does not reset (R233, R265). -/
def closeUnits (t : Nat) (s : State) : State :=
  let s := closeGateway t s
  let ks := (s.ctxs.filter (fun _ c => c.tenant == t)).keys
  let s := ks.foldl (fun s k => closeStream k s) s
  let s := { s with launch := s.launch.filter (fun _ l => l.tenant != t) }
  (s.fctxs.filter (fun _ c => c.tenant == t)).keys.foldl (fun s n => freeFusCtx n s)
    (closeControl t (closeRaster t s))

end Sys2Proof.Machine
end

