-- ==== Sys2Proof/Machine/JobOps.lean ====
section
/-! DEFINITION. How jobs end and commit (R170 to R197), weight-bank transitions (R105 to R111), output
headers (R181, R321), failed frames (R322), and entry to SAFE (R333 to R337). -/

namespace Sys2Proof.Machine

/-! ## Programs and jobs -/

/-- PAIRED of an image's FLAGS: a safety program (R114). -/
def Image.paired (i : Image) : Bool := bit i.flags 0
def Image.pairMode (i : Image) : Bool := bit i.flags 1

/-- A frame: a job of a safety program that is no golden test and no evaluation (chapter 12). -/
def isFrame (s : State) (j : Job) : Bool :=
  j.role == .user && (match s.progs.get? j.prog with | some p => p.img.paired | none => false)

def Job.golden (j : Job) : Bool := match j.role with | .golden _ => true | _ => false
def Job.isEval (j : Job) : Bool := match j.role with | .eval _ => true | _ => false

/-- In flight: dispatched and not ended (R171). -/
def Job.inFlight (j : Job) : Bool := j.st != .queued

/-- Jobs in flight in the device (R171). -/
def State.inFlight (s : State) : Nat := s.jobs.count (fun _ j => j.inFlight)

/-- Change one job. -/
def modJob (id : Nat) (f : Job → Job) (s : State) : State :=
  match s.jobs.get? id with
  | none => s
  | some j => { s with jobs := s.jobs.set id (f j) }

/-- Change one program. -/
def modProg (h : Nat) (f : Prog → Prog) (s : State) : State :=
  match s.progs.get? h with
  | none => s
  | some p => { s with progs := s.progs.set h (f p) }

/-- Change one tenant. -/
def modTen (t : Nat) (f : Tenant → Tenant) (s : State) : State := s.setTen t (f (s.ten t))

/-- Change one cluster. -/
def modCl (n : Nat) (f : Cluster → Cluster) (s : State) : State := s.setCl n (f (s.cl n))

/-- A job as it is taken, before anything of it is known. -/
def Job.blank : Job :=
  { tenant := 0, queue := 0xFF, jobseq := 0, prog := 0, kind := 0, irq := false, role := .user,
    userTag := 0, args := 0, tlimit := 0, deps := [], st := .queued, lc := false, ring := false,
    tok := none, dispNo := 0, tSubmit := 0, tDispatch := none, tiles := [], hold := Map.empty,
    waitTiles := [], etime := 0, bank := 0, gen := 0xFFFFFFFF, expSig := 0, ins := [], outs := [],
    image := 0, preempts := 0, restarted := false, degraded := false, pairRestarts := 0,
    stopReq := false, stopped := [], endAt := none, reads := [], writes := [], got := [],
    sigs := [], ckSigs := [], ckpt := false, fifo := [], replay := [], replayAt := 0, pendMis := false, chk := .none,
    parts := [], reported := [], hdrs := [], grids := [], checked := false, prepared := false, flips := [],
    partials := [], bOut := Mem.empty }

/-- Put a job into the job table under the next number. -/
def addJob (j : Job) (s : State) : State :=
  { s with jobs := s.jobs.set s.sch.nTaken j, sch := { s.sch with nTaken := s.sch.nTaken + 1 } }

/-! ## Engine time and virtual time (R183, R184) -/

/-- Charged as latency-critical engine time: latency-critical jobs and golden tests (R326). -/
def Job.lcTime (j : Job) : Bool := j.lc || j.golden

/-- Charge engine time to a tenant. -/
def chargeTen (t : Nat) (lc : Bool) (ns : Nat) (s : State) : State :=
  modTen t (fun v =>
    let a := v.acct
    { v with acct := if lc then { a with etlc := satAdd ((2 ^ 64 - 1) * 1000) a.etlc ns }
                     else { a with etbe := satAdd ((2 ^ 64 - 1) * 1000) a.etbe ns } }) s

/-- A job gives up the tiles a test picks and is charged for them. -/
def releaseTiles (id : Nat) (f : Nat → Bool) (s : State) : State :=
  match s.jobs.get? id with
  | none => s
  | some j =>
    let ns := j.hold.sum (fun t since => if f t then s.time.ns - since else 0)
    let j' := { j with hold := j.hold.filter (fun t _ => !f t), etime := j.etime + ns }
    chargeTen j.tenant j.lcTime ns { s with jobs := s.jobs.set id j' }

/-- A tile is held by some job. -/
def tileHeld (s : State) (t : Nat) : Bool := s.jobs.any (fun _ j => (j.hold.get? t).isSome)

/-- A job starts on those tiles it waits for that no job holds any more (R185). -/
def grantTo (id : Nat) (s : State) : State :=
  modJob id (fun j =>
    let free := j.waitTiles.filter (fun t => !tileHeld s t)
    { j with hold := free.foldl (fun m t => m.set t s.time.ns) j.hold,
             waitTiles := j.waitTiles.filter (tileHeld s) }) s

/-- The order in which jobs are served (R182): latency-critical jobs, golden tests, the others; within each the order
of first dispatch. -/
def servedBefore (a b : Nat × Job) : Bool :=
  let k := fun (j : Job) => if j.lc then 0 else if j.golden then 1 else 2
  k a.2 < k b.2 || (k a.2 == k b.2 && a.2.dispNo < b.2.dispNo)

def servedInsert (x : Nat × Job) : List (Nat × Job) → List (Nat × Job)
  | [] => [x]
  | y :: t => if servedBefore x y then x :: y :: t else y :: servedInsert x t

/-- Jobs that wait for tiles, in their order; one that is itself to stop takes none. -/
def tileWaiters (s : State) : List (Nat × Job) :=
  (s.jobs.cells.filter (fun c => c.2.st == .running && !c.2.stopReq && !c.2.waitTiles.isEmpty)).foldr servedInsert []

def grantTiles (s : State) : State := (tileWaiters s).foldl (fun s c => grantTo c.1 s) s

/-- The virtual time of a tenant rises at the end of a latency-critical job (R183). -/
def raiseVt (j : Job) (s : State) : State :=
  if j.lcTime then
    modTen j.tenant (fun v => { v with vt := v.vt + 1024 * j.etime / (1000 * max 1 v.part.lcshare) }) s
  else s

/-! ## Completion records and output headers (Table 4 of chapter 06, R181, R321) -/

/-- The 64 bytes of a completion record. -/
def recordBytes (j : Job) (st fc epoch cseq now : Nat) (paired : Bool) (phase : Nat) : List Byte :=
  leBytes 4 j.jobseq ++ leBytes 4 j.userTag ++ leBytes 1 st
  ++ leBytes 1 (phase + 2 * b2n j.restarted + 4 * b2n j.degraded + 8 * b2n paired)
  ++ leBytes 2 j.prog ++ leBytes 4 j.gen ++ leBytes 8 (epoch % 2 ^ 48) ++ leBytes 4 cseq
  ++ leBytes 2 (min j.preempts 0xFFFF) ++ leBytes 2 fc ++ leBytes 8 j.tSubmit
  ++ leBytes 8 (j.tDispatch.getD 0) ++ leBytes 8 now ++ leBytes 8 j.etime

/-- The 64 bytes of an output header. -/
def headerBytes (j : Job) (a : Nat) (valid : Bool) (sflags epoch cseq : Nat) : List Byte :=
  leBytes 4 j.jobseq ++ leBytes 1 (b2n valid) ++ leBytes 1 sflags ++ zeros 2 ++ leBytes 8 epoch
  ++ leBytes 4 cseq ++ leBytes 4 j.gen ++ leBytes 8 (j.tDispatch.getD 0)
  ++ padTo 32 (((j.hdrs.find? (fun x => x.1 == a)).map (·.2)).getD [])

/-- SFLAGS of a header (R321). -/
def sflagsOf (s : State) (j : Job) (checked : Bool) : Nat :=
  let fr := isFrame s j
  let lapsed := match s.progs.get? j.prog with | some p => p.lapsed | none => false
  b2n fr + 2 * b2n (fr && checked) + 4 * b2n (fr && lapsed) + 8 * b2n s.skk.debug
    + 16 * b2n (s.dev.st == .service)

/-- Write the output headers of a job, 64 bytes before each output tensor (R181). -/
def writeHeaders (j : Job) (valid : Bool) (sflags epoch cseq : Nat) (s : State) : State :=
  j.outs.foldl (fun s o => ownWrite j.tenant (o.1 - 64) (headerBytes j o.1 valid sflags epoch cseq) s) s

/-- An endpoint's vector with nothing sent; PCI Express masks every vector and leaves MSI-X disabled at first
(PRESUMED, log 17). -/
def MsixVec.fresh : MsixVec := ⟨true, false, 0⟩
def PcieEp.fresh : PcieEp := ⟨false, Map.empty⟩
def State.ep (s : State) (e : Nat) : PcieEp := s.pcie.getD e PcieEp.fresh

/-- Vector n of an endpoint where MSI-X is enabled: sent, or its pending bit set while it is masked (R179). -/
def PcieEp.signal (n : Nat) (e : PcieEp) : PcieEp :=
  if !e.enable then e
  else
    let v := e.vecs.getD n MsixVec.fresh
    { e with vecs := e.vecs.set n (if v.mask then { v with pend := true } else { v with sent := v.sent + 1 }) }

/-- A tenant's interrupt, at each endpoint present (R179). -/
def msixSignal (n : Nat) (s : State) : State :=
  (List.range s.nEp).foldl (fun s e => { s with pcie := s.pcie.set e ((s.ep e).signal n) }) s

/-- Deliver a job's completion record: completion ring entry or JOB_SUBMIT completion (R180), the
outcome its queue keeps (R178) and the interrupt signal (R179). -/
def deliver (j : Job) (st fc epoch cseq : Nat) (s : State) : State :=
  let paired := match s.progs.get? j.prog with | some p => p.img.paired | none => false
  match s.queues.get? (qkey j.tenant j.queue) with
  | none => completeOpt j.tok st (recordBytes j st fc epoch cseq s.time.ns paired 0) s
  | some q =>
    let old := (j.jobseq + 2 ^ 32 - 65536) % 2 ^ 32
    let q := { q with outcomes := (q.outcomes.erase old).set j.jobseq (st, min j.preempts 0xFFFF) }
    let s := match q.rings with
      | some (_, cq) =>
        let phase := (q.cqTail / q.depth + 1) % 2
        let rec_ := recordBytes j st fc epoch cseq s.time.ns paired phase
        let q' := { q with cqTail := (q.cqTail + 1) % 65536 }
        let s := { s with queues := s.queues.set (qkey j.tenant j.queue) q' }
        devWrite (accSch j.tenant) (cq + q.cqTail % q.depth * 64) rec_ s
      | none =>
        completeOpt j.tok st (recordBytes j st fc epoch cseq s.time.ns paired 0)
          { s with queues := s.queues.set (qkey j.tenant j.queue) q }
    if j.irq then msixSignal j.tenant s else s

/-! ## Weight banks (R104 to R111) -/

def BankSt.code : BankSt → Nat
  | .free => 0
  | .writing => 1
  | .evaluating => 2
  | .accepted => 3
  | .draining => 4

/-- A transition of the standby bank, with EV_WBANK on HP0 (R105, R110). The last reason is the one the transition
carries; the manual gives a reason to the transitions that end a candidate only, and the model writes 0 (none) at every
other one, the end of a training job without a commit among them (R109; DESIGN CHOICE, log 20). -/
def setBank (h : Nat) (b : BankSt) (reason : Nat) (s : State) : State :=
  match s.progs.get? h with
  | none => s
  | some p =>
    offer0 0x02F2 (leBytes 2 h ++ leBytes 1 b.code ++ leBytes 1 reason ++ leBytes 4 p.gen)
      { s with progs := s.progs.set h { p with sb := b, reason := reason } }

/-- Jobs of a program bound to a bank of its present image, evaluations apart. -/
def boundTo (s : State) (h bank : Nat) : Bool :=
  match s.progs.get? h with
  | none => false
  | some p => s.jobs.any (fun _ j =>
      j.prog == h && j.inFlight && !j.isEval && j.bank == bank && j.image == p.imageNo)

/-- DRAINING ends when the last job bound to the old bank has ended (R105). -/
def drainBank (h : Nat) (s : State) : State :=
  match s.progs.get? h with
  | some p => if p.sb == .draining && !boundTo s h (1 - p.live) then setBank h .free 0 s else s
  | none => s

/-- JOBSEQ of evaluation jobs and golden tests, which no queue took (DESIGN CHOICE, log 15). -/
def evalSeq (idx : Nat) : Nat := 0xFFFF0000 + idx

/-- The tensors of an evaluation job, inputs or outputs: extents from IFACE, places the manual does not give (R107,
log 20). -/
def evalTensors (h idx : Nat) (p : Prog) (out : Bool) : List (Nat × Nat) :=
  p.img.tensors.zipIdx.filterMap (fun x =>
    if x.1.out == out then some (Config.evalAt h idx x.2, x.1.extent) else none)

/-- The evaluation job of one golden input (R107), best-effort, of the program's tenant. Its tensors are Skink's to
read. -/
def addEval (h idx : Nat) (s : State) : State :=
  match s.progs.get? h with
  | none => s
  | some p => addJob { Job.blank with
      tenant := p.tenant, prog := h, kind := p.img.kind, role := .eval idx, jobseq := evalSeq idx,
      ins := evalTensors h idx p false, outs := evalTensors h idx p true, tSubmit := s.time.ns } s

/-- Where the SRAM of a unit that an image holds lies in a cluster's SRAM as the model keeps it: each image has the
granules of its binding to itself (R116), addressed from 0 (log 11). -/
def sramBase (image unit : Nat) : Nat := (image * 16 + unit) * 2 ^ 24

/-- Copy a bank's resident tensors into cluster SRAM of each logical cluster that uses them, in both copies of a pair
(R132). The scale stream follows the data stream, from a multiple of 64 bytes on. -/
def fillResident (h bank : Nat) (s : State) : State :=
  match s.progs.get? h with
  | none => s
  | some p =>
    p.img.resAt.foldl (fun s r =>
      match p.img.weights[r.2.2.1]?, p.binds.find? (fun b => b.lc == r.1) with
      | some w, some b =>
        if r.2.1 != bank || !w.resident || !bit w.lcmask r.1 then s
        else
          let base := p.regBase + bank * p.img.bankStride
          let d := s.mem.dram.readN (base + w.dofs) w.dlen
          let c := s.mem.dram.readN (base + w.sofs) w.slen
          let at_ := sramBase p.imageNo 13 + r.2.2.2
          let put := fun (k : Cluster) => { k with
            sram := (k.sram.writeN at_ d).writeN (at_ + roundup w.dlen 64) c }
          let s := modCl b.clA put s
          match b.clB with
          | some m => modCl m put s
          | none => s
      | _, _ => s) s

/-- The candidate is accepted: its signatures are held for the swap (R107, R108). -/
def acceptCand (h : Nat) (s : State) : State :=
  match s.progs.get? h with
  | none => s
  | some p =>
    let s := completeOpt p.evalTok OK [] s
    setBank h .accepted 0 (modProg h (fun p => { p with cand := some p.candSigs, evalTok := none }) s)

/-- The resident copies of the bank that is not live. -/
def fillStandby (h : Nat) (s : State) : State :=
  match s.progs.get? h with
  | some p => fillResident h (1 - p.live) s
  | none => s

/-- Evaluation starts: the candidate's resident copies are filled (R132), then one job for each golden input in turn,
none where there is none (R107). -/
def startEval (h ms : Nat) (tok : Option Nat) (s : State) : State :=
  let s := modProg h (fun p => { p with candSigs := [], evalTok := tok, evalMs := ms, sbJob := none,
                                        sbHost := false, evalLeft := p.img.golden.length }) s
  let s := setBank h .evaluating 0 (fillStandby h s)
  match s.progs.get? h with
  | none => s
  | some p => if p.evalLeft == 0 then acceptCand h s else addEval h 0 s

/-- A golden input's output was accepted: the next input, or acceptance (R107). -/
def evalPassed (h idx sig : Nat) (s : State) : State :=
  let s := modProg h (fun p => { p with candSigs := p.candSigs ++ [sig], evalLeft := p.evalLeft - 1 }) s
  match s.progs.get? h with
  | none => s
  | some p =>
    if p.sb != .evaluating then s
    else if p.evalLeft == 0 then acceptCand h s else addEval h (idx + 1) s

/-- The first dispatch of a job after acceptance makes the candidate's bank live (R105, R108). -/
def swapBank (h : Nat) (s : State) : State :=
  match s.progs.get? h with
  | none => s
  | some p =>
    if p.sb != .accepted then s
    else
      let s := modProg h (fun p => { p with
        live := 1 - p.live, gen := (p.gen + 1) % 2 ^ 32, expected := p.cand.getD p.expected,
        cand := none, candSigs := [] }) s
      drainBank h (setBank h .draining 0 s)

/-- What a job's end does to the banks of the programs it writes or is bound to (R105). -/
def bankAfter (id : Nat) (j : Job) (ok : Bool) (s : State) : State :=
  let s := match s.progs.cells.find? (fun c => c.2.sbJob == some id) with
    | some (h, p) =>
      if ok then startEval h p.evalMs none s
      else setBank h .free 0 (modProg h (fun p => { p with sbJob := none }) s)
    | none => s
  drainBank j.prog s

/-! ## The end of a job -/

/-- Work of other blocks that a job has under way is given up with it: halo buffers, Colander
calls (R153, R168). -/
def dropCalls (id : Nat) (c : Colander) : Colander :=
  let running := match c.running with
    | some r => if r.job == id then none else some r
    | none => none
  let saved := match c.saved with
    | some r => if r.job == id then none else some r
    | none => none
  { c with running := running, saved := saved, queue := c.queue.filter (fun r => r.job != id) }

/-- A free Colander starts the next call: latency-critical first, then the pre-empted one, then the
next best-effort one (R168). -/
def startCall (c : Colander) : Colander :=
  match c.running with
  | some _ => c
  | none =>
    match c.queue.find? (·.lc) with
    | some r => { c with running := some r, queue := c.queue.erase r }
    | none =>
      match c.saved with
      | some r => { c with running := some r, saved := none }
      | none =>
        match c.queue with
        | [] => c
        | r :: t => { c with running := some r, queue := t }

def dropWork (id : Nat) (s : State) : State :=
  dropUnits id { s with
    halos := s.halos.filter (fun b => b.job != id),
    cld0 := startCall (dropCalls id s.cld0), cld1 := startCall (dropCalls id s.cld1) }

/-- Waiting frames take free check entries in the order in which they reached COMMITTING (R320). -/
def fillChk (s : State) : State :=
  match s.skk.chkWait with
  | [] => s
  | id :: t =>
    if s.skk.chkq.length < 256 then
      modJob id (fun j => { j with chk := .queued })
        { s with skk := { s.skk with chkq := s.skk.chkq ++ [id], chkWait := t } }
    else s

def dropChk (id : Nat) (s : State) : State :=
  fillChk { s with skk := { s.skk with chkq := s.skk.chkq.filter (· != id),
                                       chkWait := s.skk.chkWait.filter (· != id) } }

/-- An image a replaced program ran before is freed with its last job (R138). -/
def freeOld (h : Nat) (s : State) : State :=
  modProg h (fun p =>
    { p with old := p.old.filter (fun o =>
        s.jobs.any (fun _ j => j.prog == h && j.image == o.no && j.inFlight)) }) s

/-- A job leaves the device: tiles released and charged, record delivered, banks and other blocks
told. Headers and failed frames are the caller's. -/
def finishJob (id st fc epoch cseq : Nat) (s : State) : State :=
  let s := releaseTiles id (fun _ => true) s
  match s.jobs.get? id with
  | none => s
  | some j =>
    let s := raiseVt j s
    let s := match j.role with
      | .user => deliver j st fc epoch cseq s
      | _ => s
    let s := { s with jobs := s.jobs.erase id }
    grantTiles (freeOld j.prog (bankAfter id j (st == OK) (dropChk id (endUnits id (dropWork id s)))))

/-- Jobs of a test leave without a record, their tiles charged and handed on (R184, R185). -/
def dropJobs (f : Job → Bool) (st : Nat) (s : State) : State :=
  (s.jobs.filter (fun _ j => f j)).keys.foldl (fun s id => finishJob id st 0 0 0 s) s

/-- An evaluation or an accepted candidate ends with the bank FREE (R105): its jobs are dropped and
a waiting WBANK_SUBMIT completes. -/
def freeCand (h reason st : Nat) (s : State) : State :=
  match s.progs.get? h with
  | none => s
  | some p =>
    let s := modProg h (fun p => { p with cand := none, candSigs := [], evalTok := none, sbHost := false,
                                          sbJob := none, evalLeft := 0 }) s
    setBank h .free reason (completeOpt p.evalTok st [] (dropJobs (fun j => j.prog == h && j.isEval) st s))

/-- End with INVALID_OUTPUT: headers with VALID = 0, CSEQ and EPOCH 0 (R189). -/
def finishInvalid (id fc : Nat) (s : State) : State :=
  match s.jobs.get? id with
  | none => s
  | some j =>
    let s := match j.role with
      | .user => writeHeaders j false (sflagsOf s j false) 0 0 s
      | _ => s
    finishJob id INVALID_OUTPUT fc 0 0 s

/-! ## Dependencies (R178) -/

/-- Where a job stands with its dependencies. -/
inductive DepSt where
  | ready | wait | fail
  deriving DecidableEq, Repr

/-- A queue has taken a job with this JOBSEQ since it was created (R196); after 2^32 jobs it has taken every number. -/
def seqTaken (q : Queue) (d : Nat) : Bool := decide (d < q.nextSeq)

/-- One named dependency: its outcome, or the job still under way; a name never taken fails, a
name older than the outcomes kept counts as committed (R178). -/
def depOne (s : State) (t : Nat) (d : Nat × Nat) : DepSt :=
  match s.queues.get? (qkey t d.1) with
  | none => .fail
  | some q =>
    match q.outcomes.get? d.2 with
    | some (st, _) => if st == OK then .ready else .fail
    | none =>
      if s.jobs.any (fun _ j => j.tenant == t && j.queue == d.1 && j.jobseq == d.2 && j.role == .user)
      then .wait
      else if seqTaken q d.2 then .ready else .fail

def depState (s : State) (j : Job) : DepSt :=
  let l := j.deps.map (depOne s j.tenant)
  if l.contains .fail then .fail else if l.contains .wait then .wait else .ready

/-- One more completed frame of a program, failed or not, among its last 16 (R322). -/
def noteFrame (h : Nat) (failed : Bool) (s : State) : State :=
  modProg h (fun p => { p with frames := (failed :: p.frames).take 16 }) s

/-- Queued jobs whose dependency failed complete with FAULT, DEPFAIL, one after the other; a frame among them is a
completed frame that has not failed (R322). -/
def failDeps : Nat → State → State
  | 0, s => s
  | n + 1, s =>
    match s.jobs.cells.find? (fun c => c.2.st == .queued && depState s c.2 == .fail) with
    | some (id, j) => failDeps n (finishJob id FAULT 4 0 0 (if isFrame s j then noteFrame j.prog false s else s))
    | none => s

/-! ## Entry to SAFE (R333 to R337, Table 5 of chapter 12) -/

/-- Clear VALID and set SWEPT in the headers of some committed jobs (R335); Skink's writes are secure. -/
def sweepHeaders (t : Nat) (rs : List Recent) (s : State) : State :=
  (rs.flatMap (·.outs)).foldl (fun s o =>
    let a := o.1 - 64
    let f := (s.mem.dram.read (a + 4)).toNat
    let g := (s.mem.dram.read (a + 5)).toNat
    devWrite (accDev true t) (a + 4) (leBytes 1 (setBit f 0 false) ++ leBytes 1 (setBit g 5 true)) s) s

/-- Sweep every loaded program that a test picks. -/
def sweepProgs (f : Prog → Bool) (s : State) : State :=
  s.progs.vals.foldl (fun s p => if f p then sweepHeaders p.tenant (p.recent.take 8) s else s) s

/-- EV_SAFE (R337). -/
def evSafe (phase : Nat) (s : State) : State :=
  offerBoth evSafeOp (leBytes 1 s.skk.cause ++ leBytes 1 phase ++ leBytes 2 s.skk.lprog
    ++ leBytes 8 s.skk.ltime ++ leBytes 1 s.skk.ldetail ++ zeros 3) s

/-- A PROG_LOAD, PROG_FITCHECK or PROG_REPLACE is abandoned with a status; a program paused for a
MODE 1 replacement is restored (R138, R412). -/
def dropLoad (st : Nat) (data : List Byte) (l : Load) (s : State) : State :=
  let s := { s with loads := s.loads.filter (fun x => x.tok != l.tok) }
  let s := match l.replace with
    | some (h, _) => modProg h (fun p => { p with replacing := false }) s
    | none => s
  complete l.tok st data s

/-- An ACCEPTED JOB_SUBMIT whose job has not been dispatched has taken no effect; it is illegal in SAFE, so it
completes with STATE and the job goes (R65). Jobs that a ring fed are no commands and stay queued (R334). -/
def abortSubmits (s : State) : State :=
  (s.jobs.filter (fun _ j => j.st == .queued && j.role == .user && j.tok.isSome)).keys.foldl
    (fun s id => finishJob id STATE 0 0 0 s) s

/-- Accepted commands with no effect yet that are illegal in SAFE complete with STATE (R65). -/
def abortAccepted (s : State) : State :=
  let s := abortSubmits s
  let s := completeOpt s.dev.stopTok STATE [] { s with dev := { s.dev with stopTok := none } }
  let s := abortUnits (s.loads.foldl (fun s l => dropLoad STATE [] l s) s)
  s.progs.cells.foldl (fun s c =>
    let s := (c.2.changes.filter (·.join)).foldl (fun s g => complete g.tok STATE [] s) s
    modProg c.1 (fun p => { p with changes := p.changes.filter (fun g => !g.join) }) s) s

/-- Every evaluation ends with reason SAFE (R111). -/
def endEvals (s : State) : State :=
  s.progs.cells.foldl (fun s c => if c.2.sb == .evaluating then freeCand c.1 4 STATE s else s) s

/-- States from which SAFE is entered; SELF_TEST with cause LATENT only (R333). -/
def safeFrom (s : State) (cause : Nat) : Bool :=
  match s.dev.st with
  | .ready | .run | .degraded | .service => true
  | .selfTest => cause == 0x0B
  | _ => false

/-- Latch SAFE: the cause is recorded, jobs in flight end with INVALID_OUTPUT, evaluations end,
loops halt, EV_SAFE phase 1, the sweep of the safety programs, EV_STATE (R333 to R337, R65). A cause
detected after the latch changes nothing here. -/
def latchSafe (cause prog detail : Nat) (s : State) : State :=
  if s.skk.latched || !safeFrom s cause then s
  else
    let s := { s with
      skk := { s.skk with latched := true, cause := cause, ltime := s.time.ns, lprog := prog,
                          ldetail := detail },
      dev := { s.dev with cause := cause } }
    let s := endEvals s
    let s := (s.jobs.filter (fun _ j => j.inFlight)).keys.foldl (fun s id => finishInvalid id 0 s) s
    let s := evSafe 1 (safeUnits (failDeps s.jobs.cells.length s))
    let s := sweepProgs (fun p => p.img.paired) s
    afterSafe (setDevSt .safe (abortAccepted s))

/-! ## Failed frames (R322) -/

/-- A frame of a safety program completes; `reason` 0 when it did not fail. -/
def frameDone (h reason jobseq : Nat) (s : State) : State :=
  match s.progs.get? h with
  | none => s
  | some p =>
    let n := (((reason != 0) :: p.frames).take 16 |>.filter id).length
    let s := noteFrame h (reason != 0) s
    if reason == 0 then s
    else
      let s := modProg h (fun p => { p with eligible := true }) s
      let s := { s with skk := { s.skk with failfr := satAdd 0xFFFF s.skk.failfr 1 } }
      let s := offerBoth evFrameOp (leBytes 2 h ++ leBytes 1 reason ++ leBytes 1 n
        ++ leBytes 4 jobseq) s
      if n ≥ 2 then latchSafe 0x01 h reason s else s

/-- Reason code of EV_FRAME for a final status and cause, 0 where the frame did not fail (R322);
`inv` is the reason of an INVALID_OUTPUT. -/
def failReason (st fc inv : Nat) : Nat :=
  if st == INVALID_OUTPUT then inv
  else if st == SCALE_SKEW then 4
  else if st == TIMEOUT then 6
  else if st == FAULT && fc != 3 && fc != 4 && fc != 6 then 5
  else 0

/-! ## The end of a job with its consequences -/

/-- A job ends with a status other than OK, with INVALID_OUTPUT while DEBUG is in force (R339; a frame counts as
completed, PLACEMENT_LOST apart): no header, or headers with VALID = 0 for
INVALID_OUTPUT (R189); failed frames (R322), rejected evaluations (R105) and dependents (R178). An evaluation job that
ends so without a verdict (a FAULT, SCALE_SKEW, TIMEOUT of its own) rejects the candidate: its output was not passed; the
manual names no reason for that end (R107; DESIGN CHOICE, log 20). -/
def endJob (id st fc inv : Nat) (s : State) : State :=
  match s.jobs.get? id with
  | none => s
  | some j =>
    let dbg := s.skk.debug && j.inFlight
    let st := if dbg then INVALID_OUTPUT else st
    let fc := if dbg then 0 else fc
    let fr := isFrame s j
    let n := s.jobs.cells.length
    let s := if st == INVALID_OUTPUT then finishInvalid id fc s else finishJob id st fc 0 0 s
    let s := match j.role with
      | .user => if fr && st != PLACEMENT_LOST
                 then frameDone j.prog (failReason st fc inv) j.jobseq s else s
      | .golden _ => modProg j.prog (fun p => { p with eligible := true }) s
      | .eval _ => freeCand j.prog 1 INVALID_OUTPUT s
    failDeps n s

/-- End every job a test picks. -/
def endJobs (f : Job → Bool) (st fc : Nat) (s : State) : State :=
  (s.jobs.filter (fun _ j => f j)).keys.foldl (fun s id => endJob id st fc 0 s) s

/-- Commit a job (R188): the next CSEQ and an epoch, headers with VALID = 1, the record. While
DEBUG is in force it ends with INVALID_OUTPUT instead (R339), and with FAULT, RT_LOCKED where a header falls under a
lock (R274). -/
def commitAt (id epoch : Nat) (checked : Bool) (s : State) : State :=
  match s.jobs.get? id with
  | none => s
  | some j =>
    if s.skk.debug then endJob id INVALID_OUTPUT 0 0 s
    else if j.outs.any (fun o => rtLocked s (o.1 - 64) 64) then endJob id FAULT 0x0700 0 (markRtLock s)
    else
      let cseq := (s.sch.cseq + 1) % 2 ^ 32
      let fr := isFrame s j
      let s := { s with sch := { s.sch with cseq := cseq } }
      let s := writeHeaders j true (sflagsOf s j checked) epoch cseq (commitUnits id s)
      let s := modProg j.prog (fun p => { p with
        recent := (⟨j.jobseq, j.queue, j.outs, j.grids⟩ :: p.recent).take 8,
        steps := if j.kind == 1 then (p.steps + 1) % 2 ^ 32 else p.steps }) s
      let s := finishJob id OK 0 epoch cseq s
      if fr then frameDone j.prog 0 j.jobseq s else s

/-- The EPOCH that commits carry: that of the chain on a member, 0 on any other device (R191). -/
def State.commitEpoch (s : State) : Nat := if s.chn.st == 3 then s.sch.epoch else 0

/-- Commit a job with the device's epoch. -/
def commitJob (id : Nat) (checked : Bool) (s : State) : State := commitAt id s.commitEpoch checked s

/-! ## Faults of tenants and failed checks (R69, R175, R208) -/

/-- A fault of a tenant: FAULTED with a cause, its running jobs end with FAULT, cause TENANT. -/
def faultTenant (t cause : Nat) (s : State) : State :=
  let v := s.ten t
  if v.st == .opened || v.st == .quiesced then
    let s := setTenSt t .faulted (modTen t (fun v => { v with cause := cause }) s)
    endJobs (fun j => j.tenant == t && j.inFlight) FAULT 6 (faultUnits t s)
  else s

/-- A failed check (R208): recorded and counted; tenant work faults its tenant, a device block's
is logged. -/
def violate (c : Acc) (write : Bool) (reason a : Nat) (s : State) : State :=
  let s := recordViol c.src c.secure write c.field reason a s
  if c.src == 0 then faultTenant c.tenant 2 s
  else if c.src == 2 then fwLog c.secure 3 0 (a % 2 ^ 48) s
  else s

/-- A checked write: done whole, or discarded whole (R208); of a master of the device, discarded under a lock (R274). -/
def checkedWrite (c : Acc) (a : Nat) (bs : List Byte) (s : State) : State :=
  match accessCheck s c a bs.length with
  | 0 => if c.src != 1 && rtLocked s a bs.length then markRtLock s else dramWrite a bs s
  | r => violate c true r a s

/-- A checked read: the bytes, undefined ones of a locked surface (R274), or zeros and a violation (R208). -/
def checkedRead (c : Acc) (a n : Nat) (s : State) : List Byte × State :=
  match accessCheck s c a n with
  | 0 => if rtLocked s a n then undefBytes n s else (dramRead s a n, s)
  | r => (zeros n, violate c false r a s)

/-! ## Restarts (R127, R190, R318) -/

/-- A job restarts from its checkpoint, or from its start: later signatures and every halo buffer
are discarded; the restart is counted. -/
def restartJob (id : Nat) (s : State) : State :=
  match s.jobs.get? id with
  | none => s
  | some j =>
    if !j.inFlight then s
    else
      let s := dropWork id s
      let s := modJob id (fun j => { j with
        flips := [], partials := [], sigs := j.ckSigs, fifo := [], replayAt := 0, restarted := true, pendMis := false, chk := .none, 
        st := if j.st == .committing then .running else j.st }) (dropChk id s)
      modTen j.tenant (fun v => { v with acct := { v.acct with rty := satAdd 0xFFFFFFFF v.acct.rty 1 } }) s

end Sys2Proof.Machine
end

