-- ==== Sys2Proof/Machine/Stored.lean ====
section
/-! DEFINITION. Tensors as they are stored and read (R80 to R85, R90, R93 to R98): element formats, block pairs and
their check, the bytes that a job's work reads, and the rows that engines take from them. -/

namespace Sys2Proof.Machine

open Sys2Proof

/-! ## Formats and values (R80 to R85, R90) -/

/-- Width of an element or code in bits. -/
def elBits : ElFmt → Nat
  | .fp32 => 32
  | .fp16 | .bf16 => 16
  | .e5m2 | .e4m3 => 8
  | .int w => w
  | .zq w _ => w

/-- Group size of a ZQ format. -/
def elGroup : ElFmt → Option Nat
  | .zq _ g => some g
  | _ => none

/-- The formats of Table 1 of chapter 03. -/
def elFmtOk : ElFmt → Bool
  | .int w => [4, 8].contains w
  | .zq w g => [4, 6, 8].contains w && [32, 64, 128].contains g
  | _ => true

/-- Significand and exponent of a scale byte; 0x00 gives 0 (R84, R85). -/
def scaleVal (b : Nat) : Nat × Int :=
  if b / 8 % 32 = 0 then (b % 8, -22) else (8 + b % 8, (b / 8 % 32 : Nat) - 23)

/-- The exact value of a code under a scale byte (R82, R90). -/
def dequant (w code sb : Nat) : FVal :=
  let v := scaleVal sb
  if sb = 0 then .fin false 0 0 else FVal.ofInt (asInt w code * v.1) v.2 false

/-- The exact value of a stored element. -/
def elVal (f : ElFmt) (code sb : Nat) : FVal :=
  match f with
  | .fp32 => fdecode fp32 code
  | .fp16 => fdecode fp16 code
  | .bf16 => fdecode bf16 code
  | .e5m2 => fdecode e5m2 code
  | .e4m3 => fdecode e4m3 code
  | .int w => FVal.ofInt (asInt w code) 0 false
  | .zq w _ => dequant w code sb

/-- An element as the vector engine takes it on entry: widened to FP32, which is exact, or in BF16 mode rounded
once and held as the FP32 code of that value (R79, R90, R156). -/
def widenEl (bf : Bool) (f : ElFmt) (code sb : Nat) : Nat :=
  match bf, f with
  | false, .fp32 => code
  | false, _ => fenc fp32 (elVal f code sb)
  | true, _ => bfRes (elVal f code sb)

/-! ## Blocks of a ZQ tensor (R93 to R96) -/

/-- FMT of Table 6. -/
def fmtByte (w g : Nat) : Nat :=
  (if w = 4 then 0 else if w = 6 then 1 else 2) + 4 * (if g = 32 then 0 else if g = 64 then 1 else 2)

/-- FMT that a format's blocks carry. -/
def fmtOf : ElFmt → Nat
  | .zq w g => fmtByte w g
  | _ => 0

/-- Groups of block b of a tensor with n groups. -/
def blockGroups (n b : Nat) : Nat := min 48 (n - 48 * b)

/-- Bytes of a group's codes. -/
def groupBytes (f : ElFmt) : Nat := (elGroup f).getD 0 * elBits f / 8

/-- Where block b of a tensor lies: data block and scale block. -/
def dataAt (t : Streams) (b : Nat) : Nat := t.base + (b - t.blk) * (64 + 48 * groupBytes t.fmt)
def scaleAt (t : Streams) (b : Nat) : Nat := t.scale + (b - t.blk) * 64

/-- Bytes of block b's data block: header and payload (R94). -/
def dataLen (t : Streams) (b : Nat) : Nat := 64 + roundup (blockGroups t.groups b * groupBytes t.fmt) 64

/-- One check of a block pair (R96): its job, the tiles that were to receive the block in slot order (none for the
vector engine alone), the DMA engine, or none for a tile address generator and then its physical tile, and TAG, FMT
and NGROUPS of the scale block, of the data block and as expected. -/
structure PairCheck where
  job : Nat
  tiles : List Nat
  dma : Option Nat
  gen : Nat
  sTag : Nat
  sFmt : Nat
  sN : Nat
  dTag : Nat
  dFmt : Nat
  dN : Nat
  eTag : Nat
  eFmt : Nat
  eN : Nat
  deriving DecidableEq, Repr

/-- The check of block b from the bytes of both blocks: TAG is the block's index, FMT that of the format, NGROUPS
what its position in the tensor requires. -/
def pairCheckOf (job : Nat) (tiles : List Nat) (dma : Option Nat) (gen : Nat) (t : Streams) (b : Nat)
    (data sc : List Byte) : PairCheck :=
  ⟨job, tiles, dma, gen, u16 sc 0, u8 sc 2, u8 sc 3, u16 data 0, u8 data 2, u8 data 3,
    b % 65536, fmtOf t.fmt, blockGroups t.groups b⟩

/-- FMT or NGROUPS fails a comparison. -/
def pairFmtErr (c : PairCheck) : Bool :=
  c.sFmt != c.dFmt || c.sN != c.dN || c.sFmt != c.eFmt || c.dFmt != c.eFmt || c.sN != c.eN || c.dN != c.eN

/-- A comparison of R96 fails. -/
def pairFails (c : PairCheck) : Bool :=
  pairFmtErr c || c.sTag % 65536 != c.eTag % 65536 || c.dTag % 65536 != c.eTag % 65536

/-- Order in which failures of one cycle are recorded: DMA engines, then address generators (R100). -/
def pairRank (c : PairCheck) : Nat :=
  match c.dma with
  | some d => d
  | none => 4 + c.gen

/-- The check of least rank. -/
def firstCheck : List PairCheck → Option PairCheck
  | [] => none
  | c :: t =>
    match firstCheck t with
    | some d => if pairRank c ≤ pairRank d then some c else some d
    | none => some c

/-- Record a failed check where SKEW is 0 (R97, R100). -/
def logSkew (c : PairCheck) (k : Cluster) : Cluster :=
  if k.skew then k
  else { k with
    skew := true, scaleTag := c.sTag % 65536, dataTag := c.dTag % 65536, expTag := c.eTag % 65536,
    skTile := c.tiles.head?.getD 0xF, skDma := c.dma.getD 0, skGen := c.dma.isNone, skFmt := pairFmtErr c }

/-- The failed checks of one cycle on a cluster: the first is recorded, and every job they concern stops with
SCALE_SKEW (R97, R100). -/
def failChecks (cl : Nat) (bad : List PairCheck) (s : State) : State :=
  match firstCheck bad with
  | none => s
  | some c => bad.foldl (fun s c => endJob c.job SCALE_SKEW 0 0 s) (modCl cl (logSkew c) s)

/-! ## Bytes that work of a job reads -/

/-- The image a job runs and its binding. -/
def jobImage (s : State) (j : Job) : Option (Image × List LcBind) :=
  match s.progs.get? j.prog with
  | some p =>
    if j.image == p.imageNo then some (p.img, p.binds)
    else (p.old.find? (fun o => o.no == j.image)).map (fun o => (o.img, o.binds))
  | none => none

/-- Where the SRAM of a unit of a cluster (tile 0 to 12, 13 cluster SRAM) that a job's program holds lies in the model's
SRAM, and its size: every program has the granules of its binding to itself from load to unload (R115, R116), addressed
from 0 (log 11). -/
def sramSpan (s : State) (job cl unit : Nat) : Nat × Nat :=
  match s.jobs.get? job with
  | none => (0, 0)
  | some j =>
    let size := match jobImage s j with
      | some (_, bs) =>
        match bs.find? (fun b => b.clA == cl || b.clB == some cl) with
        | some b =>
          if unit = 13 then b.cgran * 65536
          else if ((if b.clA == cl then b.tilesA ++ b.leftA else b.tilesB ++ b.leftB)).contains unit then b.tgran * 16384
          else 0
        | none => 0
      | none => 0
    (sramBase j.image unit, size)

/-- An access of a job's work to SRAM that its program does not hold fails its check: granules carry the world of the
program that holds them (R207, R208; REASON 5 is the model's, log 31). -/
def sramViolate (job : Nat) (write : Bool) (off : Nat) (s : State) : State :=
  match s.jobs.get? job with
  | none => s
  | some j => violate (accTenant s j.tenant) write 5 off s

/-- A read of a job's work: SRAM of its cluster, or DRAM, checked (R206), poisoned data ending the job with FAULT,
DRAM_UE (R202), a locked surface giving undefined bytes (R274). -/
def workBytes (job cl : Nat) (unit : Option Nat) (a n : Nat) (s : State) : List Byte × State :=
  match unit with
  | some u =>
    let x := sramSpan s job cl u
    if a + n ≤ x.2 then ((s.cl cl).sram.readN (x.1 + a) n, s) else (zeros n, sramViolate job false a s)
  | none =>
    match s.jobs.get? job with
    | none => (zeros n, s)
    | some j =>
      let c := accTenant s j.tenant
      match accessCheck s c a n with
      | 0 =>
        if poisoned s a n then (zeros n, endJob job FAULT 0x0400 0 s)
        else if rtLocked s a n then undefBytes n s
        else (dramRead s a n, s)
      | r => (zeros n, violate c false r a s)

/-- A write of a job's work into SRAM of a cluster that its program holds. -/
def sramWrite (job cl unit off : Nat) (bs : List Byte) (s : State) : State :=
  let x := sramSpan s job cl unit
  if off + bs.length ≤ x.2 then modCl cl (fun c => { c with sram := c.sram.writeN (x.1 + off) bs }) s
  else sramViolate job true off s

/-! ## Rows of stored tensors -/

/-- One row as it is stored: codes, and for ZQ the scale byte of each group. -/
structure Row where
  codes : List Nat
  sbs : List Nat
  deriving DecidableEq, Repr

/-- Code `i` of `w` bits in a run of bytes (R83). -/
def codeAt (w : Nat) (bs : List Byte) (i : Nat) : Nat :=
  bits (fieldAt bs (i * w / 8) ((w + 7) / 8 + 1)) (i * w % 8) w

/-- Groups of row r of a ZQ tensor, by their numbers in the tensor. -/
def rowGroups (t : Stored) (g r : Nat) : List Nat :=
  (List.range ((t.k + g - 1) / g)).map (fun i => t.first + r * t.pitch + i)

/-- The fetched pairs of a tensor: block, data block, scale block. -/
abbrev Pairs := List (Nat × List Byte × List Byte)

/-- Fetch the block pairs that some rows touch. -/
def fetchPairs (job cl : Nat) (t : Streams) (bs : List Nat) (s : State) : Pairs × State :=
  bs.foldl (fun (acc : Pairs × State) b =>
    let d := workBytes job cl t.unit (dataAt t b) (dataLen t b) acc.2
    let c := workBytes job cl t.unit (scaleAt t b) 64 d.2
    (acc.1 ++ [(b, d.1, c.1)], c.2)) ([], s)

/-- The row of a ZQ tensor from its fetched pairs. -/
def zqRow (t : Stored) (w g : Nat) (ps : Pairs) (r : Nat) : Row :=
  let pair := fun (n : Nat) => ((ps.find? (fun x => x.1 == n / 48)).map (·.2)).getD ([], [])
  let gs := rowGroups t g r
  ⟨gs.flatMap (fun n => (List.range g).map (codeAt w ((pair n).1.drop (64 + n % 48 * (g * w / 8))))),
   gs.map (fun n => u8 (pair n).2 (4 + n % 48))⟩

/-- Fetch and read some rows: none where a check stopped the job, or an access ended it (R96, R97, R206). The
rows come in the order asked for. -/
def loadRows (job cl tile : Nat) (vec : Bool) (t : Stored) (rs : List Nat) (s : State) :
    Option (List (Nat × Row)) × State :=
  match t.str.fmt with
  | .zq w g =>
    let bs := (rs.flatMap (fun r => (rowGroups t g r).map (· / 48))).eraseDups
    let f := fetchPairs job cl t.str bs s
    if (f.2.jobs.get? job).isNone then (none, f.2)
    else
      let cs := f.1.map (fun p =>
        pairCheckOf job (if vec then [] else [tile]) t.dma tile t.str p.1 p.2.1 p.2.2)
      match cs.filter pairFails with
      | [] => (some (rs.map (fun r => (r, zqRow t w g f.1 r))), f.2)
      | bad => (none, failChecks cl bad f.2)
  | fmt =>
    let w := elBits fmt
    let f := rs.foldl (fun (acc : List (Nat × Row) × State) r =>
      let e := t.first + r * t.pitch
      let b := workBytes job cl t.str.unit (t.str.base + e * w / 8) (((e * w % 8) + t.k * w + 7) / 8) acc.2
      (acc.1 ++ [(r, ⟨(List.range t.k).map (fun i => codeAt w b.1 (e * w % 8 / w + i)), []⟩)], b.2)) ([], s)
    if (f.2.jobs.get? job).isNone then (none, f.2) else (some f.1, f.2)

/-- The row of a number among loaded ones. -/
def rowOf (l : List (Nat × Row)) (r : Nat) : Row := ((l.find? (fun x => x.1 == r)).map (·.2)).getD ⟨[], []⟩

/-- The elements of a row as the vector engine takes them. -/
def widenRow (bf : Bool) (t : Stored) (r : Row) : List Nat :=
  let g := (elGroup t.str.fmt).getD 1
  (r.codes.take t.k).mapIdx (fun i c => widenEl bf t.str.fmt c (r.sbs[i / max 1 g]?.getD 0))

end Sys2Proof.Machine
end

