-- ==== Sys2Proof/Machine/Arith.lean ====
section
/-! DEFINITION. Tile arithmetic: the expanded copy (R144 to R147), the matrix unit (R77, R85, R91), partial sums
(R124), the vector engine (R79, R103, R156 to R159), quantisation (R86 to R89), output conversions (R92), blocks
that the device writes (R93 to R95), and the rows WRITEBACK and BLOCK_PAIR_FETCH. -/

namespace Sys2Proof.Machine

open Sys2Proof

/-! ## The matrix unit (R77) -/

/-- The parts of a list, n elements each, the last one shorter. -/
def chunks {α : Type} (n : Nat) (l : List α) : List (List α) :=
  if n = 0 then [] else (List.range ((l.length + n - 1) / n)).map (fun i => (l.drop (i * n)).take n)

/-- The integer dot product of two lists of codes. -/
def dotInt (wa wb : Nat) (a b : List Nat) : Int :=
  (a.zip b).foldl (fun s x => s + asInt wa x.1 * asInt wb x.2) 0

/-- One group of a scaled-integer product: D × sA × sB with one rounding; nothing when either scale
is 0x00 (R77, R85, R91). -/
def addGroup (wa wb : Nat) (acc : Nat) (a b : List Nat) (sa sb : Nat) : Nat :=
  if sa = 0 || sb = 0 then acc
  else
    let x := scaleVal sa
    let y := scaleVal sb
    let d := FVal.ofInt (dotInt wa wb a b * (x.1 * y.1 : Nat)) (x.2 + y.2) false
    fenc fp32 ((fdecode fp32 acc).add d)

/-- One chunk of 16 products of a float family, summed exactly and added with one rounding (R77). -/
def addChunk (fa fb : FFmt) (acc : Nat) (a b : List Nat) : Nat :=
  match a.zip b with
  | [] => acc
  | p :: t =>
    let d := t.foldl (fun s x => s.add ((fdecode fa x.1).mul (fdecode fb x.2)))
      ((fdecode fa p.1).mul (fdecode fb p.2))
    fenc fp32 ((fdecode fp32 acc).add d)

/-- INT32 accumulation of one product, saturating (R77). -/
def addInt (s : Int × Bool) (d : Int) : Int × Bool :=
  let v := s.1 + d
  (satInt 32 v, s.2 || satInt 32 v != v)

/-- E4M3 or E5M2 by operand code. -/
def fp8Fmt (c : Nat) : FFmt := if c = 0 then e4m3 else e5m2

/-- One output of a pass: the accumulator (an FP32 or INT32 code) after row a of A and column b of B;
true when an INT32 sum saturated. -/
def passOne (f : Fam) (acc : Nat) (a b sa sb : List Nat) : Nat × Bool :=
  match f with
  | .zq wa wb g =>
    ((((chunks g a).zip (chunks g b)).zip (sa.zip sb)).foldl
      (fun s x => addGroup wa wb s x.1.1 x.1.2 x.2.1 x.2.2) acc, false)
  | .int wa wb =>
    let r := (a.zip b).foldl (fun s x => addInt s (asInt wa x.1 * asInt wb x.2)) (asInt 32 acc, false)
    (ofInt 32 r.1, r.2)
  | .fp8 fa fb => ((((chunks 16 a).zip (chunks 16 b))).foldl
      (fun s x => addChunk (fp8Fmt fa) (fp8Fmt fb) s x.1 x.2) acc, false)
  | .bf16 => ((((chunks 16 a).zip (chunks 16 b))).foldl
      (fun s x => addChunk bf16 bf16 s x.1 x.2) acc, false)
  | .fp16 => ((((chunks 16 a).zip (chunks 16 b))).foldl
      (fun s x => addChunk fp16 fp16 s x.1 x.2) acc, false)

/-- The i-th list of a list of lists. -/
def nthRow (l : List (List Nat)) (i : Nat) : List Nat := l[i]?.getD []

/-- The operands of one pass: rows of A and columns of B. -/
abbrev PassData := List Row × List Row

/-- One pass over a block held by rows: the block after it and whether a sum saturated. -/
def passBlock (f : Fam) (p : PassData) (blk : List (List Nat)) : List (List Nat) × Bool :=
  let row : List Row → Nat → Row := fun l i => l[i]?.getD ⟨[], []⟩
  let r := blk.mapIdx (fun i l => l.mapIdx (fun j acc =>
    passOne f acc (row p.1 i).codes (row p.2 j).codes (row p.1 i).sbs (row p.2 j).sbs))
  (r.map (fun l => l.map (·.1)), r.any (fun l => l.any (·.2)))

/-- A block after its initialisation and all its passes (R78), and whether a sum saturated. -/
def blockValue (f : Fam) (bias : Option (List Nat)) (ps : List PassData) : List (List Nat) × Bool :=
  match ps with
  | [] => ([], false)
  | p :: _ =>
    let row := match bias with
      | some v => (List.range p.2.length).map (fun j => v[j]?.getD 0)
      | none => List.replicate p.2.length 0
    ps.foldl (fun s q =>
      let r := passBlock f q s.1
      (r.1, s.2 || r.2)) (List.replicate p.1.length row, false)

/-! ## Blocks that the device writes (R93 to R95) -/

/-- Codes of `w` bits packed in element order from the lowest address (R83). -/
def packCodes (w : Nat) (cs : List Nat) : List Byte :=
  leBytes ((cs.length * w + 7) / 8) (cs.foldr (fun c a => c % 2 ^ w + 2 ^ w * a) 0)

/-- The pieces of both streams that hold group `gn` of a ZQ tensor of `n` groups: address and bytes. -/
def groupWrites (w g base scale n gn : Nat) (sb : Nat) (codes : List Nat) : List (Nat × List Byte) :=
  let b := gn / 48
  let i := gn % 48
  let gb := g * w / 8
  let n := blockGroups n b
  let hd := leBytes 2 b ++ leBytes 1 (fmtByte w g) ++ leBytes 1 n
  let data := base + b * (64 + 48 * gb)
  let sc := scale + b * 64
  let last := i + 1 == n
  [(data, hd ++ zeros 60),
   (data + 64 + i * gb, packCodes w codes ++ (if last then zeros (roundup (n * gb) 64 - n * gb) else [])),
   (sc, hd),
   (sc + 4 + i, leBytes 1 sb ++ (if last then zeros (60 - n) else []))]

/-! ## The expanded copy (R144 to R147) -/

/-- Row `i` of an expanded ZQ copy: for each tap in order the codes and scale bytes of the pixel's groups, or a zero
group for each group of a zero-padding position. -/
def expandZq (g cin : Nat) (taps : List (Option Nat)) (px : List (Nat × Row)) : List (Nat × List Nat) :=
  let n := (cin + g - 1) / g
  taps.flatMap (fun o => match o with
    | some p => (List.range n).map (fun i =>
        ((rowOf px p).sbs[i]?.getD 0, ((rowOf px p).codes.drop (i * g)).take g))
    | none => List.replicate n (0, List.replicate g 0))

/-- Row of an expanded plain copy: elements of every tap, zeros at padding, completed to a multiple of 16. -/
def expandPlain (cin : Nat) (taps : List (Option Nat)) (px : List (Nat × Row)) : List Nat :=
  let l := taps.flatMap (fun o => match o with
    | some p => ((rowOf px p).codes ++ List.replicate cin 0).take cin
    | none => List.replicate cin 0)
  l ++ List.replicate (roundup l.length 16 - l.length) 0

/-- The pieces that an expanded copy consists of, in the form of R93 and R94 with tags from 0 (R146). -/
def expandWrites (x : Expand) (px : List (Nat × Row)) : List (Nat × List Byte) :=
  let cin := x.inp.k
  match x.inp.str.fmt with
  | .zq w g =>
    let rows := (List.range x.rows).flatMap (fun i => expandZq g cin (geomTaps x.geom (x.pos + i)) px)
    (rows.mapIdx (fun n r => groupWrites w g x.base x.scale rows.length n r.1 r.2)).flatten
  | f => [(x.base, packCodes (elBits f) ((List.range x.rows).flatMap (fun i =>
      expandPlain cin (geomTaps x.geom (x.pos + i)) px)))]

/-- The address generator of a tile builds an expanded copy from the pixels that its taps read. False where an
access or a check stopped the job. -/
def expand (job cl tile : Nat) (x : Expand) (s : State) : Bool × State :=
  let r := loadRows job cl tile false x.inp (geomPixels x.geom x.pos x.rows) s
  match r.1 with
  | none => (false, r.2)
  | some px => (true, (expandWrites x px).foldl (fun s w => sramWrite job cl x.unit w.1 w.2 s) r.2)

/-! ## Loading the operands of a pass -/

/-- The expanded copy of a pass, where it has one, and then its operands. -/
def loadPass (job cl tile : Nat) (p : MatPass) (s : State) : Option PassData × State :=
  let e := match p.ex with
    | some x => expand job cl tile x s
    | none => (true, s)
  if !e.1 then (none, e.2)
  else
    let a := loadRows job cl tile false p.a (List.range p.a.rows) e.2
    match a.1 with
    | none => (none, a.2)
    | some ra =>
      let b := loadRows job cl tile false p.b (List.range p.b.rows) a.2
      (b.1.map (fun rb => (ra.map (·.2), rb.map (·.2))), b.2)

def loadPasses (job cl tile : Nat) : List MatPass → State → Option (List PassData) × State
  | [], s => (some [], s)
  | p :: t, s =>
    let a := loadPass job cl tile p s
    match a.1 with
    | none => (none, a.2)
    | some d =>
      let r := loadPasses job cl tile t a.2
      (r.1.map (d :: ·), r.2)

/-- The accumulator blocks of a writeback: number, value, saturation. -/
def loadBlks (job cl tile : Nat) (f : Fam) : List AccBlk → State → Option (List (Nat × List (List Nat) × Bool)) × State
  | [], s => (some [], s)
  | b :: t, s =>
    let a := loadPasses job cl tile b.passes s
    match a.1 with
    | none => (none, a.2)
    | some ps =>
      let r := loadBlks job cl tile f t a.2
      (r.1.map ((b.blk, blockValue f b.bias ps) :: ·), r.2)

/-! ## The vector engine (R79, R103, R156 to R159) -/

/-- The fixed pairwise tree in lane order; an odd last value passes up (R79). -/
def treeOf (add : Nat → Nat → Nat) : Nat → List Nat → Nat
  | _, [] => 0
  | _, [x] => x
  | 0, x :: _ => x
  | n + 1, l =>
    treeOf add n ((chunks 2 l).map (fun c => match c with
      | [x, y] => add x y
      | [x] => x
      | _ => 0))

def treeSum (n : Nat) (l : List Nat) : Nat := treeOf fadd n l

/-- One multiply-add a tap in order, from the bias (R156). -/
def convTaps (bf : Bool) : Nat → List Nat → Nat
  | acc, x :: w :: t => convTaps bf (if bf then bffma x w acc else ffma x w acc) t
  | acc, _ => acc

/-- The maximum: the first tap in order among equals, a NaN where one is (R159); +0.0 of none (R158). -/
def maxTaps : List Nat → Nat
  | [] => 0
  | x :: t => t.foldl (fun m v =>
      match fdecode fp32 m, fdecode fp32 v with
      | .nan _, _ => m
      | _, .nan _ => v
      | _, _ => fmax m v) x

/-- 2^-n as an FP32 code. -/
def fpow2neg (n : Nat) : Nat := fofRat 1 (2 ^ n)

/-- 2^n as an FP32 code. -/
def fpow2 (n : Nat) : Nat := fofInt (2 ^ n : Nat)

/-- The Adam step of one element with decoupled weight decay: new w, m and v (R103). -/
def adamStep (o : OptStep) (w m0 v0 g0 : Nat) : Nat × Nat × Nat :=
  let g := fmul g0 (fpow2neg o.lossShift)
  let m := fadd (fmul o.b1 m0) (fmul (fsub f32one o.b1) g)
  let v := fadd (fmul o.b2 v0) (fmul (fmul (fsub f32one o.b2) g) g)
  let mh := fdiv m (fsub f32one (fpowNat o.b1 o.t))
  let vh := fdiv v (fsub f32one (fpowNat o.b2 o.t))
  (fsub w (fmul o.lr (fadd (fdiv mh (fadd (fsqrt vh) o.eps)) (fmul o.wd w))), m, v)

/-- SGD with momentum `b1`: new w and m (R103). -/
def sgdStep (o : OptStep) (w m0 g0 : Nat) : Nat × Nat :=
  let m := fadd (fmul o.b1 m0) (fmul g0 (fpow2neg o.lossShift))
  (fsub w (fmul o.lr (fadd m (fmul o.wd w))), m)

/-- What an optimiser step leaves of one element. -/
def optOne (o : OptStep) (w m v g : Nat) : Nat :=
  if o.sgd then
    let r := sgdStep o w m g
    if o.out = 0 then r.1 else r.2
  else
    let r := adamStep o w m v g
    if o.out = 0 then r.1 else if o.out = 1 then r.2.1 else r.2.2

/-- The value of one tap of pooling, none where the position is excluded (R158). -/
def poolTap (px : List (Nat × List Nat)) (c : Nat) (o : Option Nat) : Option Nat :=
  o.map (fun p => (((px.find? (fun x => x.1 == p)).map (·.2)).getD [])[c]?.getD 0)

/-- The average: the sum in tap order, a zero-padding position adding 0, divided once (R158, R159). -/
def avgTaps (countPad : Bool) (ts : List (Option Nat)) : Nat :=
  let n := if countPad then ts.length else (ts.filterMap id).length
  match ts.map (·.getD 0) with
  | [] => 0
  | x :: t => if n = 0 then 0 else fdiv (t.foldl fadd x) (fofInt n)

/-- One output element of a window operator: position `o`, channel `c` (R156 to R159). Weights and pixels are
widened. -/
def winOne (w : VecWin) (px : List (Nat × List Nat)) (wt : List (Nat × List Nat)) (o c : Nat) : Nat :=
  let taps := geomTaps w.geom o
  match w.geom.kind with
  | .conv g ci co =>
    let per := ci / max 1 g
    let c0 := c / max 1 (co / max 1 g) * per
    let xs := taps.flatMap (fun t => (List.range per).map (fun i => (poolTap px (c0 + i) t).getD 0))
    let ws := ((wt.find? (fun x => x.1 == c)).map (·.2)).getD []
    convTaps w.bf (w.bias[c]?.getD 0) ((xs.zip ws).flatMap (fun p => [p.1, p.2]))
  | .max => maxTaps (taps.filterMap (poolTap px c))
  | .avg cp => avgTaps cp (taps.map (poolTap px c))
  | .global =>
    let xs := taps.filterMap (poolTap px c)
    fdiv (treeSum xs.length xs) (fofInt xs.length)

/-- A window operator's rows: one an output position, one column a channel; only pixels that a tap reads are
fetched (R144). -/
def winRows (job cl tile : Nat) (w : VecWin) (s : State) : Option (List (List Nat)) × State :=
  let x := loadRows job cl tile true w.inp (geomPixels w.geom w.pos w.nPos) s
  match x.1 with
  | none => (none, x.2)
  | some px =>
    let wide := fun (t : Stored) (l : List (Nat × Row)) => l.map (fun r => (r.1, widenRow w.bf t r.2))
    let k := match w.weights with
      | some t =>
        let r := loadRows job cl tile true t ((List.range w.nChan).map (· + w.chan)) x.2
        (r.1.map (wide t), r.2)
      | none => (some [], x.2)
    (k.1.map (fun wt => (List.range w.nPos).map (fun o => (List.range w.nChan).map (fun c =>
      winOne w (wide w.inp px) wt (w.pos + o) (w.chan + c)))), k.2)

/-- Element j of a row; a row of one element meets every column. -/
def colAt (l : List Nat) (j : Nat) : Nat := if l.length = 1 then l.head?.getD 0 else l[j]?.getD 0

/-- An operation over rows, column by column. -/
def rows2 (f : Nat → Nat → Nat) (x y : List (List Nat)) : List (List Nat) :=
  (x.zip y).map (fun p => (List.range (max p.1.length p.2.length)).map (fun j => f (colAt p.1 j) (colAt p.2 j)))
def rows1 (f : Nat → Nat) (x : List (List Nat)) : List (List Nat) := x.map (fun l => l.map f)

/-- All rows of a stored tensor as the vector engine takes them. -/
def loadWide (job cl tile : Nat) (bf : Bool) (t : Stored) (s : State) : Option (List (List Nat)) × State :=
  let r := loadRows job cl tile true t (List.range t.rows) s
  (r.1.map (fun l => l.map (fun x => widenRow bf t x.2)), r.2)

/-- The optimiser step over the elements of its tensors. -/
def optRows (job cl tile : Nat) (o : OptStep) (s : State) : Option (List (List Nat)) × State :=
  let w := loadWide job cl tile false o.w s
  let m := loadWide job cl tile false o.m w.2
  let v := if o.sgd then (some [], m.2) else loadWide job cl tile false o.v m.2
  let g := loadWide job cl tile false o.g v.2
  match w.1, m.1, v.1, g.1 with
  | some w', some m', some v', some g' =>
    (some (w'.mapIdx (fun i l => l.mapIdx (fun j x =>
      let at_ := fun (z : List (List Nat)) => (z[i]?.getD [])[j]?.getD 0
      optOne o x (at_ m') (at_ v') (at_ g')))), g.2)
  | _, _, _, _ => (none, g.2)

/-- A vector computation: its rows of FP32 codes; none where an access or a check stopped the job. -/
def vecEval (job cl tile : Nat) : VecExpr → State → Option (List (List Nat)) × State
  | .load bf t, s => loadWide job cl tile bf t s
  | .const rows, s => (some rows, s)
  | .add bf x y, s => vec2 (vecEval job cl tile x) (vecEval job cl tile y) (if bf then bfadd else fadd) s
  | .mul bf x y, s => vec2 (vecEval job cl tile x) (vecEval job cl tile y) (if bf then bfmul else fmul) s
  | .div bf x y, s => vec2 (vecEval job cl tile x) (vecEval job cl tile y) (if bf then bfdiv else fdiv) s
  | .fma bf x y z, s =>
    let a := vecEval job cl tile x s
    let b := vecEval job cl tile y a.2
    let c := vecEval job cl tile z b.2
    match a.1, b.1, c.1 with
    | some p, some q, some r =>
      (some ((p.zip (q.zip r)).map (fun l => l.1.mapIdx (fun j u =>
        (if bf then bffma else ffma) u (colAt l.2.1 j) (colAt l.2.2 j)))), c.2)
    | _, _, _ => (none, c.2)
  | .sqrt bf x, s => vec1 (vecEval job cl tile x) (rows1 (if bf then bfsqrt else fsqrt)) s
  | .trans f bf x, s => vec1 (vecEval job cl tile x) (rows1 (if bf then bftrans f else ftrans f)) s
  | .sum bf x, s => vec1 (vecEval job cl tile x)
      (fun l => l.map (fun r => [if bf then treeOf bfadd r.length r else treeSum r.length r])) s
  | .win w, s => winRows job cl tile w s
  | .opt o, s => optRows job cl tile o s
  | .lossScale n x, s => vec1 (vecEval job cl tile x) (rows1 (fun v => fmul v (fpow2 n))) s
where
  /-- One operand, then the operation. -/
  vec1 (x : State → Option (List (List Nat)) × State) (f : List (List Nat) → List (List Nat)) (s : State) :
      Option (List (List Nat)) × State :=
    let a := x s
    (a.1.map f, a.2)
  /-- Two operands in order, then the operation. -/
  vec2 (x y : State → Option (List (List Nat)) × State) (f : Nat → Nat → Nat) (s : State) :
      Option (List (List Nat)) × State :=
    let a := x s
    let b := y a.2
    match a.1, b.1 with
    | some p, some q => (some (rows2 f p q), b.2)
    | _, _ => (none, b.2)

/-! ## Quantisation (R86 to R89) -/

/-- cmax of a code width (R82). -/
def cmaxOf (w : Nat) : Nat := 2 ^ (w - 1) - 1

/-- Whether m × 2^e ≤ k × 2^g. -/
def dyLe (m : Nat) (e : Int) (k : Nat) (g : Int) : Bool :=
  let t := min e g
  decide (m * 2 ^ (e - t).toNat ≤ k * 2 ^ (g - t).toNat)

/-- The absolute value as the statistic takes it: NaNs are ignored, an infinity counts as the largest
finite value (R86, R89). -/
def statOf (x : Nat) : Nat :=
  match fdecode fp32 x with
  | .nan _ => 0
  | .inf _ => fmaxfin fp32 false
  | .fin _ _ _ => x % 2 ^ 31

/-- amax of some FP32 codes. Codes of non-negative numbers order as the numbers do. -/
def amaxOf (l : List Nat) : Nat := maxOf (l.map statOf)

/-- The scale byte of an extent: 0x00 for amax 0, else the smallest byte whose value times cmax is at
least amax, 0xFF where none is (R87). -/
def scaleByte (w amax : Nat) : Nat :=
  if amax = 0 then 0
  else
    match fdecode fp32 amax with
    | .fin _ m e =>
      (((List.range 255).map (· + 1)).find? (fun c =>
        dyLe m e ((scaleVal c).1 * cmaxOf w) (scaleVal c).2)).getD 0xFF
    | _ => 0xFF

/-- |x| ÷ s rounded to the nearest integer, ties away from zero (R88). -/
def divHalfAway (m : Nat) (e : Int) (k : Nat) (g : Int) : Nat :=
  let t := min e g
  let n := m * 2 ^ (e - t).toNat
  let d := k * 2 ^ (g - t).toNat
  if d = 0 then 0 else (2 * n + d) / (2 * d)

/-- The code of one element and whether it was clamped (R88, R89). -/
def quantOne (w sb x : Nat) : Int × Bool :=
  if sb = 0 then (0, false)
  else
    match fdecode fp32 x with
    | .nan _ => (0, false)
    | .inf n => ((if n then -1 else 1) * (cmaxOf w : Int), false)
    | .fin n m e =>
      let q := divHalfAway m e (scaleVal sb).1 (scaleVal sb).2
      ((if n then -1 else 1) * (min q (cmaxOf w) : Nat), decide (cmaxOf w < q))

/-- One quantised group: scale byte and codes of G elements, zero codes in the padding (R76). -/
structure QGroup where
  sb : Nat
  codes : List Nat
  clamped : Nat
  deriving DecidableEq, Repr

def quantGroup (w g sb : Nat) (xs : List Nat) : QGroup :=
  let q := xs.map (quantOne w sb)
  ⟨sb, (q.map (fun (c : Int × Bool) => ofInt w c.1) ++ List.replicate g 0).take g, (q.filter (·.2)).length⟩

/-- The groups of rows of FP32 codes under a statistic extent (R86). -/
def quantRows (w g : Nat) (ext : Extent) (rows : List (List Nat)) : List (List QGroup) :=
  match ext with
  | .group => rows.map (fun r => (chunks g r).map (fun c => quantGroup w g (scaleByte w (amaxOf c)) c))
  | .channel others => rows.mapIdx (fun i r =>
      let sb := scaleByte w (amaxOf (r ++ nthRow others i))
      (chunks g r).map (quantGroup w g sb))
  | .tensor others =>
    let sb := scaleByte w (amaxOf (rows.flatten ++ others))
    rows.map (fun r => (chunks g r).map (quantGroup w g sb))

/-! ## Output conversions (R92) -/

/-- An FP32 code in a float format: code and whether a finite value saturated. -/
def convFloat (f : FFmt) (x : Nat) : Nat × Bool :=
  match fdecode fp32 x with
  | .nan n => (fnan f n, false)
  | .inf n => (finf f n, false)
  | .fin n m e => fround f false n m e false

/-- (acc × MULT) ÷ 2^(31 + SHIFT), ties away from zero, clamped (R92). -/
def requantOne (w mult shift acc : Nat) : Nat × Bool :=
  let p := asInt 32 acc * asInt 32 mult
  let d := 2 ^ (31 + shift)
  let q : Int := (if p < 0 then -1 else 1) * ((2 * p.natAbs + d) / (2 * d) : Nat)
  (ofInt w (satInt w q), satInt w q != q)

/-- Element width in bits of a conversion's result. -/
def convWidth : Conv → Nat
  | .f32 | .i2f | .i32 => 32
  | .bf16 | .fp16 => 16
  | .e5m2 | .e4m3 => 8
  | .zq w _ _ => w
  | .requant w _ _ => w

/-- The conversion takes FP32 values, on which the non-finite policy works (R89). -/
def convTakesFloat : Conv → Bool
  | .i2f | .i32 | .requant _ _ _ => false
  | _ => true

/-- One element through a conversion that is not a quantisation: column j. -/
def convOne (c : Conv) (j x : Nat) : Nat × Bool :=
  match c with
  | .f32 | .i32 => (x, false)
  | .bf16 => convFloat bf16 x
  | .fp16 => convFloat fp16 x
  | .e5m2 => convFloat e5m2 x
  | .e4m3 => convFloat e4m3 x
  | .zq _ _ _ => (0, false)
  | .i2f => (fofInt (asInt 32 x), false)
  | .requant w mult shift => requantOne w (mult[j]?.getD 0) shift x

/-! ## WRITEBACK -/

/-- What a conversion makes of the rows: the writes, saturated values, clamped codes. The second moment of the
optimiser has no negative codes (R102). -/
def convWrites (c : Conv) (d : WbDest) (rows : List (List Nat)) : List (Nat × List Byte) × Bool × Nat :=
  match c with
  | .zq w g ext =>
    let qs := quantRows w g ext rows
    let cut := fun c => if d.role = .mom2 && 2 ^ (w - 1) ≤ c then 0 else c
    ((qs.mapIdx (fun r row => (row.mapIdx (fun i q =>
        groupWrites w g d.base d.scale d.groups (d.first + r * d.pitch + i) q.sb (q.codes.map cut))).flatten)).flatten,
      false, qs.foldl (fun a r => a + r.foldl (fun a q => a + q.clamped) 0) 0)
  | _ =>
    let es := rows.map (fun r => r.mapIdx (fun j x => convOne c j x))
    (es.mapIdx (fun r row => (d.base + r * d.pitch, packCodes (convWidth c) (row.map (·.1)))),
      es.any (fun r => r.any (·.2)), 0)

/-- The operand formats of a family of products (R74 to R76). -/
def famFits (f : Fam) (a b : ElFmt) : Bool :=
  match f with
  | .zq wa wb g => a == .zq wa g && b == .zq wb g && elFmtOk a && elFmtOk b
  | .int wa wb => a == .int wa && b == .int wb && elFmtOk a && elFmtOk b
  | .fp8 fa fb => a == (if fa = 0 then .e4m3 else .e5m2) && b == (if fb = 0 then .e4m3 else .e5m2) && fa ≤ 1 && fb ≤ 1
  | .bf16 => a == .bf16 && b == .bf16
  | .fp16 => a == .fp16 && b == .fp16

/-- One pass: operands of the family, at most 64 rows of A and columns of B over the same K (R75 to R77), and an
expanded copy of an operator that runs on the matrix units, in the operand's format (R145, R155). -/
def passFits (f : Fam) (p : MatPass) : Bool :=
  famFits f p.a.str.fmt p.b.str.fmt && p.a.rows ≤ 64 && p.b.rows ≤ 64 && p.a.k == p.b.k
  && (match p.ex with
      | some x => onMatrix x.geom.kind && geomInRange x.geom && x.inp.str.fmt == p.a.str.fmt
      | none => true)

/-- A vector computation reads formats of Table 1 of chapter 03, operators within Table 1 of chapter 05 that run on
the vector engine, optimiser tensors of Table 12 of chapter 03, LOSS_SHIFT 0 to 24 (R74, R102, R155). -/
def vecFits : VecExpr → Bool
  | .load _ t => elFmtOk t.str.fmt
  | .const _ => true
  | .add _ x y | .mul _ x y | .div _ x y => vecFits x && vecFits y
  | .fma _ x y z => vecFits x && vecFits y && vecFits z
  | .sqrt _ x | .sum _ x => vecFits x
  | .trans f _ x => decide (f ≤ 5) && vecFits x
  | .win w => onVector w.geom.kind && geomInRange w.geom && elFmtOk w.inp.str.fmt
      && (match w.weights with
          | some t => elFmtOk t.str.fmt
          | none => true)
      && (match w.geom.kind with
          | .conv _ _ _ => true
          | _ => !w.bf)
  | .opt o =>
    let zq8 := fun (t : Stored) => t.str.fmt == .zq 8 32 || t.str.fmt == .zq 8 64 || t.str.fmt == .zq 8 128
    zq8 o.g && zq8 o.m && (o.sgd || zq8 o.v) && (o.w.str.fmt == .bf16 || o.w.str.fmt == .fp32)
      && o.lossShift ≤ 24 && o.out ≤ (if o.sgd then 1 else 2) && 1 ≤ o.t
  | .lossScale n x => decide (n ≤ 24) && vecFits x

/-- The conversion is that of a tensor of a training job (Table 12 of chapter 03); what an optimiser step leaves
goes to the tensor it belongs to. -/
def roleFits (src : WbSrc) (c : Conv) (d : WbDest) : Bool :=
  let perGroup8 := match c with
    | .zq 8 _ .group => true
    | _ => false
  match d.role, src with
  | .grad, _ => perGroup8
  | .mom1, .vec (.opt o) => perGroup8 && o.out == 1
  | .mom2, .vec (.opt o) => perGroup8 && o.out == 2
  | .master, .vec (.opt o) => o.out == 0 && c == (if o.w.str.fmt == .bf16 then .bf16 else .f32)
  | .cand, .vec (.opt _) => false
  | .cand, _ => true
  | .other, .vec (.opt _) => false
  | .other, _ => true
  | _, _ => false

/-- The source is one that Tables 1, 2 and 5 of chapter 03 provide for, with a conversion that takes its values. -/
def wbFits (src : WbSrc) (c : Conv) (d : WbDest) : Bool :=
  (match src with
   | .acc (.int _ _) _ _ => !convTakesFloat c
   | _ => convTakesFloat c)
  && (match c with
      | .zq w g _ => elFmtOk (.zq w g)
      | .requant w _ sh => [4, 8].contains w && sh ≤ 31
      | _ => true)
  && (match src with
      | .acc f blks _ => blks.length ≤ 2 && blks.all (fun b => b.blk < 16 && b.passes.all (passFits f))
      | .vec e => vecFits e)
  && roleFits src c d

/-- The rows of adjacent blocks side by side. -/
def joinBlks (vs : List (List (List Nat))) : List (List Nat) :=
  (List.range (maxOf (vs.map List.length))).map (fun i => (vs.map (nthRow · i)).flatten)

/-! ## Partial sums of several slots (R124) -/

/-- Two partial sums of one output, element by element, and whether an INT32 sum saturated. -/
def addRows (int : Bool) (x y : List (List Nat)) : List (List Nat) × Bool :=
  if int then
    let r := (x.zip y).map (fun p => (p.1.zip p.2).map (fun e => addInt (asInt 32 e.1, false) (asInt 32 e.2)))
    (r.map (fun l => l.map (fun e => ofInt 32 e.1)), r.any (fun l => l.any (·.2)))
  else (rows2 fadd x y, false)

/-- A list of partial sums added in the order it has. -/
def addParts (int : Bool) : List (List (List Nat)) → List (List Nat) × Bool
  | [] => ([], false)
  | x :: t => t.foldl (fun a y =>
      let r := addRows int a.1 y
      (r.1, a.2 || r.2)) (x, false)

/-- Contributions in increasing order of a key. -/
def byKey (k : PartSum → Nat) : List PartSum → List PartSum
  | [] => []
  | x :: t =>
    let rec ins : List PartSum → List PartSum
      | [] => [x]
      | y :: u => if k x ≤ k y then x :: y :: u else y :: ins u
    ins (byKey k t)

/-- The sum of an output's contributions: with FIXED_ORDER in increasing slot order within each logical cluster, and
then in increasing order of the logical clusters; else in the order in which they arrived (R124). -/
def combineParts (fixed int : Bool) (ps : List PartSum) : List (List Nat) × Bool :=
  if fixed then
    let lcs := (byKey (·.lc) ps).map (·.lc) |>.eraseDups
    let rs := lcs.map (fun l => addParts int ((byKey (·.slot) (ps.filter (fun p => p.lc == l))).map (·.rows)))
    let t := addParts int (rs.map (·.1))
    (t.1, t.2 || rs.any (·.2))
  else addParts int (ps.map (·.rows))

/-- FIXED_ORDER of the image a job runs (R124). -/
def jobFixed (s : State) (j : Job) : Bool :=
  match jobImage s j with
  | some (i, _) => bit i.flags 2
  | none => false

/-- A cluster runs copy B of the job's pair. -/
def onCopyB (s : State) (j : Job) (cl : Nat) : Bool :=
  match jobImage s j with
  | some (_, bs) => bs.any (fun b => b.clB == some cl)
  | none => false

/-- The candidate working weights of a training job: written to the standby bank of the program it trains, into a
tensor of its table, in that tensor's format (R102, R131). -/
def candOk (s : State) (j : Job) (d : WbDest) : Bool :=
  match s.progs.get? j.prog with
  | none => false
  | some p =>
    match s.progs.get? p.img.trains with
    | none => false
    | some q =>
      let bank := q.regBase + (1 - q.live) * q.img.bankStride
      q.sbJob.isSome && d.unit.isNone
        && q.img.weights.any (fun w => decide (bank + w.dofs ≤ d.base) && decide (d.base < bank + w.dofs + w.dlen))

/-- NFMODE of the image a job runs. -/
def jobNfmode (s : State) (j : Job) : Nat :=
  match jobImage s j with
  | some (i, _) => i.nfmode
  | none => 0

/-- Copy B of a pair runs on this cluster: its writes to output tensors are discarded (R315). -/
def copyBOutput (s : State) (j : Job) (cl a : Nat) : Bool :=
  (match jobImage s j with
   | some (_, bs) => bs.any (fun b => b.clB == some cl)
   | none => false)
  && j.outs.any (fun o => o.1 ≤ a && a < o.1 + o.2)

/-- A compute write of a job to DRAM: copy B's output is kept for its signature alone (R315); one that falls under a
render-target lock is discarded and stops the job (R274); the others are checked (R206). -/
def jobDramWrite (job cl a : Nat) (bs : List Byte) (s : State) : State :=
  match s.jobs.get? job with
  | none => s
  | some j =>
    if copyBOutput s j cl a then modJob job (fun j => { j with bOut := j.bOut.writeN a bs }) s
    else if rtLocked s a bs.length then endJob job FAULT 0x0700 0 (markRtLock s)
    else checkedWrite (accTenant s j.tenant) a bs s

/-- The write of a job's result: cluster SRAM from 2^48 (log 11), else DRAM. -/
def jobWrite (job cl a : Nat) (bs : List Byte) (s : State) : State :=
  if 2 ^ 48 ≤ a then sramWrite job cl 13 (a - 2 ^ 48) bs s else jobDramWrite job cl a bs s

/-- Write bytes of a job's output to SRAM of its cluster or, checked, to DRAM. -/
def wbWrite (job cl : Nat) (d : WbDest) (w : Nat × List Byte) (s : State) : State :=
  match d.unit with
  | some u => sramWrite job cl u w.1 w.2 s
  | none => jobDramWrite job cl w.1 w.2 s

/-- Non-finite values met in a cluster (R89). -/
def countNonfin (cl n : Nat) (s : State) : State :=
  if n = 0 then s
  else modCl cl (fun c => { c with nonfin := true, nonfinCnt := satAdd 0xFFFF c.nonfinCnt n }) s

/-- What a writeback has to write: the rows, none while contributions of other slots are awaited or where the job
was stopped. Blocks stay in the accumulator store; a partial sum waits in cluster SRAM until every contribution to its
output is there (R78, R124). -/
def wbRows (job cl tile : Nat) (src : WbSrc) (s : State) : Option (List (List Nat)) × State :=
  match src with
  | .vec e => vecEval job cl tile e s
  | .acc f blks part =>
    let r := loadBlks job cl tile f blks s
    match r.1 with
    | none => (none, r.2)
    | some vs =>
      let sat := fun b (s : State) => modCl cl (fun c => { c with accsat := c.accsat || b }) s
      let s := sat (vs.any (·.2.2)) (modCl cl (fun c => { c with
        acc := vs.foldl (fun m v => m.set (tile * 16 + v.1) v.2.1.flatten) c.acc }) r.2)
      let rows := joinBlks (vs.map (·.2.1))
      match part, s.jobs.get? job with
      | some p, some j =>
        let copyB := onCopyB s j cl
        let mine := fun (x : PartSum) => x.out == p.out && x.copyB == copyB
        let ps := j.partials.filter mine ++ [(⟨p.out, copyB, p.lc, p.slot, rows⟩ : PartSum)]
        if ps.length < p.need then (none, modJob job (fun j => { j with
          partials := j.partials ++ [(⟨p.out, copyB, p.lc, p.slot, rows⟩ : PartSum)] }) s)
        else
          let int := match f with
            | .int _ _ => true
            | _ => false
          let c := combineParts (jobFixed s j) int ps
          (some c.1, sat c.2 (modJob job (fun j => { j with partials := j.partials.filter (fun x => !mine x) }) s))
      | _, _ => (some rows, s)

/-- Convert rows and write them (R89, R92). -/
def wbConvert (job cl : Nat) (conv : Conv) (dest : WbDest) (nfmode : Nat) (rows : List (List Nat)) (s : State) : State :=
  let nf := if convTakesFloat conv then (rows.flatten.filter fnonfin).length else 0
  if nf != 0 && nfmode == 0 then endJob job FAULT 1 0 (countNonfin cl 1 s)
  else
    let r := convWrites conv dest rows
    let s := modCl cl (fun c => { c with
      ocsat := c.ocsat || r.2.1, qsat := c.qsat || decide (r.2.2 ≠ 0),
      qsatCnt := satAdd 0xFFFF c.qsatCnt r.2.2 }) (countNonfin cl nf s)
    r.1.foldl (fun s w => wbWrite job cl dest w s) s

/-- The tensors of Table 12 of chapter 03 belong to training jobs; the candidate lies in the standby bank of the
program that the job trains. -/
def roleOk (s : State) (j : Job) (d : WbDest) : Bool :=
  d.role == .other || (j.kind == 2 && (d.role != .cand || candOk s j d))

def execWriteback (job cl tile : Nat) (src : WbSrc) (conv : Conv) (dest : WbDest) (s : State) :
    Host.Outcome State Fault Refusal :=
  match s.jobs.get? job with
  | none => .next s
  | some j =>
    if j.st != .running || !wbFits src conv dest || !roleOk s j dest then .next s
    else
      let r := wbRows job cl tile src s
      match r.1 with
      | none => .next r.2
      | some rows => .next (wbConvert job cl conv dest (jobNfmode s j) rows r.2)

/-! ## BLOCK_PAIR_FETCH (R96 to R98, R100) -/

/-- Bring one block pair into use: its bytes, its check, and where the check passes the copies of both blocks in
SRAM. The failed checks are gathered, so that those of one cycle are recorded in their order. -/
def fetchPair (cl : Nat) (acc : List PairCheck × State) (f : PairFetch) : List PairCheck × State :=
  let s := acc.2
  match s.jobs.get? f.job with
  | none => acc
  | some j =>
    if j.st != .running then acc
    else
      let d := workBytes f.job cl f.src.unit (dataAt f.src f.blk) (dataLen f.src f.blk) s
      let c := workBytes f.job cl f.src.unit (scaleAt f.src f.blk) 64 d.2
      if (c.2.jobs.get? f.job).isNone then (acc.1, c.2)
      else
        let k := pairCheckOf f.job f.tiles f.dma f.gen f.src f.blk d.1 c.1
        if pairFails k then (acc.1 ++ [k], c.2)
        else match f.dst with
          | some (u, a, b) => (acc.1, sramWrite f.job cl u b c.1 (sramWrite f.job cl u a d.1 c.2))
          | none => (acc.1, c.2)

def execBlockPairFetch (cl : Nat) (fs : List PairFetch) (s : State) :
    Host.Outcome State Fault Refusal :=
  let r := fs.foldl (fetchPair cl) ([], s)
  .next (failChecks cl r.1 r.2)

end Sys2Proof.Machine
end

