-- ==== Sys2Proof/Machine/Command.lean ====
section
/-! DEFINITION. How the device treats one command packet: admission (R52), the order of checks
(R50), sequence numbers and retransmission (R49, R51), legality (R63, R41), the checks of TENANT and
QUEUE (R66, R70, R353), RETRY_LATER (R409), the reply and what is kept of it (R48, R51). -/

namespace Sys2Proof.Machine

/-- How a command uses the TENANT field. -/
inductive TenUse where
  /-- TENANT must be 0xFF. -/
  | none
  /-- It names a tenant that is neither CLOSED nor closing (R70). -/
  | acts
  /-- It names a tenant and answers for its present state while that is closing (R70). -/
  | asks
  /-- It names a tenant in any state: TENANT_OPEN, TENANT_STATUS, PARTITION_GET. -/
  | any
  /-- The command's own checks judge the field. -/
  | own
  deriving DecidableEq, Repr

/-- How a command uses the QUEUE field. -/
inductive QueUse where
  /-- QUEUE must be 0xFF. -/
  | none
  /-- It must be 0x00 to 0x0F. -/
  | number
  /-- It must name a created queue of TENANT. -/
  | created
  deriving DecidableEq, Repr

/-- One row of the command tables: who may send it, where it is legal, what it checks and what it
does. `resource` is 0 or the status of step 10; `data` is the DATA of an OK reply; `effect` gets the
token of an ACCEPTED command. -/
structure Cmd where
  opcode : Nat
  hp0 : Bool
  hp1 : Bool
  states : List DevSt
  ten : TenUse
  que : QueUse
  /-- Firmware processors the command needs (R409). -/
  units : Hdr → List Byte → List Nat
  lenOk : List Byte → Bool
  /-- Largest data of a reply, and of the completion of a command that replies ACCEPTED. -/
  maxReply : Nat
  cpl : Option Nat
  /-- Status of the immediate reply of a command that has no completion. -/
  okStatus : Nat
  denied : Hdr → List Byte → State → Bool
  stateOk : Hdr → List Byte → State → Bool
  paramOk : Hdr → List Byte → State → Bool
  /-- Entries the command puts into the journal buffer (R361). -/
  entries : Hdr → List Byte → State → Nat
  resource : Hdr → List Byte → State → Nat
  data : Hdr → List Byte → State → List Byte
  effect : Nat → Hdr → List Byte → State → State
  /-- What a refusal at a step leaves behind (FW_SEC_PROVE alone). -/
  onRefuse : Nat → Hdr → List Byte → State → State

/-- Every state in which a port is operational, and the sets the command tables use. -/
def stAll : List DevSt := [.awaitFw, .selfTest, .ready, .run, .degraded, .safe, .service]
def stQuery : List DevSt := [.ready, .run, .degraded, .safe, .service]
def stWork : List DevSt := [.ready, .run, .degraded, .service]

/-- A command of HP0 that needs SCH, names no tenant and checks nothing of its own. -/
def Cmd.base : Cmd :=
  { opcode := 0, hp0 := true, hp1 := false, states := stWork, ten := .none, que := .none,
    units := fun _ _ => [fwSch], lenOk := fun ps => ps.length == 0, maxReply := 0, cpl := none,
    okStatus := OK,
    denied := fun _ _ _ => false, stateOk := fun _ _ _ => true, paramOk := fun _ _ _ => true,
    entries := fun _ _ _ => 0, resource := fun _ _ _ => 0, data := fun _ _ _ => [],
    effect := fun _ _ _ s => s, onRefuse := fun _ _ _ s => s }

def sessionOpenOp : Nat := 0x0101

/-- A tenant number (R70). -/
def isTenant (t : Byte) : Bool := decide (t.toNat < 64)

/-- The TENANT field names a tenant opened from a secure session, which a normal-world session may
not name (R353). -/
def worldDenied (c : Cmd) (h : Hdr) (s : State) : Bool :=
  (match c.ten with
   | .none => false
   | _ => isTenant h.tenant && (s.ten h.tenant.toNat).st != .closed
            && (s.ten h.tenant.toNat).secure)
  && !(s.port h.port).secure

/-- Step 7 for the TENANT field (R70). -/
def tenantStateOk (c : Cmd) (h : Hdr) (s : State) : Bool :=
  let t := s.ten h.tenant.toNat
  match c.ten with
  | .acts => !isTenant h.tenant || (t.st != .closed && !t.closing)
  | .asks => !isTenant h.tenant || t.st != .closed
  | _ => true

/-- Step 8 for TENANT and QUEUE (R66, Tables 8, 10 and 17 of their chapters). -/
def fieldsOk (c : Cmd) (h : Hdr) (s : State) : Bool :=
  (match c.ten with
   | .none => h.tenant == 0xFF
   | .own => true
   | _ => isTenant h.tenant)
  && (match c.que with
      | .none => h.queue == 0xFF
      | .number => decide (h.queue.toNat < 16)
      | .created => decide (h.queue.toNat < 16)
          && (s.queue? h.tenant.toNat h.queue.toNat).isSome)

/-- The port accepts the command (R41). -/
def portOk (c : Cmd) (h : Hdr) : Bool :=
  match h.port with
  | .hp0 => c.hp0
  | .hp1 => c.hp1

/-- Steps 5 to 10 of R50: OK, or the status of the first check that fails. -/
def Cmd.verdict (c : Cmd) (h : Hdr) (ps : List Byte) (s : State) : Nat :=
  if !c.lenOk ps then BAD_LENGTH
  else if !portOk c h || worldDenied c h s || c.denied h ps s then DENIED
  else if !c.states.contains s.dev.st || !tenantStateOk c h s || !c.stateOk h ps s then STATE
  else if !fieldsOk c h s || !c.paramOk h ps s then BAD_PARAM
  else if (c.units h ps).any (fun u => s.fwDown u) || !journalRoom (c.entries h ps s) s then
    RETRY_LATER
  else if c.resource h ps s != 0 then c.resource h ps s
  else match c.cpl with
    | none => OK
    | some n =>
      let v := s.port h.port
      if v.liveCount ≥ awaitMax || v.replyBytes + v.reserved + (14 + c.maxReply) + (14 + n) > replyArea
      then NO_RESOURCE else OK

/-- The outcome of a packet that passed the sequence check: that of the checks, or INTERNAL where the firmware that
executes the command finds an internal inconsistency in it (R55). -/
def Cmd.outcome (c : Cmd) (h : Hdr) (ps : List Byte) (s : State) : Nat :=
  if c.verdict h ps s == OK && h.inconsistent && !(c.units h ps).isEmpty then INTERNAL else c.verdict h ps s

/-- The reply to a command. -/
def mkReply (op : Nat) (h : Hdr) (st : Nat) (data : List Byte) : OutPkt :=
  ⟨op, st, false, false, h.tag.toNat, h.seq.toNat, data⟩

/-- The packet consumes its sequence number and its reply is kept (R51). -/
def consume (h : Hdr) (o : OutPkt) (s : State) : State :=
  let v := s.port h.port
  s.setPort h.port { v with expSeq := (h.seq.toNat + 1) % 65536, kept := some (h.tag.toNat, o) }

/-- Reply with a status and consume the sequence number. -/
def replyUse (op : Nat) (h : Hdr) (st : Nat) (data : List Byte) (s : State) : State :=
  let o := mkReply op h st data
  consume h o (putReply h.port o s)

/-- Reply with a status and consume nothing. -/
def replyOnly (op : Nat) (h : Hdr) (st : Nat) (data : List Byte) (s : State) : State :=
  putReply h.port (mkReply op h st data) s

/-- The state as DATA shows it: the packet's sequence number has been consumed (R50). -/
def consumed (h : Hdr) (s : State) : State :=
  let v := s.port h.port
  s.setPort h.port { v with expSeq := (h.seq.toNat + 1) % 65536 }

/-- A command that passed every check: its reply, then its effect. -/
def Cmd.perform (c : Cmd) (h : Hdr) (ps : List Byte) (s : State) : State :=
  match c.cpl with
  | none => c.effect 0 h ps (replyUse c.opcode h c.okStatus (c.data h ps (consumed h s)) s)
  | some n =>
    let a := accept h.port c.opcode h.tag.toNat h.seq.toNat (14 + n)
      (replyUse c.opcode h ACCEPTED [] s)
    c.effect a.1 h ps a.2

/-- Step 3 of R50 for a packet of an open session (R51). -/
inductive SeqCheck where
  | pass | again (o : OutPkt) | bad
  deriving DecidableEq, Repr

def seqCheck (h : Hdr) (v : PortSt) : SeqCheck :=
  if h.seq.toNat == v.expSeq then .pass
  else
    match v.kept with
    | some (tag, o) =>
      if (h.seq.toNat + 1) % 65536 == v.expSeq && tag == h.tag.toNat then .again o else .bad
    | none => .bad

/-- Firmware that abandoned a command with INTERNAL logs it (R55). -/
def logInternal (c : Cmd) (h : Hdr) (ps : List Byte) (s n : State) : State :=
  if c.outcome h ps s == INTERNAL then fwLog (s.port h.port).secure 5 c.opcode h.seq.toNat n else n

/-- A packet at its turn (R64), after framing and CRC: steps 3 to 10 of R50 and its execution. -/
def Cmd.run (c : Cmd) (h : Hdr) (ps : List Byte) (s : State) : State :=
  if c.opcode == sessionOpenOp then
    if c.outcome h ps s == OK then c.perform h ps s
    else logInternal c h ps s (replyOnly c.opcode h (c.outcome h ps s) [] s)
  else if !(s.port h.port).openS then replyOnly c.opcode h STATE [] s
  else
    match seqCheck h (s.port h.port) with
    | .again o => putReply h.port o s
    | .bad => replyOnly c.opcode h BAD_SEQUENCE (leBytes 2 (s.port h.port).expSeq) s
    | .pass =>
      if c.outcome h ps s == OK then c.perform h ps s
      else logInternal c h ps s
        (c.onRefuse (c.outcome h ps s) h ps (replyUse c.opcode h (c.outcome h ps s) [] s))

/-- A packet whose opcode no command has: step 4 of R50. -/
def runUnknown (op : Nat) (h : Hdr) (s : State) : State :=
  if !(s.port h.port).openS then replyOnly op h STATE [] s
  else
    match seqCheck h (s.port h.port) with
    | .again o => putReply h.port o s
    | .bad => replyOnly op h BAD_SEQUENCE (leBytes 2 (s.port h.port).expSeq) s
    | .pass => replyUse op h BAD_OPCODE [] s

/-- The ports are operational from AWAIT_FW on (R63), while their rails have power (R394). -/
def State.portsUp (s : State) : Bool :=
  s.dev.st != .off && s.dev.st != .init && !(s.railOff 3 || s.railOff 8 || s.railOff 9)

/-- The 32 KiB input buffer. -/
def inBuf : Nat := 32 * 1024

/-- Admission (R52): a packet whose reply may have `reply` data bytes and that carries `len`
parameter bytes, when packets already admitted wait with `waiting` reply bytes. -/
def PortSt.admits (v : PortSt) (waiting reply len : Nat) : Bool :=
  decide ((v.inb.foldl (fun a k => a + k.len) 0) + 14 + min len 4096 ≤ inBuf)
  && decide (v.replyBytes + v.reserved + waiting + max 16 (14 + reply) ≤ replyArea)

/-- A packet that is not admitted: discarded with no reply (R52). -/
def PortSt.overflow (v : PortSt) (n : Nat) : PortSt :=
  { v with ovf := true, discards := satAdd 0xFFFF v.discards n }

/-- A command packet that arrives in a transaction of its own (R52, R64). -/
def Cmd.arrive (c : Cmd) (h : Hdr) (ps : List Byte) (s : State) : State :=
  if !s.portsUp then s
  else
    let v := s.port h.port
    if v.admits 0 c.maxReply ps.length then c.run h ps s
    else s.setPort h.port (v.overflow 1)

/-- A command whose packet carries a given opcode and parameters, as one Outcome. -/
def Cmd.exec (c : Cmd) (h : Hdr) (ps : List Byte) (s : State) : Host.Outcome State Fault Refusal :=
  .next (c.arrive h ps s)

end Sys2Proof.Machine
end

