-- ==== Sys2Proof/Machine/Loader.lean ====
section
/-! DEFINITION. What the loader does with an image: header and sections (R112 to R114), tensor table
(R411), schedule checks (R75, R142, R149, R160), granules (R115 to R118), binding (R120 to R126) and
the outcome of the fit check (R119, R123). -/

namespace Sys2Proof.Machine

/-! ## The image header (Tables 1 to 4 of chapter 04) -/

/-- One section entry. -/
structure Sect where
  typ : Nat
  count : Nat
  off : Nat
  len : Nat
  crc : Nat
  deriving DecidableEq, Repr

/-- Section entry i of a header. -/
def sectAt (hd : List Byte) (i : Nat) : Sect :=
  let b := sub hd (128 + 16 * i) 16
  ⟨u8 b 0, u16 b 2, u32 b 4 * 4096, u32 b 8, u32 b 12⟩

/-- The entries in use. -/
def sects (hd : List Byte) : List Sect :=
  ((List.range 8).map (sectAt hd)).filter (fun x => x.typ != 0)

def findSect (hd : List Byte) (t : Nat) : Option Sect := (sects hd).find? (fun x => x.typ == t)

/-- The bytes of a section, none when it is absent. -/
def sectBytes (s : State) (a : Nat) (hd : List Byte) (t : Nat) : List Byte :=
  match findSect hd t with
  | some x => dramRead s (a + x.off) x.len
  | none => []

def imgBytes (hd : List Byte) : Nat := u64 hd 48

/-- Majors of FMTVER the loaded firmware supports, as a bitmap (R114, R135): major 1 alone. -/
def fmtMajors : Nat := 2

/-- The fields of Table 1. -/
def headerOk (s : State) (hd : List Byte) : Bool :=
  let kind := u8 hd 9
  let fl := u8 hd 10
  u32 hd 0 == 0x4E435046 && bit fmtMajors (u8 hd 5) && u16 hd 6 == 0x9640
  && u8 hd 8 ≤ s.stepping && kind ≤ 2 && fl < 8
  && 1 ≤ u8 hd 11 && u8 hd 11 ≤ (if bit fl 0 then 6 else 12)
  && [0, 4, 6, 8].contains (u8 hd 12) && u8 hd 13 ≤ 1 && zeroAt hd 14 2
  && (if kind == 1 then 1 ≤ u32 hd 16 && u32 hd 16 ≤ 4096 else u32 hd 16 == 0 && u32 hd 20 == 0)
  && u64 hd 24 % 2 ^ 20 == 0 && 2 * u64 hd 32 ≤ u64 hd 24
  && u64 hd 32 % 2 ^ 20 == 0 && 2 ^ 20 ≤ u64 hd 32 && u64 hd 40 ≤ u64 hd 32
  && 256 ≤ imgBytes hd && imgBytes hd ≤ 2 ^ 33 && zeroAt hd 56 4
  && u32 hd 60 == crc32c (sub hd 0 60 ++ sub hd 64 192)
  && (!bit fl 0 || bit fl 2)

/-- The section table (Tables 2 and 3, R114). -/
def sectionsOk (s : State) (a : Nat) (hd : List Byte) : Bool :=
  let l := sects hd
  l.all (fun x => x.typ ≤ 6 && x.off + x.len ≤ imgBytes hd
    && (l.filter (fun y => y.typ == x.typ)).length == 1
    && crc32c (dramRead s (a + x.off) x.len) == x.crc)
  && (List.range 8).all (fun i => zeroAt hd (129 + 16 * i) 1)
  && l.any (fun x => x.typ == 1 && x.count == u8 hd 11 && x.len == 64 * x.count)
  && l.any (fun x => x.typ == 2) && l.any (fun x => x.typ == 4)
  && (l.any (fun x => x.typ == 3) || u64 hd 40 == 0)
  && (l.any (fun x => x.typ == 5) || !bit (u8 hd 10) 0)
  && (l.any (fun x => x.typ == 6) == (u8 hd 9 == 2))

/-- A logical-cluster record as the image holds it. -/
def lcRec (b : List Byte) : LcRec :=
  ⟨u8 b 1, u8 b 2, u8 b 3 == 1, u16 b 4, u16 b 6, u16 b 8, u16 b 10, u32 b 12, u64 b 16, u64 b 24⟩

def lcRecOk (i : Nat) (b : List Byte) : Bool :=
  u8 b 0 == i && [0, 1, 0xF].contains (u8 b 1) && 1 ≤ u8 b 2 && u8 b 2 ≤ 12 && u8 b 3 ≤ 1
  && (u8 b 3 == 0 || 2 ≤ u8 b 2)
  && (u8 b 3 == 1 || (u16 b 6 == 0 && u16 b 10 == 0 && u64 b 24 == 0)) && zeroAt b 32 32

/-! ## Weight tensors (R411, Table 9 of chapter 04) -/

/-- One tensor's record breaks no rule of Table 9. -/
def tensorOk (i nlc bankBytes secLen : Nat) (b : List Byte) : Bool :=
  let f := u8 b 4 % 16
  let g := bits (u8 b 4) 4 2
  let zq := decide (f < 3)
  u32 b 0 == i && f ≤ 9 && u8 b 4 < 64 && (if zq then g ≤ 2 else g == 0) && u8 b 5 ≤ 1
  && u16 b 6 < 2 ^ nlc && (u8 b 5 == 1 || u16 b 6 == 0)
  && u64 b 8 % 64 == 0 && u64 b 24 % 64 == 0
  && (zq || (u64 b 24 == 0 && u64 b 32 == 0 && u64 b 48 == 0)) && zeroAt b 56 8
  && u64 b 8 + u64 b 16 ≤ bankBytes && u64 b 24 + u64 b 32 ≤ bankBytes
  && u64 b 40 + u64 b 16 ≤ secLen && u64 b 48 + u64 b 32 ≤ secLen

/-- A tensor record as the program keeps it (R133). -/
def wTensor (b : List Byte) : WTensor :=
  ⟨u8 b 4, bit (u8 b 5) 0, u16 b 6, u64 b 8, u64 b 16, u64 b 24, u64 b 32⟩

/-- Bank ranges a tensor takes. -/
def tensorSpans (b : List Byte) : List (Nat × Nat) :=
  [(u64 b 8, u64 b 16), (u64 b 24, u64 b 32)].filter (fun x => x.2 != 0)

def spansMeet (x y : Nat × Nat) : Bool := decide (x.1 < y.1 + y.2) && decide (y.1 < x.1 + x.2)

/-- No tensor overlaps another in the bank. -/
def noOverlap : List (List Byte) → Bool
  | [] => true
  | b :: t =>
    t.all (fun c => (tensorSpans b).all (fun x => (tensorSpans c).all (fun y => !spansMeet x y)))
    && noOverlap t

/-- Records of the tensor table. -/
def tensorRecs (sec : List Byte) (n : Nat) : List (List Byte) :=
  (List.range n).map (fun i => sub sec (64 * i) 64)

/-- The tensor table of an image. -/
def tensorTable (hd sec : List Byte) : List WTensor :=
  match findSect hd 3 with
  | some x => (tensorRecs sec x.count).map wTensor
  | none => []

def weightsOk (hd sec : List Byte) : Bool :=
  match findSect hd 3 with
  | none => true
  | some x =>
    let rs := tensorRecs sec x.count
    decide (64 * x.count ≤ x.len)
    && (List.range x.count).all (fun i =>
        tensorOk i (u8 hd 11) (u64 hd 40) x.len (sub sec (64 * i) 64))
    && noOverlap rs

/-- Copies the loader makes: source, destination in bank 0, length (R411). -/
def weightCopies (a region : Nat) (hd sec : List Byte) : List (Nat × Nat × Nat) :=
  match findSect hd 3 with
  | none => []
  | some x =>
    (tensorRecs sec x.count).flatMap (fun b =>
      [(a + x.off + u64 b 40, region + u64 b 8, u64 b 16),
       (a + x.off + u64 b 48, region + u64 b 24, u64 b 32)].filter (fun c => c.2.2 != 0))

/-! ## The schedule (R75, R142, R149, R160) -/

/-- An empty section declares nothing; every other is read by the format's own decoder. -/
def schedInfo (b : List Byte) : SchedInfo := if b.isEmpty then ⟨[], [], [], [], [], [], [], [], []⟩ else Config.schedule b

def ifaceTensors (b : List Byte) : List IfTensor :=
  if b.isEmpty then [] else (Config.ifaceTensors b).map (fun x => ⟨x.1, x.2⟩)

def goldenSigs (b : List Byte) : List Nat := if b.isEmpty then [] else Config.goldenSigs b
def trainOf (b : List Byte) : Nat × Nat := if b.isEmpty then (0, 1000) else Config.trainOf b

/-- Permitted operand pairs by format code of Table 9 of chapter 04 (R75). -/
def pairOk (a b : Nat) : Bool :=
  (a < 3 && b < 3) || ((a == 3 || a == 4) && (b == 3 || b == 4))
  || ((a == 5 || a == 6) && (b == 5 || b == 6)) || (a == 7 && b == 7) || (a == 8 && b == 8)

/-- FP32 field within 0.0 to 1.0. -/
def unitRange (c : Nat) : Bool := !fnonfin c && fle 0 c && fle c f32one

/-- Bytes of cluster SRAM that an image has in some logical cluster. A descriptor does not say which logical cluster
issues it, so its addresses are held against the largest (log 11). -/
def sramOf (recs : List LcRec) : Nat := maxOf (recs.map (fun r => max r.csram r.csramD)) * 65536

/-- Addresses of a descriptor lie in the region, or from 2^48 on in the program's own cluster SRAM (log 11). -/
def addrIn (recs : List LcRec) (region size a n : Nat) : Bool :=
  if 2 ^ 48 ≤ a then decide (a - 2 ^ 48 + n ≤ sramOf recs) else decide (region ≤ a) && decide (a + n ≤ region + size)

/-- What the bytes at a place of the region will be after the load, where the image's initial weights cover them
whole (R160, R411). -/
def initialAt (s : State) (copies : List (Nat × Nat × Nat)) (a n : Nat) : Option (List Byte) :=
  (copies.find? (fun c => decide (c.2.1 ≤ a) && decide (a + n ≤ c.2.1 + c.2.2))).map (fun c =>
    dramRead s (c.1 + (a - c.2.1)) n)

/-- Entries of a threshold table lie in 0.0 to 1.0. -/
def tableOk (n : Nat) (thr : List Byte) : Bool := (List.range n).all (fun c => unitRange (u32 thr (4 * c)))

/-- A Colander descriptor breaks no rule of Table 5 of chapter 05; a threshold table that lies in the image is checked
now (R160). -/
def colanderOk (s : State) (copies : List (Nat × Nat × Nat)) (recs : List LcRec) (region size : Nat)
    (d : List Byte) : Bool :=
  let m := u8 d 0
  let n := u16 d 2 + 1
  let es := if u8 d 1 == 0 then 4 else 2
  m < 32 && u8 d 1 ≤ 2 && 1 ≤ u16 d 4 && u16 d 4 ≤ 256 && 1 ≤ u16 d 6 && u16 d 6 ≤ 4096
  && (bit m 1 || (1 ≤ u16 d 8 && u16 d 8 ≤ u16 d 6)) && zeroAt d 10 2
  && 1 ≤ u32 d 12 && u32 d 12 ≤ 65536 && !fnonfin (u32 d 16)
  && unitRange (u32 d 20) && !fnonfin (u32 d 44) && !fnonfin (u32 d 48)
  && zeroAt d 52 4 && !(bit m 4 && bit m 1) && zeroAt d 96 32
  && addrIn recs region size (u64 d 56) (n * 4 * es)
  && (!bit m 0 || addrIn recs region size (u64 d 64) (n * 16))
  && addrIn recs region size (u64 d 72) (n * u16 d 4 * es)
  && (!bit m 4 || (addrIn recs region size (u64 d 80) (u16 d 4 * 4)
      && (match initialAt s copies (u64 d 80) (u16 d 4 * 4) with
          | some t => tableOk (u16 d 4) t
          | none => true)))
  && addrIn recs region size (u64 d 88) (64 + 32 * u16 d 6)

/-- Contexts, outputs and inputs of a fusion call descriptor (R248). A frame block has at least one record, 96 bytes; a
detection area is at least its header and one record (R164). -/
def fusionOk (recs : List LcRec) (iface : List Byte) (region size : Nat) (d : List Byte) : Bool :=
  u8 d 0 ≤ 3 && u8 d 1 ≤ 1 && zeroAt d 2 6
  && [u64 d 16, u64 d 24, u64 d 32, u64 d 48].all (Config.ifaceOutAt iface region)
  && (u64 d 40 == 0 || Config.ifaceOutAt iface region (u64 d 40))
  && addrIn recs region size (u64 d 8) 96 && (u64 d 56 == 0 || addrIn recs region size (u64 d 56) 96)

/-- Two calls of an image name one context (R248). -/
def fusionTwice (l : List (List Byte)) : Bool := (l.map (fun d => u8 d 0)).eraseDups.length != l.length

/-- Bytes per sample of a surface format (Table 6 of chapter 10). -/
def fmtBytes (f : Nat) : Nat := if f = 4 then 8 else if f = 7 then 1 else 4

/-- Bytes per sample over the attachments of a render-pass step: the colour formats that its state table fixes, and 4
for depth (R270, Table 6 of chapter 10). -/
def attBytes (t : ShaderTable) (d : List Byte) : Nat :=
  (((List.range (u8 d 5)).map (fun i => fmtBytes (t.colour[i]?.getD 1))).foldl (· + ·) 0) + (if u8 d 6 = 0 then 0 else 4)

/-- Granules of tile memory (R270): one tile of every attachment, doubled. -/
def tileMemGran (samples att : Nat) : Nat := roundup (2 * 1024 * samples * att) 65536 / 65536

/-- A slot named logical cluster × 16 + slot exists, in the normal or in the degraded placements. -/
def slotExists (deg : Bool) (recs : List LcRec) (x : Nat) : Bool :=
  match recs[x / 16]? with
  | some r => decide (x % 16 < (if deg && r.hasDeg then r.nslot - 1 else r.nslot))
  | none => false

/-- A halo declaration is sound: depth of 2 or more, two slots that exist and differ, rows at least
one step old (R149, rule 1 of R151). -/
def haloOk (deg : Bool) (recs : List LcRec) (x : Nat × Nat × Nat × Nat) : Bool :=
  2 ≤ x.1 && slotExists deg recs x.2.1 && slotExists deg recs x.2.2.1 && x.2.1 != x.2.2.1 && 1 ≤ x.2.2.2

/-- The offsets of a placement lie within SCHEDULE (Table 4 of chapter 04). -/
def schedOffsetOk (schedLen : Nat) (r : LcRec) : Bool :=
  let ok := fun o => decide (o < schedLen) || (o == 0 && schedLen == 0)
  ok r.sched && (!r.hasDeg || ok r.schedD)

/-- RESBYTES holds one bank's resident tensors of the logical cluster, and those of both banks are counted within
CSRAM and CSRAMD (R115, R132, Table 4 of chapter 04; DEDUCED, log 19). -/
def residentOk (ws : List WTensor) (i : Nat) (r : LcRec) : Bool :=
  let need := ((ws.filter (fun w => w.resident && bit w.lcmask i)).map (fun w => w.dlen + w.slen)).foldl (· + ·) 0
  decide (need ≤ r.resBytes) && decide (2 * r.resBytes ≤ r.csram * 65536)
  && (!r.hasDeg || decide (2 * r.resBytes ≤ r.csramD * 65536))

/-- What step 2 of R119 looks a schedule over with: the LCLUSTER records, PAIRED, the IFACE section, the region and the
copies of the initial weights. -/
structure SchedCtx where
  recs : List LcRec
  paired : Bool
  iface : List Byte
  region : Nat
  size : Nat
  schedLen : Nat
  copies : List (Nat × Nat × Nat)
  deriving DecidableEq, Repr

/-- A render-pass step breaks no rule of R266; TMEM is counted within the cluster SRAM of each logical cluster. -/
def passOk (x : SchedCtx) (sched d : List Byte) : Bool :=
  let lcs := (List.range 16).filter (bit (u16 d 2))
  let grps := lcs.map (fun i => (x.recs[i]?.map (·.diegrp)).getD 0xF)
  !x.paired && u8 d 0 ≤ 15 && u8 d 1 ≤ 1 && !lcs.isEmpty && grps.all (· != 0xF)
  && grps.eraseDups.length == 1 && (u8 d 4 == 1 || u8 d 4 == 4) && u8 d 5 ≤ 4
  && (u8 d 6 == 0 || u8 d 6 == 0x10 || u8 d 6 == 0x11) && u8 d 7 ≤ 16
  && addrIn x.recs x.region x.size (u64 d 8) (64 + 64 * (u8 d 5 + 1)) && decide (u64 d 16 < x.schedLen)
  && tileMemGran (u8 d 4) (attBytes (Config.shaderTable (sched.drop (u64 d 16))) d) ≤ u32 d 24 && zeroAt d 28 36
  && lcs.all (fun i => match x.recs[i]? with
      | some r => decide (u32 d 24 ≤ r.csram) && (!r.hasDeg || decide (u32 d 24 ≤ r.csramD))
      | none => false)

/-- What step 2 of R119 finds in a schedule: nothing, or the completion data of BAD_PARAM; a zero
extent carries its layer index (R142). -/
def scheduleBad (s : State) (x : SchedCtx) (sched : List Byte) (i : SchedInfo) : Option (List Byte) :=
  if i.pairs.any (fun p => !pairOk p.1 p.2) then some []
  else if i.wins.any (fun w => !geomInRange w.geom) then some []
  else
    match i.wins.find? (fun w => geomH w.geom == 0 || geomW w.geom == 0) with
    | some w => some (leBytes 4 w.layer)
    | none =>
      if i.wins.any (fun w => geomH w.geom > 65535 || geomW w.geom > 65535) then some []
      else if i.halos.any (fun h => !haloOk false x.recs h) || i.halosD.any (fun h => !haloOk true x.recs h) then some []
      else if i.calls.any (fun d => !colanderOk s x.copies x.recs x.region x.size d) then some []
      else if i.fus.any (fun d => !fusionOk x.recs x.iface x.region x.size d) || fusionTwice i.fus then some []
      else if i.passes.any (fun d => !passOk x sched d) then some []
      else none

/-! ## Granules and eligible tiles (R115 to R118) -/

def tilesIn (cl : Nat) (b : LcBind) : List Nat :=
  (if b.clA == cl then b.tilesA ++ b.leftA else [])
  ++ (if b.clB == some cl then b.tilesB ++ b.leftB else [])

/-- Every binding that holds granules: programs, replaced images still running, reservations. -/
def State.allBinds (s : State) : List (Nat × LcBind) :=
  s.progs.vals.flatMap (fun p => (p.binds ++ p.old.flatMap (·.binds)).map (fun b => (p.tenant, b)))
  ++ s.loads.flatMap (fun l => l.binds.map (fun b => (l.tenant, b)))

/-- Granules of a tile that bindings hold. -/
def bindTgran (cl t : Nat) (l : List LcBind) : Nat :=
  l.foldl (fun a b => a + (if (tilesIn cl b).contains t then b.tgran else 0)) 0

def State.usedTgran (s : State) (cl t : Nat) : Nat := s.heldSum (fun _ => true) (bindTgran cl t)

def State.freeTgran (s : State) (cl t : Nat) : Nat := 124 - s.usedTgran cl t

/-- Granules of cluster SRAM that a tenant holds in a cluster. -/
def State.heldCgran (s : State) (ten cl : Nat) : Nat :=
  s.heldSum (fun t => t == ten) (bindCgran cl)

/-- Free cluster granules within a tenant's allowance. -/
def State.freeCgran (s : State) (ten cl : Nat) : Nat :=
  min (s.maxCgran cl - s.usedCgran cl) ((s.ten ten).part.csram.getD cl 0 - s.heldCgran ten cl)

/-- The retirement map of a cluster: spare role on T12 where nothing is recorded (log 3). -/
def State.tileMap (s : State) (cl : Nat) : TileMap := s.larder.map.tiles.getD cl ⟨some 12, []⟩

/-- A tile that is neither retired nor in the spare role (R194). -/
def State.rolledTile (s : State) (cl t : Nat) : Bool :=
  t < 13 && !(s.tileMap cl).retired.contains t && (s.tileMap cl).spare != some t

/-- Healthy and in an active role, in a cluster that has not been cut (R355). -/
def State.activeTile (s : State) (cl t : Nat) : Bool :=
  s.rolledTile cl t && (s.cl cl).mode == .run && !(s.cl cl).tripped

def State.inMask (s : State) (ten cl t : Nat) : Bool :=
  bit ((s.ten ten).part.tiles.getD cl 0) t

/-- Healthy active tiles of a cluster in a tenant's partition. -/
def State.partTiles (s : State) (ten cl : Nat) : List Nat :=
  (List.range 13).filter (fun t => s.activeTile cl t && s.inMask ten cl t)

def State.eligible (s : State) (ten cl need : Nat) : List Nat :=
  (s.partTiles ten cl).filter (fun t => need ≤ s.freeTgran cl t)

/-- Some tile of the cluster is in the partition (R120). -/
def State.inPart (s : State) (ten cl : Nat) : Bool :=
  cl < 12 && (s.ten ten).part.tiles.getD cl 0 != 0

/-- Needs of a pass (R118): slots, tile granules, cluster granules. -/
def passNeeds (r : LcRec) (deg : Bool) : Nat × Nat × Nat :=
  if deg then (r.nslot - 1, r.tsramD, r.csramD)
  else (r.nslot, max r.tsram r.tsramD, max r.csram r.csramD)

def State.canTake (s : State) (ten cl : Nat) (nd : Nat × Nat × Nat) : Bool :=
  decide (nd.1 ≤ (s.eligible ten cl nd.2.1).length) && decide (nd.2.2 ≤ s.freeCgran ten cl)

/-- Mirror clusters (Table 6 of chapter 04). -/
def mirror (across : Bool) (cl : Nat) : Nat :=
  if across then 11 - cl else cl / 6 * 6 + (5 - cl % 6)

/-- Bind one logical cluster to a named cluster and, when paired, its mirror (R122, R126). -/
def bindTo (s : State) (ten lc : Nat) (r : LcRec) (deg : Bool) (cl : Nat) (mir : Option Nat) : LcBind :=
  let nd := passNeeds r deg
  let ts := fun c => (s.eligible ten c nd.2.1).take nd.1
  { lc := lc, hasDeg := r.hasDeg, nslot := nd.1, degraded := deg, clA := cl, clB := mir,
    tilesA := ts cl, tilesB := match mir with
      | some m => ts m
      | none => [],
    leftA := [], leftB := [], tgran := nd.2.1, cgran := nd.2.2 }

def boundCl (bs : List LcBind) (cl : Nat) : Bool := bs.any (fun b => b.clA == cl || b.clB == some cl)

def dieOk (r : LcRec) (cl : Nat) : Bool := r.diegrp == 0xF || dieOf cl == r.diegrp

/-- Whether copy A fits a cluster in a pass, and its mirror takes copy B. -/
def fitsAt (s : State) (ten : Nat) (img : Image) (bs : List LcBind) (r : LcRec) (deg : Bool)
    (cl : Nat) : Bool :=
  let nd := passNeeds r deg
  let m := mirror img.pairMode cl
  s.canTake ten cl nd
  && (!img.paired || (s.inPart ten m && !boundCl bs m && m != cl && s.canTake ten m nd))

/-- Candidates of a logical cluster (R120, R121, R123). -/
def candidates (s : State) (ten : Nat) (bs : List LcBind) (r : LcRec) (named : Option Nat) : List Nat :=
  match named with
  | some c => [c]
  | none => (List.range 12).filter (fun n => s.inPart ten n && !boundCl bs n && dieOk r n)

/-- Bind one logical cluster: normal pass, then degraded pass (R120, R121). -/
def bindLc (s : State) (ten : Nat) (img : Image) (bs : List LcBind) (lc : Nat) (r : LcRec)
    (named : Option Nat) : Option LcBind :=
  let cs := candidates s ten bs r named
  let mk := fun deg cl => bindTo s ten lc r deg cl (if img.paired then some (mirror img.pairMode cl) else none)
  match cs.find? (fitsAt s ten img bs r false) with
  | some cl => some (mk false cl)
  | none =>
    if r.hasDeg then (cs.find? (fitsAt s ten img bs r true)).map (mk true) else none

/-! ## NOT_FIT data (R123, Table 5 of chapter 04) -/

def notFit (reason lc cl need have_ : Nat) : List Byte :=
  leBytes 1 reason ++ leBytes 1 lc ++ leBytes 1 cl ++ leBytes 1 0 ++ leBytes 4 need ++ leBytes 4 have_

/-- The largest g such that at least n of some tiles have g free granules. -/
def nthFree (s : State) (cl n : Nat) (ts : List Nat) : Nat :=
  maxOf ((ts.map (s.freeTgran cl)).filter (fun g =>
    decide (n ≤ (ts.filter (fun t => g ≤ s.freeTgran cl t)).length)))

/-- How a cluster fares in the three checks of R123: checks passed, reason, NEED and HAVE of the
first that fails. A mirror out of reach has HAVE 0 at TILES. -/
structure Fare where
  cl : Nat
  passed : Nat
  need : Nat
  have_ : Nat
  deriving DecidableEq, Repr

def fareOf (s : State) (ten : Nat) (nd : Nat × Nat × Nat) (reach : Bool) (cl : Nat) : Fare :=
  let ts := s.partTiles ten cl
  let n := if reach then ts.length else 0
  if n < nd.1 then ⟨cl, 0, nd.1, n⟩
  else if nthFree s cl nd.1 ts < nd.2.1 then ⟨cl, 1, nd.2.1, nthFree s cl nd.1 ts⟩
  else if s.freeCgran ten cl < nd.2.2 then ⟨cl, 2, nd.2.2, s.freeCgran ten cl⟩
  else ⟨cl, 3, 0, 0⟩

/-- x came closer than y: more checks passed, then the larger HAVE ÷ NEED. -/
def Fare.closer (x y : Fare) : Bool :=
  x.passed > y.passed || (x.passed == y.passed && x.have_ * y.need > y.have_ * x.need)

/-- The closest of a list in cluster order. -/
def closest : List Fare → Option Fare
  | [] => none
  | x :: t => match closest t with
    | some y => if y.closer x then some y else some x
    | none => some x

def notFitLc (s : State) (ten : Nat) (img : Image) (bs : List LcBind) (lc : Nat) (r : LcRec)
    (named : Option Nat) : List Byte :=
  let nd := passNeeds r r.hasDeg
  let cs := candidates s ten bs r named
  let fs := cs.map (fareOf s ten nd true)
  if fs.any (fun f => f.passed == 3) then
    let ms := (fs.filter (fun f => f.passed == 3)).map (fun f =>
      let m := mirror img.pairMode f.cl
      fareOf s ten nd (s.inPart ten m && !boundCl bs m) m)
    match closest ((List.range 12).filterMap (fun m => ms.find? (fun f => f.cl == m))) with
    | some f => notFit 0x06 lc f.cl f.need f.have_
    | none => notFit 0x06 lc 0xFF nd.1 0
  else match closest fs with
    | some f => notFit (0x03 + f.passed) lc f.cl f.need f.have_
    | none => notFit 0x03 lc 0xFF nd.1 0

/-! ## The fit check (R119) -/

/-- What steps 1 to 8 find. -/
inductive LoadRes where
  | fit (img : Image) (binds : List LcBind) (copies : List (Nat × Nat × Nat))
  | fail (st : Nat) (data : List Byte)
  deriving DecidableEq, Repr

/-- Bind the logical clusters in increasing order (R120, R121). With BINDMODE 1 the manual gives no order between the
checks of several logical clusters; each is judged whole before the next, so that NOT_FIT of one comes before
BAD_PARAM of a later one (DESIGN CHOICE, log 19). -/
def bindAll (s : State) (ten : Nat) (img : Image) (named : Nat → Option Nat) :
    List LcRec → Nat → List LcBind → Nat × List Byte × List LcBind
  | [], _, bs => (OK, [], bs)
  | r :: t, lc, bs =>
    match named lc with
    | some c =>
      if !s.inPart ten c || boundCl bs c || !dieOk r c then (BAD_PARAM, [], [])
      else match bindLc s ten img bs lc r (some c) with
        | some b => bindAll s ten img named t (lc + 1) (bs ++ [b])
        | none => (NOT_FIT, notFitLc s ten img bs lc r (some c), [])
    | none =>
      match bindLc s ten img bs lc r none with
      | some b => bindAll s ten img named t (lc + 1) (bs ++ [b])
      | none => (NOT_FIT, notFitLc s ten img bs lc r none, [])

/-- Program store bytes of an image: each section copied takes its length rounded up to 4 KiB
(R133). -/
def storeNeed (hd : List Byte) : Nat :=
  let len := fun t => match findSect hd t with
    | some x => roundup x.len 4096
    | none => 0
  let table := match findSect hd 3 with
    | some x => roundup (64 * x.count) 4096
    | none => 0
  len 2 + len 4 + len 5 + len 6 + table

def State.storeUsed (s : State) : Nat :=
  s.progs.sum (fun h p =>
    max p.img.storeBytes (((s.loads.filter (inPlaceOf h)).map (·.img.storeBytes)).foldl (· + ·) 0)
      + p.old.foldl (fun a o => a + o.img.storeBytes) 0)
  + s.loads.foldl (fun a l => a + (if inPlace l then 0 else l.img.storeBytes)) 0
  + s.fctxs.cells.length * 2 ^ 20

def storeSize : Nat := 2 ^ 30

/-- The LCLUSTER records of an image. -/
def lcRecs (s : State) (a : Nat) (hd : List Byte) : List LcRec :=
  let lcs := sectBytes s a hd 1
  (List.range (u8 hd 11)).map (fun i => lcRec (sub lcs (64 * i) 64))

/-- What of an image stays with the program. -/
def mkImage (s : State) (a : Nat) (hd : List Byte) : Image :=
  { kind := u8 hd 9, flags := u8 hd 10, nlc := u8 hd 11, nfmode := u8 hd 13, slotBytes := u32 hd 20,
    dramBytes := u64 hd 24, bankStride := u64 hd 32, bankBytes := u64 hd 40, fmtver := u16 hd 4,
    iface := sub hd 64 32, tensors := ifaceTensors (sectBytes s a hd 4),
    halos := (schedInfo (sectBytes s a hd 2)).halos.map (fun x => ⟨x.1, x.2.1, x.2.2.1, x.2.2.2⟩),
    halosD := (schedInfo (sectBytes s a hd 2)).halosD.map (fun x => ⟨x.1, x.2.1, x.2.2.1, x.2.2.2⟩),
    lcs := lcRecs s a hd, resAt := (schedInfo (sectBytes s a hd 2)).resident, weights := tensorTable hd (sectBytes s a hd 3),
    golden := goldenSigs (sectBytes s a hd 5), trains := (trainOf (sectBytes s a hd 6)).1,
    trainMs := (trainOf (sectBytes s a hd 6)).2,
    fctxs := (schedInfo (sectBytes s a hd 2)).fus.map (fun d => u8 d 0),
    parts := (schedInfo (sectBytes s a hd 2)).chain, sched := sectBytes s a hd 2,
    storeBytes := storeNeed hd }

/-- A load that will make a new program: it takes a place in the program table from step 4 on. -/
def newLoad (l : Load) : Bool := l.st == .copying && l.replace.isNone

/-- Step 1 of R119: pages of the image and of the REGION. -/
def step1Ok (s : State) (ten : Nat) (ps : List Byte) : Bool :=
  let a := u64 ps 0
  let region := u64 ps 8
  let size := u64 ps 16
  let hd := dramRead s a 256
  ownedBy s ten a 256 && ownedBy s ten a (imgBytes hd) && ownedBy s ten region size
    && region % 2 ^ 20 == 0 && decide (u64 hd 24 ≤ size)

/-- Steps 1 to 8 of R119 for PARAMS of PROG_LOAD; the cluster bytes of PARAMS are judged with BINDMODE 1 only, and
ignored with BINDMODE 0, of which the manual says nothing (DESIGN CHOICE, log 19); with `rep` the handle a MODE 1 or MODE 0
replacement keeps (it takes no new place in the program table). -/
def fitCheck (s : State) (ten : Nat) (ps : List Byte) (rep : Bool) : LoadRes :=
  let a := u64 ps 0
  let region := u64 ps 8
  let size := u64 ps 16
  let batch := u16 ps 24
  let hd := dramRead s a 256
  if !step1Ok s ten ps then .fail DENIED []
  else if !headerOk s hd || !sectionsOk s a hd then .fail BAD_PARAM []
  else
    let lcs := sectBytes s a hd 1
    let recs := lcRecs s a hd
    let sec := sectBytes s a hd 3
    let sched := sectBytes s a hd 2
    let ctx : SchedCtx := ⟨recs, bit (u8 hd 10) 0, sectBytes s a hd 4, region, size, sched.length,
      weightCopies a region hd sec⟩
    if !(List.range (u8 hd 11)).all (fun i => lcRecOk i (sub lcs (64 * i) 64))
        || !weightsOk hd sec || !recs.all (schedOffsetOk sched.length)
        || !(recs.zipIdx).all (fun r => residentOk (tensorTable hd sec) r.2 r.1) then .fail BAD_PARAM []
    else match scheduleBad s ctx sched (schedInfo sched) with
    | some d => .fail BAD_PARAM d
    | none =>
      let img := mkImage s a hd
      let kindOk := if img.kind == 1 then 1 ≤ batch && batch ≤ u32 hd 16 else batch == 0
      let trainsOk := img.kind != 2 || (match s.progs.get? img.trains with
        | some p => p.tenant == ten
        | none => false)
      let namesOk := u8 ps 26 == 0
        || (List.range 12).all (fun lc => lc < img.nlc || u8 ps (28 + lc) == 0xFF)
      if !kindOk || !trainsOk || !namesOk then .fail BAD_PARAM []
      else
        let nProg := s.progs.cells.length + (s.loads.filter newLoad).length
        let nTen := s.progs.count (fun _ p => p.tenant == ten)
          + (s.loads.filter (fun l => newLoad l && l.tenant == ten)).length
        if !rep && (512 ≤ nProg || 64 ≤ nTen) then .fail NO_RESOURCE []
        else if u8 hd 12 != 0 && u8 hd 12 != s.nHbm then
          .fail NOT_FIT (notFit 0x01 0xFF 0xFF (u8 hd 12) s.nHbm)
        else if storeSize - s.storeUsed < storeNeed hd then
          .fail NOT_FIT (notFit 0x02 0xFF 0xFF (storeNeed hd) (storeSize - s.storeUsed))
        else
          let named := fun lc => if u8 ps 26 == 1 then some (u8 ps (28 + lc)) else none
          match bindAll s ten img named recs 0 [] with
          | (st, d, bs) =>
            if st != OK then .fail st d
            else
              let need := roundup (batch * img.slotBytes) (2 ^ 20) / 2 ^ 20
              let room := (img.dramBytes - 2 * img.bankStride) / 2 ^ 20
              if room < need then .fail NOT_FIT (notFit 0x07 0xFF 0xFF need room)
              else .fit img bs (weightCopies a region hd sec)

/-- The 12 binding entries of R134. -/
def bindEntries (img : Image) (bs : List LcBind) : List Byte :=
  (List.range 12).flatMap (fun lc =>
    match bs[lc]? with
    | some b => leBytes 1 b.clA ++ leBytes 1 (b2n b.degraded + 2 * b2n img.paired)
    | none => [0xFF, 0x00])

/-- Completion data of R134. -/
def bindData (h : Nat) (img : Image) (bs : List LcBind) : List Byte :=
  leBytes 2 h ++ leBytes 1 img.nlc ++ [0x00] ++ bindEntries img bs

end Sys2Proof.Machine
end

