-- ==== Sys2Proof/Machine/ProgOps.lean ====
section
/-! DEFINITION. What happens to loaded programs: removal (R130, R137), retirement of a tile (R127 to
R129, R139, R412), switching images (R138) and coverage (R327). -/

namespace Sys2Proof.Machine

/-- EV_PROG (R136): kind, logical cluster, physical cluster and tile, 0xFF where none. -/
def evProg (h t kind lc cl tile : Nat) (s : State) : State :=
  offer0 0x02F0 (leBytes 2 h ++ leBytes 1 t ++ leBytes 1 kind ++ leBytes 1 lc ++ leBytes 1 cl
    ++ leBytes 1 tile ++ [0x00]) s

/-- Global numbers of the tiles a binding's slots run on. -/
def bindTiles (b : LcBind) : List Nat :=
  b.tilesA.map (gtile b.clA) ++ (match b.clB with
    | some c => b.tilesB.map (gtile c)
    | none => [])

def progTiles (bs : List LcBind) : List Nat := bs.flatMap bindTiles

/-! ## The steps of waiting loads (R119, R138) -/

/-- A reservation of what steps 5 to 8 checked; clusters give up the cache lines it takes (R117). -/
def reserve (l : Load) (s : State) : State :=
  (List.range 12).foldl (fun s c => trimCache s c) { s with loads := s.loads ++ [l] }

/-- The same for a command that waited: it keeps its place in the order of turns. -/
def reserveWaiting (l : Load) (s : State) : State :=
  (List.range 12).foldl (fun s c => trimCache s c)
    { s with loads := s.loads.map (fun x => if x.tok == l.tok then l else x) }

def mkLoad (tok t : Nat) (ps : List Byte) (st : LoadSt) (img : Image) (bs : List LcBind)
    (cs : List (Nat × Nat × Nat)) (len : Nat) (rep : Option (Nat × Nat)) : Load :=
  ⟨tok, t, st, img, u64 ps 0, len, u64 ps 8, u64 ps 16, u16 ps 24, bs, cs, rep, ps⟩

/-- The new image has the loaded program's KIND, PAIRED bit and IFACE digest. -/
def sameIface (s : State) (p : Prog) (ps : List Byte) : Bool :=
  let hd := dramRead s (u64 ps 0) 256
  u8 hd 9 == p.img.kind && bit (u8 hd 10) 0 == p.img.paired && sub hd 64 32 == p.img.iface

/-- The outcome of the fit check of a replacement. -/
def replaceCheck (s : State) (t : Nat) (p : Prog) (ps : List Byte) : LoadRes :=
  match fitCheck s t ps true with
  | .fail st d => if st == DENIED || sameIface s p ps then .fail st d else .fail BAD_PARAM []
  | .fit img bs cs => if sameIface s p ps then .fit img bs cs else .fail BAD_PARAM []

def progBusy (s : State) (h : Nat) : Bool := s.jobs.any (fun _ j => j.prog == h && j.inFlight)

/-- The load that replaces a handle and stands at a step. -/
def loadOf (s : State) (k : Nat) (st : LoadSt) : Option Load :=
  s.loads.find? (fun l => l.st == st && (match l.replace with
    | some (h, _) => h == k
    | none => false))

/-- An earlier command has not yet made steps 4 to 8, so a later one waits (R119). -/
def loadsWait (s : State) : Bool := s.loads.any (fun l => l.st != .copying)

/-- What a command that waits holds: nothing. -/
def waitLoad (tok t : Nat) (ps : List Byte) (st : LoadSt) (rep : Option (Nat × Nat)) (s : State) : Load :=
  let hd := dramRead s (u64 ps 0) 256
  mkLoad tok t ps st { mkImage s (u64 ps 0) hd with storeBytes := 0 } [] [] (imgBytes hd) rep

/-- A command waits with what PARAMS give it. -/
def addWaiting (tok t : Nat) (ps : List Byte) (st : LoadSt) (rep : Option (Nat × Nat)) (s : State) : State :=
  { s with loads := s.loads ++ [waitLoad tok t ps st rep s] }

/-- The device as the check of a MODE 1 replacement sees it: the old program's resources are free. -/
def asFree (h : Nat) (p : Prog) (s : State) : State :=
  { s with progs := s.progs.set h { p with binds := [], img := { p.img with storeBytes := 0 } } }

/-- Steps 2 to 8 of a load that waited, made now. -/
def stepsOf (l : Load) (s : State) : LoadRes :=
  match l.replace with
  | none => fitCheck s l.tenant l.params false
  | some (h, m) =>
    match s.progs.get? h with
    | some p => replaceCheck (if m == 1 then asFree h p s else s) l.tenant p l.params
    | none => .fail STATE []

/-- A load makes its steps: it completes with a failure, completes as a fit check, or reserves and is
copied. -/
def makeSteps (l : Load) (s : State) : State :=
  match stepsOf l s with
  | .fail st d => dropLoad st d l s
  | .fit img bs cs =>
    if l.st == .waitFit then dropLoad OK (bindData 0 img bs) l s
    else reserveWaiting { l with st := .copying, img := img, binds := bs, copies := cs } s

/-- Waiting loads make their steps in the order of their turns, up to one whose program drains. -/
def stepLoads : Nat → State → State
  | 0, s => s
  | n + 1, s =>
    match s.loads.find? (fun l => l.st != .copying) with
    | some l => if l.st == .draining then s else stepLoads n (makeSteps l s)
    | none => s

def runLoads (s : State) : State := stepLoads s.loads.length s

/-- The jobs of a program that is replaced in place have drained. -/
def endDrain (l : Load) (s : State) : State :=
  { s with loads := s.loads.map (fun x => if x.tok == l.tok then { x with st := .waitLoad } else x) }

/-! ## Removal -/

/-- Waiting commands of a program complete when it goes: batch changes (R193), a WBANK_SUBMIT
(R111), a replacement (R139), and a PROG_UNLOAD whose program goes another way, of which the manual says nothing: it
takes the status of the others (DESIGN CHOICE, log 19). -/
def dropProgCmds (h : Nat) (p : Prog) (st : Nat) (s : State) : State :=
  let s := p.changes.foldl (fun s g => complete g.tok st [] s) s
  let s := completeOpt p.unloadTok st [] (modProg h (fun p => { p with unloadTok := none }) s)
  let s := completeOpt p.evalTok st [] (modProg h (fun p => { p with evalTok := none }) s)
  (s.loads.filter (fun l => match l.replace with
    | some (k, _) => k == h
    | none => false)).foldl (fun s l => dropLoad st [] l s) s

/-- A program goes: its jobs end with a status, its waiting commands complete, its banks are
released with reason UNLOADED, its resources are freed and its handle becomes invalid. -/
def removeProg (h jobSt jobFc cmdSt : Nat) (s : State) : State :=
  match s.progs.get? h with
  | none => s
  | some p =>
    let s := (s.jobs.filter (fun _ j => j.prog == h)).keys.foldl
      (fun s id => finishJob id jobSt jobFc 0 0 s) s
    let s := dropProgCmds h p cmdSt s
    let s := match s.progs.get? h with
      | some p => if p.sb == BankSt.free then s else setBank h .free 5 s
      | none => s
    runLoads (failDeps s.jobs.cells.length { s with progs := s.progs.erase h })

/-- Unloaded with PLACEMENT_LOST (R130); Skink keeps a record of a safety program (R329). -/
def loseProg (h lc cl tile : Nat) (s : State) : State :=
  match s.progs.get? h with
  | none => s
  | some p =>
    let s := evProg h p.tenant 3 lc cl tile (removeProg h PLACEMENT_LOST 0 PLACEMENT_LOST s)
    if p.img.paired && s.skk.lost.length < 512 then
      { s with skk := { s.skk with
          lost := s.skk.lost ++ [⟨p.tenant, p.img.iface, h, s.time.ns + p.gwin * 1000000⟩] } }
    else s

/-- Unloaded by command: a training program that names it goes with it, its jobs with FAULT (R137). -/
def unloadProg (h : Nat) (s : State) : State :=
  match s.progs.get? h with
  | none => s
  | some p =>
    let s := (s.progs.filter (fun k q => k != h && q.img.kind == 2 && q.img.trains == h)).cells.foldl
      (fun s c => evProg c.1 c.2.tenant 5 0xFF 0xFF 0xFF (removeProg c.1 FAULT 0 STATE s)) s
    evProg h p.tenant 5 0xFF 0xFF 0xFF (removeProg h STATE 0 STATE s)

/-! ## Retirement of a tile -/

def replaceTile (old new : Nat) (l : List Nat) : List Nat := l.map (fun t => if t == old then new else t)

/-- The spare takes the slots of a retired tile of a cluster, with their granules (R127). -/
def substBind (cl old new : Nat) (b : LcBind) : LcBind :=
  let b := if b.clA == cl then { b with tilesA := replaceTile old new b.tilesA,
                                        leftA := replaceTile old new b.leftA } else b
  if b.clB == some cl then { b with tilesB := replaceTile old new b.tilesB,
                                    leftB := replaceTile old new b.leftB } else b

/-- A slot of the binding runs on a tile of a cluster. -/
def slotOn (cl t : Nat) (b : LcBind) : Bool :=
  (b.clA == cl && b.tilesA.contains t) || (b.clB == some cl && b.tilesB.contains t)

/-- Tiles in increasing physical name: the order in which slots take them (R122, R128). -/
def byName (l : List Nat) : List Nat := (List.range 13).filter l.contains

/-- The switch to the degraded placement when a tile retires (R128, R129): the copy that lost no
tile gives up the tile that ran the same schedule slot. Slots go by physical name. -/
def degradeBind (cl t : Nat) (b : LcBind) : LcBind :=
  let n := b.nslot
  if b.clA == cl && b.tilesA.contains t then
    let other := b.tilesB[n - 1 - b.tilesA.idxOf t]?
    { b with
      degraded := true, nslot := n - 1, tilesA := byName (b.tilesA.erase t),
      tilesB := byName (match other with
        | some u => b.tilesB.erase u
        | none => b.tilesB),
      leftB := match other with
        | some u => u :: b.leftB
        | none => b.leftB }
  else
    let other := b.tilesA[n - 1 - b.tilesB.idxOf t]?
    { b with
      degraded := true, nslot := n - 1, tilesB := byName (b.tilesB.erase t),
      tilesA := byName (match other with
        | some u => b.tilesA.erase u
        | none => b.tilesA),
      leftA := match other with
        | some u => u :: b.leftA
        | none => b.leftA }

/-- A retired tile drops out of the granule lists of a binding no slot of which it runs. -/
def forgetTile (cl t : Nat) (b : LcBind) : LcBind :=
  let b := if b.clA == cl then { b with leftA := b.leftA.erase t } else b
  if b.clB == some cl then { b with leftB := b.leftB.erase t } else b

/-- A job's placement after its program's changed, restarted when it had work on the tile (R127,
R190). A job that does not run yet takes the new placement at its dispatch. -/
def rebindJob (id old : Nat) (new : Option Nat) (tiles : List Nat) (deg : Bool) (s : State) : State :=
  match s.jobs.get? id with
  | none => s
  | some j =>
    if !j.tiles.contains old then s
    else
      let held := (j.hold.get? old).isSome
      let s := releaseTiles id (fun t => t == old || (new.isNone && !tiles.contains t)) s
      let s := modJob id (fun j => { j with
        tiles := tiles,
        hold := match new with
          | some n => if held then j.hold.set n s.time.ns else j.hold
          | none => j.hold,
        waitTiles := match new with
          | some n => replaceTile old n j.waitTiles
          | none => j.waitTiles.filter tiles.contains,
        degraded := j.degraded || deg }) s
      grantTiles (restartJob id s)

/-- What a retirement makes of an image's binding: none where it loses its placement (R127 to R129). -/
def bindsAfter (cl t : Nat) (sp : Option Nat) (bs : List LcBind) : Option (List LcBind) :=
  match sp with
  | some n => some (bs.map (substBind cl t n))
  | none =>
    match bs.find? (slotOn cl t) with
    | none => some (bs.map (forgetTile cl t))
    | some b =>
      if b.hasDeg && !b.degraded then
        some (bs.map (fun x => if x.lc == b.lc then degradeBind cl t x else x))
      else none

/-- The jobs in flight that run an image take its new placement; those with work on a tile that it
lost restart. -/
def rebindJobs (cl t : Nat) (sp : Option Nat) (h no : Nat) (bs : List LcBind) (s : State) : State :=
  (s.jobs.filter (fun _ j => j.prog == h && j.inFlight && j.image == no)).keys.foldl
    (fun s id => match sp with
      | some n => rebindJob id (gtile cl t) (some (gtile cl n)) (progTiles bs) false s
      | none => match s.jobs.get? id with
        | some j => match j.tiles.find? (fun x => !(progTiles bs).contains x) with
          | some x => rebindJob id x none (progTiles bs) true s
          | none => s
        | none => s) s

/-- The same for an image that a PROG_REPLACE has switched away from. Its program stays, and EV_PROG
tells of the program alone; jobs of a lost placement end with PLACEMENT_LOST. -/
def retireInOld (cl t : Nat) (sp : Option Nat) (h : Nat) (o : OldImg) (s : State) : State :=
  match bindsAfter cl t sp o.binds with
  | some bs =>
    rebindJobs cl t sp h o.no bs (modProg h (fun p => { p with
      old := p.old.map (fun x => if x.no == o.no then { x with binds := bs } else x) }) s)
  | none =>
    let ids := (s.jobs.filter (fun _ j => j.prog == h && j.inFlight && j.image == o.no)).keys
    failDeps s.jobs.cells.length (ids.foldl (fun s id => finishJob id PLACEMENT_LOST 0 0 0 s) s)

/-- What a retirement does to one program (R127 to R129). -/
def retireInProg (cl t : Nat) (sp : Option Nat) (h : Nat) (s : State) : State :=
  let s := match s.progs.get? h with
    | some p => p.old.foldl (fun s o => retireInOld cl t sp h o s) s
    | none => s
  match s.progs.get? h with
  | none => s
  | some p =>
    match bindsAfter cl t sp p.binds, p.binds.find? (slotOn cl t) with
    | some bs, some b =>
      evProg h p.tenant (if sp.isSome then 1 else 2) b.lc cl t
        (rebindJobs cl t sp h p.imageNo bs (modProg h (fun p => { p with binds := bs }) s))
    | some bs, none => modProg h (fun p => { p with binds := bs }) s
    | none, some b => loseProg h b.lc cl t s
    | none, none => s

/-- What a retirement does to one reservation (R412). -/
def retireInLoad (cl t : Nat) (sp : Option Nat) (l : Load) (s : State) : State :=
  match bindsAfter cl t sp l.binds with
  | some bs => { s with loads := s.loads.map (fun x => if x.tok == l.tok then { x with binds := bs } else x) }
  | none => dropLoad PLACEMENT_LOST [] l s

/-- Masks after a retirement: the spare's bit where the retired tile's bit was, the retired tile's
bit 0 (R194). -/
def maskAfter (t : Nat) (sp : Option Nat) (m : Nat) : Nat :=
  let m' := match sp with
    | some n => if bit m t then setBit m n true else m
    | none => m
  setBit m' t false

/-- A record of the wear log, which keeps the last 1,280, with EV_WEAR on HP0 (Table 8 of chapter 15,
R403, R407). -/
def wear (kind action cause inst value : Nat) (s : State) : State :=
  let l := s.larder
  let r : WearRec := ⟨l.wearSeq, l.boot, s.time.ns, kind, action, cause, inst, value⟩
  let w := l.wear ++ [r]
  offer0 0x0CF1 (leBytes 1 kind ++ leBytes 1 action ++ leBytes 1 cause ++ [0x00] ++ leBytes 4 inst
      ++ leBytes 4 value ++ leBytes 4 l.wearSeq)
    { s with
      larder := { l with wear := w.drop (w.length - 1280), wearSeq := (l.wearSeq + 1) % 2 ^ 32 },
      pow := { s.pow with warns := if action = 1 then satAdd 0xFF s.pow.warns 1 else s.pow.warns } }

/-- Change the retirement map. -/
def modMap (f : RetMap → RetMap) (s : State) : State :=
  { s with larder := { s.larder with map := f s.larder.map } }

/-- A tile of a cluster retires (R127 to R129): the spare takes its role, or no spare is left. -/
def retireTile (cl t : Nat) (s : State) : State :=
  let m := s.tileMap cl
  if 12 < t || 11 < cl || m.retired.contains t then s
  else
    let wasSpare := m.spare == some t
    let sp := if wasSpare then none else m.spare
    let noSpare := !wasSpare && m.spare.isNone
    let s := modMap (fun k => { k with
      tiles := k.tiles.set cl ⟨if sp.isSome || wasSpare then none else m.spare, t :: m.retired⟩,
      nRetired := k.nRetired + 1, nNoSpare := k.nNoSpare + b2n noSpare }) s
    let s := { s with tens := s.tens.mapV (fun v => { v with part := { v.part with
      tiles := v.part.tiles.set cl (maskAfter t sp (v.part.tiles.getD cl 0)) } }) }
    if wasSpare then s
    else
      let s := s.progs.keys.foldl (fun s h => retireInProg cl t sp h s) s
      let s := s.loads.foldl (fun s l => retireInLoad cl t sp l s) s
      if noSpare then retireNoSpare s else s

/-! ## Switching images (R138) and coverage (R327) -/

/-- A program is first covered: due GWIN_MS from now, its golden test eligible at once. -/
def firstCover (h : Nat) (s : State) : State :=
  modProg h (fun p =>
    if p.img.paired then { p with covered := true, eligible := true, lapsed := false, gwinOn := p.gwin,
                                  due := s.time.ns + p.gwin * 1000000 }
    else p) s

/-- A program as it is first loaded (R132, chapter 12's defaults). -/
def newProg (l : Load) (no : Nat) : Prog :=
  { tenant := l.tenant, img := l.img, imageNo := no, regBase := l.regBase, regSize := l.regSize,
    batch := l.batch, binds := l.binds, old := [], live := 0, gen := 0, sb := .free,
    sbHost := false, sbJob := none, reason := 0, cand := none, candSigs := [], evalTok := none,
    evalMs := 1000, evalLeft := 0, stopped := false, unloadTok := none, replacing := false,
    gwin := 100, gwinOn := 100, verdictUs := 1000, retries := 2, gelig := 50, chkId := 0,
    expected := l.img.golden, covered := false, eligible := false, gNext := 0, gPasses := 0,
    lastPass := 0, due := 0, lapsed := false, frames := [], mismatch := 0, recent := [],
    members := [], changes := [], steps := 0 }

/-- The next handle after the last one issued, wrapping from 0xFFFF to 0x0001 and passing over
handles in use (R134). -/
def nextHandleFrom (s : State) : Nat → Nat → Nat
  | 0, h => h
  | n + 1, h =>
    let k := if h ≥ 0xFFFF then 1 else h + 1
    if (s.progs.get? k).isSome then nextHandleFrom s n k else k

def nextHandle (s : State) : Nat := nextHandleFrom s (s.progs.cells.length + 1) s.sch.lastHandle

/-- Copy the initial weights into bank 0 (R411). -/
def copyWeights (l : Load) (s : State) : State :=
  l.copies.foldl (fun s c => dramWrite c.2.1 (dramRead s c.1 c.2.2) s) s

/-- The records of a lost placement that a load of the same digest clears (R329). -/
def clearLost (l : Load) (s : State) : State :=
  if l.img.paired then
    { s with skk := { s.skk with
        lost := s.skk.lost.filter (fun r => !(r.tenant == l.tenant && r.iface == l.img.iface)) } }
  else s

end Sys2Proof.Machine
end

