-- ==== Sys2Proof/Machine/Programs.lean ====
section
/-! DEFINITION. Weight-bank and program commands and events: WBANK_STATUS to PROG_INFO (R105 to R111,
R119 to R139, R412). -/

namespace Sys2Proof.Machine

open Sys2Proof

/-! ## Weight banks (R109) -/

/-- PROG, the 2-byte handle at the start of PARAMS, is owned by TENANT. -/
def ownsProg (h : Hdr) (prog : Nat) (s : State) : Bool :=
  match s.progs.get? prog with
  | some p => p.tenant == h.tenant.toNat
  | none => false

/-- The standby state of a handle, where the handle is TENANT's; a command's check of it is passed
over until then (R50). -/
def bankIs (h : Hdr) (prog : Nat) (s : State) (f : Prog → Bool) : Bool :=
  match s.progs.get? prog with
  | some p => p.tenant != h.tenant.toNat || f p
  | none => true

def cWbankStatus : Cmd := { Cmd.base with
  opcode := 0x0260, ten := .asks, states := stQuery, lenOk := fun ps => ps.length == 4, maxReply := 12,
  paramOk := fun h ps s => ownsProg h (u16 ps 0) s && zeroAt ps 2 2,
  data := fun _ ps s =>
    match s.progs.get? (u16 ps 0) with
    | none => []
    | some p => leBytes 1 p.live ++ leBytes 1 p.sb.code ++ leBytes 1 p.reason ++ [0x00]
        ++ leBytes 4 p.gen ++ leBytes 1 (b2n p.cand.isSome) ++ zeros 3 }

def execWbankStatus (h : Hdr) (ps : List Byte) (s : State) : Host.Outcome State Fault Refusal :=
  cWbankStatus.exec h ps s

def cWbankOpen : Cmd := { Cmd.base with
  opcode := 0x0261, ten := .acts, lenOk := fun ps => ps.length == 4,
  stateOk := fun h ps s => bankIs h (u16 ps 0) s (fun p => p.sb == .free),
  paramOk := fun h ps s => ownsProg h (u16 ps 0) s && zeroAt ps 2 2,
  effect := fun _ _ ps s =>
    setBank (u16 ps 0) .writing 0 (modProg (u16 ps 0) (fun p => { p with sbHost := true }) s) }

def execWbankOpen (h : Hdr) (ps : List Byte) (s : State) : Host.Outcome State Fault Refusal :=
  cWbankOpen.exec h ps s

def cWbankSubmit : Cmd := { Cmd.base with
  opcode := 0x0262, ten := .acts, lenOk := fun ps => ps.length == 4, cpl := some 0,
  stateOk := fun h ps s => bankIs h (u16 ps 0) s (fun p => p.sb == .writing && p.sbHost),
  paramOk := fun h ps s => ownsProg h (u16 ps 0) s && 1 ≤ u16 ps 2 && u16 ps 2 ≤ 10000,
  effect := fun tok _ ps s => startEval (u16 ps 0) (u16 ps 2) (some tok) s }

def execWbankSubmit (h : Hdr) (ps : List Byte) (s : State) : Host.Outcome State Fault Refusal :=
  cWbankSubmit.exec h ps s

def cWbankAbandon : Cmd := { Cmd.base with
  opcode := 0x0263, ten := .acts, lenOk := fun ps => ps.length == 4,
  stateOk := fun h ps s => bankIs h (u16 ps 0) s (fun p =>
    (p.sb == .writing && p.sbHost) || p.sb == .evaluating || p.sb == .accepted),
  paramOk := fun h ps s => ownsProg h (u16 ps 0) s && zeroAt ps 2 2,
  effect := fun _ _ ps s => freeCand (u16 ps 0) 3 STATE s }

def execWbankAbandon (h : Hdr) (ps : List Byte) (s : State) : Host.Outcome State Fault Refusal :=
  cWbankAbandon.exec h ps s

/-- EVAL_MS elapsed while the candidate was evaluated: FREE, reason TIMEOUT (R105). -/
def execEvalMsExpiry (prog : Nat) (s : State) : Host.Outcome State Fault Refusal :=
  match s.progs.get? prog with
  | some p => if p.sb == .evaluating then .next (freeCand prog 2 TIMEOUT s) else .next s
  | none => .next s

/-! ## Loading (R119, R134) -/

/-- PARAMS of PROG_LOAD that can be judged at the command's turn. -/
def loadParamsOk (ps : List Byte) : Bool := u8 ps 26 ≤ 1 && zeroAt ps 27 1

/-- The tenant is OPEN or QUIESCED. -/
def tenLive (h : Hdr) (s : State) : Bool :=
  !isTenant h.tenant || (s.ten h.tenant.toNat).st == .opened || (s.ten h.tenant.toNat).st == .quiesced

def cProgLoad : Cmd := { Cmd.base with
  opcode := 0x0201, ten := .acts, lenOk := fun ps => ps.length == 40, cpl := some 28,
  stateOk := fun h _ s => tenLive h s, paramOk := fun _ ps _ => loadParamsOk ps,
  effect := fun tok h ps s =>
    if loadsWait s && step1Ok s h.tenant.toNat ps then
      addWaiting tok h.tenant.toNat ps .waitLoad none s
    else match fitCheck s h.tenant.toNat ps false with
    | .fail st d => complete tok st d s
    | .fit img bs cs =>
      reserve (mkLoad tok h.tenant.toNat ps .copying img bs cs
        (imgBytes (dramRead s (u64 ps 0) 256)) none) s }

def execProgLoad (h : Hdr) (ps : List Byte) (s : State) : Host.Outcome State Fault Refusal :=
  cProgLoad.exec h ps s

/-- Copying has ended: the program gets its handle, bank 0 its weights, and the load completes with
the data of R134. `i` counts the loads not yet completed, 0 the oldest. -/
def execProgLoadComplete (i : Nat) (s : State) : Host.Outcome State Fault Refusal :=
  match s.loads[i]? with
  | none => .next s
  | some l =>
    if l.st == .copying && l.replace.isNone && !s.fwDown fwSch then
      let h := nextHandle s
      let s := copyWeights l s
      let s := { s with
        loads := s.loads.filter (fun x => x.tok != l.tok),
        progs := s.progs.set h (newProg l s.sch.nImages),
        sch := { s.sch with lastHandle := h, nImages := s.sch.nImages + 1 } }
      let s := fillResident h 0 (clearLost l (if s.running then firstCover h s else s))
      .next (complete l.tok OK (bindData h l.img l.binds) s)
    else .next s

/-- PROG_FITCHECK reports what PROG_LOAD would, reserves nothing and copies nothing (R123). -/
def cProgFitcheck : Cmd := { Cmd.base with
  opcode := 0x0202, ten := .acts, lenOk := fun ps => ps.length == 40, cpl := some 28,
  stateOk := fun h _ s => tenLive h s, paramOk := fun _ ps _ => loadParamsOk ps,
  effect := fun tok h ps s =>
    if loadsWait s && step1Ok s h.tenant.toNat ps then
      addWaiting tok h.tenant.toNat ps .waitFit none s
    else match fitCheck s h.tenant.toNat ps false with
    | .fail st d => complete tok st d s
    | .fit img bs _ => complete tok OK (bindData 0 img bs) s }

def execProgFitcheck (h : Hdr) (ps : List Byte) (s : State) : Host.Outcome State Fault Refusal :=
  cProgFitcheck.exec h ps s

/-! ## Unloading (R137) -/

def progJobs (s : State) (h : Nat) : Bool := s.jobs.any (fun _ j => j.prog == h)

def cProgUnload : Cmd := { Cmd.base with
  opcode := 0x0203, ten := .acts, states := stQuery, lenOk := fun ps => ps.length == 4, cpl := some 0,
  stateOk := fun h ps s => bankIs h (u16 ps 0) s (fun p =>
    p.unloadTok.isNone && (bit (u8 ps 2) 0 || !progJobs s (u16 ps 0))),
  paramOk := fun h ps s => ownsProg h (u16 ps 0) s && u8 ps 2 ≤ 1 && zeroAt ps 3 1,
  effect := fun tok _ ps s =>
    let h := u16 ps 0
    let s := modProg h (fun p => { p with stopped := true, unloadTok := some tok }) s
    endJobs (fun j => j.prog == h && j.st == .queued && j.role == .user) STATE 0 s }

def execProgUnload (h : Hdr) (ps : List Byte) (s : State) : Host.Outcome State Fault Refusal :=
  cProgUnload.exec h ps s

/-- No job of an unloading program is in flight any more: everything is freed (R137). -/
def execProgUnloadDrained (prog : Nat) (s : State) : Host.Outcome State Fault Refusal :=
  match s.progs.get? prog with
  | none => .next s
  | some p =>
    if p.unloadTok.isSome && !progBusy s prog && !s.fwDown fwSch then
      .next (completeOpt p.unloadTok OK [] (unloadProg prog (modProg prog (fun q => { q with unloadTok := none }) s)))
    else .next s

/-! ## Replacing (R138, R139) -/

def cProgReplace : Cmd := { Cmd.base with
  opcode := 0x0204, ten := .acts, lenOk := fun ps => ps.length == 44, cpl := some 28,
  stateOk := fun h ps s => tenLive h s
    && bankIs h (u16 ps 40) s (fun p => p.unloadTok.isNone && !p.replacing),
  paramOk := fun h ps s => loadParamsOk ps && ownsProg h (u16 ps 40) s && u8 ps 42 ≤ 1
    && zeroAt ps 43 1,
  effect := fun tok h ps s =>
    let k := u16 ps 40
    let t := h.tenant.toNat
    match s.progs.get? k with
    | none => s
    | some p =>
      let len := imgBytes (dramRead s (u64 ps 0) 256)
      let mark := modProg k (fun p => { p with replacing := true })
      if u8 ps 42 == 1 then
        if step1Ok s t ps then mark (addWaiting tok t ps .draining (some (k, 1)) s)
        else complete tok DENIED [] s
      else if loadsWait s && step1Ok s t ps then mark (addWaiting tok t ps .waitLoad (some (k, 0)) s)
      else match replaceCheck s t p ps with
        | .fail st d => complete tok st d s
        | .fit img bs cs =>
          reserve (mkLoad tok t ps .copying img bs cs len (some (k, 0))) (mark s) }

def execProgReplace (h : Hdr) (ps : List Byte) (s : State) : Host.Outcome State Fault Refusal :=
  cProgReplace.exec h ps s

/-- MODE 1: the in-flight jobs have drained, and the steps are made when no earlier command waits. The manual does not
say when the KIND, PAIRED and IFACE of the new image are compared in MODE 1: with the other checks of step 2, after the
drain, so that dispatch pauses until then (R138; DESIGN CHOICE, log 19). The
old program's resources count as free for the fit check; a failure restores it unchanged (R119, R138). -/
def execProgReplaceDrained (prog : Nat) (s : State) : Host.Outcome State Fault Refusal :=
  match loadOf s prog .draining with
  | some l =>
    if progBusy s prog || s.fwDown fwSch then .next s else .next (runLoads (endDrain l s))
  | _ => .next s

/-- The new image is fully copied: every later dispatch runs it, the generation rises by 1, its
weights are the live bank, a standby bank not FREE is released (R138). -/
def execProgReplaceSwitch (prog : Nat) (s : State) : Host.Outcome State Fault Refusal :=
  match s.progs.get? prog, loadOf s prog .copying with
  | some p, some l =>
    if s.fwDown fwSch then .next s else
    let s := copyWeights l s
    let s := if p.sb == .free then s else freeCand prog 5 STATE s
    let keep := s.jobs.any (fun _ j => j.prog == prog && j.inFlight && j.image == p.imageNo)
    let s := modProg prog (fun q => { q with
      img := l.img, imageNo := s.sch.nImages, regBase := l.regBase, regSize := l.regSize,
      batch := l.batch, binds := l.binds, old := if keep then p.old ++ [(⟨p.imageNo, p.img, p.binds⟩ : OldImg)] else p.old,
      live := 0, gen := (q.gen + 1) % 2 ^ 32, expected := l.img.golden, gNext := 0,
      replacing := false }) s
    let s := { s with
      loads := s.loads.filter (fun x => x.tok != l.tok),
      sch := { s.sch with nImages := s.sch.nImages + 1 } }
    let s := fillResident prog 0 s
    .next (complete l.tok OK (bindData prog l.img l.binds) (evProg prog p.tenant 4 0xFF 0xFF 0xFF s))
  | _, _ => .next s

/-! ## PROG_INFO (R135) -/

def progInfo (k : Nat) (p : Prog) : List Byte :=
  leBytes 2 k ++ leBytes 1 p.img.kind ++ leBytes 1 p.img.flags ++ leBytes 8 p.regBase
    ++ leBytes 8 p.regSize ++ leBytes 8 p.img.bankStride ++ leBytes 2 p.batch ++ leBytes 1 p.img.nlc
    ++ [0x00] ++ bindEntries p.img p.binds ++ leBytes 2 p.img.fmtver ++ zeros 2

def cProgInfo : Cmd := { Cmd.base with
  opcode := 0x0205, ten := .own, states := stQuery, lenOk := fun ps => ps.length == 4, maxReply := 60,
  stateOk := fun h _ s => !isTenant h.tenant || (s.ten h.tenant.toNat).st != .closed,
  paramOk := fun h ps s => zeroAt ps 2 2 && h.queue == 0xFF
    && ((h.tenant == 0xFF && u16 ps 0 == 0) || (isTenant h.tenant && ownsProg h (u16 ps 0) s)),
  data := fun h ps s =>
    if h.tenant == 0xFF then
      padTo 60 (leBytes 4 fmtMajors ++ leBytes 4 ((storeSize - s.storeUsed) / 2 ^ 20)
        ++ leBytes 2 s.progs.cells.length)
    else match s.progs.get? (u16 ps 0) with
      | some p => progInfo (u16 ps 0) p
      | none => [] }

def execProgInfo (h : Hdr) (ps : List Byte) (s : State) : Host.Outcome State Fault Refusal :=
  cProgInfo.exec h ps s

end Sys2Proof.Machine
end

