-- ==== Sys2Proof/Machine/Tenants.lean ====
section
/-! DEFINITION. Tenants and queues: TENANT_OPEN to QUEUE_STATUS (R69 to R72, Tables 16 and 17 of
chapter 02). -/

namespace Sys2Proof.Machine

open Sys2Proof

/-! ## Tenants -/

/-- Some job of a tenant is in flight. -/
def tenBusy (s : State) (t : Nat) : Bool := s.jobs.any (fun _ j => j.tenant == t && j.inFlight)

/-- SECLIVE follows whether some secure-world tenant is open (R357). -/
def markSecLive (s : State) : State :=
  { s with larder := { s.larder with
      seclive := s.tens.any (fun _ v => v.st != .closed && v.secure) } }

/-- A tenant's BWR registers at their reset values (R220). -/
def resetBwr (t : Nat) (s : State) : State :=
  { s with bwr := { s.bwr with
      cfg := s.bwr.cfg.erase t, beats := s.bwr.beats.erase t, beatsHi := s.bwr.beatsHi.erase t,
      lim := s.bwr.lim.erase t } }

def cTenantOpen : Cmd := { Cmd.base with
  opcode := 0x0301, ten := .any,
  stateOk := fun h _ s => !isTenant h.tenant || (s.ten h.tenant.toNat).st == .closed,
  effect := fun _ h _ s =>
    let t := h.tenant.toNat
    let s := resetBwr t (s.setTen t { Tenant.fresh with secure := (s.port h.port).secure })
    markSecLive (setTenSt t .opened s) }

def execTenantOpen (h : Hdr) (ps : List Byte) (s : State) : Host.Outcome State Fault Refusal :=
  cTenantOpen.exec h ps s

def cTenantQuiesce : Cmd := { Cmd.base with
  opcode := 0x0302, ten := .acts, states := stQuery, cpl := some 0,
  stateOk := fun h _ s => !isTenant h.tenant || (s.ten h.tenant.toNat).st == .opened,
  effect := fun tok h _ s =>
    setTenSt h.tenant.toNat .quiesced
      (modTen h.tenant.toNat (fun v => { v with draining := true, tok := some tok }) s) }

def execTenantQuiesce (h : Hdr) (ps : List Byte) (s : State) : Host.Outcome State Fault Refusal :=
  cTenantQuiesce.exec h ps s

/-- The tenant's running jobs have committed or ended: TENANT_QUIESCE completes (R70). -/
def execTenantQuiesceDrained (t : Nat) (s : State) : Host.Outcome State Fault Refusal :=
  let v := s.ten t
  if v.draining && !tenBusy s t && !s.fwDown fwSch then
    .next (completeOpt v.tok OK [] (modTen t (fun v => { v with draining := false, tok := none }) s))
  else .next s

def cTenantResume : Cmd := { Cmd.base with
  opcode := 0x0303, ten := .acts,
  stateOk := fun h _ s => !isTenant h.tenant ||
    ((s.ten h.tenant.toNat).st == .quiesced && !(s.ten h.tenant.toNat).draining),
  effect := fun _ h _ s => setTenSt h.tenant.toNat .opened s }

def execTenantResume (h : Hdr) (ps : List Byte) (s : State) : Host.Outcome State Fault Refusal :=
  cTenantResume.exec h ps s

/-- Queued jobs of a tenant complete with FAULT, cause CANCELLED. -/
def cancelQueued (t : Nat) (s : State) : State :=
  endJobs (fun j => j.tenant == t && j.st == .queued && j.role == .user) FAULT 3 s

def cTenantReset : Cmd := { Cmd.base with
  opcode := 0x0305, ten := .acts,
  stateOk := fun h _ s => !isTenant h.tenant ||
    ((s.ten h.tenant.toNat).st == .faulted && !(s.ten h.tenant.toNat).draining),
  effect := fun _ h _ s =>
    let t := h.tenant.toNat
    startStreams (setTenSt t .opened (modTen t (fun v => { v with cause := 0 }) (cancelQueued t s))) }

def execTenantReset (h : Hdr) (ps : List Byte) (s : State) : Host.Outcome State Fault Refusal :=
  cTenantReset.exec h ps s

def cTenantClose : Cmd := { Cmd.base with
  opcode := 0x0304, ten := .acts, states := stQuery, cpl := some 0,
  stateOk := fun h _ s => !isTenant h.tenant || !(s.ten h.tenant.toNat).draining,
  effect := fun tok h _ s =>
    let t := h.tenant.toNat
    let s := modTen t (fun v => { v with closing := true, tok := some tok }) s
    let s := if (s.ten t).st == .opened then setTenSt t .quiesced s else s
    let s := (s.loads.filter (fun l => l.tenant == t)).foldl (fun s l => dropLoad STATE [] l s) s
    cancelQueued t (runLoads s) }

def execTenantClose (h : Hdr) (ps : List Byte) (s : State) : Host.Outcome State Fault Refusal :=
  cTenantClose.exec h ps s

/-- Release a tenant's unlocked pages, zeroed (R211). -/
def releasePages (t : Nat) (s : State) : State :=
  let pgs := (s.mem.own.filter (fun _ e => e.owner == t && !e.lock)).keys
  let s := pgs.foldl (fun s p => zeroPages p 1 (dropLines (p * 2 ^ 20) (2 ^ 20) s)) s
  { s with mem := { s.mem with own := pgs.foldl (fun m p => m.erase p) s.mem.own } }

/-- The tenant's running jobs have drained: queues, programs, pages, partition and the contexts of
other units are released, and the tenant is CLOSED (R70, R211). -/
def execTenantCloseDrained (t : Nat) (s : State) : Host.Outcome State Fault Refusal :=
  let v := s.ten t
  if v.closing && !tenBusy s t && !s.fwDown fwSch then
    let s := (s.progs.filter (fun _ p => p.tenant == t)).keys.foldl (fun s h => unloadProg h s) s
    let s := { s with queues := s.queues.filter (fun k _ => k / 16 != t) }
    let s := releasePages t (closeUnits t s)
    let s := setTenSt t .closed s
    let s := s.setTen t { Tenant.fresh with acct := v.acct, vt := v.vt }
    .next (completeOpt v.tok OK [] (markSecLive s))
  else .next s

/-- Queues of a tenant as a mask. -/
def queueMask (s : State) (t : Nat) : Nat :=
  (List.range 16).foldl (fun m q => m + (if (s.queue? t q).isSome then 2 ^ q else 0)) 0

def cTenantStatus : Cmd := { Cmd.base with
  opcode := 0x0306, ten := .any, states := stQuery, maxReply := 5,
  data := fun h _ s =>
    let t := h.tenant.toNat
    let v := s.ten t
    if v.st == .closed then zeros 5
    else leBytes 1 v.st.code ++ leBytes 2 (queueMask s t) ++ leBytes 1 v.cause
      ++ leBytes 1 (b2n v.closing + 2 * b2n v.draining) }

def execTenantStatus (h : Hdr) (ps : List Byte) (s : State) : Host.Outcome State Fault Refusal :=
  cTenantStatus.exec h ps s

/-! ## Queues -/

/-- Job contexts that queues reserve (R71). -/
def State.ctxReserved (s : State) : Nat := s.queues.sum (fun _ q => q.depth)

/-- The 16,384-entry job table. -/
def jobTable : Nat := 16384

/-- Jobs of a queue: all, or those in flight. -/
def queueJobs (s : State) (t q : Nat) : Nat :=
  s.jobs.count (fun _ j => j.tenant == t && j.queue == q && j.role == .user)
def queueInFlight (s : State) (t q : Nat) : Nat :=
  s.jobs.count (fun _ j => j.tenant == t && j.queue == q && j.role == .user && j.inFlight)

def Queue.fresh (cls depth : Nat) : Queue := ⟨cls, depth, none, 0, 0, 0, 0, 0, false, Map.empty⟩

def cQueueCreate : Cmd := { Cmd.base with
  opcode := 0x0310, ten := .acts, que := .number, lenOk := fun ps => ps.length == 4,
  stateOk := fun h _ s => !isTenant h.tenant ||
    (((s.ten h.tenant.toNat).st == .opened || (s.ten h.tenant.toNat).st == .quiesced)
      && (decide (16 ≤ h.queue.toNat) || (s.queue? h.tenant.toNat h.queue.toNat).isNone)),
  paramOk := fun _ ps _ => u8 ps 0 ≤ 1 && zeroAt ps 1 1 && isPow2In (u16 ps 2) 16 4096,
  resource := fun _ ps s => if s.ctxReserved + u16 ps 2 > jobTable then NO_RESOURCE else 0,
  effect := fun _ h ps s => { s with
    queues := s.queues.set (qkey h.tenant.toNat h.queue.toNat) (Queue.fresh (u8 ps 0) (u16 ps 2)) } }

def execQueueCreate (h : Hdr) (ps : List Byte) (s : State) : Host.Outcome State Fault Refusal :=
  cQueueCreate.exec h ps s

def cQueueDestroy : Cmd := { Cmd.base with
  opcode := 0x0311, ten := .acts, que := .created, states := stQuery,
  stateOk := fun h _ s => queueJobs s h.tenant.toNat h.queue.toNat == 0,
  effect := fun _ h _ s => { s with queues := s.queues.erase (qkey h.tenant.toNat h.queue.toNat) } }

def execQueueDestroy (h : Hdr) (ps : List Byte) (s : State) : Host.Outcome State Fault Refusal :=
  cQueueDestroy.exec h ps s

def cQueueStatus : Cmd := { Cmd.base with
  opcode := 0x0312, ten := .asks, que := .created, states := stQuery, maxReply := 8,
  data := fun h _ s =>
    let t := h.tenant.toNat
    let q := h.queue.toNat
    match s.queue? t q with
    | none => []
    | some v => leBytes 2 v.cls ++ leBytes 2 v.depth
        ++ leBytes 2 (queueJobs s t q - queueInFlight s t q) ++ leBytes 2 (queueInFlight s t q) }

def execQueueStatus (h : Hdr) (ps : List Byte) (s : State) : Host.Outcome State Fault Refusal :=
  cQueueStatus.exec h ps s

end Sys2Proof.Machine
end

