-- ==== Sys2Proof/Machine/Jobs.lean ====
section
/-! DEFINITION. Commands and doorbells for jobs, batches and partitions (R172 to R178, R192 to R197). -/

namespace Sys2Proof.Machine

open Sys2Proof

/-! ## Descriptors (Table 3 of chapter 06, R177) -/

/-- NDEP of a descriptor, and its dependencies: queue and JOBSEQ. -/
def descNdep (d : List Byte) : Nat := u8 d 20
def descDeps (d : List Byte) : List (Nat × Nat) :=
  (List.range (descNdep d)).map (fun i => (u8 d (24 + 8 * i), u32 d (28 + 8 * i)))

/-- The fields of Table 3. -/
def descFieldsOk (d : List Byte) : Bool :=
  u8 d 2 ≤ 2 && u8 d 3 ≤ 3 && descNdep d ≤ 4 && (bit (u8 d 3) 1 || descNdep d == 0) && zeroAt d 21 3
  && (List.range 4).all (fun i =>
      if i < descNdep d then decide (u8 d (24 + 8 * i) < 16) && zeroAt d (25 + 8 * i) 3
      else zeroAt d (24 + 8 * i) 8) && zeroAt d 56 8

/-- The tensors a descriptor names: whether each is an output, its address and extent. -/
def descTensors (s : State) (p : Prog) (d : List Byte) : List (Bool × Nat × Nat) :=
  let args := dramRead s (u64 d 8) (8 * p.img.tensors.length)
  p.img.tensors.zipIdx.map (fun x => (x.1.out, u64 args (8 * x.2), x.1.extent))

/-- The argument block and every tensor lie in the tenant's pages, an output with its header. -/
def descPagesOk (s : State) (t : Nat) (p : Prog) (d : List Byte) : Bool :=
  ownedBy s t (u64 d 8) (8 * p.img.tensors.length)
  && (descTensors s p d).all (fun x =>
      if x.1 then decide (64 ≤ x.2.1) && ownedBy s t (x.2.1 - 64) (64 + x.2.2) else ownedBy s t x.2.1 x.2.2)

/-- The checks of R177. -/
def descOk (s : State) (t : Nat) (d : List Byte) : Bool :=
  descFieldsOk d && (match s.progs.get? (u16 d 0) with
    | some p => p.tenant == t && p.img.kind == u8 d 2 && descPagesOk s t p d
    | none => false)

/-- The handle is TENANT's and is being unloaded (R137). -/
def descUnloading (s : State) (t : Nat) (d : List Byte) : Bool :=
  match s.progs.get? (u16 d 0) with
  | some p => p.tenant == t && p.unloadTok.isSome
  | none => false

/-- How a descriptor taken from a queue of a class fares: OK, or the status it completes with. -/
def descStatus (s : State) (t cls : Nat) (d : List Byte) : Nat :=
  if descUnloading s t d || (u8 d 2 == 2 && cls == 0) then STATE
  else if !descOk s t d then BAD_PARAM else OK

/-- The job that a descriptor asks for. -/
def jobOf (s : State) (t qn : Nat) (q : Queue) (d : List Byte) (tok : Option Nat) : Job :=
  let ts := match s.progs.get? (u16 d 0) with
    | some p => descTensors s p d
    | none => []
  let pick := fun (b : Bool) => ts.filterMap (fun x => if x.1 == b then some x.2 else none)
  { Job.blank with
    tenant := t, queue := qn, jobseq := q.nextSeq % 2 ^ 32, prog := u16 d 0, kind := u8 d 2,
    irq := bit (u8 d 3) 0, userTag := u32 d 4, args := u64 d 8, tlimit := u32 d 16, deps := descDeps d,
    lc := q.cls == 0, ring := q.rings.isSome, tok := tok, tSubmit := s.time.ns, ins := pick false,
    outs := pick true }

/-! ## Taking a job (R170 to R172, R183) -/

/-- Tenants with latency-critical work that is ready, other than `t`. -/
def lcReady (s : State) (t : Nat) : List Nat :=
  (s.jobs.vals.filter (fun j => j.lc && j.st == .queued && j.tenant != t && (s.ten j.tenant).st == .opened
    && depState s j == .ready)).map (·.tenant)

/-- A tenant's latency-critical queues go from empty to non-empty: its VT does not bank idle time. -/
def wakeVt (t : Nat) (s : State) : State :=
  if s.jobs.any (fun _ j => j.tenant == t && j.lc) then s
  else match (lcReady s t).map (fun k => (s.ten k).vt) with
    | [] => s
    | x :: l => modTen t (fun v => { v with vt := max v.vt (minOf x (x :: l)) }) s

/-- A queue counts one more job taken. -/
def countTaken (t qn : Nat) (s : State) : State :=
  match s.queues.get? (qkey t qn) with
  | none => s
  | some q => { s with queues := s.queues.set (qkey t qn) { q with nextSeq := q.nextSeq + 1 } }

/-- A job taken from a queue: it enters the job table, or ends at once where a dependency has failed or
was not taken (R178). -/
def takeJob (j : Job) (s : State) : State :=
  let s := if j.lc then wakeVt j.tenant s else s
  failDeps 1 (addJob j (countTaken j.tenant j.queue s))

/-! ## Submission (R173, R175 to R177) -/

def tenOpen (h : Hdr) (s : State) : Bool := !isTenant h.tenant || (s.ten h.tenant.toNat).st == .opened

/-- A check of the named queue, passed over where QUEUE names none. -/
def onQueue (h : Hdr) (s : State) (f : Queue → Bool) : Bool :=
  if 16 ≤ h.queue.toNat then true
  else match s.queue? h.tenant.toNat h.queue.toNat with
    | some q => f q
    | none => true

def cJobSubmit : Cmd := { Cmd.base with
  opcode := 0x0320, ten := .acts, que := .created, lenOk := fun ps => ps.length == 64, cpl := some 64,
  stateOk := fun h ps s => tenOpen h s && !descUnloading s h.tenant.toNat ps
    && onQueue h s (fun q => q.rings.isNone && !(u8 ps 2 == 2 && q.cls == 0)),
  paramOk := fun h ps s => descOk s h.tenant.toNat ps,
  resource := fun h _ s => if onQueue h s (fun q =>
    decide (queueJobs s h.tenant.toNat h.queue.toNat < q.depth)) then 0 else NO_RESOURCE,
  effect := fun tok h ps s =>
    match s.queue? h.tenant.toNat h.queue.toNat with
    | none => s
    | some q => takeJob (jobOf s h.tenant.toNat h.queue.toNat q ps (some tok)) s }

def execJobSubmit (h : Hdr) (ps : List Byte) (s : State) : Host.Outcome State Fault Refusal :=
  cJobSubmit.exec h ps s

/-- A ring address is misaligned, and so passed over where its pages are checked (R50), or the ring lies in pages of
the tenant. -/
def ringOk (s : State) (t : Nat) (q : Queue) (a : Nat) : Bool := a % 4096 != 0 || ownedBy s t a (q.depth * 64)

/-- QUEUE_RINGS (R173). -/
def cQueueRings : Cmd := { Cmd.base with
  opcode := 0x0313, ten := .acts, que := .created, lenOk := fun ps => ps.length == 16,
  denied := fun h ps s => isTenant h.tenant && !onQueue h s (fun q =>
    ringOk s h.tenant.toNat q (u64 ps 0) && ringOk s h.tenant.toNat q (u64 ps 8)),
  stateOk := fun h _ s => onQueue h s (fun q => q.rings.isNone)
    && queueJobs s h.tenant.toNat h.queue.toNat == 0,
  paramOk := fun _ ps _ => u64 ps 0 % 4096 == 0 && u64 ps 8 % 4096 == 0,
  effect := fun _ h ps s =>
    let k := qkey h.tenant.toNat h.queue.toNat
    match s.queues.get? k with
    | none => s
    | some q => { s with queues := s.queues.set k { q with rings := some (u64 ps 0, u64 ps 8) } } }

def execQueueRings (h : Hdr) (ps : List Byte) (s : State) : Host.Outcome State Fault Refusal :=
  cQueueRings.exec h ps s

/-- A doorbell write to a ring-fed queue of an OPEN tenant; else it is ignored and counted (R175). -/
def doorbell (t qn : Nat) (f : Queue → State → State) (s : State) : State :=
  match s.queues.get? (qkey t qn) with
  | some q =>
    if q.rings.isSome && (s.ten t).st == .opened then f q s
    else modTen t (fun v => { v with acct := { v.acct with dbign := satAdd 0xFFFFFFFF v.acct.dbign 1 } }) s
  | none => modTen t (fun v => { v with acct := { v.acct with dbign := satAdd 0xFFFFFFFF v.acct.dbign 1 } }) s

/-- Entries of a ring that the host has placed and the device has not taken. -/
def sqAhead (q : Queue) (tail : Nat) : Nat := (tail % 65536 + 65536 - q.sqHead % 65536) % 65536

/-- SQ_TAIL of a queue is written (R175). -/
def writeSqTail (tenant queue v : Nat) (s : State) : State :=
  doorbell tenant queue (fun q s =>
    let isOver := decide (q.depth < sqAhead q v)
    let s := { s with queues := s.queues.set (qkey tenant queue) { q with sqTail := v % 2 ^ 32, overrun := isOver } }
    if isOver then faultTenant tenant 1 s else s) s

/-- CQ_HEAD of a queue is written (R176). -/
def writeCqHead (tenant queue v : Nat) (s : State) : State :=
  doorbell tenant queue (fun q s =>
    { s with queues := s.queues.set (qkey tenant queue) { q with cqHead := v % 2 ^ 32 } }) s

def execSqTailWrite (w : DoorWrite) (s : State) : Host.Outcome State Fault Refusal :=
  match queueDoor w with
  | some (t, q, 0) => .next (writeSqTail t q w.val s)
  | _ => .next s

def execCqHeadWrite (w : DoorWrite) (s : State) : Host.Outcome State Fault Refusal :=
  match queueDoor w with
  | some (t, q, 4) => .next (writeCqHead t q w.val s)
  | _ => .next s

/-- What an aligned 32-bit read of a tenant's doorbell page gives (Table 2 of chapter 06): the words of created
queues, zero elsewhere. -/
def queueDoorRead (s : State) (off : Nat) : Nat :=
  match queueDoor ⟨off, 4, 0⟩ with
  | none => 0
  | some (t, k, o) =>
    match s.queues.get? (qkey t k) with
    | none => 0
    | some q => if o = 0 then q.sqTail else if o = 4 then q.cqHead else if o = 8 then q.sqHead else q.cqTail

/-- Records the host has not consumed. -/
def cqOwed (q : Queue) : Nat := (q.cqTail + 65536 - q.cqHead % 65536) % 65536

/-- The device takes the next entry of a submission ring (R175 to R178). -/
def execSqEntryTake (tenant queue : Nat) (s : State) : Host.Outcome State Fault Refusal :=
  match s.queues.get? (qkey tenant queue) with
  | none => .next s
  | some q =>
    match q.rings with
    | none => .next s
    | some (sq, _) =>
      let n := queueJobs s tenant queue
      if 16 ≤ queue || (s.ten tenant).st != .opened || s.fwDown fwSch || !stWork.contains s.dev.st
          || q.overrun || sqAhead q q.sqTail == 0 || q.depth ≤ n || q.depth ≤ cqOwed q + n then .next s
      else
        let rd := devRead (accSch tenant) (sq + q.sqHead % q.depth * 64) 64 s
        let d := rd.1
        let s := rd.2
        let j := jobOf s tenant queue q d none
        let st := descStatus s tenant q.cls d
        let s := { s with queues := s.queues.set (qkey tenant queue) { q with sqHead := (q.sqHead + 1) % 65536 } }
        if st == OK then .next (takeJob j s)
        else .next (deliver j st 0 0 0 (countTaken tenant queue s))

/-! ## JOB_CANCEL and JOB_STATUS (R196) -/

/-- The job of a queue with a JOBSEQ, and whether such a job was ever taken. -/
def findJob (s : State) (t qn seq : Nat) : Option (Nat × Job) :=
  s.jobs.cells.find? (fun c => c.2.tenant == t && c.2.queue == qn && c.2.jobseq == seq && c.2.role == .user)
def jobTaken (h : Hdr) (seq : Nat) (s : State) : Bool := onQueue h s (fun q => seqTaken q seq)

/-- Stop a job at its next yield point with a status; at once where it is pre-empted. -/
def stopJob (id st fc : Nat) (s : State) : State :=
  match s.jobs.get? id with
  | none => s
  | some j =>
    match j.st with
    | .queued | .preempted => endJob id st fc 0 s
    | .running =>
      if j.hold.keys.all j.stopped.contains then endJob id st fc 0 s
      else modJob id (fun j => { j with endAt := some (j.endAt.getD (st, fc)) }) s
    | .committing => s

def cJobCancel : Cmd := { Cmd.base with
  opcode := 0x0321, ten := .acts, que := .created, states := stQuery, lenOk := fun ps => ps.length == 4,
  paramOk := fun h ps s => jobTaken h (u32 ps 0) s,
  effect := fun _ h ps s =>
    match findJob s h.tenant.toNat h.queue.toNat (u32 ps 0) with
    | some (id, _) => stopJob id FAULT 3 s
    | none => s }

def execJobCancel (h : Hdr) (ps : List Byte) (s : State) : Host.Outcome State Fault Refusal :=
  cJobCancel.exec h ps s

def JobSt.code : JobSt → Nat
  | .queued => 0
  | .running => 1
  | .preempted => 2
  | .committing => 3

def cJobStatus : Cmd := { Cmd.base with
  opcode := 0x0322, ten := .asks, que := .created, states := stQuery, lenOk := fun ps => ps.length == 4,
  maxReply := 4, paramOk := fun h ps s => jobTaken h (u32 ps 0) s,
  data := fun h ps s =>
    match findJob s h.tenant.toNat h.queue.toNat (u32 ps 0) with
    | some (_, j) => leBytes 1 j.st.code ++ [0x00] ++ leBytes 2 (min 0xFFFF j.preempts)
    | none =>
      match s.queue? h.tenant.toNat h.queue.toNat with
      | none => []
      | some q => [0x04, 0x00] ++ leBytes 2 ((q.outcomes.get? (u32 ps 0)).map (·.2) |>.getD 0) }

def execJobStatus (h : Hdr) (ps : List Byte) (s : State) : Host.Outcome State Fault Refusal :=
  cJobStatus.exec h ps s

/-! ## Partitions (R194, R195, Table 11) -/

def psMask (ps : List Byte) (c : Nat) : Nat := u16 ps (2 * c)
def psCsram (ps : List Byte) (c : Nat) : Nat := u8 ps (24 + c)

def partOk (ps : List Byte) : Bool :=
  (List.range 12).all (fun c => psMask ps c < 8192 && psCsram ps c ≤ 188)
  && u16 ps 36 ≤ 1024 && 1 ≤ u16 ps 38 && u16 ps 38 ≤ 1024

/-- A tile of a cluster on which the tenant's programs or reservations hold granules. -/
def tenTiles (s : State) (t c : Nat) : List Nat :=
  s.allBinds.flatMap (fun b => if b.1 == t then tilesIn c b.2 else [])

/-- The mask as it is kept: bits of retired tiles and of the spare role are ignored. -/
def keepMask (s : State) (c m : Nat) : Nat :=
  (List.range 13).foldl (fun a i => a + (if bit m i && s.rolledTile c i then 2 ^ i else 0)) 0

def cPartitionSet : Cmd := { Cmd.base with
  opcode := 0x0330, ten := .acts, lenOk := fun ps => ps.length == 40,
  stateOk := fun h ps s => !isTenant h.tenant || (List.range 12).all (fun c =>
    (tenTiles s h.tenant.toNat c).all (fun t => bit (psMask ps c) t)
    && decide (s.heldCgran h.tenant.toNat c ≤ psCsram ps c)),
  paramOk := fun _ ps _ => partOk ps,
  entries := fun _ _ _ => 1,
  resource := fun h ps s =>
    let others := s.tens.sum (fun t v => if t == h.tenant.toNat || v.st == .closed then 0 else v.part.bwmin)
    if others + u16 ps 36 > 1024 then NO_RESOURCE else 0,
  effect := fun _ h ps s =>
    let tiles := (List.range 12).foldl (fun (m : Map Nat) c => m.set c (keepMask s c (psMask ps c))) Map.empty
    let csram := (List.range 12).foldl (fun (m : Map Nat) c => m.set c (psCsram ps c)) Map.empty
    modTen h.tenant.toNat (fun v => { v with part := ⟨tiles, csram, u16 ps 36, u16 ps 38⟩ })
      (journalCmd h 0x0330 0 (u32 ps 36) s) }

def execPartitionSet (h : Hdr) (ps : List Byte) (s : State) : Host.Outcome State Fault Refusal :=
  cPartitionSet.exec h ps s

/-- Table 11 as in force. -/
def partBytes (p : Partition) : List Byte :=
  (List.range 12).flatMap (fun c => leBytes 2 (p.tiles.getD c 0))
  ++ (List.range 12).flatMap (fun c => leBytes 1 (p.csram.getD c 0)) ++ leBytes 2 p.bwmin ++ leBytes 2 p.lcshare

def cPartitionGet : Cmd := { Cmd.base with
  opcode := 0x0331, ten := .any, states := stQuery, maxReply := 40,
  data := fun h _ s =>
    let v := s.ten h.tenant.toNat
    partBytes (if v.st == .closed then Partition.none else v.part) }

def execPartitionGet (h : Hdr) (ps : List Byte) (s : State) : Host.Outcome State Fault Refusal :=
  cPartitionGet.exec h ps s

/-! ## Sequence batches (R192, R193) -/

/-- Pages of 64 KiB in a sequence program's slot store. -/
def Prog.storePages (p : Prog) : Nat := p.batch * p.img.slotBytes / 65536

/-- MEMBER has joined: changes that still pend have not (R64, R196). -/
def Prog.joined (p : Prog) (m : Nat) : Bool := p.members.any (fun x => x.member == m)

/-- PROG is a sequence program of TENANT. -/
def ownsSeq (h : Hdr) (k : Nat) (s : State) : Bool :=
  match s.progs.get? k with
  | some p => p.tenant == h.tenant.toNat && p.img.kind == 1
  | none => false

def cBatchJoin : Cmd := { Cmd.base with
  opcode := 0x0350, ten := .acts, lenOk := fun ps => ps.length == 8, cpl := some 2,
  paramOk := fun h ps s => ownsSeq h (u16 ps 0) s && bankIs h (u16 ps 0) s (fun p =>
    1 ≤ u16 ps 2 && decide (u16 ps 2 ≤ p.storePages) && !p.joined (u32 ps 4)),
  effect := fun tok _ ps s =>
    modProg (u16 ps 0) (fun p => { p with changes := p.changes ++ [⟨true, u32 ps 4, u16 ps 2, tok⟩] }) s }

def execBatchJoin (h : Hdr) (ps : List Byte) (s : State) : Host.Outcome State Fault Refusal :=
  cBatchJoin.exec h ps s

def cBatchLeave : Cmd := { Cmd.base with
  opcode := 0x0351, ten := .acts, states := stQuery, lenOk := fun ps => ps.length == 8, cpl := some 0,
  paramOk := fun h ps s => ownsSeq h (u16 ps 0) s && zeroAt ps 2 2
    && bankIs h (u16 ps 0) s (fun p => p.joined (u32 ps 4)),
  effect := fun tok _ ps s =>
    modProg (u16 ps 0) (fun p => { p with changes := p.changes ++ [⟨false, u32 ps 4, 0, tok⟩] }) s }

def execBatchLeave (h : Hdr) (ps : List Byte) (s : State) : Host.Outcome State Fault Refusal :=
  cBatchLeave.exec h ps s

/-- Pages that members hold. -/
def Prog.usedPages (p : Prog) : List Nat := p.members.flatMap (·.pages)

def cBatchStatus : Cmd := { Cmd.base with
  opcode := 0x0352, ten := .asks, states := stQuery, lenOk := fun ps => ps.length == 4, maxReply := 8,
  paramOk := fun h ps s => ownsSeq h (u16 ps 0) s && zeroAt ps 2 2,
  data := fun _ ps s =>
    match s.progs.get? (u16 ps 0) with
    | none => []
    | some p => leBytes 2 p.members.length ++ leBytes 2 (p.storePages - p.usedPages.length) ++ leBytes 4 p.steps }

def execBatchStatus (h : Hdr) (ps : List Byte) (s : State) : Host.Outcome State Fault Refusal :=
  cBatchStatus.exec h ps s

/-- One leave at a step boundary. -/
def applyLeave (h : Nat) (g : BatchChg) (s : State) : State :=
  complete g.tok OK [] (modProg h (fun p => { p with members := p.members.filter (fun m => m.member != g.member) }) s)

/-- One join: the lowest free position and the lowest free pages, zeroed; or NO_RESOURCE. A MEMBER that an earlier
pending join has joined by then is refused as a joined one is (DEDUCED, log 17). -/
def applyJoin (h : Nat) (g : BatchChg) (s : State) : State :=
  match s.progs.get? h with
  | none => s
  | some p =>
    if p.joined g.member then complete g.tok BAD_PARAM [] s
    else match (List.range p.batch).find? (fun i => !p.members.any (fun m => m.pos == i)) with
    | none => complete g.tok NO_RESOURCE [0x01] s
    | some pos =>
      let free := (List.range p.storePages).filter (fun i => !p.usedPages.contains i)
      if free.length < g.pages then complete g.tok NO_RESOURCE [0x02] s
      else
        let pages := free.take g.pages
        let base := p.regBase + 2 * p.img.bankStride
        let s := pages.foldl (fun s i => dramWrite (base + i * 65536) (zeros 65536) s) s
        complete g.tok OK (leBytes 2 pos)
          (modProg h (fun p => { p with members := p.members ++ [⟨g.member, pos, pages⟩] }) s)

/-- A step boundary: every pending leave, then every pending join, in their order (R192). -/
def batchBoundary (h : Nat) (s : State) : State :=
  match s.progs.get? h with
  | none => s
  | some p =>
    let s := modProg h (fun p => { p with changes := [] }) s
    let s := (p.changes.filter (fun g => !g.join)).foldl (fun s g => applyLeave h g s) s
    (p.changes.filter (·.join)).foldl (fun s g => applyJoin h g s) s

end Sys2Proof.Machine
end

