-- ==== Sys2Proof/Machine/Windows.lean ====
section
/-! DEFINITION. Halo exchange (R149 to R154) and the Colanders (R160 to R169): the rows
HALO_ENTRY_WRITE, HALO_ENTRY_READ, COLANDER_CALL and COLANDER_CALL_DONE. -/

namespace Sys2Proof.Machine

open Sys2Proof

/-! ## Halo buffers -/

/-- Declaration `idx` of the image a job runs: of the degraded schedule once a logical cluster of its placement has
switched to it (R153; DEDUCED for an image with several logical clusters, log 19). -/
def haloDecl (s : State) (j : Job) (idx : Nat) : Option HaloDecl :=
  match jobImage s j with
  | some (i, bs) => (if bs.any (·.degraded) then i.halosD else i.halos)[idx]?
  | none => none

/-- The cluster on which a slot of a copy runs; slots are named logical cluster × 16 + slot. -/
def slotCluster (s : State) (j : Job) (copy slot : Nat) : Nat :=
  match jobImage s j with
  | some (_, bs) =>
    match bs.find? (fun b => b.lc == slot / 16) with
    | some b => if copy = 0 then b.clA else b.clB.getD b.clA
    | none => 0
  | none => 0

/-- A buffer of a job, at first empty with every space credit (rule 4 of R151). -/
def haloBuf (s : State) (job idx copy depth : Nat) : HaloBuf :=
  (s.halos.find? (fun b => b.job == job && b.idx == idx && b.copy == copy)).getD
    ⟨job, idx, copy, [], depth⟩

def setHalo (b : HaloBuf) (s : State) : State :=
  { s with halos := b :: s.halos.filter (fun x =>
      !(x.job == b.job && x.idx == b.idx && x.copy == b.copy)) }

/-- JOBTAG: the low 8 bits of the job's dispatch count (R149). -/
def jobTag (j : Job) : Nat := j.dispNo % 256

/-- The producer writes step `step`'s rows while it holds a space credit, after a stall of `waitUs`
(R150, R154). -/
def execHaloEntryWrite (job idx copy step waitUs : Nat) (rows : List Byte) (s : State) :
    Host.Outcome State Fault Refusal :=
  match s.jobs.get? job with
  | none => .next s
  | some j =>
    match haloDecl s j idx with
    | none => .next s
    | some d =>
      let b := haloBuf s job idx copy d.depth
      if j.st != .running || b.space == 0 then .next s
      else
        .next (modCl (slotCluster s j copy d.producer)
          (fun c => { c with haloSw := satAdd 0xFFFFFFFF c.haloSw waitUs })
          (setHalo { b with
            entries := b.entries ++ [(step % 65536, jobTag j, rows)], space := b.space - 1 } s))

/-- The consumer, which holds a data credit and expects `step`, checks the entry, copies its rows to
`off` in the SRAM of tile `unit` and returns the space credit; a mismatch stops the job with FAULT,
HALO_STALE (R150, R152). -/
def execHaloEntryRead (job idx copy step waitUs unit off : Nat) (s : State) :
    Host.Outcome State Fault Refusal :=
  match s.jobs.get? job with
  | none => .next s
  | some j =>
    match haloDecl s j idx with
    | none => .next s
    | some d =>
      let b := haloBuf s job idx copy d.depth
      let cl := slotCluster s j copy d.consumer
      match b.entries with
      | [] => .next s
      | (st, tag, rows) :: t =>
        if j.st != .running then .next s
        else
          let s := modCl cl (fun c => { c with haloDw := satAdd 0xFFFFFFFF c.haloDw waitUs }) s
          if st == step % 65536 && tag == jobTag j then
            .next (sramWrite job cl unit off rows
              (setHalo { b with entries := t, space := b.space + 1 } s))
          else .next (endJob job FAULT 2 0 (modCl cl (fun c => { c with stale := true }) s))

/-! ## Colander calls: the computation (R161 to R166) -/

/-- Fields of a call descriptor (Table 5 of chapter 05). -/
def cdMode (d : List Byte) (i : Nat) : Bool := bit (u8 d 0) i
def cdN (d : List Byte) : Nat := u16 d 2 + 1
def cdC (d : List Byte) : Nat := u16 d 4
def cdMaxKeep (d : List Byte) : Nat := u16 d 6
/-- Element bytes of INFMT. -/
def cdElem (d : List Byte) : Nat := if u8 d 1 = 0 then 4 else 2

/-- Element i of a tensor in INFMT, widened to FP32. -/
def cdVal (d bs : List Byte) (i : Nat) : Nat :=
  match u8 d 1 with
  | 0 => u32 bs (4 * i)
  | 1 => widen fp16 (u16 bs (2 * i))
  | _ => widen bf16 (u16 bs (2 * i))

/-- The box of candidate n after decoding (R161). -/
def cdDecode (d boxes anch : List Byte) (n : Nat) : List Nat :=
  let b := fun i => cdVal d boxes (4 * n + i)
  let a := fun i => u32 anch (16 * n + 4 * i)
  let var := fun i => u32 d (24 + 4 * i)
  if cdMode d 0 then
    let cx := fadd (a 0) (fmul (fmul (b 0) (var 0)) (a 2))
    let cy := fadd (a 1) (fmul (fmul (b 1) (var 1)) (a 3))
    let w := fmul (a 2) (fexp (fmin (fmul (b 2) (var 2)) (u32 d 40)))
    let h := fmul (a 3) (fexp (fmin (fmul (b 3) (var 3)) (u32 d 40)))
    [fsub cx (fmul f32half w), fsub cy (fmul f32half h), fadd cx (fmul f32half w),
     fadd cy (fmul f32half h)]
  else [b 0, b 1, b 2, b 3]

/-- The box of candidate n after clipping (R161). -/
def cdBox (d boxes anch : List Byte) (n : Nat) : List Nat :=
  let box := cdDecode d boxes anch n
  if cdMode d 2 then
    box.mapIdx (fun i v => fmax 0 (fmin v (u32 d (if i % 2 = 0 then 44 else 48))))
  else box

/-- The values that decide whether a candidate is non-finite: what it reads and what decoding made. -/
def cdSeen (d boxes anch : List Byte) (n : Nat) : List Nat :=
  (List.range 4).map (fun i => cdVal d boxes (4 * n + i))
  ++ (if cdMode d 0 then (List.range 4).map (fun i => u32 anch (16 * n + 4 * i)) else [])
  ++ cdDecode d boxes anch n

/-- The score of a pair after step 1 of R162. -/
def cdScore (d scores : List Byte) (n c : Nat) : Nat :=
  let v := cdVal d scores (cdC d * n + c)
  if cdMode d 3 then fdiv f32one (fadd f32one (fexp (fneg v))) else v

/-- A survivor of thresholding, or a kept box. -/
structure Surv where
  cand : Nat
  cls : Nat
  score : Nat
  box : List Nat
  deriving DecidableEq, Repr

/-- Counts and survivors as decoding and thresholding leave them. -/
structure ColAcc where
  below : Nat
  degen : Nat
  nonfin : Nat
  surv : List Surv
  deriving DecidableEq, Repr

/-- The best of some scores, the lowest class index winning ties (R162). -/
def bestScore : List (Nat × Nat) → Option (Nat × Nat)
  | [] => none
  | x :: t => some (t.foldl (fun b y => if flt b.2 y.2 then y else b) x)

/-- One candidate through decoding, dropping and thresholding (R161, R162, R165). -/
def cdCand (d boxes anch scores : List Byte) (a : ColAcc) (n : Nat) : ColAcc :=
  if (cdSeen d boxes anch n).any fnonfin then { a with nonfin := a.nonfin + 1 }
  else
    let b := cdBox d boxes anch n
    if fle (b[2]?.getD 0) (b[0]?.getD 0) || fle (b[3]?.getD 0) (b[1]?.getD 0) then
      { a with degen := a.degen + 1 }
    else
      let all := (List.range (cdC d)).map (fun c => (c, cdScore d scores n c))
      let ok := all.filter (fun p => !fnonfin (cdVal d scores (cdC d * n + p.1)) && !fnonfin p.2)
      let a := { a with nonfin := a.nonfin + (all.length - ok.length) }
      let cs := if cdMode d 1 then (bestScore ok).toList else ok
      let pass := cs.filter (fun p => fle (u32 d 16) p.2)
      { a with
        below := a.below + (cs.length - pass.length),
        surv := a.surv ++ pass.map (fun p => ⟨n, p.1, p.2, b⟩) }

/-- Sort order of R162: score descending, candidate ascending, class ascending. -/
def survBefore (x y : Surv) : Bool :=
  flt y.score x.score || (feq x.score y.score
    && (decide (x.cand < y.cand) || (x.cand == y.cand && decide (x.cls ≤ y.cls))))

def survInsert (x : Surv) : List Surv → List Surv
  | [] => [x]
  | y :: t => if survBefore x y then x :: y :: t else y :: survInsert x t

def survSort (l : List Surv) : List Surv := l.foldr survInsert []

/-- The overlap of two boxes (R163). -/
def cdIou (a b : List Nat) : Nat :=
  let g := fun (l : List Nat) i => l[i]?.getD 0
  let inter := fmul (fmax 0 (fsub (fmin (g a 2) (g b 2)) (fmax (g a 0) (g b 0))))
    (fmax 0 (fsub (fmin (g a 3) (g b 3)) (fmax (g a 1) (g b 1))))
  let area := fun l => fmul (fsub (g l 2) (g l 0)) (fsub (g l 3) (g l 1))
  fdiv inter (fsub (fadd (area a) (area b)) inter)

/-- The walk over the sorted survivors: kept boxes newest first, SUPPRESSED and KEEPCUT (R163). -/
def cdWalk (d thr : List Byte) : List Surv → List Surv → Nat → Nat → List Surv × Nat × Nat
  | [], kept, sup, cut => (kept, sup, cut)
  | x :: t, kept, sup, cut =>
    if cdMaxKeep d ≤ kept.length then (kept, sup, cut + t.length + 1)
    else
      let agn := cdMode d 1
      let limit := if cdMode d 4 then u32 thr (4 * x.cls) else u32 d 20
      let same := kept.filter (fun k => agn || k.cls == x.cls)
      if same.any (fun k => flt limit (cdIou x.box k.box)) then cdWalk d thr t kept (sup + 1) cut
      else if !agn && u16 d 8 ≤ same.length then cdWalk d thr t kept sup (cut + 1)
      else cdWalk d thr t (x :: kept) sup cut

/-- One 32-byte record (R164). -/
def cdRecord (x : Surv) : List Byte :=
  (x.box.flatMap (leBytes 4)) ++ leBytes 4 x.score ++ leBytes 2 x.cls ++ zeros 2 ++ leBytes 4 x.cand
    ++ zeros 4

/-- The output area of a call and the count of non-finite values (R164, R165). -/
def cdRun (d boxes anch scores thr : List Byte) : List Byte × Nat :=
  let a := (List.range (cdN d)).foldl (cdCand d boxes anch scores) ⟨0, 0, 0, []⟩
  let sorted := survSort a.surv
  let top := sorted.take (u32 d 12)
  let (kept, sup, cut) := cdWalk d thr top [] 0 0
  let ks := kept.reverse
  (leBytes 4 ks.length ++ leBytes 4 sup ++ leBytes 4 a.below ++ leBytes 4 a.degen
    ++ leBytes 4 (sorted.length - top.length) ++ leBytes 4 cut ++ leBytes 4 a.nonfin ++ zeros 36
    ++ ks.flatMap cdRecord ++ zeros (32 * (cdMaxKeep d - ks.length)), a.nonfin)

/-- A threshold table whose entries all lie in 0.0 to 1.0 (R160). -/
def thrOk (d thr : List Byte) : Bool :=
  !cdMode d 4 || (List.range (cdC d)).all (fun c =>
    !fnonfin (u32 thr (4 * c)) && fle 0 (u32 thr (4 * c)) && fle (u32 thr (4 * c)) f32one)

/-! ## Calls -/

def State.cld (s : State) (die : Nat) : Colander := if die = 0 then s.cld0 else s.cld1
def State.setCld (s : State) (die : Nat) (c : Colander) : State :=
  if die = 0 then { s with cld0 := c } else { s with cld1 := c }

/-- A slot on cluster `cl` issues a call: queued by class; a latency-critical call pre-empts a running
best-effort one (R168). -/
def execColanderCall (job cl : Nat) (desc : List Byte) (s : State) : Host.Outcome State Fault Refusal :=
  match s.jobs.get? job with
  | none => .next s
  | some j =>
    if j.st != .running then .next s
    else
      let die := dieOf cl
      let c := s.cld die
      let call : ClCall := ⟨job, cl, j.lc, desc⟩
      let c := { c with queue := c.queue ++ [call] }
      let c := match c.running with
        | some r =>
          if j.lc && !r.lc then
            { c with running := none, saved := some r, preempted := true,
                     preempts := satAdd 0xFFFF c.preempts 1 }
          else c
        | none => c
      .next (s.setCld die (startCall c))

/-- Bytes a call reads as work of its job: DRAM, or from 2^48 on the cluster SRAM that its program holds (log 11). -/
def cdRead (job cl a n : Nat) (s : State) : List Byte × State :=
  if 2 ^ 48 ≤ a then workBytes job cl (some 13) (a - 2 ^ 48) n s else workBytes job cl none a n s

/-- The running call of a die's Colander ends: its output is written, or its job stops (R160, R164,
R165); the next call starts. -/
def execColanderCallDone (die : Nat) (s : State) : Host.Outcome State Fault Refusal :=
  match (s.cld die).running with
  | none => .next s
  | some r =>
    let c := s.cld die
    let s := s.setCld die (startCall { c with running := none, calls := (c.calls + 1) % 65536 })
    match s.jobs.get? r.job with
    | none => .next s
    | some j =>
      let d := r.desc
      let (boxes, s) := cdRead r.job r.cl (u64 d 56) (cdN d * 4 * cdElem d) s
      let (anch, s) := if cdMode d 0 then cdRead r.job r.cl (u64 d 64) (cdN d * 16) s else ([], s)
      let (scores, s) := cdRead r.job r.cl (u64 d 72) (cdN d * cdC d * cdElem d) s
      let (thr, s) := if cdMode d 4 then cdRead r.job r.cl (u64 d 80) (cdC d * 4) s else ([], s)
      if (s.jobs.get? r.job).isNone then .next s
      else if !thrOk d thr then .next (endJob r.job FAULT 0 0 s)
      else
        let (out, nf) := cdRun d boxes anch scores thr
        if nf != 0 && jobNfmode s j == 0 then .next (endJob r.job FAULT 1 0 (countNonfin r.cl 1 s))
        else .next (jobWrite r.job r.cl (u64 d 88) out (countNonfin r.cl nf s))

end Sys2Proof.Machine
end

