-- ==== Sys2Proof/Machine/Pixels.lean ====
section
/-! DEFINITION. The pixel work of a render pass (R268 to R273, R276): surface formats, coverage, tile memory, tests,
blending, textures, and the vertices and primitives of a draw. -/

namespace Sys2Proof.Machine

open Sys2Proof

/-! ## Surface formats (Table 6 of chapter 10) -/

/-- How a component is coded. -/
inductive CompKind where
  | unorm
  | srgb
  | float
  deriving DecidableEq, Repr

/-- The components of a format: place of the lowest bit, width, coding (places PRESUMED, log 23). -/
def fmtComps (f : Nat) : List (Nat × Nat × CompKind) :=
  match f with
  | 1 => [(0, 8, .unorm), (8, 8, .unorm), (16, 8, .unorm), (24, 8, .unorm)]
  | 2 => [(0, 8, .srgb), (8, 8, .srgb), (16, 8, .srgb), (24, 8, .unorm)]
  | 3 => [(0, 10, .unorm), (10, 10, .unorm), (20, 10, .unorm), (30, 2, .unorm)]
  | 4 => [(0, 16, .float), (16, 16, .float), (32, 16, .float), (48, 16, .float)]
  | 5 | 0x10 => [(0, 32, .float)]
  | 6 => [(0, 16, .float), (16, 16, .float)]
  | 7 => [(0, 8, .unorm)]
  | 0x11 => [(0, 24, .unorm), (24, 8, .unorm)]
  | _ => []

/-- The float format of a component. -/
def compFloat (w : Nat) : FFmt := if w = 16 then fp16 else fp32

/-- A value in a UNORM component of `w` bits: clamped, to nearest, a NaN as zero (R268; rounding PRESUMED, log 23). -/
def toUnorm (w x : Nat) : Nat :=
  match fdecode fp32 x with
  | .nan _ => 0
  | .inf n => if n then 0 else 2 ^ w - 1
  | .fin n m e =>
    if n then 0
    else if 0 ≤ e then (if m = 0 then 0 else 2 ^ w - 1)
    else min (2 ^ w - 1) (rne (m * (2 ^ w - 1)) (-e).toNat false)

/-- A component of a stored sample as an FP32 code. -/
def decodeComp (code : Nat) (c : Nat × Nat × CompKind) : Nat :=
  let v := bits code c.1 c.2.1
  match c.2.2 with
  | .unorm => fofRat v (2 ^ c.2.1 - 1)
  | .srgb => Config.srgbDec v
  | .float => widen (compFloat c.2.1) v

/-- A component as stored, and whether a finite value saturated (R92, R268). -/
def encodeComp (c : Nat × Nat × CompKind) (x : Nat) : Nat × Bool :=
  match c.2.2 with
  | .unorm => (fld (toUnorm c.2.1 x) c.1 c.2.1, false)
  | .srgb =>
    (fld (if toUnorm 8 x = 0 && !flt f32zero x then 0 else if fle f32one x then 255 else Config.srgbEnc x) c.1 8, false)
  | .float =>
    let r := if c.2.1 = 32 then (x, false) else convFloat (compFloat c.2.1) x
    (fld r.1 c.1 c.2.1, r.2)

/-- A stored sample as four FP32 codes: components that the format lacks are 0, alpha 1.0; of D24S8 the depth alone. -/
def decodePix (f code : Nat) : List Nat :=
  let l := if f = 0x11 then [decodeComp code (0, 24, .unorm)] else (fmtComps f).map (decodeComp code)
  l ++ [f32zero, f32zero, f32zero, f32one].drop l.length

/-- Four FP32 codes as a stored sample: its code, whether a finite value saturated, and how many components were not
finite. -/
def encodePix (f : Nat) (v : List Nat) : Nat × Bool × Nat :=
  let l := ((fmtComps f).zip v).map (fun c => encodeComp c.1 c.2)
  (l.foldl (fun a c => a + c.1) 0, l.any (·.2), ((v.take (fmtComps f).length).filter fnonfin).length)

/-- CLEARVAL as a stored sample: of D24S8 the stencil is an integer (Table 4 of chapter 10). -/
def clearCode (f : Nat) (v : List Nat) : Nat :=
  if f = 0x11 then toUnorm 24 (v.headD 0) + fld ((v[1]?).getD 0) 24 8 else (encodePix f v).1

/-- The average of four samples, component by component, rounded once (rounding PRESUMED, log 23). -/
def resolveComp (codes : List Nat) (c : Nat × Nat × CompKind) : Nat :=
  let mean := fun (l : List FVal) => match l.foldl FVal.add (.fin true 0 0) with
    | .fin n m e => FVal.fin n m (e - 2)
    | v => v
  match c.2.2 with
  | .unorm => fld (rne ((codes.map (fun x => bits x c.1 c.2.1)).foldl (· + ·) 0) 2 false) c.1 c.2.1
  | .srgb => (encodeComp c (fenc fp32 (mean (codes.map (fun x => fdecode fp32 (decodeComp x c)))))).1
  | .float =>
    match mean (codes.map (fun x => fdecode (compFloat c.2.1) (bits x c.1 c.2.1))) with
    | .fin n m e => fld (fround (compFloat c.2.1) false n m e false).1 c.1 c.2.1
    | v => fld (fenc (compFloat c.2.1) v) c.1 c.2.1

def resolvePix (f : Nat) (codes : List Nat) : Nat := ((fmtComps f).map (resolveComp codes)).foldl (· + ·) 0

/-! ## Pass blocks and surfaces (Tables 2 to 4 of chapter 10) -/

def pbWidth (b : List Byte) : Nat := u16 b 0
def pbHeight (b : List Byte) : Nat := u16 b 2
/-- Screen tiles of a row, of a column and of the pass (R269). -/
def pbCols (b : List Byte) : Nat := (pbWidth b + 31) / 32
def pbRows (b : List Byte) : Nat := (pbHeight b + 31) / 32
def pbTiles (b : List Byte) : Nat := pbCols b * pbRows b
/-- Surface record a of a pass block. -/
def pbSurf (b : List Byte) (a : Nat) : List Byte := sub b (64 + 64 * a) 64
/-- CLEARVAL of a surface record. -/
def surfClear (r : List Byte) : List Nat := (List.range 4).map (fun i => u32 r (24 + 4 * i))

/-- Attachments of a step: colour 0 to NCOL − 1, then depth. -/
def passAtts (d : List Byte) : List Nat := List.range (u8 d 5 + b2n (u8 d 6 != 0))

/-- What the stages of a running pass work with: its context, job, issuing cluster, step, pass block, and the shader and
state table. -/
structure PassEnv where
  rctx : Nat
  job : Nat
  tenant : Nat
  cl : Nat
  desc : List Byte
  blk : List Byte
  tbl : List Byte
  deriving DecidableEq, Repr

def PassEnv.samples (e : PassEnv) : Nat := u8 e.desc 4
def PassEnv.ncol (e : PassEnv) : Nat := u8 e.desc 5

/-! ## Coverage (R268) -/

/-- A coordinate in 1/256 pixel, to nearest (the tie's side PRESUMED, log 23). -/
def snapCoord (x : Nat) : Int :=
  match fdecode fp32 x with
  | .fin n m e =>
    let v : Nat := if 0 ≤ e + 8 then m * 2 ^ (e + 8).toNat else rne m (-(e + 8)).toNat false
    if n then -(v : Int) else v
  | _ => 0

/-- The corners of a triangle in 1/256 pixel. -/
def triPts (t : List WinVtx) : List (Int × Int) := t.map (fun v => (snapCoord v.x, snapCoord v.y))

/-- Twice the signed area of a triangle. -/
def area2 (a b c : Int × Int) : Int := (b.1 - a.1) * (c.2 - a.2) - (b.2 - a.2) * (c.1 - a.1)

/-- A point on the inner side of an edge, or on a top or left edge (y grows downwards). -/
def edgeIn (a b p : Int × Int) : Bool :=
  let e := area2 a b p
  decide (0 < e) || (e == 0 && ((b.2 == a.2 && decide (a.1 < b.1)) || decide (b.2 < a.2)))

/-- A triangle covers a point: the top-left rule. -/
def covers (t : List WinVtx) (p : Int × Int) : Bool :=
  match triPts t with
  | [a, b, c] =>
    if 0 < area2 a b c then edgeIn a b p && edgeIn b c p && edgeIn c a p
    else if area2 a b c < 0 then edgeIn a c p && edgeIn c b p && edgeIn b a p
    else false
  | _ => false

def hasArea (t : List WinVtx) : Bool :=
  match triPts t with
  | [a, b, c] => area2 a b c != 0
  | _ => false

/-- Sample positions within a pixel, in 1/256 pixel. -/
def sampleAt (samples k : Nat) : Int × Int :=
  if samples = 4 then
    match k with
    | 0 => (128 + 32, 128 + 96)
    | 1 => (128 - 32, 128 - 96)
    | 2 => (128 + 96, 128 - 32)
    | _ => (128 - 96, 128 + 32)
  else (128, 128)

/-- The samples of a pixel that a triangle covers. -/
def coveredSamples (samples : Nat) (t : List WinVtx) (x y : Nat) : List Nat :=
  (List.range samples).filter (fun k =>
    covers t ((256 * x : Nat) + (sampleAt samples k).1, (256 * y : Nat) + (sampleAt samples k).2))

/-- Screen tiles that the bounding box of some points overlaps, row-major. -/
def boxTiles (b : List Byte) (pts : List (Int × Int)) : List Nat :=
  match pts with
  | [] => []
  | q :: rest =>
    let lo := fun (f : Int × Int → Int) => rest.foldl (fun a p => min a (f p)) (f q)
    let hi := fun (f : Int × Int → Int) => rest.foldl (fun a p => max a (f p)) (f q)
    let on := fun (f : Int × Int → Int) (i : Nat) => decide (lo f / 8192 ≤ (i : Int)) && decide ((i : Int) ≤ hi f / 8192)
    (List.range (pbRows b)).flatMap (fun y => (List.range (pbCols b)).filterMap (fun x =>
      if on Prod.fst x && on Prod.snd y then some (y * pbCols b + x) else none))

/-! ## Vertices and primitives (R268, stages 1 to 3) -/

/-- The vertices of each primitive of a topology (Table 5 of chapter 10; every second triangle of a strip has its
first two vertices exchanged, PRESUMED, log 23). -/
def assemble (topo : Nat) (l : List Vtx) : List (List Vtx) :=
  let group := fun n => (List.range (l.length / n)).map (fun i => (l.drop (n * i)).take n)
  match topo with
  | 0 => group 3
  | 1 => (List.range (l.length - 2)).map (fun i =>
      match (l.drop i).take 3 with
      | [a, b, c] => if i % 2 = 0 then [a, b, c] else [b, a, c]
      | x => x)
  | 2 => group 2
  | _ => group 1

/-- Shade one vertex: what its shader names of the vertex and constant block, read as work of the job. -/
def shadeVertex (e : PassEnv) (r : List Byte) (inst v : Nat) (s : State) : Vtx × State :=
  let b := (Config.vertexFetch e.tbl (u8 r 1) v inst).foldl (fun (a : List Byte × State) x =>
    let q := cdRead e.job e.cl (u64 r 24 + x.1) x.2 a.2
    (a.1 ++ q.1, q.2)) ([], s)
  (Config.vertexShade e.tbl (u8 r 1) (u8 e.desc 7) v inst b.1, b.2)

/-- The vertex numbers of a draw: from the index buffer, or counted from FIRST. -/
def drawIndices (e : PassEnv) (r : List Byte) (s : State) : List Nat × State :=
  if u64 r 16 = 0 then ((List.range (u32 r 8)).map (· + u32 r 4), s)
  else
    let q := cdRead e.job e.cl (u64 r 16 + 4 * u32 r 4) (4 * u32 r 8) s
    ((List.range (u32 r 8)).map (fun i => u32 q.1 (4 * i)), q.2)

/-- A primitive after setup: none where culling, clipping or a zero area leaves nothing of it. -/
def setupPrim (e : PassEnv) (r : List Byte) (p : List Vtx) : Option RPrim :=
  let tris := (Config.setup e.tbl (u16 r 2) (pbWidth e.blk) (pbHeight e.blk) p).filter hasArea
  if tris.isEmpty then none
  else some ⟨u8 r 1, u16 r 2, tris, boxTiles e.blk (tris.flatMap triPts)⟩

/-- A primitive has a position that is not finite. -/
def nonfinPrim (p : List Vtx) : Bool := p.any (fun v => v.pos.any fnonfin)

/-- The primitives of one draw record in sequence order, and how many had a position that is not finite. -/
def drawPrims (e : PassEnv) (r : List Byte) (s : State) : List RPrim × Nat × State :=
  let ix := drawIndices e r s
  (List.range (u32 r 12)).foldl (fun (a : List RPrim × Nat × State) inst =>
    let vs := ix.1.foldl (fun (b : List Vtx × State) v =>
      let q := shadeVertex e r inst v b.2
      (b.1 ++ [q.1], q.2)) ([], a.2.2)
    let ps := assemble (u8 r 0) vs.1
    (a.1 ++ (ps.filter (fun p => !nonfinPrim p)).filterMap (setupPrim e r),
      a.2.1 + (ps.filter nonfinPrim).length, vs.2)) ([], 0, ix.2)

/-! ## Binning and partial flush (R268, R271) -/

/-- The binner: bytes of the pool in use, entries by screen tile, primitives of this phase and of each phase before a
flush, peak use. -/
structure Binner where
  used : Nat
  lists : Map Nat
  cur : List RPrim
  done : List (List RPrim)
  peak : Nat
  deriving DecidableEq, Repr

/-- Bytes of a primitive record (NVARY varyings). -/
def primRec (nvary : Nat) : Nat := roundup (64 + 16 * nvary) 64

/-- Chunks of 256 bytes that the lists of some tiles need for one more entry each. -/
def newChunks (m : Map Nat) (ts : List Nat) : Nat := (ts.filter (fun t => m.getD t 0 % 32 == 0)).length

/-- Put one primitive into the pool; where it does not fit, a partial flush ends the phase first. -/
def binPrim (pool rec_ : Nat) (n : Binner) (p : RPrim) : Binner :=
  let need := fun (m : Map Nat) => rec_ + 256 * newChunks m p.tiles
  let n := if n.used + need n.lists ≤ pool then n
    else { n with used := 0, lists := Map.empty, cur := [], done := n.done ++ [n.cur] }
  let used := n.used + need n.lists
  { n with
    used := used, peak := max n.peak used, cur := n.cur ++ [p],
    lists := p.tiles.foldl (fun m t => m.set t (m.getD t 0 + 1)) n.lists }

/-- Bin every primitive of a pass in sequence order. -/
def binAll (pool rec_ : Nat) (ps : List RPrim) : Binner := ps.foldl (binPrim pool rec_) ⟨0, Map.empty, [], [], 0⟩

/-! ## Reads and writes of the pass's own surfaces -/

/-- A range lies under a lock of another context. -/
def lockedByOthers (s : State) (rctx a n : Nat) : Bool :=
  s.rctxs.any (fun k c => k != rctx && c.locks.any (fun l => overlaps a n l.1 l.2))

/-- A read of an own surface, as work of the job (R202, R206). -/
def rasRead (e : PassEnv) (a n : Nat) (s : State) : List Byte × State :=
  if (s.jobs.get? e.job).isNone then (zeros n, s)
  else match accessCheck s (accTenant s e.tenant) a n with
    | 0 =>
      if poisoned s a n then (zeros n, endJob e.job FAULT 0x0400 0 s)
      else if lockedByOthers s e.rctx a n then undefBytes n s
      else (dramRead s a n, s)
    | r => (zeros n, violate (accTenant s e.tenant) false r a s)

/-- A write of an own surface; one that falls under a lock of another context is discarded and stops the job (R274). -/
def rasWrite (e : PassEnv) (a : Nat) (bs : List Byte) (s : State) : State :=
  if (s.jobs.get? e.job).isNone then s
  else match accessCheck s (accTenant s e.tenant) a bs.length with
    | 0 =>
      if lockedByOthers s e.rctx a bs.length then endJob e.job FAULT 0x0700 0 (markRtLock s)
      else dramWrite a bs s
    | r => violate (accTenant s e.tenant) true r a s

/-- Rows of a screen tile inside the render area: row within the tile, address, samples in the row. -/
def tileRows (b : List Byte) (base pitch bps ns tile : Nat) : List (Nat × Nat × Nat) :=
  let x := tile % pbCols b * 32
  let y := tile / pbCols b * 32
  (List.range (min 32 (pbHeight b - y))).map (fun r =>
    (r, base + (y + r) * pitch + x * ns * bps, min 32 (pbWidth b - x) * ns))

/-- Sample codes of one row. -/
def rowCodes (bps n : Nat) (bs : List Byte) : List Nat := (List.range n).map (fun i => fieldAt bs (i * bps) bps)

/-- The sample codes of a tile as a surface holds them, row by row, 32 × ns in a row; outside the render area 0. -/
def readTile (e : PassEnv) (base pitch bps ns tile : Nat) (s : State) : List Nat × State :=
  let r := (tileRows e.blk base pitch bps ns tile).foldl (fun (a : List Nat × State) t =>
    let q := rasRead e t.2.1 (t.2.2 * bps) a.2
    (a.1 ++ rowCodes bps t.2.2 q.1 ++ List.replicate (32 * ns - t.2.2) 0, q.2)) ([], s)
  (r.1 ++ List.replicate (1024 * ns - r.1.length) 0, r.2)

/-- Write every pixel of a tile. -/
def writeTile (e : PassEnv) (base pitch bps ns tile : Nat) (codes : List Nat) (s : State) : State :=
  (tileRows e.blk base pitch bps ns tile).foldl (fun s t =>
    rasWrite e t.2.1 (((codes.drop (t.1 * 32 * ns)).take t.2.2).flatMap (leBytes bps)) s) s

/-- A tile's clear flag; 0 where the surface has none (R273). -/
def readFlag (e : PassEnv) (r : List Byte) (tile : Nat) (s : State) : Bool × State :=
  if u8 r 15 == 1 then
    let q := rasRead e (u64 r 16 + tile / 8) 1 s
    (bit (leNat q.1) (tile % 8), q.2)
  else (false, s)

/-- Set or reset a tile's clear flag. -/
def setFlag (e : PassEnv) (r : List Byte) (tile : Nat) (v : Bool) (s : State) : State :=
  if u8 r 15 == 1 then
    let q := rasRead e (u64 r 16 + tile / 8) 1 s
    rasWrite e (u64 r 16 + tile / 8) (leBytes 1 (setBit (leNat q.1) (tile % 8) v)) q.2
  else s

/-! ## Loads and stores (R268 stages 5 and 6, R271, R273) -/

/-- A surface's samples as stored: with 4 samples at MSBASE, else at BASE. -/
def storedTile (e : PassEnv) (r : List Byte) (tile : Nat) (s : State) : List Nat × State :=
  let bps := fmtBytes (u8 r 12)
  if e.samples = 4 then readTile e (u64 r 40) (4 * u32 r 8) bps 4 tile s
  else readTile e (u64 r 0) (u32 r 8) bps 1 tile s

/-- Load one attachment of a tile into tile memory: from its stored contents where an earlier phase rendered it, else by
its LOAD op, where a tile whose clear flag is set has CLEARVAL. -/
def loadAtt (e : PassEnv) (earlier : Bool) (tile a : Nat) (s : State) : List Nat × State :=
  let r := pbSurf e.blk a
  let n := 1024 * e.samples
  if earlier then storedTile e r tile s
  else if u8 r 13 = 1 then (List.replicate n (clearCode (u8 r 12) (surfClear r)), s)
  else if u8 r 13 = 2 then
    let q := undefBytes (n * fmtBytes (u8 r 12)) s
    (rowCodes (fmtBytes (u8 r 12)) n q.1, q.2)
  else
    let f := readFlag e r tile s
    if f.1 then (List.replicate n (clearCode (u8 r 12) (surfClear r)), f.2) else storedTile e r tile f.2

/-- The pixels of a tile, each the average of its four samples. -/
def resolveTile (fmt : Nat) (codes : List Nat) : List Nat :=
  (List.range 1024).map (fun i => resolvePix fmt ((codes.drop (4 * i)).take 4))

/-- Store one attachment of a tile: in full, or by its STORE op; its clear flag is reset. -/
def storeAtt (e : PassEnv) (full : Bool) (tile : Nat) (s : State) (x : Nat × List Nat) : State :=
  let r := pbSurf e.blk x.1
  let bps := fmtBytes (u8 r 12)
  let keep := u8 r 14 == 0 || full
  if keep then
    let s := setFlag e r tile false s
    if e.samples = 4 then writeTile e (u64 r 40) (4 * u32 r 8) bps 4 tile x.2 s
    else writeTile e (u64 r 0) (u32 r 8) bps 1 tile x.2 s
  else if u8 r 14 == 2 then
    writeTile e (u64 r 0) (u32 r 8) bps 1 tile (resolveTile (u8 r 12) x.2) (setFlag e r tile false s)
  else s

/-- What an attachment of a tile that no phase rendered gets: its LOAD op and its STORE op; of a fast clear only the
flag. -/
def untouchedAtt (e : PassEnv) (tile : Nat) (s : State) (a : Nat) : State :=
  let r := pbSurf e.blk a
  if u8 r 13 == 1 && u8 r 15 == 1 then setFlag e r tile true s
  else
    let q := loadAtt e false tile a s
    storeAtt e false tile q.2 (a, q.1)

/-- At the pass end, RESOLVE of a tile that was rendered before a flush and not after the last. -/
def lateResolve (e : PassEnv) (tile : Nat) (s : State) (a : Nat) : State :=
  let r := pbSurf e.blk a
  if u8 r 14 == 2 then
    let q := storedTile e r tile s
    storeAtt e false tile q.2 (a, q.1)
  else s

/-! ## Textures (R273, R276) -/

/-- The value of a FALLBACK. -/
def fallbackVal (t : TexSample) : List Nat :=
  match t.fallback with
  | 0 => [f32zero, f32zero, f32zero, f32zero]
  | 1 => [f32zero, f32zero, f32zero, f32one]
  | 2 => [f32one, f32one, f32one, f32one]
  | _ => t.const

/-- Whether a texel's block is resident, by the map as it stands at the fetch. -/
def texResident (e : PassEnv) (x : Texel) (s : State) : Bool × State :=
  match x.block with
  | none => (true, s)
  | some (map, blk) =>
    let q := cdRead e.job e.cl (map + blk / 8) 1 s
    (bit (leNat q.1) (blk % 8), q.2)

/-- A texel that is fetched: CLEARVAL where its tile's flag is set, else as stored. -/
def texFetch (e : PassEnv) (x : Texel) (s : State) : List Nat × State :=
  let f := match x.clear with
    | none => (false, s)
    | some (flags, tile, _) =>
      let q := cdRead e.job e.cl (flags + tile / 8) 1 s
      (bit (leNat q.1) (tile % 8), q.2)
  if f.1 then ((x.clear.map (·.2.2)).getD [], f.2)
  else
    let q := cdRead e.job e.cl x.addr (fmtBytes x.fmt) f.2
    (decodePix x.fmt (leNat q.1), q.2)

/-- Samples that used fallback texels in a cluster (R276). -/
def addNonres (cl n : Nat) (s : State) : State :=
  if n = 0 then s
  else modCl cl (fun k => { k with nonres := satAdd 0xFFFFFFFF k.nonres n }) { s with ras := { s.ras with nonres := true } }

/-- A sample by a cluster's texture unit: its filtered value and its non-resident code. -/
def texSample (e : PassEnv) (cl : Nat) (t : TexSample) (s : State) : (List Nat × Bool) × State :=
  let r := t.texels.foldl (fun (a : List (List Nat) × Bool × State) x =>
    let h := texResident e x a.2.2
    if h.1 then
      let q := texFetch e x h.2
      (a.1 ++ [q.1], a.2.1, q.2)
    else (a.1 ++ [fallbackVal t], true, h.2)) ([], false, s)
  ((Config.texFilter t r.1, r.2.1), addNonres cl (b2n r.2.1) r.2.2)

/-! ## Fragments (R268 stage 5, R269) -/

/-- Tile memory: for each attachment the sample codes of 32 × 32 pixels, row by row. -/
abbrev TileMem := List (List Nat)

def tmGet (tm : TileMem) (a i : Nat) : Nat := ((tm[a]?.getD [])[i]?).getD 0
def tmSet (tm : TileMem) (a i v : Nat) : TileMem := tm.set a ((tm[a]?.getD []).set i v)

/-- Place of a sample in tile memory. -/
def tmIdx (e : PassEnv) (x y k : Nat) : Nat := (y % 32 * 32 + x % 32) * e.samples + k

/-- The depth and stencil test of some samples of a pixel: those that pass, and what the test stores. -/
def testSamples (e : PassEnv) (p : RPrim) (t : List WinVtx) (z : Option Nat) (x y : Nat) (ks : List Nat) (tm : TileMem) :
    List Nat × TileMem :=
  if u8 e.desc 6 = 0 then (ks, tm)
  else ks.foldl (fun (a : List Nat × TileMem) k =>
    let o := sampleAt e.samples k
    let d := z.getD (Config.depthAt t (256 * x + o.1.toNat) (256 * y + o.2.toNat))
    let r := Config.depthTest e.tbl p.fixed (u8 e.desc 6) t d (tmGet a.2 e.ncol (tmIdx e x y k))
    (if r.1 then a.1 ++ [k] else a.1, tmSet a.2 e.ncol (tmIdx e x y k) (r.2 % 2 ^ 32))) ([], tm)

/-- Conversion flags of a cluster (R89, R92): a finite value saturated, values that were not finite. -/
def convFlags (cl : Nat) (sat : Bool) (nf : Nat) (s : State) : State :=
  countNonfin cl nf (if sat then modCl cl (fun c => { c with ocsat := true }) s else s)

/-- Blend a fragment's colours into some samples, in sample order. -/
def blendSamples (e : PassEnv) (p : RPrim) (cl x y : Nat) (ks : List Nat) (cols : List (List Nat)) (a : TileMem × State) :
    TileMem × State :=
  ks.foldl (fun a k => (List.range e.ncol).foldl (fun (a : TileMem × State) att =>
    let f := u8 (pbSurf e.blk att) 12
    let i := tmIdx e x y k
    let r := encodePix f (Config.blend e.tbl p.fixed att (cols[att]?.getD []) (decodePix f (tmGet a.1 att i)))
    (tmSet a.1 att i r.1, convFlags cl r.2.1 r.2.2 a.2)) a) a

/-- Shade a fragment: its colours and depth, none where it is discarded. -/
def shadeFrag (e : PassEnv) (p : RPrim) (cl : Nat) (t : List WinVtx) (x y : Nat) :
    Nat → List (List Nat × Bool) → State → Option (List (List Nat) × Option Nat) × State
  | 0, _, s => (none, s)
  | n + 1, got, s =>
    match Config.fragStep e.tbl p.shader t x y got with
    | .discard => (none, s)
    | .done c z => (some (c, z), s)
    | .sample q =>
      let r := texSample e cl q s
      shadeFrag e p cl t x y n (got ++ [r.1]) r.2

/-- One pixel of a triangle: coverage, early test where the state allows it, shading, late test, blend. -/
def rasPixel (e : PassEnv) (p : RPrim) (cl : Nat) (t : List WinVtx) (a : TileMem × State) (q : Nat × Nat) :
    TileMem × State :=
  let ks := coveredSamples e.samples t q.1 q.2
  let early := Config.earlyTest e.tbl p.shader p.fixed
  let r1 := if early then testSamples e p t none q.1 q.2 ks a.1 else (ks, a.1)
  if r1.1.isEmpty then (r1.2, a.2)
  else
    match shadeFrag e p cl t q.1 q.2 (Config.fragRounds e.tbl p.shader) [] a.2 with
    | (none, s) => (r1.2, s)
    | (some (cols, z), s) =>
      let r2 := if early then r1 else testSamples e p t z q.1 q.2 r1.1 r1.2
      blendSamples e p cl q.1 q.2 r2.1 cols (r2.2, s)

/-- The pixels of a tile inside the render area and a state's scissor, row by row. -/
def tilePixels (e : PassEnv) (fixed tile : Nat) : List (Nat × Nat) :=
  let c := Config.scissor e.tbl fixed
  (List.range 1024).filterMap (fun i =>
    let x := tile % pbCols e.blk * 32 + i % 32
    let y := tile / pbCols e.blk * 32 + i / 32
    if x < pbWidth e.blk && y < pbHeight e.blk && c.1 ≤ x && x < c.2.1 && c.2.2.1 ≤ y && y < c.2.2.2 then some (x, y)
    else none)

/-- One primitive in a tile. -/
def rasPrim (e : PassEnv) (cl tile : Nat) (a : TileMem × State) (p : RPrim) : TileMem × State :=
  p.tris.foldl (fun a t => (tilePixels e p.fixed tile).foldl (rasPixel e p cl t) a) a

/-- Render one tile in a phase: load, its primitives in list order, store. -/
def renderTile (e : PassEnv) (cl : Nat) (earlier full : Bool) (ps : List RPrim) (s : State) (tile : Nat) : State :=
  let ld := (passAtts e.desc).foldl (fun (a : TileMem × State) i =>
    let q := loadAtt e earlier tile i a.2
    (a.1 ++ [q.1], q.2)) ([], s)
  let r := (ps.filter (fun p => p.tiles.contains tile)).foldl (rasPrim e cl tile) ld
  ((passAtts e.desc).zip r.1).foldl (storeAtt e full tile) r.2

/-- Tiles with a non-empty list, lowest number first. -/
def phaseTiles (e : PassEnv) (ps : List RPrim) : List Nat :=
  (List.range (pbTiles e.blk)).filter (fun t => ps.any (fun p => p.tiles.contains t))

/-- A phase: each tile is taken, lowest number first, by whichever back end of the pass is free (R269). -/
def renderPhase (e : PassEnv) (cls : List Nat) (earlier : List Nat) (full : Bool) (ps : List RPrim) (s : State) : State :=
  (phaseTiles e ps).foldl (fun s t =>
    let f := takeFree s
    renderTile e (cls[Config.freeNat f.1 % max 1 cls.length]?.getD e.cl) (earlier.contains t) full ps f.2 t) s

/-- Every phase in order: all but the last end in a flush, which stores in full (R271, R272). -/
def renderPhases (e : PassEnv) (cls : List Nat) : List Nat → List (List RPrim) → State → State
  | _, [], s => s
  | seen, ps :: rest, s =>
    renderPhases e cls (seen ++ phaseTiles e ps) rest (renderPhase e cls seen (!rest.isEmpty) ps s)

/-- The pass end: tiles that no phase rendered, and those that only phases before a flush did. -/
def finishTiles (e : PassEnv) (phases : List (List RPrim)) (s : State) : State :=
  (List.range (pbTiles e.blk)).foldl (fun s t =>
    let on := fun (l : List (List RPrim)) => l.any (fun ps => (phaseTiles e ps).contains t)
    if !on phases then (passAtts e.desc).foldl (untouchedAtt e t) s
    else if on (phases.drop (phases.length - 1)) then s
    else (passAtts e.desc).foldl (lateResolve e t) s) s

end Sys2Proof.Machine
end

