-- ==== Sys2Proof/Machine/Displays.lean ====
section
/-! DEFINITION. Displays (R278 to R283, R324). -/

namespace Sys2Proof.Machine

open Sys2Proof

/-! ## Displays (R278 to R283) -/

def isPlaneFmt (f : Nat) : Bool := 1 ≤ f && f ≤ 3

def Disp.off : Disp := ⟨none, [], 0, false, none, none, none, none, 0, false, 0, 0, none, []⟩
def State.disp (s : State) (k : Nat) : Disp := s.disps.getD k Disp.off

/-- Link rate of a lane in kb/s (DisplayPort 1.4a; PRESUMED, log 23). -/
def linkRate (r : Nat) : Nat :=
  match r with
  | 0 => 1620000
  | 1 => 2700000
  | 2 => 5400000
  | _ => 8100000

/-- DISP_CFG within the limits of R278. -/
def dispCfgOk (s : State) (ps : List Byte) : Bool :=
  let lanes := u8 ps 3 % 16
  let bpc := u8 ps 2
  u8 ps 0 < s.nDisp && u8 ps 1 ≤ 7 && (bpc == 8 || bpc == 10 || (bpc == 6 && bit (u8 ps 1) 0))
  && (lanes == 1 || lanes == 2 || lanes == 4) && u8 ps 3 / 16 ≤ 3
  && 25000 ≤ u32 ps 4 && u32 ps 4 ≤ 600000
  && u32 ps 4 * 3 * bpc * 10 ≤ lanes * linkRate (u8 ps 3 / 16) * 8
  && 1 ≤ u16 ps 8 && u16 ps 8 ≤ 3840 && 1 ≤ u16 ps 16 && u16 ps 16 ≤ 2160
  && u8 ps 27 == 0 && zeroAt ps 36 12

/-- The display is TENANT's, or no tenant has or trains it. -/
def dispMine (h : Hdr) (k : Nat) (s : State) : Bool :=
  match (s.disp k).owner with
  | some t => t == h.tenant.toNat
  | none => match (s.disp k).train with
    | some n => n.tenant == h.tenant.toNat
    | none => true

def cDispCfg : Cmd := { Cmd.base with
  opcode := 0x0710, ten := .acts, lenOk := fun ps => ps.length == 48, cpl := some 0,
  stateOk := fun h ps s => tenLive h s && (!dispMine h (u8 ps 0) s || (s.disp (u8 ps 0)).train.isNone)
    && !s.gated 2 (u8 ps 0),
  paramOk := fun h ps s => dispCfgOk s ps && dispMine h (u8 ps 0) s,
  effect := fun tok h ps s =>
    let d := s.disp (u8 ps 0)
    { s with disps := s.disps.set (u8 ps 0) { d with st := 1, train := some ⟨tok, h.tenant.toNat, ps, d.st⟩ } } }

def execDispCfg (h : Hdr) (ps : List Byte) (s : State) : Host.Outcome State Fault Refusal :=
  cDispCfg.exec h ps s

/-- EV_DISPLAY (R283). -/
def evDisplay (k ev : Nat) (s : State) : State :=
  let d := s.disp k
  offer0 0x07F0 (leBytes 1 k ++ leBytes 1 ev ++ leBytes 1 (u8 d.cfg 3 % 16) ++ leBytes 1 (u8 d.cfg 3 / 16)
    ++ leBytes 4 (d.frames % 2 ^ 32)) s

/-- Extent of a plane under a configuration. -/
def planeW (cfg : List Byte) (plane : Nat) : Nat := if plane = 0 then u16 cfg 8 else u16 cfg 32
def planeH (cfg : List Byte) (plane : Nat) : Nat := if plane = 0 then u16 cfg 16 else u16 cfg 34

/-- A surface of a plane lies wholly in its owner's pages (R282). -/
def planeFits (s : State) (t : Nat) (cfg : List Byte) (plane : Nat) (p : Plane) : Bool :=
  isPlaneFmt p.fmt && planeW cfg plane * 4 ≤ p.pitch
    && ownedBy s t p.base ((planeH cfg plane - 1) * p.pitch + planeW cfg plane * 4)

/-- The display after a DISP_CFG has trained its link: of a new owner as reset (R284), of the same owner with the
planes that still fit (R282). -/
def trained (s : State) (d : Disp) (n : Train) : Disp :=
  let keep := fun (pl : Nat) (p : Option Plane) => p.filter (planeFits s n.tenant n.ps pl)
  let d1 := if d.owner == some n.tenant then { d with base := keep 0 d.base, overlay := keep 1 d.overlay }
    else { Disp.off with hpd := d.hpd }
  { d1 with owner := some n.tenant, cfg := n.ps, st := 2, train := none }

/-- Training ends: a DISP_CFG completes, or a lost link is trained again. One that fails leaves the display in the state
it had (log 23). -/
def execDispTrainingDone (disp : Nat) (ok : Bool) (s : State) : Host.Outcome State Fault Refusal :=
  let d := s.disp disp
  match d.train with
  | some n =>
    if ok then
      let s := complete n.tok OK [] { s with disps := s.disps.set disp (trained s d n) }
      .next (if n.prev == 3 then evDisplay disp 4 s else s)
    else .next (untrain disp TIMEOUT s)
  | none =>
    if d.st == 3 && ok then
      .next (evDisplay disp 4 { s with disps := s.disps.set disp { d with st := 2 } })
    else .next s

/-- A display command of TENANT's own display. -/
def ownsDisp (h : Hdr) (k : Nat) (s : State) : Bool :=
  k < s.nDisp && ((s.disp k).owner == some h.tenant.toNat
    || ((s.disp k).train.map (·.tenant)) == some h.tenant.toNat)

def cDispOff : Cmd := { Cmd.base with
  opcode := 0x0711, ten := .acts, states := stQuery, lenOk := fun ps => ps.length == 4,
  paramOk := fun h ps s => ownsDisp h (u8 ps 0) s && zeroAt ps 1 3,
  effect := fun _ _ ps s => dispOff (u8 ps 0) s }

def execDispOff (h : Hdr) (ps : List Byte) (s : State) : Host.Outcome State Fault Refusal :=
  cDispOff.exec h ps s

def flipPlane (ps : List Byte) : Plane := ⟨u64 ps 8, u32 ps 16, u8 ps 20, none⟩

def cDispFlip : Cmd := { Cmd.base with
  opcode := 0x0712, ten := .acts, states := stQuery, lenOk := fun ps => ps.length == 24,
  paramOk := fun h ps s =>
    ownsDisp h (u8 ps 0) s && (s.disp (u8 ps 0)).owner == some h.tenant.toNat && u8 ps 1 ≤ 1
    && zeroAt ps 2 6 && zeroAt ps 21 3
    && planeFits s h.tenant.toNat (s.disp (u8 ps 0)).cfg (u8 ps 1) (flipPlane ps),
  effect := fun _ _ ps s =>
    let f : FlipReq := ⟨u8 ps 0, u8 ps 1, flipPlane ps⟩
    { s with disps := s.disps.set (u8 ps 0) (latchFlip f s.time.ns (s.disp (u8 ps 0))) } }

def execDispFlip (h : Hdr) (ps : List Byte) (s : State) : Host.Outcome State Fault Refusal :=
  cDispFlip.exec h ps s

def cDispStatus : Cmd := { Cmd.base with
  opcode := 0x0713, ten := .asks, states := stQuery, lenOk := fun ps => ps.length == 4, maxReply := 12,
  paramOk := fun h ps s => u8 ps 0 < s.nDisp && dispMine h (u8 ps 0) s && zeroAt ps 1 3,
  data := fun _ ps s =>
    let d := s.disp (u8 ps 0)
    leBytes 1 d.st ++ leBytes 1 (u8 d.cfg 3 % 16) ++ leBytes 1 (u8 d.cfg 3 / 16) ++ [0x00]
      ++ leBytes 4 (d.frames % 2 ^ 32) ++ leBytes 4 (min 0xFFFFFFFF d.underruns) }

def execDispStatus (h : Hdr) (ps : List Byte) (s : State) : Host.Outcome State Fault Refusal :=
  cDispStatus.exec h ps s

/-- A latched flip that is old enough for this blanking, and what stays latched. -/
def flipDue (now : Nat) (cur : Option Plane) (n : Option (Plane × Nat)) : Option Plane × Option (Plane × Nat) :=
  match n with
  | some (p, t) => if t + 10000 ≤ now then (some p, none) else (cur, n)
  | none => (cur, none)

/-- The stored code of a plane's surface at a place: CLEARVAL where the flag of its screen tile is set (R273); zeros
where the owner's attributes do not pass the page (R208). -/
def scanCode (s : State) (t : Nat) (p : Plane) (x y : Nat) : Nat :=
  let c := accTenant s t
  let rd := fun (a n : Nat) => if accessCheck s c a n == 0 then leNat (dramRead s a n) else 0
  let stored := rd (p.base + y * p.pitch + 4 * x) 4
  match p.clear with
  | some f =>
    let tile := y / 32 * f.cols + x / 32
    if bit (rd (f.base + tile / 8) 1) (tile % 8) then clearCode p.fmt f.val else stored
  | none => stored

/-- A component at the link's width. -/
def linkComp (bpc w v : Nat) : Nat := if w = bpc then v else Config.scanDepth w bpc v

/-- R, G and B of a plane at the link's width, and alpha with its width; a plane without a surface shows the border
colour (R279). -/
def planePixel (s : State) (d : Disp) (p : Option Plane) (x y : Nat) : List Nat × Nat × Nat :=
  let bpc := u8 d.cfg 2
  match p with
  | none => ([linkComp bpc 8 (u8 d.cfg 26), linkComp bpc 8 (u8 d.cfg 25), linkComp bpc 8 (u8 d.cfg 24)], 1, 1)
  | some p =>
    let v := scanCode s (d.owner.getD 0) p x y
    let c := (fmtComps p.fmt).map (fun k => (k.2.1, bits v k.1 k.2.1))
    ((c.take 3).map (fun k => linkComp bpc k.1 k.2), if p.fmt = 3 then (1, 1) else c.getD 3 (1, 1))

/-- The overlay over the base plane by its own alpha: 1.0 for the format with 2-bit alpha (R279). -/
def overPixel (b : List Nat) (o : List Nat × Nat × Nat) : List Nat :=
  if o.2.2 = 2 ^ o.2.1 - 1 then o.1
  else if o.2.2 = 0 then b
  else (b.zip o.1).map (fun c => Config.planeBlend o.2.1 o.2.2 c.1 c.2)

/-- The pixel of a frame: the border colour where scanout did not deliver it in time. -/
def framePixel (s : State) (d : Disp) (x y : Nat) : List Nat :=
  let ox := u16 d.cfg 28
  let oy := u16 d.cfg 30
  let isOver := decide (ox ≤ x) && decide (x < ox + u16 d.cfg 32) && decide (oy ≤ y) && decide (y < oy + u16 d.cfg 34)
  if d.under.contains (x, y) then (planePixel s d none x y).1
  else
    let b := (planePixel s d d.base x y).1
    if isOver then overPixel b (planePixel s d d.overlay (x - ox) (y - oy)) else b

/-- The bytes of one pixel as sent: 4, little-endian, at 10 bits per component, 3 at 8 (R324; B lowest, PRESUMED; at 6
bits the manual gives none: log 23). -/
def scanPixel (s : State) (d : Disp) (x y : Nat) : List Byte :=
  match framePixel s d x y, u8 d.cfg 2 with
  | [r, g, b], 10 => leBytes 4 (b + g * 2 ^ 10 + r * 2 ^ 20)
  | [r, g, b], 8 => leBytes 3 (b + g * 2 ^ 8 + r * 2 ^ 16)
  | l, _ => padTo 3 (Config.scan6 l)

/-- The CRC-64 of a region of a frame (R324). -/
def regionCrc (s : State) (d : Disp) (r : DispRect) : Nat :=
  crc64 ((List.range r.h).flatMap (fun j => (List.range r.w).flatMap (fun i => scanPixel s d (r.x + i) (r.y + j))))

/-- A frame of a display is complete: the CRCs of its regions, and the regions of the next frame. -/
def frameCrcs (disp : Nat) (s : State) : State :=
  let k := s.skk
  let crcs := (k.regionsOn.filter (fun n _ => n / 4 == disp)).cells.foldl
    (fun (m : Map Nat) c => m.set c.1 (regionCrc s (s.disp disp) c.2)) k.crcs
  let on := (k.regions.filter (fun n _ => n / 4 == disp)).cells.foldl
    (fun (m : Map DispRect) c => m.set c.1 c.2) k.regionsOn
  { s with skk := { k with crcs := crcs, regionsOn := on } }

/-- The rows of a plane that scanout reads: address and length. -/
def planeRows (cfg : List Byte) (plane : Nat) (p : Plane) : List (Nat × Nat) :=
  (List.range (planeH cfg plane)).map (fun y => (p.base + y * p.pitch, planeW cfg plane * 4))

/-- A read of scanout, in the owning tenant's world, whose check failed in the frame (R208, R279): the tenant faults.
Found when the frame ends (log 23). -/
def scanCheck (disp : Nat) (s : State) : State :=
  let d := s.disp disp
  match d.owner with
  | none => s
  | some t =>
    let c := accTenant s t
    let rows := (match d.base with
      | some p => planeRows d.cfg 0 p
      | none => []) ++ (match d.overlay with
      | some p => planeRows d.cfg 1 p
      | none => [])
    match rows.find? (fun r => accessCheck s c r.1 r.2 != 0) with
    | some r => violate c false (accessCheck s c r.1 r.2) r.1 s
    | none => s

/-- Vertical blanking begins: a frame has been scanned out and due flips are applied (R280). -/
def execVblank (disp : Nat) (s : State) : Host.Outcome State Fault Refusal :=
  let d := s.disp disp
  if d.st != 2 then .next s
  else
    let s := frameCrcs disp s
    let b := flipDue s.time.ns d.base d.nbase
    let o := flipDue s.time.ns d.overlay d.noverlay
    let d' := { d with
      frames := (d.frames + 1) % 2 ^ 32, under := [] }
    let s := scanCheck disp { s with disps := s.disps.set disp d' }
    let d' := s.disp disp
    if d'.st != 2 then .next s
    else .next { s with disps := s.disps.set disp { d' with
      base := b.1, nbase := b.2, overlay := o.1, noverlay := o.2 } }

/-- Pixels of the active area that scanout cannot deliver in time show the border colour; a frame with one counts once
(R279, R283). -/
def execUnderrun (disp : Nat) (pixels : List (Nat × Nat)) (s : State) : Host.Outcome State Fault Refusal :=
  let d := s.disp disp
  let px := pixels.filter (fun q => q.1 < planeW d.cfg 0 && q.2 < planeH d.cfg 0)
  if d.st != 2 || px.isEmpty then .next s
  else
    let s := { s with disps := s.disps.set disp { d with
      underrun := true, under := d.under ++ px,
      underruns := if d.under.isEmpty then satAdd 0xFFFFFFFF d.underruns 1 else d.underruns } }
    .next (if d.underrun then s else evDisplay disp 5 s)

def execHpdChange (disp : Nat) (plugged : Bool) (s : State) : Host.Outcome State Fault Refusal :=
  let d := s.disp disp
  if s.nDisp ≤ disp || d.hpd == plugged then .next s
  else .next (evDisplay disp (if plugged then 1 else 2)
    { s with disps := s.disps.set disp { d with hpd := plugged } })

/-- A link is lost; while a DISP_CFG trains it, the state that a failed training goes back to is link lost. -/
def execDispLinkLoss (disp : Nat) (s : State) : Host.Outcome State Fault Refusal :=
  let d := s.disp disp
  match d.train with
  | some n =>
    if n.prev != 2 then .next s
    else .next (evDisplay disp 3 { s with disps := s.disps.set disp { d with train := some { n with prev := 3 } } })
  | none =>
    if d.st != 2 then .next s
    else .next (evDisplay disp 3 { s with disps := s.disps.set disp { d with st := 3 } })

end Sys2Proof.Machine
end

