-- ==== Sys2Proof/Machine/ClockMap.lean ====
section
/-! DEFINITION. Clock maps (R244 to R247): sensor time, the least-squares fit in FP64, the map state and the
table of frozen units. -/

namespace Sys2Proof.Machine

/-- A map that no FUS_MAP_CFG has set. -/
def ClockMap.fresh : ClockMap :=
  ⟨false, 0, 0, 0, 0, 1, 0, 0, 16, 200, 0, [], none, 0, 0, 0, none, []⟩

def State.map (s : State) (k : Nat) : ClockMap := s.maps.getD k ClockMap.fresh
def modMapK (k : Nat) (f : ClockMap → ClockMap) (s : State) : State :=
  { s with maps := s.maps.set k (f (s.map k)) }

/-- Floor of a ratio of integers with a positive divisor, and rounding to nearest, ties upwards. -/
def floorDiv (a : Int) (d : Nat) : Int := a / (d : Int)
def roundUpHalf (a : Int) (d : Nat) : Int := (2 * a + (d : Int)) / (2 * (d : Int))

/-- The field of a packet's data that holds the sensor time, none where the packet lacks it (R244). -/
def mapField (m : ClockMap) (data : List Byte) : Option Nat :=
  let n := if bit m.flags 1 then 8 else 4
  if data.length < m.off + n then none
  else
    let f := sub data m.off n
    some (leNat (if bit m.flags 0 then f.reverse else f))

/-- Unwrapped ticks: a 4-byte field is taken as the nearest value to the previous unit's (DEDUCED). -/
def unwrap (m : ClockMap) (raw : Nat) : Int :=
  if bit m.flags 1 then raw
  else match m.prev with
    | none => raw
    | some p => p + asInt 32 (ofInt 32 ((raw : Int) - p))

/-! ### The fit, in FP64 (R245) -/

def dadd (a b : Nat) : Nat := fenc fp64 ((fdecode fp64 a).add (fdecode fp64 b))
def dsub (a b : Nat) : Nat := fenc fp64 ((fdecode fp64 a).add (fdecode fp64 b).neg)
def dmul (a b : Nat) : Nat := fenc fp64 ((fdecode fp64 a).mul (fdecode fp64 b))
def ddiv (a b : Nat) : Nat := fdivIn fp64 (fdecode fp64 a) (fdecode fp64 b)
/-- The FP64 code nearest to n ÷ d. -/
def dofRat (n : Int) (d : Nat) : Nat := fdivIn fp64 (FVal.ofInt n 0 false) (.fin false d 0)
def dsum (l : List Nat) : Nat := l.foldl dadd (dofRat 0 1)
def dfinite (a : Nat) : Bool := (fdecode fp64 a).isFin

/-- A finite FP64 code as a multiple of 2^-1100, exact. -/
def dfix (a : Nat) : Int :=
  match fdecode fp64 a with
  | .fin n m e => (if n then -1 else 1) * ((m : Int) * (2 ^ (e + 1100).toNat : Nat))
  | _ => 0

/-- Sensor time in ps and device time in 2^-16 ns as FP64 codes in ns. -/
def sNs (s : Int) : Nat := dofRat s 1000
def dNs (d : Int) : Nat := dofRat d 65536

/-- The line of slope b through the point (x, y), its intercept referred back to s = 0 (R245). -/
def lineAt (b x y : Nat) : Fit := ⟨dsub y (dmul b x), dsub b (dofRat 1 1)⟩

/-- Least squares of d on s over the kept pairs in FP64, s and d taken relative to the newest pair (R245). The manual
fixes neither the formula nor the order of its operations: the model sums from the newest pair on and takes the normal
equations (DESIGN CHOICE, log 21). None where they are singular in FP64. -/
def fitPairs : List (Int × Int) → Option Fit
  | (s0, d0) :: t =>
    let l := (s0, d0) :: t
    let n := dofRat l.length 1
    let xs := l.map (fun c => sNs (c.1 - s0))
    let ys := l.map (fun c => dNs (c.2 - d0))
    let sx := dsum xs
    let sy := dsum ys
    let sxx := dsum (xs.map (fun x => dmul x x))
    let sxy := dsum ((xs.zip ys).map (fun c => dmul c.1 c.2))
    let b := ddiv (dsub (dmul n sxy) (dmul sx sy)) (dsub (dmul n sxx) (dmul sx sx))
    let c := ddiv (dsub sy (dmul b sx)) n
    let f := lineAt b (sNs s0) (dadd (dNs d0) c)
    if dfinite f.a && dfinite f.r then some f else none
  | [] => none

/-- Pairs that fix no line (a single one): the line goes through the newest with a free slope (log 9). -/
def fitFree (f : Nat) : List (Int × Int) → Option Fit
  | (s0, d0) :: _ => some (lineAt (Config.freeNat f % 2 ^ 64) (sNs s0) (dNs d0))
  | [] => none

/-- The fit after a new pair. -/
def refit (free : Nat) (l : List (Int × Int)) : Option Fit :=
  if l.length < 2 then fitFree free l
  else match fitPairs l with
    | some f => some f
    | none => fitFree free l

/-- Device time of a sensor time in ps, exact from a and r, in multiples of 2^-1100 ps. -/
def Fit.at (f : Fit) (ps : Int) : Int := dfix f.a * 1000 + ((2 ^ 1100 : Nat) + dfix f.r) * ps

/-- The residual of a pair, in multiples of 2^-1100 ps. -/
def Fit.resid (f : Fit) (c : Int × Int) : Nat := (c.2 * (1000 * 2 ^ 1084 : Nat) - f.at c.1).natAbs

/-- MAPERR in ns: the largest residual, rounded down. -/
def Fit.err (f : Fit) (l : List (Int × Int)) : Nat := maxOf (l.map f.resid) / (1000 * 2 ^ 1100)

/-- The largest residual is at most `lim` ns, and r at most `ppm` parts in 10^6 (R246). -/
def Fit.good (f : Fit) (l : List (Int × Int)) (lim ppm : Nat) : Bool :=
  l.all (fun c => f.resid c ≤ lim * (1000 * 2 ^ 1100)) && (dfix f.r).natAbs * 1000000 ≤ ppm * 2 ^ 1100

/-- r in 2^-16 ppm and a in ns, rounded down. -/
def Fit.r16 (f : Fit) : Int := floorDiv (dfix f.r * 65536000000) (2 ^ 1100)
def Fit.aNs (f : Fit) : Int := floorDiv (dfix f.a) (2 ^ 1100)

/-- The time of validity of a unit (R244); free where no fit is in force (log 9). -/
def tovOf (m : ClockMap) (u : UnitSt) (ticks : Option Int) (free : Nat) : Int :=
  if m.src = 0 then roundUpHalf ((u.tstart : Int) + m.ofsNs * 65536) 65536
  else match m.fit, ticks with
    | some f, some t =>
      roundUpHalf (f.at (t * m.tickPs) + m.ofsNs * (1000 * 2 ^ 1100 : Nat)) (1000 * 2 ^ 1100)
    | _, _ => Config.freeNat free

/-- The next state of a map whose fit stands after a unit (R246). -/
def nextMst (m : ClockMap) (cleared : Bool) : Nat × Nat :=
  let ok := match m.fit with
    | some f => f.good m.pairs m.errNs m.limPpm
    | none => false
  let good := if ok then m.good + 1 else 0
  if cleared || m.mst = 0 then (1, good)
  else if m.mst = 1 then (if ok && 4 ≤ m.pairs.length then 2 else 1, good)
  else if m.mst = 2 then (if ok || m.fit.isNone then 2 else 3, good)
  else (if 16 ≤ good then 2 else 3, good)

/-- A map's new state, with EV_FUSION (R246, R263). -/
def setMst (k n uno : Nat) (s : State) : State :=
  let m := s.map k
  if m.mst == n then s
  else evFusion 0xFF 3 k n (uno % 2 ^ 32)
    (modMapK k (fun m => { m with
      mst := n, unsyncs := if n = 3 then satAdd 0xFFFF m.unsyncs 1 else m.unsyncs }) s)

/-- A unit meets the map: pairs, fit, state (R245, R246). One that did not end OK gives no pair, and
clears the pairs as every unit does (log 21). -/
def mapUnit (k : Nat) (u : UnitSt) (ok : Bool) (s : State) : State :=
  let m := s.map k
  if m.src = 0 then setMst k 2 u.no s
  else
    let ticks := u.field.map (unwrap m)
    let late := match ticks, m.prev with
      | some t, some p => decide (t ≤ p)
      | _, _ => false
    let clear := u.resync || late
    let base := if clear then [] else m.pairs
    let new := match ticks with
      | some t => if u.noref || u.holdover || !ok then none else some (t * (m.tickPs : Int), (u.tstart : Int))
      | none => none
    let pairs := match new with
      | some c => (c :: base).take m.nfit
      | none => base
    let fr := takeFree s
    let fit := if new.isSome then refit fr.1 pairs else m.fit
    let m1 := { m with
      pairs := pairs, fit := fit, prev := (match ticks with | some t => some t | none => m.prev),
      maperr := match fit with
        | some f => f.err pairs
        | none => 0 }
    let nx := nextMst m1 clear
    setMst k nx.1 u.no (modMapK k (fun _ => { m1 with good := nx.2 }) fr.2)

/-- A unit's sensor time meets the map; `keep` says that it has a descriptor: then its tov and map state are frozen
(R247). A TRUNCATED unit is recorded as UNSYNCHRONISED. -/
def recordUnit (k : Nat) (u : UnitSt) (ok keep : Bool) (s : State) : State :=
  if !(s.map k).cfg then s
  else
    let t := u.field.map (unwrap (s.map k))
    let s := mapUnit k u ok s
    if !keep then s
    else
      let fr := takeFree s
      let m := fr.2.map k
      let r : UnitRec := ⟨u.no, tovOf m u t fr.1, if ok then m.mst else 3⟩
      modMapK k (fun m => { m with table := (r :: m.table).take 64 }) fr.2

end Sys2Proof.Machine
end

