-- ==== Sys2Proof/Machine/FusionCall.lean ====
section
/-! DEFINITION. What a fusion call computes: inputs and exclusion (R250), projection and placement
(R249, R251, R252), contested cells (R253), refinement (R254, R255), tracks (R257 to R259) and the
outputs (R263). All values are FP32 codes. -/

namespace Sys2Proof.Machine

open Sys2Proof

/-! ## Inputs (R250) -/

/-- One input record of a frame block with what the call knows of it. -/
structure FusIn where
  i : Nat
  rec_ : List Byte
  cfg : FusSensor
  corr : FusCorr
  tov : Int
  deriving DecidableEq, Repr

/-- Record i of a frame block, and the record of a sensor. -/
def fbRec (fb : List Byte) (i : Nat) : List Byte := sub fb (64 + 32 * i) 32
def fbNin (fb : List Byte) : Nat := u8 fb 20
def fbRecOf (fb : List Byte) (sensor : Nat) : Option (List Byte) :=
  ((List.range (fbNin fb)).map (fbRec fb)).find? (fun r => u8 r 0 == sensor)

/-- FH, FW or NPTS in the range of a camera's or a point sensor's record (Table 4 of chapter 09). -/
def camRecOk (r : List Byte) : Bool :=
  1 ≤ u16 r 2 && u16 r 2 ≤ 1024 && 1 ≤ u16 r 24 && u16 r 24 ≤ 1024 && u16 r 26 == 0
def ptsRecOk (r : List Byte) : Bool := u16 r 2 == 0 && 1 ≤ u32 r 24 && u32 r 24 ≤ 1048576

/-- An input record keeps Table 4 of chapter 09; a sensor that the context has not configured has no KIND, and its
record must keep the table for one of them. -/
def fbRecOk (c : FusCtx) (r : List Byte) : Bool :=
  u8 r 0 < 32 && u8 r 1 == 0 && zeroAt r 28 4 &&
  (match c.sensors.get? (u8 r 0) with
   | none => camRecOk r || ptsRecOk r
   | some x => if x.kind == 0 then camRecOk r else ptsRecOk r)

/-- A frame block that stops its job is one with NIN out of range or a record outside Table 4. -/
def fbOk (c : FusCtx) (fb : List Byte) : Bool :=
  let rs := (List.range (fbNin fb)).map (fbRec fb)
  1 ≤ fbNin fb && fbNin fb ≤ 32 && rs.all (fbRecOk c)
    && (rs.map (fun r => u8 r 0)).eraseDups.length == rs.length

/-- The frozen record of a unit of a stream (R247). -/
def unitRec (s : State) (stream no : Nat) : Option UnitRec :=
  (s.map stream).table.find? (fun r => r.no == no)

/-- Exclusion codes 1 to 4, 6 and 7 of a sensor, or the frozen tov (R250, R263). -/
def excl14 (s : State) (c : FusCtx) (fb : List Byte) (i : Nat) : Nat × Int :=
  match c.sensors.get? i with
  | none => (7, 0)
  | some x =>
    if !bit x.flags 0 then (1, 0)
    else match fbRecOf fb i with
      | none => (6, 0)
      | some r =>
        match unitRec s x.stream (u32 r 4) with
        | none => (4, 0)
        | some u => (if u.mst == 3 then 2 else if u.mst == 1 then 3 else 0, u.tov)

/-- TV of the call (R250): from the frame block, or the latest tov of the inputs that pass; free where
none passes (log 9). -/
def callTv (s : State) (c : FusCtx) (d fb : List Byte) : Nat × State :=
  if bit (u8 d 1) 0 then
    let ts := ((List.range 32).map (excl14 s c fb)).filter (fun e => e.1 == 0)
    match ts with
    | [] =>
      let f := takeFree s
      (Config.freeNat f.1 % 2 ^ 64, f.2)
    | e :: t => ((t.foldl (fun a x => max a x.2) e.2).toNat, s)
  else (u64 fb 0, s)

/-- The exclusion code and tov of a sensor, STALE included. -/
def exclOf (s : State) (c : FusCtx) (fb : List Byte) (tv i : Nat) : Nat × Int :=
  let e := excl14 s c fb i
  match c.sensors.get? i with
  | some x => if e.1 == 0 && ((tv : Int) - e.2).natAbs > x.maxAge * 1000 then (5, e.2) else e
  | none => e

/-- The inputs that a call includes, in increasing sensor index. -/
def fusInputs (s : State) (c : FusCtx) (fb : List Byte) (tv : Nat) : List FusIn :=
  (List.range 32).filterMap (fun i =>
    match c.sensors.get? i, fbRecOf fb i with
    | some x, some r =>
      let e := exclOf s c fb tv i
      if e.1 == 0 then some ⟨i, r, x, c.st.corr.getD i FusCorr.zero, e.2⟩ else none
    | _, _ => none)

/-! ## Blocks of features (R93 to R96) -/

/-- A ZQ8, G = 64 stream: its data and scale addresses and number of groups. -/
structure ZqSrc where
  data : Nat
  scale : Nat
  n : Nat
  deriving DecidableEq, Repr

def zqSrc (data n : Nat) : ZqSrc := ⟨data, Config.scaleStream data n, n⟩
def ZqSrc.blocks (z : ZqSrc) : Nat := (z.n + 47) / 48
def ZqSrc.dataBytes (z : ZqSrc) : Nat := (z.blocks - 1) * 3136 + 64 + blockGroups z.n (z.blocks - 1) * 64

/-- A ZQ stream as read: its data bytes and its scale bytes. -/
structure ZqBuf where
  n : Nat
  data : List Byte
  scale : List Byte
  deriving DecidableEq, Repr

/-- Read both streams of a tensor. -/
def zqRead (job cl : Nat) (z : ZqSrc) (s : State) : ZqBuf × State :=
  let a := cdRead job cl z.data z.dataBytes s
  let b := cdRead job cl z.scale (z.blocks * 64) a.2
  (⟨z.n, a.1, b.1⟩, b.2)

/-- The check of block b of a pair of streams (R96). -/
def zqCheck (job : Nat) (z : ZqBuf) (b : Nat) : PairCheck :=
  ⟨job, [], none, 15, u16 z.scale (b * 64), u8 z.scale (b * 64 + 2), u8 z.scale (b * 64 + 3),
   u16 z.data (b * 3136), u8 z.data (b * 3136 + 2), u8 z.data (b * 3136 + 3), b % 65536, fmtByte 8 64,
   blockGroups z.n b⟩

def zqFails (job : Nat) (z : ZqBuf) : Option PairCheck :=
  ((List.range ((z.n + 47) / 48)).map (zqCheck job z)).find? pairFails

/-- The element ch of group g as an FP32 code (R90). -/
def zqElem (z : ZqBuf) (g ch : Nat) : Nat :=
  let b := g / 48
  let k := g % 48
  fenc fp32 (dequant 8 (u8 z.data (b * 3136 + 64 + k * 64 + ch)) (u8 z.scale (b * 64 + 4 + k)))

/-! ## Projection (R251) -/

/-- rot(a) on x and y. -/
def rotate (a x y : Nat) : Nat × Nat :=
  let c := fcos a
  let n := fsin a
  (fsub (fmul x c) (fmul y n), fadd (fmul x n) (fmul y c))

/-- Seconds between two times in ns, exact in 64 bits before the product. -/
def secs (d : Int) : Nat := fmul (fofInt d) (fofRat 1 1000000000)

/-- A row of r_ext times p_s plus its component of t_ext. -/
def extRow (e : List Nat) (r : Nat) (p : Nat × Nat × Nat) : Nat :=
  let g := fun i => e[i]?.getD 0
  fadd (fadd (fadd (fmul (g (3 * r)) p.1) (fmul (g (3 * r + 1)) p.2.1)) (fmul (g (3 * r + 2)) p.2.2)) (g (9 + r))

/-- A point of a sensor's frame in the grid frame at TV, x and y (R251). -/
def project (x : FusSensor) (k : FusCorr) (fb : List Byte) (dt : Nat) (p : Nat × Nat × Nat) : Nat × Nat :=
  let m := rotate k.cyaw (extRow x.ext 0 p) (extRow x.ext 1 p)
  let mx := fadd m.1 k.cx
  let my := fadd m.2 k.cy
  rotate (fmul (fneg (u32 fb 16)) dt) (fsub mx (fmul (u32 fb 8) dt)) (fsub my (fmul (u32 fb 12) dt))

/-- Point of camera pixel (i, j) at depth bin k, in the camera frame. -/
def cameraPoint (x : FusSensor) (i j k : Nat) : Nat × Nat × Nat :=
  let u := fmul (fadd (fofInt j) f32half) x.sx
  let v := fmul (fadd (fofInt i) f32half) x.sy
  let dk := fadd x.dmin (fdivUlp (fmul (fadd (fofInt k) f32half) (fsub x.dmax x.dmin)) (fofInt x.nd))
  (fmul dk (fdivUlp (fsub u x.cx) x.fx), fmul dk (fdivUlp (fsub v x.cy) x.fy), fmul dk f32one)

/-- The cell of a point, none outside the grid (R249). -/
def cellOf (c : FusCtx) (p : Nat × Nat) : Option Nat :=
  let cell := fofRat c.cellMm 1000
  let ix := ffloor (fadd (fdivUlp p.1 cell) (fofInt (c.gx / 2 : Nat)))
  let iy := ffloor (fadd (fdivUlp p.2 cell) (fofInt (c.gy / 2 : Nat)))
  match ix, iy with
  | some a, some b =>
    if 0 ≤ a && a < (c.gx : Int) && 0 ≤ b && b < (c.gy : Int) then some (a.toNat * c.gy + b.toNat) else none
  | _, _ => none

/-- What an input reads: its features, and depth weights or coordinates. -/
structure FusBuf where
  inp : FusIn
  feat : ZqBuf
  depth : ZqBuf
  pts : List Byte
  deriving DecidableEq, Repr

/-- One contribution: cell, weight, group of its features. -/
structure Contrib where
  cell : Option Nat
  w : Nat
  grp : Nat
  deriving DecidableEq, Repr

/-- The contributions of an input under a correction, in the order of R252. -/
def contribs (c : FusCtx) (fb : List Byte) (tv : Nat) (b : FusBuf) (k : FusCorr) : List Contrib :=
  let x := b.inp.cfg
  let dt := secs ((tv : Int) - b.inp.tov)
  let at_ := fun p => cellOf c (project x k fb dt p)
  if x.kind == 0 then
    let fw := u16 b.inp.rec_ 24
    (List.range (u16 b.inp.rec_ 2 * fw)).flatMap (fun g =>
      (List.range x.nd).map (fun n =>
        ⟨at_ (cameraPoint x (g / fw) (g % fw) n), fmax f32zero (zqElem b.depth g n), g⟩))
  else
    (List.range (u32 b.inp.rec_ 24)).map (fun g =>
      ⟨at_ (u32 b.pts (12 * g), u32 b.pts (12 * g + 4), u32 b.pts (12 * g + 8)), f32one, g⟩)

/-! ## Placement and contested cells (R252, R253) -/

/-- Accumulators of a cell: W and F over all inputs, occupancies of the sensors that observed it. -/
structure CellAcc where
  w : Nat
  f : List Nat
  obs : List Nat
  deriving DecidableEq, Repr

def CellAcc.zero : CellAcc := ⟨0, List.replicate 64 0, []⟩

/-- Whether a code is zero. -/
def fzero (x : Nat) : Bool := x % 2 ^ 31 == 0

/-- Add one contribution to the cells. -/
def addContrib (z : ZqBuf) (m : Map CellAcc) (q : Contrib) : Map CellAcc :=
  match q.cell with
  | none => m
  | some n =>
    if fzero q.w then m
    else
      let a := m.getD n CellAcc.zero
      m.set n { a with w := fadd a.w q.w, f := a.f.mapIdx (fun ch v => fadd v (fmul q.w (zqElem z q.grp ch))) }

/-- A sensor's own weight and evidence by cell. -/
def evidence (c : FusCtx) (z : ZqBuf) (l : List Contrib) : Map (Nat × Nat) :=
  l.foldl (fun m q =>
    match q.cell with
    | none => m
    | some n =>
      if fzero q.w then m
      else
        let a := m.getD n (0, 0)
        m.set n (fadd a.1 q.w, fadd a.2 (fmul q.w (zqElem z q.grp c.occ)))) Map.empty

/-- The cells that evidence observes (R253). -/
def observed (c : FusCtx) (e : Map (Nat × Nat)) : Map (Nat × Nat) := e.filter (fun _ v => fle c.wmin v.1)

/-- Place one input on the grid. -/
def placeInput (c : FusCtx) (fb : List Byte) (tv : Nat) (m : Map CellAcc) (b : FusBuf) : Map CellAcc :=
  let l := contribs c fb tv b b.inp.corr
  let m := l.foldl (addContrib b.feat) m
  (observed c (evidence c b.feat l)).cells.foldl (fun m o =>
    let a := m.getD o.1 CellAcc.zero
    m.set o.1 { a with obs := a.obs ++ [fdivUlp o.2.2 o.2.1] }) m

/-- A cell is contested (R253). -/
def contested (c : FusCtx) (a : CellAcc) : Bool :=
  match a.obs with
  | x :: y :: t =>
    flt c.cthr (fsub ((y :: t).foldl fmax x) ((y :: t).foldl fmin x))
  | _ => false

def covered (a : CellAcc) : Bool := flt f32zero a.w

/-- The features of a cell: F ÷ W, a zero group where W = 0. -/
def cellFeat (a : CellAcc) : List Nat :=
  if covered a then a.f.map (fun v => fdivUlp v a.w) else List.replicate 64 0

/-! ## Refinement (R254, R255) -/

/-- A candidate component, clamped. -/
def clampTo (lim v : Nat) : Nat := fmax (fneg lim) (fmin lim v)

/-- A candidate, every component clamped (R255). -/
def clampCorr (x : FusSensor) (k : FusCorr) : FusCorr :=
  { k with cx := clampTo (limT x) k.cx, cy := clampTo (limT x) k.cy, cyaw := clampTo (limR x) k.cyaw }

/-- The seven candidates, in their order. -/
def candidates7 (x : FusSensor) (k : FusCorr) : List FusCorr :=
  let st := fofRat x.stepT 1000
  let sr := fofRat x.stepR 1000000
  [k, { k with cx := fadd k.cx st }, { k with cx := fsub k.cx st }, { k with cy := fadd k.cy st },
   { k with cy := fsub k.cy st }, { k with cyaw := fadd k.cyaw sr }, { k with cyaw := fsub k.cyaw sr }].map (clampCorr x)

/-- Weight and evidence of all other inputs in a cell, and whether one of them observes it. -/
def restOf (c : FusCtx) (evs : List (Nat × Map (Nat × Nat))) (i n : Nat) : Nat × Nat × Bool :=
  evs.foldl (fun a e =>
    if e.1 == i then a
    else match e.2.get? n with
      | none => a
      | some v => (fadd a.1 v.1, fadd a.2.1 v.2, a.2.2 || fle c.wmin v.1)) (0, 0, false)

/-- The score of a candidate correction. -/
def scoreOf (c : FusCtx) (fb : List Byte) (tv : Nat) (evs : List (Nat × Map (Nat × Nat))) (b : FusBuf)
    (k : FusCorr) : Nat :=
  (observed c (evidence c b.feat (contribs c fb tv b k))).cells.foldl (fun a o =>
    let r := restOf c evs b.inp.i o.1
    if r.2.2 then fadd a (fmul (fdivUlp o.2.2 o.2.1) (fdivUlp r.2.1 r.1)) else a) 0

/-- The best candidate: the first of the highest score, taken only if it exceeds the score in force by
more than HYST. Answers the correction and whether it moved; without a move it is the first candidate, the correction
in force, clamped as every candidate is (log 21). -/
def bestCand (c : FusCtx) (score : FusCorr → Nat) (x : FusSensor) (k : FusCorr) : FusCorr × Bool :=
  let k := clampCorr x k
  let s0 := score k
  let best := ((candidates7 x k).drop 1).foldl (fun (b : FusCorr × Nat) q =>
    let v := score q
    if flt b.2 v then (q, v) else b) (k, s0)
  if flt (fmul s0 (fadd f32one c.hyst)) best.2 && best.1 != k then (best.1, true) else (k, false)

/-- Cells observed by a sensor and by another included one with REF = 1. -/
def refCells (c : FusCtx) (bufs : List FusBuf) (evs : List (Nat × Map (Nat × Nat))) (i : Nat) : Nat :=
  let refs := (bufs.filter (fun b => b.inp.i != i && bit b.inp.cfg.flags 1)).map (fun b => b.inp.i)
  match evs.find? (fun e => e.1 == i) with
  | none => 0
  | some e => (observed c e.2).count (fun n _ =>
      evs.any (fun r => refs.contains r.1 && ((observed c r.2).get? n).isSome))

/-- What refinement does to an included sensor: new correction and MOVED (R254, R255). -/
def refine (c : FusCtx) (fb : List Byte) (tv : Nat) (bufs : List FusBuf)
    (evs : List (Nat × Map (Nat × Nat))) (b : FusBuf) : FusCorr × Bool :=
  let x := b.inp.cfg
  let k := b.inp.corr
  if !(bit c.flags 2 && bit x.flags 2 && !bit x.flags 1) || refCells c bufs evs b.inp.i < c.minCells then (k, false)
  else
    let r := bestCand c (scoreOf c fb tv evs b) x k
    ({ r.1 with still := ((!r.2) :: k.still).take 64 }, r.2)

/-- SKIPPED: an enabled sensor with REFINE = 1 that does not meet the last condition of R254; one left out of the call
observes no cell. -/
def skipped (c : FusCtx) (bufs : List FusBuf) (evs : List (Nat × Map (Nat × Nat))) (i : Nat) : Bool :=
  match c.sensors.get? i with
  | some x => bit x.flags 0 && bit x.flags 2 && decide (refCells c bufs evs i < c.minCells)
  | none => false

/-! ## Tracks (R257 to R259) -/

/-- A detection: centre, extent, score, class. -/
structure Det where
  x : Nat
  y : Nat
  len : Nat
  wid : Nat
  score : Nat
  cls : Nat
  deriving DecidableEq, Repr

def detOf (r : List Byte) : Det :=
  ⟨fdiv (fadd (u32 r 0) (u32 r 8)) (fofInt 2), fdiv (fadd (u32 r 4) (u32 r 12)) (fofInt 2),
   fsub (u32 r 8) (u32 r 0), fsub (u32 r 12) (u32 r 4), u32 r 16, u16 r 20⟩

/-- Prediction to TV (R257). -/
def predict (fb : List Byte) (dt : Nat) (t : Track) : Track :=
  let a := fmul (fneg (u32 fb 16)) dt
  let q := rotate a (fsub (fadd t.x (fmul t.vx dt)) (fmul (u32 fb 8) dt))
    (fsub (fadd t.y (fmul t.vy dt)) (fmul (u32 fb 12) dt))
  let v := rotate a t.vx t.vy
  { t with x := q.1, y := q.2, vx := v.1, vy := v.2 }

/-- Order of states in association (R258). -/
def stRank (t : Track) : Nat := if t.st == 2 || t.st == 3 then 0 else if t.st == 1 then 1 else 2

/-- A candidate pair: distance, track (its place in tracks ++ candidates), detection index. -/
structure Pair where
  d : Nat
  rank : Nat
  num : Nat
  ti : Nat
  di : Nat
  deriving DecidableEq, Repr

/-- Order of R258. -/
def pairBefore (a b : Pair) : Bool :=
  if flt a.d b.d then true else if flt b.d a.d then false
  else if a.rank != b.rank then a.rank < b.rank
  else if a.num != b.num then a.num < b.num
  else a.di < b.di

def pairInsert (x : Pair) : List Pair → List Pair
  | [] => [x]
  | y :: t => if pairBefore x y then x :: y :: t else y :: pairInsert x t

/-- Every pair within the gate. -/
def pairsOf (c : FusCtx) (ts : List Track) (ds : List Det) : List Pair :=
  let gate := fofRat c.gateMm 1000
  (ts.zipIdx.flatMap (fun t => ds.zipIdx.filterMap (fun d =>
    let dx := fsub d.1.x t.1.x
    let dy := fsub d.1.y t.1.y
    let r := fsqrt (fadd (fmul dx dx) (fmul dy dy))
    if fle r gate && (bit c.flags 1 || t.1.cls == d.1.cls) then some ⟨r, stRank t.1, t.1.id, t.2, d.2⟩
    else none))).foldr pairInsert []

/-- Greedy assignment: (track place, detection index). -/
def assign : List Pair → List (Nat × Nat)
  | l => (l.foldl (fun (a : List (Nat × Nat)) p =>
      if a.any (fun x => x.1 == p.ti || x.2 == p.di) then a else a ++ [(p.ti, p.di)]) [])

/-- An associated track (R258). -/
def associate (c : FusCtx) (dt tv : Nat) (t : Track) (z : Det) : Track :=
  let rx := fsub z.x t.x
  let ry := fsub z.y t.y
  { t with
    x := fadd t.x (fmul c.alpha rx), y := fadd t.y (fmul c.alpha ry),
    vx := if fzero dt then t.vx else fadd t.vx (fdivUlp (fmul c.beta rx) dt),
    vy := if fzero dt then t.vy else fadd t.vy (fdivUlp (fmul c.beta ry) dt),
    len := z.len, wid := z.wid, score := z.score, hits := min 0xFFFF (t.hits + 1), misses := 0,
    run := t.run + 1, tlast := tv }

/-- A track or candidate that was not associated. -/
def missed (t : Track) : Track := { t with misses := min 0xFFFF (t.misses + 1), run := 0 }

/-- Confirmation and coasting of a track (R259). -/
def lifeTrack (c : FusCtx) (t : Track) : Track :=
  if t.st == 1 then (if c.confC ≤ t.run then { t with st := 2 } else t)
  else if t.misses == 0 then { t with st := 2 } else { t with st := 3 }

/-- The lowest slots that no candidate holds. -/
def freeSlots (cs : List Track) : List Nat :=
  (List.range 4096).filter (fun k => !cs.any (fun t => t.id == k))

/-- Births: a candidate with BIRTH_M hits within BIRTH_N calls becomes TENTATIVE, or is dropped. State:
tracks, candidates kept, next ID, TRKFULL. -/
def birth (c : FusCtx) (a : List Track × List Track × Nat × Nat) (t : Track) :
    List Track × List Track × Nat × Nat :=
  if c.birthM ≤ t.hits then
    if a.1.length < 4096 then
      (a.1 ++ [{ t with id := a.2.2.1, st := 1, run := 0 }], a.2.1,
       (if a.2.2.1 + 1 == 2 ^ 32 then 1 else a.2.2.1 + 1), a.2.2.2)
    else (a.1, a.2.1, a.2.2.1, a.2.2.2 + 1)
  else if c.birthN ≤ t.age then a
  else (a.1, a.2.1 ++ [t], a.2.2.1, a.2.2.2)

/-- Tracks after a call: new tracks, candidates, next ID, CANDFULL, TRKFULL. -/
structure TrackOut where
  tracks : List Track
  cands : List Track
  nextId : Nat
  candFull : Nat
  trkFull : Nat
  deriving DecidableEq, Repr

def trackStep (c : FusCtx) (fb : List Byte) (tv : Nat) (ds : List Det) : TrackOut :=
  let dt := secs ((tv : Int) - c.st.lastTv)
  let all := (c.st.tracks ++ c.st.cands).map (fun t => { predict fb dt t with age := t.age + 1 })
  let asg := assign (pairsOf c all ds)
  let upd := all.zipIdx.map (fun t =>
    match asg.find? (fun a => a.1 == t.2) with
    | some a => match ds[a.2]? with
      | some z => associate c dt tv t.1 z
      | none => missed t.1
    | none => missed t.1)
  let live := upd.filter (fun t => t.misses < c.delK)
  let tracks := (live.filter (fun t => t.st != 0)).map (lifeTrack c)
  let cands := live.filter (fun t => t.st == 0)
  let un := (ds.zipIdx.filter (fun d => !asg.any (fun a => a.2 == d.2))).map (·.1)
  let slots := freeSlots cands
  let fresh := (un.zip slots).map (fun p => ({
    id := p.2, st := 0, cls := p.1.cls, hits := 1, misses := 0, age := 1, run := 0, x := p.1.x,
    y := p.1.y, vx := 0, vy := 0, len := p.1.len, wid := p.1.wid, score := p.1.score,
    tlast := tv } : Track))
  let ordered := (List.range 4096).filterMap (fun k => (cands ++ fresh).find? (fun t => t.id == k))
  let r := ordered.foldl (birth c) (tracks, [], c.st.nextId, 0)
  ⟨r.1, r.2.1, r.2.2.1, un.length - fresh.length, r.2.2.2⟩

/-! ## Outputs (R252, R263, Table 6) -/

def trackRec (t : Track) : List Byte :=
  leBytes 4 t.id ++ leBytes 1 t.st ++ [0x00] ++ leBytes 2 t.cls ++ leBytes 2 t.hits ++ leBytes 2 t.misses
    ++ leBytes 4 t.age ++ [t.x, t.y, t.vx, t.vy, t.len, t.wid, t.score].flatMap (leBytes 4)
    ++ leBytes 8 t.tlast ++ zeros 12

/-- Track list output, in increasing ID. -/
def trackList (o : TrackOut) : List Byte :=
  let ids := (o.tracks.foldl (fun (m : Map Track) t => m.set t.id t) Map.empty).vals
  leBytes 4 ids.length ++ leBytes 4 o.candFull ++ leBytes 4 o.trkFull ++ zeros 52 ++ ids.flatMap trackRec

/-- A report record (R263). -/
def reportRec (code : Nat) (bound moved skipped : Bool) (k : FusCorr) (tov : Int) (outside : Nat) : List Byte :=
  leBytes 1 code ++ leBytes 1 (b2n bound + 2 * b2n moved + 4 * b2n skipped) ++ leBytes 1 k.conf ++ [0x00]
    ++ leBytes 8 (ofInt 64 tov) ++ leBytes 4 k.cx ++ leBytes 4 k.cy ++ leBytes 4 k.cyaw
    ++ leBytes 4 (min 0xFFFFFFFF outside) ++ zeros 4

/-- Everything a call makes: its outputs, header bytes for OUT, and the context's new state. -/
structure FusOut where
  grid : List (Nat × List Byte)
  mask : List Byte
  tracks : List Byte
  report : List Byte
  hdr : List Byte
  st : FusState
  nonfin : Nat
  clamped : Nat

/-- The bytes 32 to 63 of an output's header, OUT apart (R263). FFLAGS[2] is what was in force at TV; for a TV that lies
ahead it is what is in force when the call ends (log 21). -/
def fusHdr (s : State) (c : FusCtx) (ctx tv : Nat) (ins : List FusIn) (ncont : Nat) (bound exc : Bool) : List Byte :=
  let old := match ins with
    | [] => 0
    | i :: t => ((tv : Int) - t.foldl (fun a x => min a x.tov) i.tov).toNat
  leBytes 8 tv ++ leBytes 4 (min 0xFFFFFFFF old)
    ++ leBytes 4 (ins.foldl (fun a i => a + 2 ^ i.i) 0) ++ leBytes 4 ncont
    ++ leBytes 1 (b2n bound + 2 * b2n exc + 4 * b2n (s.degAt tv) + 8 * b2n ins.isEmpty)
    ++ leBytes 1 ins.length ++ [0x00] ++ leBytes 1 ctx ++ leBytes 4 ((c.gen + 1) % 2 ^ 32) ++ zeros 4

/-- The call's result for what it has read. -/
def fusCompute (s : State) (c : FusCtx) (ctx tv : Nat) (d fb : List Byte) (bufs : List FusBuf) (ds : List Det) :
    FusOut :=
  let cells := bufs.foldl (placeInput c fb tv) Map.empty
  let n := c.gx * c.gy
  let acc := fun k => cells.getD k CellAcc.zero
  let feats := (List.range n).map (fun k => cellFeat (acc k))
  let groups := feats.map (fun f => quantGroup 8 64 (scaleByte 8 (amaxOf f)) f)
  let ncont := ((List.range n).filter (fun k => contested c (acc k))).length
  let evs := bufs.map (fun b => (b.inp.i, evidence c b.feat (contribs c fb tv b b.inp.corr)))
  let refs := bufs.map (fun b => (b.inp.i, refine c fb tv bufs evs b))
  let corr := refs.foldl (fun (m : Map FusCorr) r => m.set r.1 r.2.1) c.st.corr
  let outside := fun i => match bufs.find? (fun b => b.inp.i == i) with
    | some b => ((contribs c fb tv b b.inp.corr).filter (fun q => q.cell.isNone)).length
    | none => 0
  let recOf := fun i =>
    let e := exclOf s c fb tv i
    let r := refs.find? (fun r => r.1 == i)
    let k := corr.getD i FusCorr.zero
    let b := match c.sensors.get? i with
      | some x => atBound x k
      | none => false
    reportRec e.1 b ((r.map (·.2.2)).getD false) (skipped c bufs evs i) k e.2 (outside i)
  let recs := (List.range 32).map recOf
  let o := if bit c.flags 0 then trackStep c fb tv ds
    else ⟨c.st.tracks, c.st.cands, c.st.nextId, 0, 0⟩
  let bound := c.sensors.any (fun i x => atBound x (corr.getD i FusCorr.zero))
  let exc := c.sensors.any (fun i x => bit x.flags 0 && !(bufs.any (fun b => b.inp.i == i)))
  { grid := groups.zipIdx.flatMap (fun g => groupWrites 8 64 (u64 d 16) (u64 d 24) n g.2 g.1.sb g.1.codes),
    mask := (List.range n).map (fun k => BitVec.ofNat 8 (b2n (covered (acc k)) + 2 * b2n (contested c (acc k)))),
    tracks := trackList o, report := recs.flatten,
    hdr := fusHdr s c ctx tv (bufs.map (·.inp)) ncont bound exc,
    st := ⟨corr, o.tracks, o.cands, o.nextId, tv,
           (List.range 32).foldl (fun (m : Map (List Byte)) i => m.set i (recOf i)) Map.empty, ncont⟩,
    nonfin := (feats.flatten.filter fnonfin).length,
    clamped := (groups.map (·.clamped)).sum }

end Sys2Proof.Machine
end

