-- ==== Sys2Proof/Machine/StreamOps.lean ====
section
/-! DEFINITION. Units of stream contexts (R224 to R233): filters, the packets and descriptors that are
written, truncation, and the halt of ingest. -/

namespace Sys2Proof.Machine

open Sys2Proof

/-! ## Frames and filters (R225, Table 13 of chapter 08) -/

/-- The big-endian 16-bit field at an offset of a frame. -/
def be16 (f : List Byte) (o : Nat) : Nat := u8 f o * 256 + u8 f (o + 1)

def isVlanType (t : Nat) : Bool := t == 0x8100 || t == 0x88A8

/-- Bytes before the EtherType of a frame: 12, and 4 for each 802.1Q tag, at most two. -/
def etherOff (f : List Byte) : Nat :=
  if isVlanType (be16 f 12) then (if isVlanType (be16 f 16) then 20 else 16) else 12

def etherType (f : List Byte) : Nat := be16 f (etherOff f)
/-- VLAN ID + 1 of the outer tag, 0 for none. -/
def vlanOf (f : List Byte) : Nat := if isVlanType (be16 f 12) then be16 f 14 % 4096 + 1 else 0

/-- UDP destination port of an IPv4 or IPv6 frame, 0 for none. -/
def udpPort (f : List Byte) : Nat :=
  let o := etherOff f + 2
  if etherType f == 0x0800 && u8 f (o + 9) == 17 then be16 f (o + u8 f o % 16 * 4 + 2)
  else if etherType f == 0x86DD && u8 f (o + 6) == 17 then be16 f (o + 42)
  else 0

/-- A CAN identifier with IDE in bit 31, and the PGN of a 29-bit identifier (ISO 11783-3). -/
def canWord (id : Nat) (ide : Bool) : Nat := id % 2 ^ 29 + 2 ^ 31 * b2n ide
def pgnOf (id : Nat) : Nat :=
  let p := id / 256 % 2 ^ 18
  if p / 256 % 256 < 240 then p / 256 * 256 else p

/-- The masked match of a CAN filter. -/
def maskMatch (c : StreamCtx) (v : Nat) : Bool := ((v ^^^ u32 c.filter 0) &&& u32 c.filter 4) == 0

/-- The data types a CSI filter lists. -/
def dtList (filter : List Byte) : List Nat := (List.range 4).map (fun i => u8 filter (1 + i)) |>.filter (· != 0)

/-- A configured domain on a MAC takes the gPTP frames of its domainNumber (R225). -/
def gptpTaken (s : State) (mac : Nat) (f : List Byte) : Bool :=
  etherType f == 0x88F7 && [s.time.d0, s.time.d1].any (fun d =>
    d.enabled && d.mac == mac && d.domNum == u8 f (etherOff f + 6))

/-- Whether an open context's filter takes what a port receives (R225). -/
def ctxMatch (s : State) (c : StreamCtx) : Ingress → Bool
  | .csiFs p vc _ | .csiFe p vc _ => c.kind == 0 && c.port == p && u8 c.filter 0 == vc
  | .csiPkt p vc dt _ _ _ => c.kind == 0 && c.port == p && u8 c.filter 0 == vc && (dtList c.filter).contains dt
  | .eth mac f => c.kind == 1 && c.port == mac && !gptpTaken s mac f
      && (u16 c.filter 0 == 0 || u16 c.filter 0 == etherType f)
      && (u16 c.filter 2 == 0 || u16 c.filter 2 == vlanOf f)
      && (u16 c.filter 4 == 0 || u16 c.filter 4 == udpPort f)
  | .can ctl id ide _ _ _ => c.kind == 2 && c.port == ctl &&
      (if bit c.flags 0 then ide && maskMatch c (pgnOf id) else maskMatch c (canWord id ide))
  | .iso ctl _ pgn _ | .isoAbort ctl pgn => c.kind == 2 && c.port == ctl && bit c.flags 0 && maskMatch c pgn
  | .bad _ _ => false

/-- The contexts that what arrives is offered to: every matching one for CSI, else the first. -/
def ctxTakers (s : State) (f : Ingress) : List Nat :=
  let l := (s.ctxs.filter (fun _ c => c.st != .closed && ctxMatch s c f)).keys
  match f with
  | .csiFs _ _ _ | .csiPkt _ _ _ _ _ _ | .csiFe _ _ _ => l
  | _ => l.take 1

/-! ## Timestamps (R224) -/

/-- The stamp of an event, in 2^-16 ns: device time, within 8 ns, less the context's LATENCY_NS. -/
def stampOf (s : State) (c : StreamCtx) (err : Int) : Nat :=
  ((s.now : Int) + max (-8) (min err 8) * 65536 - (c.latency : Int) * 65536).toNat

/-! ## Descriptors (R228, R229, Table 5) -/

def domByte (d : Nat) : Nat := if d = 3 then 0xFF else d

/-- The 64 bytes of a unit descriptor. -/
def descBytes (c : StreamCtx) (u : UnitSt) (ok : Bool) (reason tend : Nat) : List Byte :=
  leBytes 4 u.no ++ leBytes 1 (if ok then OK else TRUNCATED)
  ++ leBytes 1 ((c.tail / c.nbuf + 1) % 2 + 2 * b2n u.resync + 4 * b2n u.noref + 8 * b2n u.holdover
       + 16 * b2n (u.pktErrs != 0))
  ++ leBytes 1 reason ++ leBytes 1 u.domain ++ leBytes 8 (u.tstart / 65536)
  ++ leBytes 2 (u.tstart % 65536) ++ leBytes 2 (min u.pktErrs 0xFFFF) ++ leBytes 8 (tend / 65536)
  ++ leBytes 2 (tend % 65536) ++ leBytes 2 (min c.dropsSince 0xFFFF)
  ++ leBytes 4 (if ok then u.bytes else 0) ++ leBytes 4 (if ok then u.pkts else 0) ++ leBytes 4 u.buf
  ++ leBytes 4 u.portInfo ++ zeros 16

/-- The contents of a truncated unit's buffer are undefined (R229): free values, but for bytes under a lock, which no
write of ingest changes (R274). -/
def scrambleBuf (c : StreamCtx) (u : UnitSt) (s : State) : State :=
  let a := c.bufBase + u.buf * c.bufBytes
  let f := takeFree s
  if accessCheck s (accTenant s c.tenant) a c.bufBytes = 0 then
    dramWrite a ((padTo c.bufBytes (Config.freeBytes f.1)).mapIdx (fun i b =>
      if rtLocked s (a + i) 1 then s.mem.dram.read (a + i) else b)) f.2
  else s

/-- A unit in progress ends: frozen record, descriptor, then TAIL (R229, R247); TEND carries NOREF and HOLDOVER as
TSTART does (R224). A descriptor write that fails its check faults the tenant, and the context is IDLE (R227): such a
unit has no descriptor, and no record. One that falls under a lock is discarded (R274, log 22). -/
def finishUnit (k : Nat) (ok : Bool) (reason tend : Nat) (s : State) : State :=
  match s.ctxs.get? k with
  | none => s
  | some c =>
    match c.unit with
    | none => s
    | some u =>
      let u := { u with noref := u.noref || s.clk.hold, holdover := u.holdover || s.time.active == 3 }
      let s := if ok then s else scrambleBuf c u s
      let a := c.ring + c.tail % c.nbuf * 64
      let r := accessCheck s (accTenant s c.tenant) a 64
      let s := modCtx k (fun c => { c with
        unit := none, reason := if ok then c.reason else reason,
        truncs := if ok then c.truncs else satAdd 0xFFFFFFFF c.truncs 1 }) (recordUnit k u ok (r == 0 && !rtLocked s a 64) s)
      if r = 0 then
        if rtLocked s a 64 then markRtLock s
        else modCtx k (fun c => { c with tail := (c.tail + 1) % 65536, dropsSince := 0 })
          (dramWrite a (descBytes c u ok reason tend) s)
      else violate (accTenant s c.tenant) true r a s

/-- A unit in progress is cut short (R231); TEND is the discard time. -/
def truncate (k reason : Nat) (s : State) : State := finishUnit k false reason s.now s

/-- Ingest stops for a context: a unit in progress ends TRUNCATED, REASON 3 (R231). -/
def haltStream (k : Nat) (s : State) : State :=
  match s.ctxs.get? k with
  | none => s
  | some c =>
    if c.st == .idle || c.st == .closed then s
    else setCtxSt k .idle (if c.unit.isSome then 3 else 0) (truncate k 3 s)

/-- Contexts whose ingest does not run any more go to IDLE, and idle ones whose ingest begins enter
SEEKING (R230). -/
def syncStreams (s : State) : State :=
  let s := (s.ctxs.filter (fun _ c => !ingestRuns s c)).keys.foldl (fun s k => haltStream k s) s
  startStreams s

/-! ## Units -/

/-- PORTINFO of a unit start. -/
def portInfo : Ingress → Nat
  | .csiFs _ vc fr => fr % 65536 + vc % 32 * 65536
  | .can _ id ide _ _ _ => canWord id ide
  | .iso _ id _ _ => canWord id true
  | _ => 0

/-- Frame number of a CSI start, 0 otherwise. -/
def frameNo : Ingress → Nat
  | .csiFs _ _ fr | .csiFe _ _ fr => fr % 65536
  | _ => 0

/-- What is received starts a unit of a context that it matches (Table 4 of chapter 08). -/
def startsUnit (c : StreamCtx) : Ingress → Bool
  | .csiFs _ _ _ => true
  | .eth _ f => !bit c.flags 1 ||
      (c.startOff < f.length && (u8 f c.startOff &&& c.startMask) == c.startVal)
  | .can _ _ _ _ _ _ | .iso _ _ _ _ => true
  | _ => false

/-- A unit start on one context (R228, R231). -/
def startUnit (k : Nat) (f : Ingress) (err : Int) (s : State) : State :=
  match s.ctxs.get? k with
  | none => s
  | some c =>
    if c.st == .closed || c.st == .idle || !startsUnit c f then s
    else
      let s := truncate k 2 s
      match s.ctxs.get? k with
      | none => s
      | some c =>
        if c.st == .closed || c.st == .idle then s
        else if (c.tail + 65536 - c.done_) % 65536 < c.nbuf then
          let u : UnitSt := {
            no := c.units + 1, tstart := stampOf s c err, resync := c.resync, noref := s.clk.hold,
            holdover := s.time.active == 3, domain := domByte s.time.active, buf := c.tail % c.nbuf,
            bytes := 0, pkts := 0, pktErrs := 0, frame := frameNo f, portInfo := portInfo f, bad := 0,
            keyed := false, field := none }
          let s := setCtxSt k .live 0 (modCtx k (fun c => { c with units := (c.units + 1) % 2 ^ 32 }) s)
          modCtx k (fun c => { c with resync := false, unit := some u }) s
        else modCtx k (fun c => { c with
          units := (c.units + 1) % 2 ^ 32, drops := satAdd 0xFFFFFFFF c.drops 1,
          dropsSince := c.dropsSince + 1 }) s

/-- KIND, FLAGS, INFO and data of a packet (R226). -/
def packetOf (c : StreamCtx) : Ingress → Option (Nat × Nat × Nat × List Byte)
  | .csiPkt _ vc dt d crc ecc => some (dt, b2n crc + 2 * b2n ecc, vc % 32, d)
  | .eth _ f => some (0, 0, 0, f)
  | .can _ id ide dlc fl d =>
    if bit c.flags 0 then some (0, 0, pgnOf id, d)
    else some (0, 0, canWord id ide, Config.canBytes (canWord id ide) dlc fl d)
  | .iso _ _ pgn d => some (0, 0, pgn % 2 ^ 18, d)
  | _ => none

/-- The clock map reads the sensor time in the packet that KINDSEL picks (R244). -/
def keyUnit (m : ClockMap) (kind : Nat) (data : List Byte) (u : UnitSt) : UnitSt :=
  if u.keyed || !(m.kindSel == 0xFF || m.kindSel == kind) then u
  else { u with keyed := true, field := mapField m data }

/-- A packet of a context's unit in progress: written, unless the unit has outgrown its buffer or met a
lock (R226, R229, R274). -/
def addPacket (k : Nat) (f : Ingress) (err : Int) (s : State) : State :=
  match s.ctxs.get? k with
  | none => s
  | some c =>
    match packetOf c f with
    | none => s
    | some (kind, fl, info, d) =>
      if c.st == .seeking || c.st == .stalled then
        modCtx k (fun c => { c with discards := satAdd 0xFFFF c.discards 1 }) s
      else match c.unit with
        | none => s
        | some u =>
          let u := keyUnit (s.map k) kind d u
          let bs := leBytes 2 d.length ++ leBytes 1 kind ++ leBytes 1 fl ++ leBytes 4 info
            ++ leBytes 8 (stampOf s c err / 65536) ++ padTo (roundup d.length 16) d
          let a := c.bufBase + u.buf * c.bufBytes + u.bytes
          let put := fun (u : UnitSt) (s : State) => modCtx k (fun c => { c with unit := some u }) s
          if u.bad != 0 then put { u with pkts := u.pkts + 1 } s
          else if u.bytes + bs.length > c.bufBytes then put { u with bad := 5, pkts := u.pkts + 1 } s
          else if rtLocked s a bs.length then
            markRtLock (put { u with bad := 7, pkts := u.pkts + 1 } s)
          else
            checkedWrite (accTenant s c.tenant) a bs
              (put { u with bytes := u.bytes + bs.length, pkts := u.pkts + 1 } s)

/-- What is received can end a unit of a context in progress, and the REASON when it cannot end OK:
frame numbers that differ (R229), a connection abort (R231). -/
def endsUnit (c : StreamCtx) (u : UnitSt) : Ingress → Option Nat
  | .csiFe _ _ fr =>
    some (if u.bad != 0 then u.bad
          else if fr % 65536 != 0 && u.frame != 0 && fr % 65536 != u.frame then 6 else 0)
  | .eth _ _ => if bit c.flags 1 && u.pkts < c.unitPkts then none else some u.bad
  | .can _ _ _ _ _ _ | .iso _ _ _ _ => some u.bad
  | .isoAbort _ _ => some 4
  | _ => none

/-- A unit end on one context (R229, R231). -/
def endUnit (k : Nat) (f : Ingress) (err : Int) (s : State) : State :=
  match s.ctxs.get? k with
  | none => s
  | some c =>
    if c.st == .seeking || c.st == .stalled then
      (match f with
       | .csiFe _ _ _ => modCtx k (fun c => { c with discards := satAdd 0xFFFF c.discards 1 }) s
       | _ => s)
    else match c.unit with
      | none => s
      | some u =>
        match endsUnit c u f with
        | none => s
        | some 0 => finishUnit k true 0 (stampOf s c err) s
        | some r => truncate k r s

/-- The events (R226, R229, R231). -/
def execUnitStart (f : Ingress) (err : Int) (s : State) : Host.Outcome State Fault Refusal :=
  .next ((ctxTakers s f).foldl (fun s k => startUnit k f err s) s)

/-- Units in progress on a port count a packet that could not be taken (R226). -/
def countBad (csi : Bool) (port : Nat) (s : State) : State :=
  { s with ctxs := s.ctxs.mapV (fun c =>
      if c.port == port && c.kind == (if csi then 0 else 1) then
        { c with unit := c.unit.map (fun u => { u with pktErrs := u.pktErrs + 1 }) }
      else c) }

def execStreamPacket (f : Ingress) (err : Int) (s : State) : Host.Outcome State Fault Refusal :=
  match f with
  | .bad csi port => .next (countBad csi port s)
  | _ => .next ((ctxTakers s f).foldl (fun s k => addPacket k f err s) s)

def execUnitEnd (f : Ingress) (err : Int) (s : State) : Host.Outcome State Fault Refusal :=
  .next ((ctxTakers s f).foldl (fun s k => endUnit k f err s) s)

/-- HOLD elapsed without data or a unit start (R231). -/
def execStreamHoldExpiry (ctx : Nat) (s : State) : Host.Outcome State Fault Refusal :=
  match s.ctxs.get? ctx with
  | none => .next s
  | some c =>
    if c.st == .live && c.unit.isSome then
      let s := truncate ctx 1 s
      match s.ctxs.get? ctx with
      | none => .next s
      | some c => if c.st == .live then .next (setCtxSt ctx .stalled 1 s) else .next s
    else if (c.st == .seeking || c.st == .live) && c.period != 0 then .next (setCtxSt ctx .stalled 0 s)
    else .next s

/-- The host writes DONE on a context's doorbell page (R228). -/
def execStreamDoneWrite (w : DoorWrite) (s : State) : Host.Outcome State Fault Refusal :=
  match doorWord 0x40000 96 w with
  | some (k, 0) => .next (modCtx k (fun c => { c with done_ := w.val % 65536 }) s)
  | _ => .next s

/-- What an aligned 32-bit read of a context's doorbell page gives (R228). -/
def streamDoorRead (s : State) (off : Nat) : Nat :=
  match doorWord 0x40000 96 ⟨off, 4, 0⟩ with
  | some (k, o) => match s.ctxs.get? k with
    | some c => if o = 0 then c.done_ else if o = 4 then c.tail else 0
    | none => 0
  | none => 0

end Sys2Proof.Machine
end

