-- ==== Sys2Proof/Machine/Sensors.lean ====
section
/-! DEFINITION. Group 0x05xx: stream contexts (R225 to R233), network time (R234 to R238, R243), pulses,
captures and timed launch (R239 to R242). -/

namespace Sys2Proof.Machine

open Sys2Proof

/-! ## Stream commands (Tables 12 and 13 of chapter 08) -/

/-- CSI data types (Table 1 of chapter 08), by their MIPI codes (PRESUMED, log 22). -/
def dataTypes : List Nat :=
  [0x12, 0x1E, 0x24, 0x2A, 0x2B, 0x2C, 0x2D, 0x2E, 0x2F, 0x30, 0x31, 0x32, 0x33, 0x34, 0x35, 0x36, 0x37]

/-- A port of edge die floor(s ÷ 24) (R225), by KIND. -/
def portFits (kind port ctx : Nat) : Bool :=
  match kind with
  | 0 => port / 8 == ctx / 24
  | 1 => port / 2 == ctx / 24
  | 2 => port / 4 == ctx / 24
  | _ => false

/-- The filter fields of STREAM_OPEN. -/
def filterOk (kind : Nat) (f : List Byte) : Bool :=
  match kind with
  | 0 => u8 f 0 ≤ 15 && zeroAt f 5 3 && (dtList f).all dataTypes.contains
  | 1 => zeroAt f 6 2 && u16 f 2 ≤ 4096
  | _ => true

def streamParamsOk (s : State) (ps : List Byte) : Bool :=
  let kind := u8 ps 1
  let fl := u8 ps 3
  let allowed := if kind == 0 then 0 else if kind == 1 then 6 else 5
  u8 ps 0 < s.nStreams && kind ≤ 2 && portFits kind (u8 ps 2) (u8 ps 0) && (fl &&& allowed) == fl
  && filterOk kind (sub ps 4 8)
  && (!bit fl 1 || (1 ≤ u16 ps 12 && u16 ps 14 ≤ 9215)) && zeroAt ps 18 2
  && u32 ps 20 ≤ 10000000 && 1 ≤ u32 ps 24 && u32 ps 24 ≤ 10000000 && u32 ps 28 ≤ 65535
  && u64 ps 32 % 4096 == 0 && u32 ps 40 % 4096 == 0 && 4096 ≤ u32 ps 40 && u32 ps 40 ≤ 2 ^ 28
  && isPow2In (u16 ps 44) 2 1024 && zeroAt ps 46 2 && zeroAt ps 56 8

/-- A (virtual channel, data type) pair of the port already belongs to an open context (R225). -/
def pairTaken (s : State) (ps : List Byte) : Bool :=
  u8 ps 1 == 0 && s.ctxs.any (fun _ c => c.st != .closed && c.kind == 0 && c.port == u8 ps 2
    && u8 c.filter 0 == u8 ps 4 && (dtList c.filter).any (dtList (sub ps 4 8)).contains)

def openCtx (t : Nat) (ps : List Byte) : StreamCtx :=
  { st := .idle, tenant := t, kind := u8 ps 1, port := u8 ps 2, flags := u8 ps 3,
    filter := sub ps 4 8, unitPkts := u16 ps 12, startOff := u16 ps 14, startVal := u8 ps 16,
    startMask := u8 ps 17, period := u32 ps 20, margin := u32 ps 24, latency := u32 ps 28,
    bufBase := u64 ps 32, bufBytes := u32 ps 40, nbuf := u16 ps 44, ring := u64 ps 48,
    started := false, units := 0, tail := 0, done_ := 0, resync := false, unit := none, truncs := 0,
    stalls := 0, drops := 0, dropsSince := 0, discards := 0, reason := 0 }

/-- BUFBASE, BUFBYTES and NBUF keep Table 13 of chapter 08. -/
def streamBufOk (ps : List Byte) : Bool :=
  u64 ps 32 % 4096 == 0 && u32 ps 40 % 4096 == 0 && 4096 ≤ u32 ps 40 && u32 ps 40 ≤ 2 ^ 28
  && isPow2In (u16 ps 44) 2 1024

def cStreamOpen : Cmd := { Cmd.base with
  opcode := 0x0501, ten := .acts, lenOk := fun ps => ps.length == 64,
  denied := fun h ps s =>
    (streamBufOk ps && !ownedBy s h.tenant.toNat (u64 ps 32) (u16 ps 44 * u32 ps 40))
    || (isPow2In (u16 ps 44) 2 1024 && !ownedBy s h.tenant.toNat (u64 ps 48) (u16 ps 44 * 64))
    || u64 ps 48 % 4096 != 0,
  stateOk := fun h ps s => tenLive h s && (s.ctxs.get? (u8 ps 0)).isNone && !pairTaken s ps
    && !((u8 ps 1 == 0 && s.gated 3 (u8 ps 2)) || (u8 ps 1 == 1 && s.gated 4 (u8 ps 2))),
  paramOk := fun _ ps s => streamParamsOk s ps,
  effect := fun _ h ps s =>
    let k := u8 ps 0
    let s := { s with maps := s.maps.erase k, ctxLeft := s.ctxLeft.erase k }
    setCtxSt k .idle 0 { s with ctxs := s.ctxs.set k { openCtx h.tenant.toNat ps with st := .closed } } }

def execStreamOpen (h : Hdr) (ps : List Byte) (s : State) : Host.Outcome State Fault Refusal :=
  cStreamOpen.exec h ps s

/-- CTX names an open context of TENANT. -/
def ownsCtx (h : Hdr) (k : Nat) (s : State) : Bool :=
  match s.ctxs.get? k with
  | some c => c.tenant == h.tenant.toNat
  | none => false

/-- A stream command of one context. -/
def cStream (op : Nat) : Cmd := { Cmd.base with
  opcode := op, ten := .acts, states := stQuery, lenOk := fun ps => ps.length == 4,
  paramOk := fun h ps s => ownsCtx h (u8 ps 0) s && zeroAt ps 1 3 }

def cStreamClose : Cmd := { cStream 0x0502 with
  effect := fun _ _ ps s => closeStream (u8 ps 0) s }

def execStreamClose (h : Hdr) (ps : List Byte) (s : State) : Host.Outcome State Fault Refusal :=
  cStreamClose.exec h ps s

def cStreamStart : Cmd := { cStream 0x0503 with
  effect := fun _ _ ps s => syncStreams (modCtx (u8 ps 0) (fun c =>
    if c.started then c else { c with started := true, units := 0 }) s) }

def execStreamStart (h : Hdr) (ps : List Byte) (s : State) : Host.Outcome State Fault Refusal :=
  cStreamStart.exec h ps s

def cStreamStop : Cmd := { cStream 0x0504 with
  effect := fun _ _ ps s => syncStreams (modCtx (u8 ps 0) (fun c => { c with started := false }) s) }

def execStreamStop (h : Hdr) (ps : List Byte) (s : State) : Host.Outcome State Fault Refusal :=
  cStreamStop.exec h ps s

def cStreamStatus : Cmd := { cStream 0x0505 with
  ten := .asks, maxReply := 16,
  data := fun _ ps s =>
    match s.ctxs.get? (u8 ps 0) with
    | none => []
    | some c => leBytes 1 c.st.code ++ leBytes 1 (b2n c.started) ++ leBytes 1 c.reason ++ [0x00]
        ++ leBytes 4 c.units ++ leBytes 4 c.truncs ++ leBytes 4 c.drops }

def execStreamStatus (h : Hdr) (ps : List Byte) (s : State) : Host.Outcome State Fault Refusal :=
  cStreamStatus.exec h ps s

/-! ## Domains and the active domain (R234 to R237) -/

def State.dom (s : State) (d : Nat) : Dom := if d = 0 then s.time.d0 else s.time.d1
def State.setDom (s : State) (d : Nat) (v : Dom) : State :=
  if d = 0 then { s with time := { s.time with d0 := v } } else { s with time := { s.time with d1 := v } }

/-- A MAC before its link first comes up. -/
def EthSt.down : EthSt := ⟨false, false, 0⟩
def State.ethSt (s : State) (m : Nat) : EthSt := s.eth.getD m EthSt.down
def macUp (s : State) (m : Nat) : Bool := (s.ethSt m).link
def macCap (s : State) (m : Nat) : Bool := (s.ethSt m).asCap

/-- Domain time minus device time now, in ns (R236). -/
def Dom.ofs (d : Dom) : Int := d.serv + d.drift / (2 ^ 32 * 1000000 : Nat)

/-- Change the gateway; one controller or MAC of it. -/
def modGwy (f : Gwy → Gwy) (s : State) : State := { s with gwy := f s.gwy }
/-- A controller or MAC before its first GW_PORT_CFG: classical CAN, no ENCAP. -/
def NetPort.fresh : NetPort := ⟨[], none, [], []⟩
def State.netPort (s : State) (p : Nat) : NetPort := s.gwy.ports.getD p NetPort.fresh
def modNetPort (p : Nat) (f : NetPort → NetPort) (s : State) : State :=
  modGwy (fun g => { g with ports := g.ports.set p (f (g.ports.getD p NetPort.fresh)) }) s
/-- What a MAC sends without its transmit queue: gPTP messages and launch frames. -/
def macSend (mac : Nat) (frame : List Byte) (s : State) : State :=
  let f : TxFrame := ⟨0, s.time.ns, 3, 0, 0, 0, frame⟩
  modNetPort (0x10 + mac) (fun n => { n with sent := n.sent ++ [⟨f, none⟩] }) s

/-- EV_TIME (R237). With no active domain no offset exists: a free value (log 9). -/
def evTime (new prev cause : Nat) (s : State) : State :=
  let f := takeFree s
  let o : Int := if new = 3 then asInt 32 (Config.freeNat f.1) else (s.dom new).ofs
  offer0 0x05F1 (leBytes 1 new ++ leBytes 1 prev ++ leBytes 1 cause ++ [0x00] ++ satBytes 4 o) f.2

/-- The rate that the servo steers to: the active domain's rate plus its offset ÷ TAU_S, that term
within ±50 ppm; the present rate with no domain active (R235, R236). Units of 2^-16 ppm. -/
def targetRate (s : State) : Int :=
  let t := s.time
  if t.active = 3 then t.rate
  else
    let d := s.dom t.active
    let o := d.ofs * 65536 / (1000 * max 1 t.tauS : Nat)
    max (-72089600) (min 72089600 (d.rate + max (-3276800) (min 3276800 o)))

/-- The servo moves the rate by at most 10 ppm per second since it last moved (R223, R236); while the
PMC restarts device time keeps its rate (R238). -/
def servo (s : State) : State :=
  let t := s.time
  if s.fwDown fwPmc then { s with time := { t with rateAt := t.ns } }
  else
    let lim := (t.ns - t.rateAt) * 655360 / 1000000000
    if lim = 0 then s
    else
      let d := targetRate s - t.rate
      { s with time := { t with
          rate := t.rate + max (-(lim : Int)) (min (lim : Int) d),
          rateAt := t.rateAt + lim * 1000000000 / 655360 } }

/-- Some pulse is armed; some launch entry is pending. -/
def pulseArmed (s : State) : Bool := s.tpos.any (fun _ p => p.prog.isSome)
def launchPending (s : State) : Bool := s.launch.any (fun _ l => l.ltail != l.lhead)

/-- A step forward of device time by `d` ns: EV_TIME cause 6, and every context marks its next unit
RESYNC (R236, R243). -/
def stepTime (d : Nat) (s : State) : State :=
  let s := evTime s.time.active s.time.active 6 s
  let mv := fun (x : Dom) => { x with serv := x.serv - (d : Int), lastSync := x.lastSync.map (· + d) }
  let t := s.time
  { s with
    time := { t with ns := t.ns + d, rateAt := t.rateAt + d, d0 := mv t.d0, d1 := mv t.d1 },
    ctxs := s.ctxs.mapV (fun c => { c with resync := true }) }

/-- The domain that R235 makes active. -/
def wantActive (s : State) : Nat :=
  let p := s.time.pref
  let o := 1 - p
  if (s.dom p).valid then (if s.time.active == o && (s.dom o).valid then o else p)
  else if (s.dom o).valid then o
  else 3

/-- The automatic step of READY (R236). -/
def autostep (prev : Nat) (s : State) : State :=
  let o := (s.dom s.time.active).ofs
  if s.dev.st == .ready && s.time.autostep && !pulseArmed s && !launchPending s && prev == 3
    && s.time.active != 3 && decide (0 < o) then stepTime o.toNat s
  else s

/-- Make a domain active: EV_TIME with the cause of the change, 5 after a time with none (R235, R237). -/
def setActive (n cause : Nat) (s : State) : State :=
  let prev := s.time.active
  if n == prev then s
  else
    let s := noteDeg { s with time := { s.time with active := n, switches := satAdd 0xFF s.time.switches 1 } }
    autostep prev (evTime n prev (if prev == 3 then 5 else cause) s)

/-- Choose the active domain again after a change of validity. -/
def reselect (cause : Nat) (s : State) : State := setActive (wantActive s) cause s

/-- A Sync message of a configured domain (R234); lost while the PMC restarts (R238). `rate` is in
2^-16 ppm, `offset` in ns. -/
def execSyncReceived (mac domNum gm : Nat) (offset rate : Int) (s : State) :
    Host.Outcome State Fault Refusal :=
  let k := if s.time.d0.enabled && s.time.d0.mac == mac && s.time.d0.domNum == domNum then some 0
    else if s.time.d1.enabled && s.time.d1.mac == mac && s.time.d1.domNum == domNum then some 1 else none
  match k with
  | none => .next s
  | some k =>
    if s.fwDown fwPmc || !macUp s mac then .next s
    else
      let s := servo s
      let d := s.dom k
      let chg := d.lastSync.isSome && d.gm != gm
      let run := if chg then 1 else min 4 (d.run + 1)
      let d := { d with
        gm := gm, run := run, gmchg := if chg then satAdd 0xFF d.gmchg 1 else d.gmchg,
        offset := offset, serv := offset, drift := 0, rate := rate, lastSync := some s.time.ns,
        valid := macCap s mac && decide (4 ≤ run) }
      .next (reselect 3 (s.setDom k d))

/-- 3 × 2^LOGSYNC s pass without a Sync (R234). -/
def execSyncTimeout (dom : Nat) (s : State) : Host.Outcome State Fault Refusal :=
  if dom < 2 && (s.dom dom).enabled then
    let s := servo s
    .next (reselect 1 (s.setDom dom { s.dom dom with valid := false, run := 0 }))
  else .next s

/-- The domains on a MAC stop being VALID. -/
def invalidMac (mac : Nat) (s : State) : State :=
  let f := fun (d : Dom) => if d.mac == mac then { d with valid := false, run := 0 } else d
  { s with time := { s.time with d0 := f s.time.d0, d1 := f s.time.d1 } }

def execEthLinkLoss (mac : Nat) (s : State) : Host.Outcome State Fault Refusal :=
  if mac < s.nMacs then
    .next (reselect 2 (invalidMac mac { servo s with eth := s.eth.set mac { s.ethSt mac with link := false, asCap := false } }))
  else .next s

/-- The link of a MAC comes up at one of the rates of Table 1. -/
def execEthLinkUp (mac mbps : Nat) (s : State) : Host.Outcome State Fault Refusal :=
  if mac < s.nMacs && !macUp s mac then .next { s with eth := s.eth.set mac ⟨true, false, mbps⟩ } else .next s

/-- A peer-delay message of a configured domain is answered or sent, and the mechanism updates the port's asCapable
status (R234); lost while the PMC restarts (R238). -/
def execPeerDelayMessage (mac domNum : Nat) (capable : Bool) (s : State) :
    Host.Outcome State Fault Refusal :=
  let on := fun (d : Dom) => d.enabled && d.mac == mac
  let named := (on s.time.d0 && s.time.d0.domNum == domNum) || (on s.time.d1 && s.time.d1.domNum == domNum)
  if s.fwDown fwPmc || !macUp s mac || !named then .next s
  else
    let f := fun (d : Dom) => if on d then { d with valid := capable && decide (4 ≤ d.run) } else d
    let r := takeFree (servo s)
    let s := macSend mac (Config.peerDelay mac domNum r.1) r.2
    .next (reselect 2 { s with
      eth := s.eth.set mac { s.ethSt mac with asCap := capable }, time := { s.time with d0 := f s.time.d0, d1 := f s.time.d1 } })

/-- PREF has been VALID for REVERT_S (R235). -/
def execDomainRevert (s : State) : Host.Outcome State Fault Refusal :=
  if (s.dom s.time.pref).valid && s.time.active == 1 - s.time.pref && s.time.revertS != 0 then
    .next (setActive s.time.pref 4 (servo s))
  else .next s

/-! ## Time commands (R243, Table 14 of chapter 08) -/

/-- The removal of an offset larger than 1 µs is under way. -/
def slewing (s : State) : Bool :=
  s.time.active != 3 && decide (1000 < (s.dom s.time.active).ofs.natAbs)

def Dom.off : Dom := ⟨false, 0, 0, 0, false, 0, 0, 0, 0, 0, 0, 0, none⟩

/-- A domain's 8 bytes of TIME_CFG. -/
def domOk (s : State) (ps : List Byte) (o : Nat) : Bool :=
  u8 ps o ≤ 1 && u8 ps (o + 1) < s.nMacs && u8 ps (o + 2) ≤ 127
    && decide (-7 ≤ asInt 8 (u8 ps (o + 3))) && decide (asInt 8 (u8 ps (o + 3)) ≤ 3) && zeroAt ps (o + 4) 4

/-- A domain after TIME_CFG: unchanged in ENABLE, PORT and domainNumber it keeps its tracker. -/
def cfgDom (d : Dom) (ps : List Byte) (o : Nat) : Dom :=
  let en := u8 ps o == 1
  if d.enabled == en && d.mac == u8 ps (o + 1) && d.domNum == u8 ps (o + 2) then
    { d with logSync := asInt 8 (u8 ps (o + 3)) }
  else { Dom.off with enabled := en, mac := u8 ps (o + 1), domNum := u8 ps (o + 2),
                      logSync := asInt 8 (u8 ps (o + 3)) }

def cTimeCfg : Cmd := { Cmd.base with
  opcode := 0x0510, units := fun _ _ => [fwPmc], lenOk := fun ps => ps.length == 32,
  stateOk := fun _ ps s => !((u8 ps 0 == 1 && s.gated 4 (u8 ps 1)) || (u8 ps 8 == 1 && s.gated 4 (u8 ps 9))),
  paramOk := fun _ ps s => domOk s ps 0 && domOk s ps 8
    && !(u8 ps 0 == 1 && u8 ps 8 == 1 && u8 ps 1 == u8 ps 9 && u8 ps 2 == u8 ps 10)
    && u8 ps 16 ≤ 1 && 1 ≤ u8 ps 17 && u8 ps 17 ≤ 64 && u16 ps 18 ≤ 3600 && u8 ps 20 ≤ 1 && zeroAt ps 21 11,
  entries := fun _ _ _ => 1,
  effect := fun _ h ps s =>
    let s := servo (journalCmd h 0x0510 (u8 ps 16) 0 s)
    let t := s.time
    reselect 1 { s with time := { t with
      d0 := cfgDom t.d0 ps 0, d1 := cfgDom t.d1 ps 8, pref := u8 ps 16, tauS := u8 ps 17,
      revertS := u16 ps 18, autostep := u8 ps 20 == 1 } } }

def execTimeCfg (h : Hdr) (ps : List Byte) (s : State) : Host.Outcome State Fault Refusal :=
  cTimeCfg.exec h ps s

/-- OFFSET and Sync age of a domain that has received a Sync since it was configured. -/
def domStatus (s : State) (d : Dom) : List Byte :=
  leBytes 1 (b2n d.valid) ++ leBytes 1 d.gmchg ++ zeros 2 ++
    (match d.lastSync with
     | some t => satBytes 4 d.offset ++ leBytes 4 (min 0xFFFFFFFF ((s.time.ns - t) / 1000))
     | none => zeros 4 ++ leBytes 4 0xFFFFFFFF)

def cTimeStatus : Cmd := { Cmd.base with
  opcode := 0x0511, units := fun _ _ => [fwPmc], states := stQuery, maxReply := 32,
  data := fun _ _ s =>
    let s := servo s
    leBytes 1 s.time.active
      ++ leBytes 1 (b2n (s.time.active == 3) + 2 * b2n s.clk.hold + 4 * b2n (slewing s)) ++ zeros 2
      ++ satBytes 4 s.time.rate ++ domStatus s s.time.d0 ++ domStatus s s.time.d1 }

def execTimeStatus (h : Hdr) (ps : List Byte) (s : State) : Host.Outcome State Fault Refusal :=
  cTimeStatus.exec h ps s

/-- The time that TIME_STEP moves to, in whole ns. -/
def stepTarget (ps : List Byte) (s : State) : Int :=
  if u8 ps 0 == 0 then u64 ps 4 else (s.time.ns : Int) + (s.dom (u8 ps 0 - 1)).ofs

def cTimeStep : Cmd := { Cmd.base with
  opcode := 0x0512, units := fun _ _ => [fwPmc], states := [.ready], lenOk := fun ps => ps.length == 12,
  stateOk := fun _ ps s => !pulseArmed s && !launchPending s
    && (u8 ps 0 == 0 || 2 < u8 ps 0 || (s.dom (u8 ps 0 - 1)).valid),
  paramOk := fun _ ps s => u8 ps 0 ≤ 2 && zeroAt ps 1 3 && decide ((s.time.ns : Int) < stepTarget ps s),
  entries := fun _ _ _ => 1,
  effect := fun _ h ps s =>
    let n := stepTarget ps s
    let s := journalCmd h 0x0512 (u8 ps 0) (n.toNat % 2 ^ 32) s
    let s := stepTime (n - s.time.ns).toNat s
    if u8 ps 0 == 0 then { s with time := { s.time with frac := 0 } } else s }

def execTimeStep (h : Hdr) (ps : List Byte) (s : State) : Host.Outcome State Fault Refusal :=
  cTimeStep.exec h ps s

/-! ## Pulses (R239, R240) -/

def Tpo.idle : Tpo := ⟨none, none, 0, 0, false, false, false, false⟩
def State.tpo (s : State) (k : Nat) : Tpo := s.tpos.getD k Tpo.idle

/-- START of PULSE_ARM, in 2^-16 ns. -/
def pulseStart (ps : List Byte) : Nat := u64 ps 4 * 65536 + u16 ps 12

def pulseOk (s : State) (ps : List Byte) : Bool :=
  let per := bit (u8 ps 1) 0
  u8 ps 0 < 8 * s.edies && u8 ps 1 ≤ 3 && zeroAt ps 2 2 && zeroAt ps 14 2 && zeroAt ps 28 4
    && s.now + 10000 * 65536 ≤ pulseStart ps && 8 ≤ u32 ps 20
    && (if per then 16 ≤ u32 ps 16 && u32 ps 20 + 8 ≤ u32 ps 16 else u32 ps 20 ≤ 1000000000)

def cPulseArm : Cmd := { Cmd.base with
  opcode := 0x0520, units := fun _ _ => [fwPmc], states := stQuery, lenOk := fun ps => ps.length == 32,
  paramOk := fun _ ps s => pulseOk s ps,
  effect := fun _ _ ps s =>
    let k := u8 ps 0
    let p := s.tpo k
    let g : PulseProg := ⟨pulseStart ps, u32 ps 16 * 65536, u32 ps 20 * 65536,
      if bit (u8 ps 1) 0 then u32 ps 24 else 1, bit (u8 ps 1) 1⟩
    let p := if p.inPulse then { p with next := some g }
      else { p with prog := some g, next := none, n := 0, cancelled := false, driven := true, low := g.low }
    { s with tpos := s.tpos.set k p } }

def execPulseArm (h : Hdr) (ps : List Byte) (s : State) : Host.Outcome State Fault Refusal :=
  cPulseArm.exec h ps s

def cPulseCancel : Cmd := { Cmd.base with
  opcode := 0x0521, units := fun _ _ => [fwPmc], states := stQuery, lenOk := fun ps => ps.length == 4,
  paramOk := fun _ ps s => u8 ps 0 < 8 * s.edies && zeroAt ps 1 3,
  effect := fun _ _ ps s =>
    let k := u8 ps 0
    let p := s.tpo k
    let p := if p.inPulse then { p with cancelled := true, next := none }
      else { p with prog := none, next := none }
    { s with tpos := s.tpos.set k p } }

def execPulseCancel (h : Hdr) (ps : List Byte) (s : State) : Host.Outcome State Fault Refusal :=
  cPulseCancel.exec h ps s

/-- After a pulse: the next programme, the next edge of this one, or none (R239, R240). -/
def Tpo.ended (p : Tpo) (g : PulseProg) : Tpo :=
  match p.next with
  | some x => { p with prog := some x, next := none, n := 0, inPulse := false, cancelled := false,
                       low := x.low }
  | none =>
    if p.cancelled || (g.count != 0 && g.count ≤ p.n + 1) then
      { p with prog := none, n := p.n + 1, inPulse := false, cancelled := false }
    else { p with n := p.n + 1, inPulse := false }

/-- Edge n of an armed output begins its pulse once device time has reached it, or the pulse ends, WIDTH after its edge
(R239). -/
def execPulseEdge (tpo : Nat) (s : State) : Host.Outcome State Fault Refusal :=
  let p := s.tpo tpo
  match p.prog with
  | none => .next s
  | some g =>
    let t := g.start + p.n * g.period
    if p.inPulse then
      if p.edgeAt + g.width ≤ s.now then .next { s with tpos := s.tpos.set tpo (p.ended g) } else .next s
    else if t ≤ s.now then .next { s with tpos := s.tpos.set tpo { p with inPulse := true, edgeAt := s.now } }
    else .next s

/-! ## Captures (R241) -/

def Tci.off : Tci := ⟨0, [], 0⟩
def State.tci (s : State) (k : Nat) : Tci := s.tcis.getD k Tci.off

/-- The FIFO of an input empties into EV_CAPTURE events; not while the PMC restarts. -/
def drainTci (k : Nat) (s : State) : State :=
  if s.fwDown fwPmc then s
  else
    let t := s.tci k
    let r := t.fifo.foldl (fun (a : State × Nat) e =>
      (offer0 0x05F2 (leBytes 1 k ++ leBytes 1 e.1 ++ leBytes 2 (min a.2 0xFFFF)
        ++ leBytes 8 (e.2 / 65536) ++ leBytes 2 (e.2 % 65536) ++ zeros 2) a.1, 0)) (s, t.lost)
    { r.1 with tcis := r.1.tcis.set k { t with fifo := [], lost := r.2 } }

def cCaptureCfg : Cmd := { Cmd.base with
  opcode := 0x0530, units := fun _ _ => [fwPmc], states := stQuery, lenOk := fun ps => ps.length == 4,
  paramOk := fun _ ps s => u8 ps 0 < 4 * s.edies && u8 ps 1 ≤ 3 && zeroAt ps 2 2,
  effect := fun _ _ ps s => drainTci (u8 ps 0)
    { s with tcis := s.tcis.set (u8 ps 0) { s.tci (u8 ps 0) with edge := u8 ps 1 } } }

def execCaptureCfg (h : Hdr) (ps : List Byte) (s : State) : Host.Outcome State Fault Refusal :=
  cCaptureCfg.exec h ps s

/-- An edge on a capture input: stamped into the FIFO, or lost when it is full. -/
def execTciEdge (tci : Nat) (rising : Bool) (err : Int) (s : State) : Host.Outcome State Fault Refusal :=
  let t := s.tci tci
  let code := if rising then 1 else 2
  if tci < 4 * s.edies && (t.edge == code || t.edge == 3) then
    let at_ := ((s.now : Int) + max (-8) (min err 8) * 65536).toNat
    let t := if t.fifo.length < 16 then { t with fifo := t.fifo ++ [(code, at_)] }
      else { t with lost := t.lost + 1 }
    .next (drainTci tci { s with tcis := s.tcis.set tci t })
  else .next s

/-! ## Timed launch (R242) -/

def cLaunchCfg : Cmd := { Cmd.base with
  opcode := 0x0540, ten := .acts, lenOk := fun ps => ps.length == 24,
  denied := fun h ps s => u8 ps 1 == 1 && isPow2In (u16 ps 2) 16 1024 && !ownedBy s h.tenant.toNat (u64 ps 8) (u16 ps 2 * 32),
  stateOk := fun h ps s => tenLive h s && !(u8 ps 1 == 1 && s.gated 4 (u8 ps 0)),
  paramOk := fun h ps s =>
    u8 ps 0 < s.nMacs && u8 ps 1 ≤ 1 && zeroAt ps 16 8
    && (u8 ps 1 == 0 || (isPow2In (u16 ps 2) 16 1024 && 1 ≤ u32 ps 4 && u32 ps 4 ≤ 1000))
    && (match s.launch.get? (u8 ps 0) with
        | some l => l.tenant == h.tenant.toNat
        | none => true),
  effect := fun _ h ps s =>
    if u8 ps 1 == 0 then { s with launch := s.launch.erase (u8 ps 0) }
    else
      let l : Launch := ⟨h.tenant.toNat, u16 ps 2, u32 ps 4, u64 ps 8, 0, 0⟩
      { s with launch := s.launch.set (u8 ps 0) l } }

def execLaunchCfg (h : Hdr) (ps : List Byte) (s : State) : Host.Outcome State Fault Refusal :=
  cLaunchCfg.exec h ps s

/-- The host writes LTAIL on a MAC's doorbell page. -/
def execLtailWrite (w : DoorWrite) (s : State) : Host.Outcome State Fault Refusal :=
  match doorWord 0x100000 8 w with
  | some (mac, 0) =>
    match s.launch.get? mac with
    | none => .next s
    | some l => .next { s with launch := s.launch.set mac { l with ltail := w.val % 65536 } }
  | _ => .next s

/-- What an aligned 32-bit read of that page gives. -/
def launchDoorRead (s : State) (off : Nat) : Nat :=
  match doorWord 0x100000 8 ⟨off, 4, 0⟩ with
  | some (mac, o) => match s.launch.get? mac with
    | some l => if o = 0 then l.ltail else if o = 4 then l.lhead else 0
    | none => 0
  | none => 0

/-- STATUS of the head entry of a ring (R242): none while its LTIME is still to come. -/
def launchStatus (s : State) (l : Launch) (e : List Byte) (busy : Bool) : Option Nat :=
  if u64 e 0 + l.lateUs * 1000 < s.time.ns then some 3
  else if s.time.ns < u64 e 0 then none
  else if accessCheck s (accTenant s l.tenant) (u64 e 8) (u16 e 16) != 0 then some 4
  else some (if busy then 2 else 1)

/-- The head entry of a launch ring is sent, or marked, and LHEAD advances. An entry that was not sent
keeps its TSENT. -/
def execLaunchEntry (mac : Nat) (busy : Bool) (err : Int) (s : State) : Host.Outcome State Fault Refusal :=
  match s.launch.get? mac with
  | none => .next s
  | some l =>
    if l.ltail == l.lhead then .next s
    else
      let a := l.base + l.lhead % l.depth * 32
      let rd := checkedRead (accTenant s l.tenant) a 32 s
      let e := rd.1
      let s := rd.2
      if !ownedBy s l.tenant a 32 then .next s
      else match launchStatus s l e busy with
      | none => .next s
      | some st =>
        let sent := st == 1 || st == 2
        let ts := (s.time.ns + max (-8) (min err 16)).toNat
        let s := { s with launch := s.launch.set mac { l with lhead := (l.lhead + 1) % 65536 } }
        let s := ownWrite l.tenant (a + 18) (leBytes 1 st) s
        if sent then
          let f := checkedRead (accTenant s l.tenant) (u64 e 8) (u16 e 16) s
          .next (macSend mac f.1 (ownWrite l.tenant (a + 20) (leBytes 8 ts) f.2))
        else if st == 4 then
          let c := accTenant s l.tenant
          .next (violate c false (accessCheck s c (u64 e 8) (u16 e 16)) (u64 e 8) s)
        else .next s

end Sys2Proof.Machine
end

