-- ==== Sys2Proof/Machine/Fusion.lean ====
section
/-! DEFINITION. Group 0x06xx and the fusion engines: clock-map commands (R244 to R247), contexts and
pending changes (R260, R264), calls (R261 to R263). -/

namespace Sys2Proof.Machine

open Sys2Proof

/-! ## Clock-map commands (Table 8 of chapter 09) -/

def fusMapOk (ps : List Byte) : Bool :=
  u8 ps 1 ≤ 1 && u8 ps 2 ≤ 3 && u32 ps 4 ≤ 65527 && 1 ≤ u32 ps 8 && 10 ≤ u32 ps 12 && u32 ps 12 ≤ 10000000
    && decide (-1000000000 ≤ asInt 32 (u32 ps 16)) && decide (asInt 32 (u32 ps 16) ≤ 1000000000)
    && 4 ≤ u8 ps 20 && u8 ps 20 ≤ 64 && u8 ps 21 == 0 && 1 ≤ u16 ps 22 && u16 ps 22 ≤ 1000

def cFusMapCfg : Cmd := { Cmd.base with
  opcode := 0x0601, ten := .acts, lenOk := fun ps => ps.length == 24,
  paramOk := fun h ps s => ownsCtx h (u8 ps 0) s && fusMapOk ps,
  effect := fun _ _ ps s => modMapK (u8 ps 0) (fun m => { ClockMap.fresh with
    cfg := true, src := u8 ps 1, flags := u8 ps 2, kindSel := u8 ps 3, off := u32 ps 4,
    tickPs := u32 ps 8, errNs := u32 ps 12, ofsNs := asInt 32 (u32 ps 16), nfit := u8 ps 20,
    limPpm := u16 ps 22, table := m.table }) s }

def execFusMapCfg (h : Hdr) (ps : List Byte) (s : State) : Host.Outcome State Fault Refusal :=
  cFusMapCfg.exec h ps s

def cFusMapStatus : Cmd := { Cmd.base with
  opcode := 0x0602, ten := .asks, states := stQuery, lenOk := fun ps => ps.length == 4, maxReply := 20,
  paramOk := fun h ps s => ownsCtx h (u8 ps 0) s && zeroAt ps 1 3,
  data := fun _ ps s =>
    let m := s.map (u8 ps 0)
    leBytes 1 m.mst ++ leBytes 1 m.pairs.length ++ zeros 2 ++ leBytes 4 (min 0xFFFFFFFF m.maperr)
      ++ (match m.fit with
          | some f => satBytes 4 f.r16 ++ satBytes 8 f.aNs
          | none => zeros 12) }

def execFusMapStatus (h : Hdr) (ps : List Byte) (s : State) : Host.Outcome State Fault Refusal :=
  cFusMapStatus.exec h ps s

/-! ## Contexts (Table 9 of chapter 09) -/

def fusGridDim (n : Nat) : Bool := 64 ≤ n && n ≤ 1024 && n % 8 == 0

def fusOpenOk (ps : List Byte) : Bool :=
  u8 ps 0 ≤ 3 && u8 ps 1 ≤ 7 && fusGridDim (u16 ps 2) && fusGridDim (u16 ps 4)
  && 50 ≤ u16 ps 6 && u16 ps 6 ≤ 1000 && u8 ps 8 ≤ 63 && 1 ≤ u8 ps 9 && u8 ps 9 ≤ u8 ps 10
  && u8 ps 10 ≤ 8 && 1 ≤ u8 ps 11 && u8 ps 11 ≤ 16 && 1 ≤ u8 ps 12 && u8 ps 12 ≤ 64 && u8 ps 13 == 0
  && 100 ≤ u16 ps 14 && u16 ps 14 ≤ 20000 && unitRange (u32 ps 16) && unitRange (u32 ps 20)
  && !fnonfin (u32 ps 24) && flt f32zero (u32 ps 24) && !fnonfin (u32 ps 28) && fle f32zero (u32 ps 28)
  && unitRange (u32 ps 32) && 1 ≤ u32 ps 36 && u32 ps 36 ≤ u16 ps 2 * u16 ps 4 && zeroAt ps 40 8

def FusState.fresh : FusState := ⟨Map.empty, [], [], 1, 0, Map.empty, 0⟩

def openFus (t : Nat) (ps : List Byte) : FusCtx :=
  { tenant := t, flags := u8 ps 1, gx := u16 ps 2, gy := u16 ps 4, cellMm := u16 ps 6, occ := u8 ps 8,
    birthM := u8 ps 9, birthN := u8 ps 10, confC := u8 ps 11, delK := u8 ps 12, gateMm := u16 ps 14,
    alpha := u32 ps 16, beta := u32 ps 20, wmin := u32 ps 24, cthr := u32 ps 28, hyst := u32 ps 32,
    minCells := u32 ps 36, sensors := Map.empty, st := FusState.fresh, gen := 0, next := none, began := none,
    pend := [], closing := none }

def cFusOpen : Cmd := { Cmd.base with
  opcode := 0x0610, ten := .acts, lenOk := fun ps => ps.length == 48,
  stateOk := fun h ps s => tenLive h s && (s.fctxs.get? (u8 ps 0)).isNone,
  paramOk := fun _ ps _ => fusOpenOk ps,
  resource := fun _ _ s => if storeSize - s.storeUsed < 2 ^ 20 then NO_RESOURCE else 0,
  effect := fun _ h ps s => { s with fctxs := s.fctxs.set (u8 ps 0) (openFus h.tenant.toNat ps) } }

def execFusOpen (h : Hdr) (ps : List Byte) (s : State) : Host.Outcome State Fault Refusal :=
  cFusOpen.exec h ps s

/-- CTX names an open context of TENANT that is not closing. -/
def ownsFus (h : Hdr) (k : Nat) (s : State) : Bool :=
  match s.fctxs.get? k with
  | some c => c.tenant == h.tenant.toNat
  | none => false

/-- A context's closing is over or not begun, where the context is TENANT's. -/
def fusNotClosing (h : Hdr) (k : Nat) (s : State) : Bool :=
  match s.fctxs.get? k with
  | some c => c.tenant != h.tenant.toNat || c.closing.isNone
  | none => true

/-- Some call of a context: running or pre-empted, waiting. -/
def fusCallOn (n : Nat) (r : FusCall) : Bool := u8 r.desc 0 == n
def FusEng.active (e : FusEng) : List FusCall := e.running.toList ++ e.saved.toList
def fusRunning (s : State) (n : Nat) : Bool := (s.feng0.active ++ s.feng1.active).any (fusCallOn n)
def fusBusy (s : State) (n : Nat) : Bool :=
  fusRunning s n || (s.feng0.queue ++ s.feng1.queue).any (fusCallOn n)

/-- A call on a context is in progress or waiting as changes see it: one that has ended stays in progress until its
job commits or ends, since a restart runs it again from the same state (R261, R264; DEDUCED, log 21). -/
def fusHeld (s : State) (n : Nat) : Bool :=
  fusBusy s n || (match s.fctxs.get? n with
    | some c => c.began.isSome
    | none => false)

def cFusClose : Cmd := { Cmd.base with
  opcode := 0x0611, ten := .acts, states := stQuery, lenOk := fun ps => ps.length == 4, cpl := some 0,
  stateOk := fun h ps s => fusNotClosing h (u8 ps 0) s,
  paramOk := fun h ps s => ownsFus h (u8 ps 0) s && zeroAt ps 1 3,
  effect := fun tok _ ps s =>
    match s.fctxs.get? (u8 ps 0) with
    | none => s
    | some c => { s with fctxs := s.fctxs.set (u8 ps 0) { c with closing := some tok } } }

def execFusClose (h : Hdr) (ps : List Byte) (s : State) : Host.Outcome State Fault Refusal :=
  cFusClose.exec h ps s

/-- No call on a closing context runs: its state is freed and FUS_CLOSE completes (R264). -/
def execFusCloseDone (ctx : Nat) (s : State) : Host.Outcome State Fault Refusal :=
  match s.fctxs.get? ctx with
  | none => .next s
  | some c => if c.closing.isSome && !fusRunning s ctx && !s.fwDown fwSch then .next (freeFusCtx ctx s) else .next s

/-! ## Pending changes (R264) -/

/-- One change applied to the committed state. -/
def applyOne (c : FusCtx) : FusChange → FusCtx
  | .sensor i x =>
    let fresh := match c.sensors.get? i with
      | some o => o.ext != x.ext || o.kind != x.kind || o.stream != x.stream
      | none => true
    { c with sensors := c.sensors.set i x,
             st := if fresh then { c.st with corr := c.st.corr.set i FusCorr.zero } else c.st }
  | .reset i =>
    if i = 0xFF then { c with st := { c.st with corr := Map.empty } }
    else { c with st := { c.st with corr := c.st.corr.set i FusCorr.zero } }

def FusChange.idx : FusChange → Nat
  | .sensor i _ => i
  | .reset i => i

/-- Apply one pending change: EV_FUSION event 4, the completion, and AT_BOUND changes. -/
def applyPend (n : Nat) (p : Nat × FusChange) (s : State) : State :=
  match s.fctxs.get? n with
  | none => s
  | some c =>
    let c' := applyOne c p.2
    let s := boundEvents n c c' { s with fctxs := s.fctxs.set n c' }
    complete p.1 OK [] (evFusion n 4 p.2.idx 0 (c.gen % 2 ^ 32) s)

/-- Apply every pending change, in order. -/
def applyAll (n : Nat) (s : State) : State :=
  match s.fctxs.get? n with
  | none => s
  | some c => c.pend.foldl (fun s p => applyPend n p s) { s with fctxs := s.fctxs.set n { c with pend := [] } }

/-- Queue a change; with no call in progress or waiting it is applied at once. -/
def pendChange (n tok : Nat) (g : FusChange) (s : State) : State :=
  match s.fctxs.get? n with
  | none => s
  | some c =>
    let s' := { s with fctxs := s.fctxs.set n { c with pend := c.pend ++ [(tok, g)] } }
    if fusHeld s n then s' else applyAll n s'

/-- The sensors as they will be once every pending change is applied. -/
def futureSensors (c : FusCtx) : Map FusSensor :=
  c.pend.foldl (fun m p => match p.2 with
    | .sensor i x => m.set i x
    | .reset _ => m) c.sensors

def sensorOf (ps : List Byte) : FusSensor :=
  { flags := u8 ps 2, kind := u8 ps 3, stream := u8 ps 4, maxAge := u32 ps 8,
    ext := (List.range 12).map (fun i => u32 ps (12 + 4 * i)), fx := u32 ps 60, fy := u32 ps 64,
    cx := u32 ps 68, cy := u32 ps 72, sx := u32 ps 76, sy := u32 ps 80, dmin := u32 ps 84,
    dmax := u32 ps 88, nd := u8 ps 92, stepT := u16 ps 94, stepR := u32 ps 96, limT := u16 ps 100,
    limR := u32 ps 104 }

def fusSensorOk (h : Hdr) (ps : List Byte) (s : State) : Bool :=
  let cam := u8 ps 3 == 0
  u8 ps 1 < 32 && u8 ps 2 ≤ 7 && u8 ps 3 ≤ 1 && ownsCtx h (u8 ps 4) s && zeroAt ps 5 3
  && 1 ≤ u32 ps 8 && u32 ps 8 ≤ 1000000 && (List.range 12).all (fun i => !fnonfin (u32 ps (12 + 4 * i)))
  && (!cam || ((List.range 8).all (fun i => !fnonfin (u32 ps (60 + 4 * i)))
        && flt f32zero (u32 ps 84) && flt (u32 ps 84) (u32 ps 88) && 1 ≤ u8 ps 92 && u8 ps 92 ≤ 64))
  && u8 ps 93 == 0 && 1 ≤ u16 ps 94 && u16 ps 94 ≤ 100 && 10 ≤ u32 ps 96 && u32 ps 96 ≤ 10000
  && 1 ≤ u16 ps 100 && u16 ps 100 ≤ 1000 && zeroAt ps 102 2 && 10 ≤ u32 ps 104 && u32 ps 104 ≤ 200000
  && zeroAt ps 108 4

/-- A context with REFINE = 1 keeps an enabled sensor with REF = 1. -/
def keepsRef (h : Hdr) (ps : List Byte) (s : State) : Bool :=
  match s.fctxs.get? (u8 ps 0) with
  | none => true
  | some c =>
    c.tenant != h.tenant.toNat || !bit c.flags 2 ||
      ((futureSensors c).set (u8 ps 1) (sensorOf ps)).any (fun _ x => bit x.flags 0 && bit x.flags 1)

def cFusSensorSet : Cmd := { Cmd.base with
  opcode := 0x0612, ten := .acts, lenOk := fun ps => ps.length == 112, cpl := some 0,
  stateOk := fun h ps s => fusNotClosing h (u8 ps 0) s && keepsRef h ps s,
  paramOk := fun h ps s => ownsFus h (u8 ps 0) s && fusSensorOk h ps s,
  effect := fun tok _ ps s => pendChange (u8 ps 0) tok (.sensor (u8 ps 1) (sensorOf ps)) s }

def execFusSensorSet (h : Hdr) (ps : List Byte) (s : State) : Host.Outcome State Fault Refusal :=
  cFusSensorSet.exec h ps s

def cFusCalibReset : Cmd := { Cmd.base with
  opcode := 0x0615, ten := .acts, lenOk := fun ps => ps.length == 4, cpl := some 0,
  stateOk := fun h ps s => fusNotClosing h (u8 ps 0) s,
  paramOk := fun h ps s => ownsFus h (u8 ps 0) s && (u8 ps 1 < 32 || u8 ps 1 == 0xFF) && zeroAt ps 2 2,
  effect := fun tok _ ps s => pendChange (u8 ps 0) tok (.reset (u8 ps 1)) s }

def execFusCalibReset (h : Hdr) (ps : List Byte) (s : State) : Host.Outcome State Fault Refusal :=
  cFusCalibReset.exec h ps s

/-! ## Status -/

def cFusStatus : Cmd := { Cmd.base with
  opcode := 0x0613, ten := .asks, states := stQuery, lenOk := fun ps => ps.length == 4, maxReply := 16,
  paramOk := fun h ps s => ownsFus h (u8 ps 0) s && zeroAt ps 1 3,
  data := fun _ ps s =>
    match s.fctxs.get? (u8 ps 0) with
    | none => []
    | some c => leBytes 4 c.gen ++ leBytes 2 c.st.tracks.length ++ leBytes 2 c.st.cands.length
        ++ leBytes 8 c.st.lastTv }

def execFusStatus (h : Hdr) (ps : List Byte) (s : State) : Host.Outcome State Fault Refusal :=
  cFusStatus.exec h ps s

/-- A sensor's report record at the committed generation: that of the last committed call, with the
correction, CONF and AT_BOUND as they now stand. -/
def committedRec (c : FusCtx) (i : Nat) : List Byte :=
  let k := c.st.corr.getD i FusCorr.zero
  let base := c.st.report.getD i (reportRec (match c.sensors.get? i with
    | some x => if bit x.flags 0 then 6 else 1
    | none => 7) false false false k 0 0)
  patch (patch (patch base 1 (leBytes 1 (setBit (u8 base 1) 0 (ctxBound c c.st i)))) 2 (leBytes 1 k.conf)) 12
    (leBytes 4 k.cx ++ leBytes 4 k.cy ++ leBytes 4 k.cyaw)

def cFusSensorStatus : Cmd := { Cmd.base with
  opcode := 0x0614, ten := .asks, states := stQuery, lenOk := fun ps => ps.length == 4, maxReply := 32,
  paramOk := fun h ps s => ownsFus h (u8 ps 0) s && u8 ps 1 < 32 && zeroAt ps 2 2,
  data := fun _ ps s =>
    match s.fctxs.get? (u8 ps 0) with
    | none => []
    | some c => committedRec c (u8 ps 1) }

def execFusSensorStatus (h : Hdr) (ps : List Byte) (s : State) : Host.Outcome State Fault Refusal :=
  cFusSensorStatus.exec h ps s

/-! ## Calls (R261 to R264) -/

/-- The context a call finds: open, its job's tenant's, not closing, not closed since the job's first
dispatch. -/
def fusCtxFor (s : State) (j : Job) (n : Nat) : Option FusCtx :=
  match s.fctxs.get? n with
  | some c =>
    if c.tenant == j.tenant && c.closing.isNone && ((s.fclosed.get? n).map (·.at_)).getD 0 ≤ j.dispNo then some c else none
  | none => none

/-- A slot on cluster `cl` issues a call for copy 0 (A) or 1 (B) of its job. -/
def execFusionCall (job cl copy : Nat) (desc : List Byte) (s : State) : Host.Outcome State Fault Refusal :=
  match s.jobs.get? job with
  | none => .next s
  | some j =>
    if j.st != .running then .next s
    else match fusCtxFor s j (u8 desc 0) with
      | none => .next (endJob job FAULT 0x0600 0 s)
      | some _ =>
        let e := s.feng (dieOf cl)
        .next (s.setFeng (dieOf cl) { e with queue := e.queue ++ [⟨job, cl, copy, j.lc, desc⟩] })

/-- No job dispatched earlier that holds a call on the context is still in flight (R261). -/
def fusReady (s : State) (r : FusCall) : Bool :=
  match s.jobs.get? r.job with
  | none => true
  | some j => !s.jobs.any (fun k x => k != r.job && x.inFlight && x.dispNo < j.dispNo
      && (match jobImage s x with
          | some (i, _) => i.fctxs.contains (u8 r.desc 0)
          | none => false))

/-- Drop the first element that passes. -/
def dropCall (f : FusCall → Bool) : List FusCall → List FusCall
  | [] => []
  | x :: t => if f x then t else x :: dropCall f t

/-- The call an engine starts next: latency-critical first, then the pre-empted one, then best-effort;
none while a call runs that may go on (R262). -/
def pickCall (s : State) (e : FusEng) : Option (FusCall × FusEng) :=
  let lc := e.queue.find? (fun r => r.lc && fusReady s r)
  match e.running, lc with
  | some r, some x =>
    if r.lc then none else some (x, ⟨some x, some r, dropCall (· == x) e.queue⟩)
  | some _, none => none
  | none, some x => some (x, ⟨some x, e.saved, dropCall (· == x) e.queue⟩)
  | none, none =>
    match e.saved with
    | some r => some (r, ⟨some r, none, e.queue⟩)
    | none =>
      match e.queue.find? (fusReady s) with
      | some x => some (x, ⟨some x, none, dropCall (· == x) e.queue⟩)
      | none => none

/-- A job's call has started on a context. -/
def beginCall (n job : Nat) (s : State) : State :=
  match s.fctxs.get? n with
  | some c => { s with fctxs := s.fctxs.set n { c with began := some job } }
  | none => s

/-- The engine of a die starts a call after its waits. Pending changes are applied first, unless the job has begun its
call before: the other copy's, or one that a restart runs again from the same state (R261). -/
def execFusionCallStart (die : Nat) (s : State) : Host.Outcome State Fault Refusal :=
  match pickCall s (s.feng die) with
  | none => .next s
  | some (x, e) =>
    let n := u8 x.desc 0
    match s.jobs.get? x.job with
    | none => .next (s.setFeng die { e with running := none })
    | some j =>
      if (s.feng die).saved == some x then .next (s.setFeng die e)
      else match fusCtxFor s j n with
        | none => .next (endJob x.job FAULT 0x0600 0 s)
        | some c =>
          let s := if c.began == some x.job then s else beginCall n x.job (applyAll n s)
          .next (s.setFeng die e)

/-- Read what the inputs of a call name. -/
def readInputs (job cl : Nat) : List FusIn → State → List FusBuf × State
  | [], s => ([], s)
  | i :: r, s =>
    let cam := i.cfg.kind == 0
    let n := if cam then u16 i.rec_ 2 * u16 i.rec_ 24 else u32 i.rec_ 24
    let a := zqRead job cl (zqSrc (u64 i.rec_ 8) n) s
    let d := if cam then zqRead job cl (zqSrc (u64 i.rec_ 16) n) a.2 else (⟨0, [], []⟩, a.2)
    let p := if cam then ([], d.2) else cdRead job cl (u64 i.rec_ 16) (12 * n) d.2
    let m := readInputs job cl r p.2
    (⟨i, a.1, d.1, p.1⟩ :: m.1, m.2)

/-- Detections a call names: the kept boxes of a Colander output, none where no input is included. -/
def readDets (job cl : Nat) (d : List Byte) (bufs : List FusBuf) (s : State) : List Det × State :=
  if u64 d 56 == 0 || bufs.isEmpty then ([], s)
  else
    let h := cdRead job cl (u64 d 56) 64 s
    let n := min 4096 (u32 h.1 0)
    let r := cdRead job cl (u64 d 56 + 64) (32 * n) h.2
    ((List.range n).map (fun i => detOf (sub r.1 (32 * i) 32)), r.2)

/-- Write a call's outputs, remember their header bytes, and hold the new state for the commit. -/
def writeFusion (r : FusCall) (o : FusOut) (s : State) : State :=
  let d := r.desc
  let n := u8 d 0
  let put := fun a bs s => jobWrite r.job r.cl a bs s
  let s := o.grid.foldl (fun s w => put w.1 w.2 s) s
  let s := put (u64 d 32) o.mask s
  let s := if u64 d 40 == 0 then s else put (u64 d 40) o.tracks s
  let s := put (u64 d 48) o.report s
  let hd := fun out => patch o.hdr 22 (leBytes 1 out)
  let hs := [(u64 d 16, hd 0), (u64 d 24, hd 0), (u64 d 32, hd 1), (u64 d 40, hd 2), (u64 d 48, hd 3)]
  let gs := match s.fctxs.get? n with
    | some c => [(⟨u64 d 16, u64 d 24, u64 d 32, c.gx, c.gy, c.cellMm, c.occ⟩ : GridRef)]
    | none => []
  let s := modJob r.job (fun j => { j with
    hdrs := j.hdrs.filter (fun x => !(hs.any (fun y => y.1 == x.1))) ++ hs,
    grids := j.grids.filter (fun x => x.data != u64 d 16) ++ gs }) s
  match s.fctxs.get? n, s.jobs.get? r.job with
  | some c, some _ =>
    if r.copy == 0 then { s with fctxs := s.fctxs.set n { c with next := some (r.job, o.st) } } else s
  | _, _ => s

/-- Codes that quantisation clamped (R88). -/
def countSat (cl n : Nat) (s : State) : State :=
  modCl cl (fun c => { c with qsat := c.qsat || decide (n ≠ 0), qsatCnt := satAdd 0xFFFF c.qsatCnt n }) s

/-- The running call of a die's engine ends (R250 to R263). -/
def execFusionCallDone (die : Nat) (s : State) : Host.Outcome State Fault Refusal :=
  let e := s.feng die
  match e.running with
  | none => .next s
  | some r =>
    let s := s.setFeng die { e with running := none }
    let n := u8 r.desc 0
    match s.jobs.get? r.job, s.fctxs.get? n with
    | some j, some c =>
      let (h, s) := cdRead r.job r.cl (u64 r.desc 8) 64 s
      let (m, s) := cdRead r.job r.cl (u64 r.desc 8 + 64) (32 * min 32 (fbNin h)) s
      let fb := h ++ m
      if (s.jobs.get? r.job).isNone then .next s
      else if !fbOk c fb then .next (endJob r.job FAULT 0x0601 0 s)
      else
        let (tv, s) := callTv s c r.desc fb
        let (bufs, s) := readInputs r.job r.cl (fusInputs s c fb tv) s
        let (ds, s) := readDets r.job r.cl r.desc bufs s
        if (s.jobs.get? r.job).isNone then .next s
        else match (bufs.flatMap (fun b => [b.feat, b.depth])).findSome? (zqFails r.job) with
          | some k => .next (endJob r.job SCALE_SKEW 0 0 (modCl r.cl (logSkew k) s))
          | none =>
            let o := fusCompute s c n tv r.desc fb bufs ds
            if o.nonfin != 0 && jobNfmode s j == 0 then
              .next (endJob r.job FAULT 1 0 (countNonfin r.cl 1 s))
            else .next (writeFusion r o (countSat r.cl o.clamped (countNonfin r.cl o.nonfin s)))
    | _, _ => .next s

end Sys2Proof.Machine
end

