-- ==== Sys2Proof/Machine/Raster.lean ====
section
/-! DEFINITION. Group 0x0701 to 0x0703 and render passes: contexts, their order and locks (R267, R268, R274, R275, R277,
R281, R284). -/

namespace Sys2Proof.Machine

open Sys2Proof

/-! ## Checks of a pass (R267; Tables 3 to 6 of chapter 10) -/

def isColour (f : Nat) : Bool := 1 ≤ f && f ≤ 7

/-- Ranges of a surface: base, clear flags, sample storage. -/
def surfRanges (b : List Byte) (samples : Nat) (r : List Byte) : List (Nat × Nat) :=
  (u64 r 0, pbHeight b * u32 r 8)
  :: ((if u8 r 15 == 1 then [(u64 r 16, (pbTiles b + 7) / 8)] else [])
      ++ (if samples == 4 then [(u64 r 40, pbHeight b * 4 * u32 r 8)] else []))

def passRanges (d b : List Byte) : List (Nat × Nat) :=
  (passAtts d).flatMap (fun a => surfRanges b (u8 d 4) (pbSurf b a))

/-- A surface record keeps Tables 4 and 6. -/
def surfOk (d : List Byte) (a : Nat) (r : List Byte) : Bool :=
  u64 r 0 % 256 == 0 && u32 r 8 % 256 == 0 && u8 r 13 ≤ 2 && u8 r 14 ≤ 2
    && (u8 r 14 != 2 || u8 d 4 == 4) && u8 r 15 ≤ 1 && zeroAt r 48 16
    && (if a < u8 d 5 then isColour (u8 r 12) else u8 r 12 == u8 d 6)

/-- The pass block keeps Table 3. -/
def blkOk (d b : List Byte) : Bool :=
  1 ≤ pbWidth b && pbWidth b ≤ 4096 && 1 ≤ pbHeight b && pbHeight b ≤ 4096 && u32 b 4 ≤ 1048576
    && (u8 b 16 ≤ 3 || u8 b 16 == 0xFF) && u8 b 17 ≤ 1 && zeroAt b 19 45
    && (u8 b 16 == 0xFF || u8 b 18 < u8 d 5)
    && (passAtts d).all (fun a => surfOk d a (pbSurf b a))

/-- A draw record keeps Table 5, and the table has its shader pair and state. -/
def drawOk (tbl r : List Byte) : Bool :=
  u8 r 0 ≤ 3 && u32 r 8 ≤ 16777216 && 1 ≤ u32 r 12 && u32 r 12 ≤ 65536
    && decide (u8 r 1 < (Config.shaderTable tbl).nShader) && decide (u16 r 2 < (Config.shaderTable tbl).nState)

/-- The FAULT cause of a pass that fails its checks at its start, 0 for none. -/
def passCause (s : State) (j : Job) (d b : List Byte) : Nat :=
  if !blkOk d b || !(passRanges d b).all (fun r => ownedBy s j.tenant r.1 r.2)
      || !ownedBy s j.tenant (u64 b 8) (32 * u32 b 4) then 0x0701
  else if !(match s.rctxs.get? (u8 d 0) with
      | some c => c.tenant == j.tenant && c.closing.isNone
      | none => false) then 0x0702
  else if u8 b 16 != 0xFF && !(bit (u8 d 1) 0 && (match s.disps.get? (u8 b 16) with
      | some x => x.owner == some j.tenant
      | none => false)) then 0x0703
  else 0

/-! ## Contexts (R281) -/

def RasCtx.open_ (t : Nat) (ps : List Byte) : RasCtx := ⟨t, u32 ps 4, u64 ps 8, none, 0, 0, 0, none⟩

/-- POOL_MIB and the pool base keep Table 8 of chapter 10. -/
def poolOk (ps : List Byte) : Bool := 8 ≤ u32 ps 4 && u32 ps 4 ≤ 512 && u64 ps 8 % 2 ^ 20 == 0

/-- RAS_OPEN takes its context; registers of Tables 10 and 11 take their reset values (R284). -/
def cRasOpen : Cmd := { Cmd.base with
  opcode := 0x0701, ten := .acts, lenOk := fun ps => ps.length == 16,
  denied := fun h ps s => poolOk ps && !ownedBy s h.tenant.toNat (u64 ps 8) (u32 ps 4 * 2 ^ 20),
  stateOk := fun h ps s => tenLive h s && (s.rctxs.get? (u8 ps 0)).isNone,
  paramOk := fun _ ps _ => u8 ps 0 ≤ 15 && zeroAt ps 1 3 && poolOk ps,
  effect := fun _ h ps s =>
    { s with
      rctxs := s.rctxs.set (u8 ps 0) (RasCtx.open_ h.tenant.toNat ps)
      ras := { s.ras with counts := s.ras.counts.erase (u8 ps 0) } } }

def execRasOpen (h : Hdr) (ps : List Byte) (s : State) : Host.Outcome State Fault Refusal :=
  cRasOpen.exec h ps s

/-- RCTX names an open context of TENANT. -/
def ownsRas (h : Hdr) (k : Nat) (s : State) : Bool :=
  match s.rctxs.get? k with
  | some c => c.tenant == h.tenant.toNat
  | none => false

def cRasClose : Cmd := { Cmd.base with
  opcode := 0x0702, ten := .acts, states := stQuery, lenOk := fun ps => ps.length == 4, cpl := some 0,
  stateOk := fun h ps s => match s.rctxs.get? (u8 ps 0) with
    | some c => c.tenant != h.tenant.toNat || c.closing.isNone
    | none => true,
  paramOk := fun h ps s => ownsRas h (u8 ps 0) s && zeroAt ps 1 3,
  effect := fun tok _ ps s =>
    match s.rctxs.get? (u8 ps 0) with
    | none => s
    | some c => { s with rctxs := s.rctxs.set (u8 ps 0) { c with closing := some tok } } }

def execRasClose (h : Hdr) (ps : List Byte) (s : State) : Host.Outcome State Fault Refusal :=
  cRasClose.exec h ps s

/-- No pass runs or is pre-empted on a closing context: RAS_CLOSE completes. -/
def execRasCloseDone (rctx : Nat) (s : State) : Host.Outcome State Fault Refusal :=
  match s.rctxs.get? rctx with
  | none => .next s
  | some c => if c.closing.isSome && c.running.isNone && !s.fwDown fwSch then .next (closeRctx rctx s) else .next s

/-- Passes that wait for a context. -/
def rasWaits (s : State) (k : Nat) : Bool := s.rwait.any (fun p => u8 p.desc 0 == k)

def cRasStatus : Cmd := { Cmd.base with
  opcode := 0x0703, ten := .asks, states := stQuery, lenOk := fun ps => ps.length == 4, maxReply := 12,
  paramOk := fun h ps s => ownsRas h (u8 ps 0) s && zeroAt ps 1 3,
  data := fun _ ps s =>
    match s.rctxs.get? (u8 ps 0) with
    | none => []
    | some c => leBytes 1 1 ++ leBytes 1 (b2n (c.running.isSome || rasWaits s (u8 ps 0))) ++ zeros 2
        ++ leBytes 4 (min 0xFFFFFFFF c.flushes) ++ leBytes 4 ((c.peak + 1023) / 1024) }

def execRasStatus (h : Hdr) (ps : List Byte) (s : State) : Host.Outcome State Fault Refusal :=
  cRasStatus.exec h ps s

/-! ## Order of passes (R275, R277, R281) -/

/-- A slot issues a pass: it waits at its yield point. -/
def execRenderPassIssue (job cl : Nat) (desc : List Byte) (s : State) : Host.Outcome State Fault Refusal :=
  match s.jobs.get? job with
  | none => .next s
  | some j => if j.st == .running then .next { s with rwait := s.rwait ++ [⟨job, cl, j.lc, desc⟩] } else .next s

/-- Order of a pass's job among first dispatches. -/
def passNo (s : State) (p : RPass) : Nat :=
  match s.jobs.get? p.job with
  | some j => j.dispNo
  | none => 0

/-- The waiting pass of a context whose job was dispatched first (R281). -/
def nextPass (s : State) (k : Nat) : Option RPass :=
  (s.rwait.filter (fun p => u8 p.desc 0 == k)).foldl (fun best p =>
    match best with
    | none => some p
    | some b => if passNo s p < passNo s b then some p else some b) none

/-- Address and length of a pass block. -/
def blkLen (p : RPass) : Nat := 64 + 64 * (u8 p.desc 5 + 1)

/-- The block of a pass as it stands now, in DRAM or in the cluster SRAM its program holds (R266). -/
def passBlk (s : State) (p : RPass) : List Byte :=
  if 2 ^ 48 ≤ u64 p.desc 8 then
    (s.cl p.cl).sram.readN ((sramSpan s p.job p.cl 13).1 + (u64 p.desc 8 - 2 ^ 48)) (blkLen p)
  else dramRead s (u64 p.desc 8) (blkLen p)

/-- Some pair of ranges overlaps. -/
def rangesMeet (a b : List (Nat × Nat)) : Bool := a.any (fun x => b.any (fun y => overlaps x.1 x.2 y.1 y.2))

/-- The physical clusters that LCMASK names, by the placement of the pass's job; the issuing cluster where there is none. -/
def passClusters (s : State) (p : RPass) : List Nat :=
  match (s.jobs.get? p.job).bind (jobImage s) with
  | some (_, bs) => (bs.filter (fun b => bit (u16 p.desc 2) b.lc)).map (·.clA)
  | none => [p.cl]

/-- Two passes share the vector engine, texture unit and back end of some cluster. -/
def sharesUnits (s : State) (p q : RPass) : Bool := (passClusters s p).any (fun c => (passClusters s q).contains c)

/-- The passes that run or are pre-empted. -/
def runningPasses (s : State) : List RPass := (s.rctxs.vals.filterMap (·.running)).map (·.pass)

/-- A best-effort pass is pre-empted while a latency-critical one that needs a unit of it runs (R277). -/
def passHeld (s : State) (p : RPass) : Bool := !p.lc && (runningPasses s).any (fun q => q.lc && sharesUnits s p q)

/-- A pass has to wait: for its context, for work of higher order, or for locks that another pass holds or that a pass
dispatched earlier waits for (R275, R277, R281). -/
def passWaits (s : State) (k : Nat) (p : RPass) (ranges : List (Nat × Nat)) : Bool :=
  (match s.rctxs.get? k with
   | some c => c.running.isSome
   | none => false)
  || passHeld s p
  || s.rctxs.any (fun _ c => match c.running with
      | some r => rangesMeet ranges r.locks
      | none => false)
  || s.rwait.any (fun q => passNo s q < passNo s p && u8 q.desc 0 != k
      && rangesMeet ranges (passRanges q.desc (passBlk s q)))

/-- Best-effort passes that a latency-critical one displaces count a pre-emption. -/
def countDisplaced (p : RPass) (s : State) : State :=
  if !p.lc then s
  else ((runningPasses s).filter (fun q => !q.lc && sharesUnits s p q && !passHeld s q)).foldl (fun s q =>
    match s.jobs.get? q.job with
    | some j => modTen j.tenant (fun v => { v with acct := { v.acct with pre := satAdd 0xFFFFFFFF v.acct.pre 1 } })
        (modJob q.job (fun j => { j with preempts := j.preempts + 1 }) s)
    | none => s) s

/-! ## Start of a pass: its checks, its locks, fetch to binning (R267, R268) -/

/-- The shader and state table of a pass: the bytes of SCHEDULE from SHADERS on. -/
def passTable (s : State) (j : Job) (d : List Byte) : List Byte :=
  match jobImage s j with
  | some (img, _) => img.sched.drop (u64 d 16)
  | none => []

def passEnv (s : State) (rctx : Nat) (p : RPass) (j : Job) (b : List Byte) : PassEnv :=
  ⟨rctx, p.job, j.tenant, p.cl, p.desc, b, passTable s j p.desc⟩

/-- Read the draw records in order and make their primitives. A record that fails its checks stops the job with
RAS_INPUT (R267). -/
def fetchDraws (e : PassEnv) (s : State) : List RPrim × Nat × State :=
  (List.range (u32 e.blk 4)).foldl (fun (a : List RPrim × Nat × State) i =>
    if (a.2.2.jobs.get? e.job).isNone then a
    else
      let q := rasRead e (u64 e.blk 8 + 32 * i) 32 a.2.2
      if (q.2.jobs.get? e.job).isNone then (a.1, a.2.1, q.2)
      else if !drawOk e.tbl q.1 then (a.1, a.2.1, endJob e.job FAULT 0x0701 0 q.2)
      else
        let r := drawPrims e q.1 q.2
        (a.1 ++ r.1, a.2.1 + r.2.1, r.2.2)) ([], 0, s)

/-- Enter a running pass into its context. -/
def setRunning (rctx : Nat) (run : RRun) (f : RasCtx → RasCtx) (s : State) : State :=
  match s.rctxs.get? rctx with
  | none => s
  | some c => { s with rctxs := s.rctxs.set rctx (f { c with running := some run }) }

/-- The pass has taken its locks: fetch, vertex shading, setup and binning of every phase. -/
def runBinning (rctx : Nat) (p : RPass) (j : Job) (b : List Byte) (pool : Nat) (s : State) : State :=
  let r := fetchDraws (passEnv s rctx p j b) s
  let s := { r.2.2 with ras := { r.2.2.ras with nfprim := satAdd 0xFFFF r.2.2.ras.nfprim r.2.1 } }
  if (s.jobs.get? p.job).isNone then s
  else
    let n := binAll pool (primRec (u8 p.desc 7)) r.1
    setRunning rctx ⟨p, b, passRanges p.desc b, n.done ++ [n.cur]⟩ (fun c => { c with
      flushes := c.flushes + n.done.length, peak := max c.peak n.peak }) s

/-- The first pass that waits for a context starts. -/
def execRenderPassStart (rctx : Nat) (s : State) : Host.Outcome State Fault Refusal :=
  match nextPass s rctx with
  | none => .next s
  | some p =>
    match s.jobs.get? p.job with
    | none => .next { s with rwait := s.rwait.erase p }
    | some j =>
      if passWaits s rctx p (passRanges p.desc (passBlk s p)) then .next s
      else
        let (b, s) := cdRead p.job p.cl (u64 p.desc 8) (blkLen p) s
        if (s.jobs.get? p.job).isNone then .next s
        else
          let fc := passCause s j p.desc b
          if fc != 0 then .next (endJob p.job FAULT fc 0 s)
          else match s.rctxs.get? rctx with
            | none => .next s
            | some c =>
              let s := countDisplaced p s
              let s := setRunning rctx ⟨p, b, passRanges p.desc b, []⟩ id { s with rwait := s.rwait.erase p }
              .next (runBinning rctx p j b (c.poolMib * 2 ^ 20) s)

/-! ## End of a pass: tile rendering, the last store (R268, R274, R280) -/

/-- The flip that a pass requests: its surface, with the clear flags that scanout honours (R273). -/
def passFlip (b : List Byte) : FlipReq :=
  let r := pbSurf b (u8 b 18)
  ⟨u8 b 16, u8 b 17, ⟨u64 r 0, u32 r 8, u8 r 12,
    if u8 r 15 == 1 then some ⟨u64 r 16, pbCols b, surfClear r⟩ else none⟩⟩

/-- The pass leaves its context, and its locks are released. -/
def endPass (rctx : Nat) (s : State) : State :=
  match s.rctxs.get? rctx with
  | none => s
  | some c => if c.running.isSome then
      { s with rctxs := s.rctxs.set rctx { c with running := none, passes := (c.passes + 1) % 65536 } }
    else s

/-- The tiles of every phase are rendered and the pass's last store completes; a flip it asked for waits for the commit
of its job. -/
def execRenderPassDone (rctx : Nat) (s : State) : Host.Outcome State Fault Refusal :=
  match (s.rctxs.get? rctx).bind (·.running) with
  | none => .next s
  | some r =>
    match s.jobs.get? r.pass.job with
    | none => .next s
    | some j =>
      if passHeld s r.pass then .next s
      else
        let e := passEnv s rctx r.pass j r.blk
        let s := finishTiles e r.phases (renderPhases e (passClusters s r.pass) [] r.phases s)
        if (s.jobs.get? r.pass.job).isNone then .next s
        else
          let s := endPass rctx s
          if u8 r.blk 16 == 0xFF then .next s
          else .next (modJob r.pass.job (fun j => { j with flips := j.flips ++ [passFlip r.blk] }) s)

end Sys2Proof.Machine
end

