-- ==== Sys2Proof/Machine/Skink.lean ====
section
/-! DEFINITION. Group 0x09xx, the Skink services, pair comparison, golden tests and coverage, and the
safe-state pins (chapter 12). -/

namespace Sys2Proof.Machine

open Sys2Proof

/-! ## Pins, coverage counts (R328, R332) -/

/-- The conditions under which the pins are deasserted (R332). -/
def State.deasserted (s : State) : Bool :=
  s.running && !s.skk.latched && !s.skk.debug && s.skk.chkrun && s.skk.armed

/-- Safety programs loaded, and those whose coverage has lapsed now. -/
def State.nSafety (s : State) : Nat := s.progs.count (fun _ p => p.img.paired)
def State.nLapsed (s : State) : Nat := s.progs.count (fun _ p => p.img.paired && p.lapsed)

/-- A Skink core is retired (R310). -/
def State.duplex (s : State) : Bool := s.larder.map.skink != 0

/-- The checker image runs: the bundle carried one and SELF_TEST has ended (R312). -/
def State.checkerOn (s : State) : Bool :=
  (match s.fws.loaded with
   | some b => b.checker
   | none => false) && stQuery.contains s.dev.st

def modSkk (f : Skk → Skk) (s : State) : State := { s with skk := f s.skk }

/-! ## Commands (Table 7 of chapter 12) -/

/-- A command of group 0x09xx: port hardware serves it, so no restart refuses it (R409). -/
def Cmd.skk : Cmd := { Cmd.base with units := fun _ _ => [] }

def cSkkArm : Cmd := { Cmd.skk with
  opcode := 0x0901, hp0 := false, hp1 := true, states := [.ready, .run, .degraded],
  lenOk := fun ps => ps.length == 4, paramOk := fun _ ps _ => u8 ps 0 ≤ 1 && zeroAt ps 1 3,
  entries := fun _ _ _ => 1,
  effect := fun _ h ps s =>
    modSkk (fun k => { k with armed := u8 ps 0 == 1 }) (journalCmd h 0x0901 0 (u8 ps 0) s) }

def execSkkArm (h : Hdr) (ps : List Byte) (s : State) : Host.Outcome State Fault Refusal :=
  cSkkArm.exec h ps s

/-- PROG is the handle of a loaded safety program. -/
def safetyProg (s : State) (k : Nat) : Bool :=
  match s.progs.get? k with
  | some p => p.img.paired
  | none => false

def cSkkProgCfg : Cmd := { Cmd.skk with
  opcode := 0x0902, ten := .acts, lenOk := fun ps => ps.length == 12,
  denied := fun _ _ s => s.skk.pclock,
  paramOk := fun h ps s => safetyProg s (u16 ps 0) && ownsProg h (u16 ps 0) s
    && 10 ≤ u16 ps 2 && u16 ps 2 ≤ 10000 && 10 ≤ u16 ps 4 && u16 ps 4 ≤ 10000
    && 1 ≤ u8 ps 6 && u8 ps 6 ≤ 4 && u8 ps 7 ≤ 90 && zeroAt ps 9 3,
  entries := fun _ _ _ => 1,
  effect := fun _ h ps s =>
    modProg (u16 ps 0) (fun p => { p with
      gwin := u16 ps 2, verdictUs := u16 ps 4, retries := u8 ps 6, gelig := u8 ps 7, chkId := u8 ps 8 })
      (journalCmd h 0x0902 (u16 ps 0) (u32 ps 2) s) }

def execSkkProgCfg (h : Hdr) (ps : List Byte) (s : State) : Host.Outcome State Fault Refusal :=
  cSkkProgCfg.exec h ps s

/-- A golden test of a program is under way. -/
def goldenRuns (s : State) (k : Nat) : Bool := s.jobs.any (fun _ j => j.prog == k && j.golden)

def cSkkProgStatus : Cmd := { Cmd.skk with
  opcode := 0x0903, hp1 := true, states := stQuery, lenOk := fun ps => ps.length == 4, maxReply := 28,
  paramOk := fun _ ps s => safetyProg s (u16 ps 0) && zeroAt ps 2 2,
  data := fun _ ps s =>
    match s.progs.get? (u16 ps 0) with
    | none => []
    | some p => leBytes 1 (b2n p.lapsed + 2 * b2n (goldenRuns s (u16 ps 0)))
        ++ leBytes 1 (p.frames.filter id).length ++ zeros 2 ++ leBytes 4 p.gPasses ++ leBytes 8 p.lastPass
        ++ leBytes 8 p.due ++ leBytes 4 p.mismatch }

def execSkkProgStatus (h : Hdr) (ps : List Byte) (s : State) : Host.Outcome State Fault Refusal :=
  cSkkProgStatus.exec h ps s

def cSkkSafeReq : Cmd := { Cmd.skk with
  opcode := 0x0904, hp1 := true, lenOk := fun ps => ps.length == 4,
  stateOk := fun _ _ s => !(s.dev.st == .service && s.dev.svcFromSafe),
  paramOk := fun _ ps _ => u32 ps 0 == 0x00005AFE,
  effect := fun _ _ _ s => latchSafe 0x09 0 0 s }

def execSkkSafeReq (h : Hdr) (ps : List Byte) (s : State) : Host.Outcome State Fault Refusal :=
  cSkkSafeReq.exec h ps s

def cSkkMbox : Cmd := { Cmd.skk with
  opcode := 0x0905, hp0 := false, hp1 := true, states := stQuery, lenOk := fun ps => ps.length == 64,
  effect := fun _ _ ps s => modSkk (fun k => { k with mbox := ps, mboxCnt := (k.mboxCnt + 1) % 2 ^ 32 }) s }

def execSkkMbox (h : Hdr) (ps : List Byte) (s : State) : Host.Outcome State Fault Refusal :=
  cSkkMbox.exec h ps s

def cSkkGoldenNow : Cmd := { Cmd.skk with
  opcode := 0x0906, hp1 := true, states := [.run, .degraded], lenOk := fun ps => ps.length == 4,
  paramOk := fun _ ps s => safetyProg s (u16 ps 0) && zeroAt ps 2 2,
  effect := fun _ _ ps s => modProg (u16 ps 0) (fun p => { p with eligible := true }) s }

def execSkkGoldenNow (h : Hdr) (ps : List Byte) (s : State) : Host.Outcome State Fault Refusal :=
  cSkkGoldenNow.exec h ps s

/-- SKK_BIST (Table 12 of chapter 12). -/
def bistWord (k : Skk) : Nat := fld (b2n k.bistDone) 31 1 + fld k.bistFail 0 8

/-- SKK_BIST and the first failing unit; kind and instance are free values when none failed (log 9). -/
def cSkkBistGet : Cmd := { Cmd.skk with
  opcode := 0x0907, hp1 := true, states := [.selfTest, .ready, .run, .degraded, .safe, .service],
  maxReply := 16,
  data := fun _ _ s => leBytes 4 (bistWord s.skk)
    ++ leBytes 1 (if s.skk.bistFail = 0 then Config.freeNat s.freeCtr else s.skk.bistKind)
    ++ leBytes 1 (if s.skk.bistFail = 0 then Config.freeNat s.freeCtr / 256 else s.skk.bistInst)
    ++ zeros 10,
  effect := fun _ _ _ s => (takeFree s).2 }

def execSkkBistGet (h : Hdr) (ps : List Byte) (s : State) : Host.Outcome State Fault Refusal :=
  cSkkBistGet.exec h ps s

/-! ## Skink services (Table 3 of chapter 12) -/

/-- A service of the checker; with no checker running nothing calls it. -/
def service (f : State → State) (s : State) : Host.Outcome State Fault Refusal :=
  .next (if s.checkerOn then f s else s)

/-- A result in Skink's result buffer, whose layout is the model's (DESIGN CHOICE, log 25): an error
byte, then the data. -/
def skResult (err : Nat) (d : List Byte) (s : State) : State := modSkk (fun k => { k with result := leBytes 1 err ++ d }) s

/-- KICK restarts the watchdog, and the first one sets CHKRUN (R312). -/
def execSkKick (s : State) : Host.Outcome State Fault Refusal :=
  service (modSkk (fun k => { k with chkrun := true, kickAt := s.time.ns })) s

/-- Addresses and lengths of tensors. -/
def extents (l : List (Nat × Nat)) : List Byte :=
  leBytes 2 l.length ++ l.flatMap (fun x => leBytes 8 x.1 ++ leBytes 8 x.2)

/-- The checker takes the next request; it waits while none is queued (R320). -/
def execSkNext (s : State) : Host.Outcome State Fault Refusal :=
  service (fun s =>
    match s.skk.chkq with
    | [] => s
    | id :: t =>
      match s.jobs.get? id with
      | none => fillChk (modSkk (fun k => { k with chkq := t }) s)
      | some j =>
        let chk := match s.progs.get? j.prog with
          | some p => p.chkId
          | none => 0
        let s := fillChk (modSkk (fun k => { k with chkq := t }) s)
        skResult 0 (leBytes 2 j.prog ++ leBytes 1 chk ++ leBytes 4 j.jobseq ++ leBytes 4 j.gen ++ extents j.outs
          ++ extents j.ins) (modJob id (fun j => { j with chk := .taken }) s)) s

/-- Put a window signature in its place among those of the output tensors. -/
def sigInsert (w : WinSig) : List WinSig → List WinSig
  | [] => [w]
  | x :: t =>
    let before := match w.iface, x.iface with
      | some a, some b => a < b || (a == b && w.window < x.window)
      | _, _ => false
    if before then w :: x :: t else x :: sigInsert w t

/-- The frame signature of a job (R317). -/
def frameSig (j : Job) : Nat :=
  crc64 (((j.sigs.filter (fun w => w.iface.isSome)).foldl (fun l w => sigInsert w l) []).flatMap
    (fun w => leBytes 8 w.sig))

/-- A frame under check: taken by the checker and without verdict. -/
def underCheck (j : Job) : Bool := j.st == .committing && j.chk == .taken

/-- A C0 message of the chain waits to leave. -/
def sendC0 (m : C0Msg) (s : State) : State := { s with chn := { s.chn with sent := s.chn.sent ++ [m] } }

/-- The master commits a chain job with its epoch, which it tells the participants (R191). -/
def commitChain (id : Nat) (checked : Bool) (s : State) : State :=
  commitJob id checked (sendC0 (.commit id s.sch.epoch) s)

/-- Every check has passed: the job commits, or as a chain job waits for the chain, which a participant tells the
master (R188, R191). The master commits at once when every other participant has prepared. -/
def passJob (id : Nat) (checked : Bool) (s : State) : State :=
  match s.jobs.get? id with
  | none => s
  | some j =>
    if j.parts.isEmpty then commitJob id checked s
    else
      let s := modJob id (fun j => { j with prepared := true, checked := checked, chk := .none }) s
      if s.chn.role != 1 then sendC0 (.prepared id) s
      else if s.chn.st == 3 && j.parts.all j.reported.contains then commitChain id checked s
      else s

/-- A verdict on a job: a frame passes or fails; a golden input's output of an evaluation is accepted or
rejected (R107, R320), and rejected while DEBUG is in force, when every job ends with INVALID_OUTPUT (R339; DEDUCED,
log 25). -/
def judge (id : Nat) (pass : Bool) (s : State) : State :=
  match s.jobs.get? id with
  | none => s
  | some j =>
    if !pass || (s.skk.debug && j.isEval) then endJob id INVALID_OUTPUT 0 1 s
    else match j.role with
      | .eval idx => evalPassed j.prog idx (frameSig j) (finishJob id OK 0 0 0 s)
      | _ => passJob id true s

/-- VERDICT on a job under check (R320). -/
def execSkVerdict (prog jobseq : Nat) (pass : Bool) (s : State) : Host.Outcome State Fault Refusal :=
  service (fun s =>
    match s.jobs.cells.find? (fun c => c.2.prog == prog && c.2.jobseq == jobseq && underCheck c.2) with
    | none => s
    | some (id, _) => judge id pass s) s

/-- Device time passes VERDICT_US before a verdict (R320). -/
def execVerdictTimeout (job : Nat) (s : State) : Host.Outcome State Fault Refusal :=
  match s.jobs.get? job with
  | none => .next s
  | some j =>
    if isFrame s j && j.st == .committing && j.chk != .none then .next (endJob job INVALID_OUTPUT 0 2 s) else .next s

/-- What the checker may read: the frames under check, and the outputs of the last 8 committed frames of
every safety program, with the tenant of each. -/
def readable (s : State) : List (Nat × Nat × Nat) :=
  let chk := s.jobs.vals.flatMap (fun j =>
    if underCheck j then (j.ins ++ j.outs).map (fun x => (j.tenant, x.1, x.2)) else [])
  let old := s.progs.vals.flatMap (fun p =>
    if p.img.paired then (p.recent.take 8).flatMap (fun r => r.outs.map (fun x => (p.tenant, x.1, x.2))) else [])
  chk ++ old

/-- A read of Skink's on a tenant's behalf: REASON, 0 where it passes (R206). -/
def skReason (s : State) (t a n : Nat) : Nat := accessCheck s (accDev true t) a n

/-- READ outside the permitted ranges, or to a destination outside the SRAM: an error code, nothing read
and a violation (Table 3). -/
def execSkRead (addr len dst : Nat) (s : State) : Host.Outcome State Fault Refusal :=
  service (fun s =>
    match (readable s).find? (fun r => r.2.1 ≤ addr && addr + len ≤ r.2.1 + r.2.2) with
    | none => skResult 1 [] (violate (accDev true 0xFE) false 2 addr s)
    | some (t, _, _) =>
      let why := skReason s t addr len
      if why != 0 then skResult 1 [] (violate (accDev true t) false why addr s)
      else if 65536 < len || 2 ^ 21 < dst + len then skResult 1 [] s
      else
        let r := checkedRead (accDev true t) addr len s
        skResult 0 [] (modSkk (fun k => { k with sram := k.sram.writeN dst r.1 }) r.2)) s

/-! ### PATH (R323) -/

/-- Grids of the frames under check and of the last 8 committed frames of safety programs, with their tenants. -/
def pathGrids (s : State) : List (Nat × GridRef) :=
  s.jobs.vals.flatMap (fun j => if underCheck j then j.grids.map (fun g => (j.tenant, g)) else [])
  ++ s.progs.vals.flatMap (fun p =>
      if p.img.paired then (p.recent.take 8).flatMap (fun r => r.grids.map (fun g => (p.tenant, g))) else [])

/-- The centre of a cell along one axis, in metres. -/
def cellCentre (cellMm n i : Nat) : Nat := fofRat ((2 * (i : Int) + 1 - n) * cellMm) 2000

/-- A point lies inside a rectangle, borders included. -/
def inCorridor (r : Corridor) (x y : Nat) : Bool :=
  let q := rotate (fneg r.head) (fsub x r.cx) (fsub y r.cy)
  fle (fabs q.1) (fmul f32half r.len) && fle (fabs q.2) (fmul f32half r.wid)

/-- Counts so far: occupied, contested, unknown, and the least distance. -/
def pathCell (g : GridRef) (z : ZqBuf) (mask : List Byte) (thr : Nat) (rs : List Corridor)
    (a : Nat × Nat × Nat × Nat) (k : Nat) : Nat × Nat × Nat × Nat :=
  let x := cellCentre g.cellMm g.gx (k / g.gy)
  let y := cellCentre g.cellMm g.gy (k % g.gy)
  if !rs.any (fun r => inCorridor r x y) then a
  else
    let m := u8 mask k
    let d := fmin a.2.2.2 (fsqrt (fadd (fmul x x) (fmul y y)))
    if bit m 1 then (a.1 + 1, a.2.1 + 1, a.2.2.1, d)
    else if !bit m 0 then (a.1, a.2.1, a.2.2.1 + 1, a.2.2.2)
    else if fle thr (zqElem z k g.occ) then (a.1 + 1, a.2.1, a.2.2.1, d)
    else a

def execSkPath (grid thr : Nat) (rects : List Corridor) (s : State) : Host.Outcome State Fault Refusal :=
  service (fun s =>
    match (pathGrids s).find? (fun g => g.2.data == grid) with
    | none => skResult 1 [] s
    | some (t, g) =>
      if rects.isEmpty || 32 < rects.length then skResult 1 [] s
      else
        let n := g.gx * g.gy
        let src : ZqSrc := ⟨g.data, g.scale, n⟩
        let d := checkedRead (accDev true t) g.data src.dataBytes s
        let c := checkedRead (accDev true t) g.scale (src.blocks * 64) d.2
        let m := checkedRead (accDev true t) g.mask n c.2
        let r := (List.range n).foldl (pathCell g ⟨n, d.1, c.1⟩ m.1 thr rects) (0, 0, 0, f32inf)
        skResult 0 (leBytes 4 r.1 ++ leBytes 4 r.2.1 ++ leBytes 4 r.2.2.1 ++ leBytes 4 r.2.2.2) m.2) s

/-! ### Displays, mailbox, time, SAFE -/

/-- DISPREG programs a region from the next frame (R324). -/
def execSkDispreg (disp region x y w h : Nat) (s : State) : Host.Outcome State Fault Refusal :=
  service (fun s =>
    if s.nDisp ≤ disp || 3 < region then skResult 1 [] s
    else skResult 0 [] (modSkk (fun k => { k with regions := k.regions.set (disp * 4 + region) ⟨x, y, w, h⟩ }) s)) s

/-- DISPCRC: the CRC-64 of a region over the last complete frame, and the frame count (R324). -/
def execSkDispcrc (disp region : Nat) (s : State) : Host.Outcome State Fault Refusal :=
  service (fun s =>
    match s.skk.crcs.get? (disp * 4 + region) with
    | none => skResult 1 [] s
    | some c => skResult 0 (leBytes 8 c ++ leBytes 4 (s.disp disp).frames) s) s

def execSkMbox (s : State) : Host.Outcome State Fault Refusal :=
  service (fun s => skResult 0 (s.skk.mbox ++ leBytes 4 s.skk.mboxCnt) s) s

def execSkTime (s : State) : Host.Outcome State Fault Refusal :=
  service (fun s => skResult 0 (leBytes 8 s.time.ns ++ leBytes 2 (s.time.frac / 65536)) s) s

def execSkSafe (detail : Nat) (s : State) : Host.Outcome State Fault Refusal :=
  service (latchSafe 0x08 0 (detail % 256)) s

/-! ## Pair comparison (R316 to R319) -/

/-- Bytes of a copy's output as the signature unit takes them: from SRAM that its program holds, from DRAM, or what copy
B has written to an output tensor (R315). -/
def signedBytes (s : State) (job cl : Nat) (unit : Option Nat) (a n : Nat) : List Byte :=
  match unit with
  | some u => (s.cl cl).sram.readN ((sramSpan s job cl u).1 + a) n
  | none =>
    match s.jobs.get? job with
    | some j => if copyBOutput s j cl a then j.bOut.readN a n else dramRead s a n
    | none => zeros n

/-- The stored elements of one part of a window: codes, and for ZQ the scale bytes of its groups. -/
def winPart (s : State) (job : Nat) (p : WinPart) : List Nat × List Nat :=
  let t := p.t
  let w := elBits t.str.fmt
  let get := signedBytes s job p.cl t.str.unit
  match t.str.fmt with
  | .zq w g =>
    let gs := (List.range t.rows).flatMap (rowGroups t g)
    let n := g * w / 8
    (gs.flatMap (fun k => (List.range g).map (codeAt w (get (dataAt t.str (k / 48) + 64 + k % 48 * n) n))),
     gs.map (fun k => u8 (get (scaleAt t.str (k / 48) + 4 + k % 48) 1) 0))
  | _ =>
    ((List.range t.rows).flatMap (fun r =>
      let e := t.first + r * t.pitch
      let b := get (t.str.base + e * w / 8) ((e * w % 8 + t.k * w + 7) / 8)
      (List.range t.k).map (fun i => codeAt w b (e * w % 8 / w + i))), [])

/-- The elements of a window, those of ZQ with the padding that completes the last group of a row; at most 4,096 (R316). -/
def winCount (ps : List WinPart) : Nat :=
  (ps.map (fun p => p.t.rows * (match p.t.str.fmt with
    | .zq _ g => (p.t.k + g - 1) / g * g
    | _ => p.t.k))).foldl (· + ·) 0

/-- The bytes of a window's elements (R316): its packed codes, then the scale bytes of its groups. -/
def winBytes (s : State) (job : Nat) (ps : List WinPart) : List Byte :=
  let l := ps.map (winPart s job)
  packCodes ((ps.head?.map (fun p => elBits p.t.str.fmt)).getD 8) (l.flatMap (·.1)) ++ (l.flatMap (·.2)).flatMap (leBytes 1)

/-- A random fault that corrupts what a copy computed: byte offsets in the window and the bits that differ. -/
def flipBytes (d : List (Nat × Byte)) (bs : List Byte) : List Byte :=
  bs.mapIdx (fun i b => d.foldl (fun b x => if x.1 == i then b ^^^ x.2 else b) b)

/-- The IFACE output tensor that a window belongs to, none for the output of another layer. -/
def winIface (j : Job) (ps : List WinPart) : Option Nat :=
  match ps with
  | [] => none
  | p :: _ =>
    if p.t.str.unit.isSome then none
    else j.outs.findIdx? (fun o => decide (o.1 ≤ p.t.str.base) && decide (p.t.str.base < o.1 + o.2))

/-- The signature of a window (R316): layer and window index, then the bytes of its elements. -/
def windowSig (layer window : Nat) (elems : List Byte) : Nat :=
  crc64 (leBytes 4 layer ++ leBytes 4 window ++ elems)

/-- A pair mismatch: a restart, or the end of the job after RETRIES of them (R318, R319). A mismatch never rejects a
candidate (R107): an evaluation job that has used its restarts is run anew on the same golden input, until EVAL_MS
ends the evaluation (DEDUCED, log 20). -/
def pairMismatch (id : Nat) (s : State) : State :=
  match s.jobs.get? id with
  | none => s
  | some j =>
    let retries := match s.progs.get? j.prog with
      | some p => p.retries
      | none => 2
    let s := modSkk (fun k => { k with mismatch := satAdd 0xFFFF k.mismatch 1 }) s
    let s := modProg j.prog (fun p => { p with mismatch := satAdd 0xFFFFFFFF p.mismatch 1 }) s
    if j.pairRestarts < retries then
      restartJob id (modJob id (fun j => { j with pairRestarts := j.pairRestarts + 1 }) s)
    else match j.role with
      | .eval i => addEval j.prog i (finishJob id INVALID_OUTPUT 0 0 0 s)
      | _ => endJob id INVALID_OUTPUT 0 3 s

/-- Copy B closes a window and the comparator compares it with copy A's: `a` and `b` are the window's elements where each
copy wrote them, `diff` what a fault in a copy has corrupted; the window may complete a checkpoint. With DEBUG in force
nothing is compared (R339); a mismatch of a pre-empted job waits. -/
def execWindowClose (job layer window : Nat) (a b : List WinPart) (diff : List (Nat × Byte)) (ckpt : Bool)
    (s : State) : Host.Outcome State Fault Refusal :=
  match s.jobs.get? job with
  | none => .next s
  | some j =>
    if !(j.st == .running || j.st == .preempted) || a.any (fun p => onCopyB s j p.cl)
      || !b.all (fun p => onCopyB s j p.cl) || 4096 < winCount a || 4096 < winCount b then .next s
    else
      let sa := windowSig layer window (winBytes s job a)
      let sb := windowSig layer window (flipBytes diff (winBytes s job b))
      let s := modJob job (fun j => { j with sigs := j.sigs ++ [⟨winIface j a, layer, window, sa⟩] }) s
      if sa != sb && !s.skk.debug then
        .next (if j.st == .preempted then modJob job (fun j => { j with pendMis := true }) s
               else pairMismatch job s)
      else if ckpt then
        .next (modJob job (fun j => { j with ckpt := true, ckSigs := j.sigs, replay := [], replayAt := 0 }) s)
      else .next s

/-! ## Golden tests and coverage (R326 to R329) -/

/-- EV_COVERAGE. -/
def evCoverage (h kind due : Nat) (s : State) : State :=
  offerBoth evCoverageOp (leBytes 2 h ++ leBytes 1 kind ++ [0x00] ++ leBytes 4 due) s

/-- A golden test has its signature: a pass moves the due time and ends a lapse; a signature that both
copies agree on but that is not the expected one latches SAFE (R327, R328). -/
def goldenDone (id : Nat) (s : State) : State :=
  match s.jobs.get? id with
  | none => s
  | some j =>
    let h := j.prog
    if s.skk.debug then endJob id INVALID_OUTPUT 0 0 s
    else if frameSig j != j.expSig then latchSafe 0x02 h 0 (finishJob id OK 0 0 0 s)
    else
      let s := finishJob id OK 0 0 0 s
      match s.progs.get? h with
      | none => s
      | some p =>
        let due := s.time.ns + p.gwin * 1000000
        let s := modProg h (fun p => { p with
          gPasses := (p.gPasses + 1) % 2 ^ 32, lastPass := s.time.ns, due := due, gwinOn := p.gwin, lapsed := false,
          gNext := p.gNext + 1 }) s
        if p.lapsed then evCoverage h 2 due s else s

/-- GELIG_PCT percent of GWIN_MS after the last pass (R326). -/
def execGoldenEligible (prog : Nat) (s : State) : Host.Outcome State Fault Refusal :=
  match s.progs.get? prog with
  | none => .next s
  | some p =>
    .next (if s.running && p.img.paired && decide (p.lastPass + p.gelig * p.gwinOn * 10000 ≤ s.time.ns)
      then modProg prog (fun p => { p with eligible := true }) s else s)

/-- The due time passes without a pass (R328). -/
def execCoverageDue (prog : Nat) (s : State) : Host.Outcome State Fault Refusal :=
  match s.progs.get? prog with
  | none => .next s
  | some p =>
    if !(s.running && p.img.paired && p.covered) || p.lapsed || s.time.ns < p.due then .next s
    else if s.skk.lapseLatch then .next (latchSafe 0x04 prog 0 s)
    else .next (evCoverage prog 1 p.due (modProg prog (fun p => { p with lapsed := true }) s))

/-- The deadline of a lost placement's record passes (R329); `i` counts the records, 0 the oldest. -/
def execPlacementDeadline (i : Nat) (s : State) : Host.Outcome State Fault Refusal :=
  match s.skk.lost[i]? with
  | none => .next s
  | some r =>
    if s.time.ns < r.deadline then .next s
    else
      let s := modSkk (fun k => { k with lost := k.lost.eraseIdx i }) s
      .next (if s.running then latchSafe 0x03 r.prog 0 s else s)

/-! ## Skink's own faults (R309 to R312, R331) -/

def DAY : Nat := 86400 * 10 ^ 9

/-- Dissents of a core since INIT, saturating. -/
def countDissent (core : Nat) (k : Skk) : Skk :=
  match core with
  | 0 => { k with dissA := satAdd 0xFF k.dissA 1 }
  | 1 => { k with dissB := satAdd 0xFF k.dissB 1 }
  | _ => { k with dissC := satAdd 0xFF k.dissC 1 }

/-- A core dissents. The other two agree (`majority`): it is masked and counted, and retired at the
third dissent within 24 hours. With no majority, or in duplex, SAFE latches. Voting has ended while
DEBUG is in force. -/
def execCoreDissent (core : Nat) (majority : Bool) (s : State) : Host.Outcome State Fault Refusal :=
  if 2 < core || bit s.larder.map.skink core || s.skk.debug || s.dev.st == .off || s.dev.st == .init then
    .next s
  else if s.duplex || !majority then .next (latchSafe 0x05 0 core s)
  else
    let ts := (s.time.ns :: s.skk.diss24.getD core []).filter (fun t => decide (s.time.ns < t + DAY))
    let s := modSkk (fun k => countDissent core { k with diss24 := k.diss24.set core ts }) s
    if ts.length < 3 then .next s
    else
      let s := modMap (fun m => { m with
        skink := setBit m.skink core true, nRetired := m.nRetired + 1, nNoSpare := m.nNoSpare + 1 }) s
      .next (retireNoSpare (wear 8 4 8 core 3 s))

/-- An error in Skink SRAM: corrected and counted, or SAFE (R311). -/
def execSkinkSramError (unc : Bool) (s : State) : Host.Outcome State Fault Refusal :=
  .next (if unc then latchSafe 0x07 0 0 s else modSkk (fun k => { k with sramCorr := k.sramCorr + 1 }) s)

/-- No KICK within SKWDT_MS of the last one (R312). -/
def execSkwdtExpiry (s : State) : Host.Outcome State Fault Refusal :=
  .next (if s.skk.chkrun && decide (s.skk.kickAt + s.skk.skwdt * 1000000 < s.time.ns) then latchSafe 0x06 0 0 s else s)

/-- A pin differs from its driven level for 1 µs while the pins are driven deasserted (R331). -/
def execPinFeedbackMismatch (s : State) : Host.Outcome State Fault Refusal :=
  .next (if s.deasserted then latchSafe 0x0C 0 0 s else s)

/-- VALID cleared for every other program: SWEEPDONE and EV_SAFE phase 2 (R335, Table 5). -/
def execSweepDone (s : State) : Host.Outcome State Fault Refusal :=
  .next (if s.skk.latched && !s.skk.sweepDone then
    evSafe 2 (modSkk (fun k => { k with sweepDone := true }) (sweepProgs (fun p => !p.img.paired) s))
  else s)

/-! ## Debug (R339 to R341, R362) -/

/-- The invasive enable of a world. -/
def dbgInvasive (s : State) (secure : Bool) : Bool :=
  if secure then s.fws.sid && !s.part.fdisSid else s.fws.nsid && !s.part.fdisNsid

/-- Units whose invasive debugging sets DEBUG: tiles, clusters, CCCs with the spare ones, SCH, Skink. -/
def dbgSets (kind inst : Nat) : Bool :=
  kind == 0 || kind == 1 || kind == 2 || kind == 4 || kind == 6 || (kind == 8 && inst == 2)

/-- An invasive debugger attaches to a unit of Table 10 of chapter 01, in the context of a world. -/
def execDebuggerAttach (kind inst : Nat) (secure : Bool) (s : State) : Host.Outcome State Fault Refusal :=
  if !s.portsUp then .next s
  else if !dbgInvasive s secure then .next (violate (accDev secure 0xFE) false 5 0 s)
  else
    let s := { s with fws := { s.fws with attached := (kind, inst, secure) :: s.fws.attached } }
    if dbgSets kind inst && (s.dev.st == .ready || s.running) && !s.skk.debug then
      .next (offerBoth evDebugOp (leBytes 1 kind ++ leBytes 1 inst ++ leBytes 1 (b2n secure) ++ [0x00]
        ++ leBytes 4 s.time.ns) (modSkk (fun k => { k with debug := true }) s))
    else .next s

/-- The tile of a slot of a copy of a program: cluster and physical tile. -/
def slotTile (p : Prog) (lc slot : Nat) (copyB : Bool) : Option (Nat × Nat) :=
  match p.binds.find? (fun b => b.lc == lc) with
  | none => none
  | some b =>
    if copyB then (match b.clB, b.tilesB[slot]? with
      | some c, some t => some (c, t)
      | _, _ => none)
    else (b.tilesA[slot]?).map (fun t => (b.clA, t))

/-- The slot of copy B that runs the schedule of a slot of copy A: n − 1 − s (R126). -/
def mirrorSlot (p : Prog) (lc slot : Nat) : Nat :=
  match p.binds.find? (fun b => b.lc == lc) with
  | some b => b.nslot - 1 - slot
  | none => slot

/-- A debugger is attached to a unit in the context of a world (R362). -/
def dbgAttached (s : State) (kind inst : Nat) (secure : Bool) : Bool := s.fws.attached.contains (kind, inst, secure)

/-- A debugger reaches a slot: attached to its tile, in the world of the program. -/
def slotReached (s : State) (p : Prog) (lc slot : Nat) (copyB : Bool) : Bool :=
  match slotTile p lc slot copyB with
  | some (c, t) => dbgAttached s 0 (gtile c t) (s.ten p.tenant).secure
  | none => false

/-- A write to the SRAM of a slot's tile, among the granules that the program holds there. -/
def slotWrite (p : Prog) (lc slot : Nat) (copyB : Bool) (off : Nat) (bs : List Byte) (s : State) : State :=
  match slotTile p lc slot copyB with
  | none => s
  | some (c, t) => modCl c (fun k => { k with sram := k.sram.writeN (sramBase p.imageNo t + off) bs }) s

/-- A debug action that changes state, with the SRAM bytes it writes, none for a halt, step, resume,
breakpoint or register write. In SERVICE copy A's are logged for copy B, and copy B and Skink B and C refuse every
access (R340); elsewhere an action reaches the unit alone, pairing and voting having ended (R339, R362). -/
def execDebugAction (tgt : DbgTarget) (off : Nat) (bytes : List Byte) (s : State) :
    Host.Outcome State Fault Refusal :=
  let svc := s.dev.st == .service
  if !s.portsUp then .next s
  else match tgt with
    | .slot h lc slot pos copyB =>
      match s.progs.get? h with
      | none => .next s
      | some p =>
        if !dbgInvasive s (s.ten p.tenant).secure then .next (violate (accDev (s.ten p.tenant).secure 0xFE) true 5 0 s)
        else if (svc && copyB) || !slotReached s p lc slot copyB then .next s
        else
          let log := s.skk.replay.getD h []
          if !svc || !p.img.paired then .next (slotWrite p lc slot copyB off bytes s)
          else if 4096 ≤ log.length then .next s
          else .next (modSkk (fun k => { k with replay := k.replay.set h (log ++ [⟨lc, slot, pos, off, bytes⟩]) })
            (slotWrite p lc slot false off bytes s))
    | .replay h =>
      match s.progs.get? h, s.skk.replay.getD h [] with
      | some p, e :: t =>
        .next (modSkk (fun k => { k with replay := if t.isEmpty then k.replay.erase h else k.replay.set h t })
          (slotWrite p e.lc (mirrorSlot p e.lc e.slot) true e.off e.bytes s))
      | _, _ => .next s
    | .skink core =>
      if !dbgInvasive s true then .next (violate (accDev true 0xFE) true 5 0 s)
      else if (svc && core != 0) || 2 < core || !dbgAttached s 4 0 true then .next s
      else .next (modSkk (fun k => { k with sram := k.sram.writeN off bytes }) s)

/-! ## Heartbeat (R343) -/

/-- EV_SKSTAT on HP1, from SELF_TEST onwards, while HP1 has a session open. -/
def execHeartbeat (s : State) : Host.Outcome State Fault Refusal :=
  if !s.portsUp || s.dev.st == .awaitFw || !s.hp1.openS then .next s
  else
    let n := (s.skk.hbCount + 1) % 2 ^ 32
    let k := s.skk
    .next (offer .hp1 evSkstatOp (leBytes 1 s.dev.st.code
      ++ leBytes 1 (b2n k.latched + 2 * b2n k.debug + 4 * b2n k.armed + 8 * b2n s.duplex
          + 16 * b2n (s.nLapsed != 0) + 32 * b2n s.deasserted + 64 * b2n k.chkrun)
      ++ leBytes 1 (min 0xFF s.nSafety) ++ leBytes 1 (min 0xFF s.nLapsed) ++ leBytes 8 s.time.ns ++ leBytes 4 n)
      (modSkk (fun k => { k with hbCount := n }) s))

end Sys2Proof.Machine
end

