-- ==== Sys2Proof/Machine/Dispatcher.lean ====
section
/-! DEFINITION. The dispatcher, pre-emption, remote waits and the end of jobs (R182 to R191, R326). -/

namespace Sys2Proof.Machine

open Sys2Proof

/-! ## What can start (R182, R183, R106, R137, R192) -/

/-- The program's jobs are paused: it is being unloaded or replaced in place. -/
def progPaused (s : State) (h : Nat) (p : Prog) : Bool :=
  p.stopped || p.unloadTok.isSome || s.loads.any (fun l => l.replace == some (h, 1))

/-- Tiles that a new job of a program runs on, and the tiles no restart of a CCC keeps from it. -/
def newTiles (p : Prog) : List Nat := progTiles p.binds
def cccUp (s : State) (ts : List Nat) : Bool := !ts.any (fun t => s.fwDown (s.cccOf (t / 13)))

/-- A training job finds the standby bank of the program it trains FREE (R106). -/
def trainReady (s : State) (p : Prog) : Bool :=
  if p.img.kind != 2 then true
  else match s.progs.get? p.img.trains with
    | some q => q.sb == .free
    | none => false

/-- A step waits for the end of the step before it (R192). -/
def seqReady (s : State) (h : Nat) (p : Prog) : Bool :=
  p.img.kind != 1 || !s.jobs.any (fun _ j => j.prog == h && j.inFlight && j.role == .user)

/-- Everything but its tiles permits a queued job to start. -/
def ready (s : State) (j : Job) : Bool :=
  match s.progs.get? j.prog with
  | none => false
  | some p =>
    (s.ten j.tenant).st == .opened && !(s.ten j.tenant).closing && !progPaused s j.prog p
    && depState s j == .ready && trainReady s p && seqReady s j.prog p && cccUp s (newTiles p)

/-- Queued jobs at the head of their queues, and evaluation jobs. -/
def isHead (s : State) (id : Nat) (j : Job) : Bool :=
  j.st == .queued && (j.role != .user || !s.jobs.any (fun k x =>
    k < id && x.st == .queued && x.role == .user && x.tenant == j.tenant && x.queue == j.queue))

def tilesOf (s : State) (j : Job) : List Nat :=
  match s.progs.get? j.prog with
  | some p => newTiles p
  | none => []

/-- Some tile is held or awaited by a job that a test picks. -/
def takenBy (s : State) (f : Job → Bool) (ts : List Nat) : Bool :=
  s.jobs.any (fun _ x => f x && ts.any (fun t => (x.hold.get? t).isSome || x.waitTiles.contains t))

/-- Latency-critical heads that are ready. -/
def lcHeads (s : State) : List (Nat × Job) :=
  s.jobs.cells.filter (fun c => c.2.lc && isHead s c.1 c.2 && ready s c.2)

/-- The better of two heads: smaller VT, then lower tenant, then taken earlier. -/
def lcBefore (s : State) (a b : Nat × Job) : Bool :=
  let va := (s.ten a.2.tenant).vt
  let vb := (s.ten b.2.tenant).vt
  va < vb || (va == vb && (a.2.tenant < b.2.tenant || (a.2.tenant == b.2.tenant && a.1 < b.1)))

def lcBest (s : State) : List (Nat × Job) → Option (Nat × Job)
  | [] => none
  | x :: t => some (t.foldl (fun b y => if lcBefore s y b then y else b) x)

/-- The latency-critical job to start: the tenant of least VT reserves the tiles its head waits for. -/
def pickLc (s : State) : Option Nat :=
  let hs := lcHeads s
  match lcBest s hs with
  | none => none
  | some first =>
    let keep := tilesOf s first.2
    let can := hs.filter (fun c =>
      !takenBy s (fun x => x.lc) (tilesOf s c.2)
        && (c.2.tenant == first.2.tenant || !(tilesOf s c.2).any keep.contains))
    (lcBest s can).map (·.1)

/-- A program whose golden test can start (R326, R327): eligible, covered, none under way. -/
def pickGolden (s : State) : Option Nat :=
  if !s.running then none
  else (s.progs.cells.find? (fun c =>
    c.2.img.paired && c.2.covered && c.2.eligible && !goldenRuns s c.1 && !c.2.expected.isEmpty
    && (s.ten c.2.tenant).st == .opened && !(s.ten c.2.tenant).closing && !progPaused s c.1 c.2
    && cccUp s (newTiles c.2) && !takenBy s (fun x => x.lc || x.golden) (newTiles c.2))).map (·.1)

/-- A pre-empted job can resume (R186, R196): its tiles are free, and its tenant's jobs run. -/
def canResume (s : State) (j : Job) : Bool :=
  j.st == .preempted && (match (s.ten j.tenant).st with
    | .opened | .quiesced => true
    | _ => false)
  && !takenBy s (fun _ => true) j.tiles && cccUp s j.tiles

/-- The pre-empted job that resumes next: golden tests, then the order of first dispatch (R182). -/
def pickResume (s : State) : Option Nat :=
  let l := s.jobs.cells.filter (fun c => canResume s c.2)
  let best := fun (l : List (Nat × Job)) => match l with
    | [] => none
    | x :: t => some (t.foldl (fun (b : Nat × Job) y => if y.2.dispNo < b.2.dispNo then y else b) x).1
  match l.filter (fun c => c.2.golden) with
  | [] => best l
  | g => best g

/-- The new best-effort job to start, in the order in which the device took them. -/
def pickBe (s : State) : Option Nat :=
  (s.jobs.cells.find? (fun c =>
    !c.2.lc && isHead s c.1 c.2 && ready s c.2 && !takenBy s (fun _ => true) (tilesOf s c.2))).map (·.1)

/-! ## Dispatch (R104, R105, R182 to R185) -/

/-- Bin of a waiting time in the histogram (R197). -/
def waitBin (ns : Nat) : Nat := if ns < 1000 then 0 else min 15 (Nat.log2 (ns / 1000) + 1)

/-- Count a first dispatch in its tenant's histogram. -/
def countWait (j : Job) (s : State) : State :=
  let b := waitBin (s.time.ns - j.tSubmit)
  modTen j.tenant (fun v =>
    let a := v.acct
    let up := fun (m : Map Nat) => m.set b (satAdd 0xFFFFFFFF (m.getD b 0) 1)
    { v with acct := if j.lc then { a with whlc := up a.whlc } else { a with whbe := up a.whbe } }) s

/-- Ask every job that holds one of some tiles to stop at its yield points (R185). -/
def askStop (id : Nat) (ts : List Nat) (s : State) : State :=
  { s with jobs := ⟨s.jobs.cells.map (fun c =>
      if c.1 != id && c.2.st == .running && ts.any (fun t => (c.2.hold.get? t).isSome) then
        (c.1, { c.2 with stopReq := true }) else c)⟩ }

/-- A job starts: bank and generation bound, free tiles taken, the holders of the others asked to stop. -/
def startJob (id : Nat) (s : State) : State :=
  match s.jobs.get? id with
  | none => s
  | some j =>
    let s := if j.kind == 1 && j.role == .user then batchBoundary j.prog s else s
    let s := if j.isEval then s else swapBank j.prog s
    match s.progs.get? j.prog with
    | none => s
    | some p =>
      let ts := newTiles p
      let free := ts.filter (fun t => !tileHeld s t)
      let j' := { j with
        st := .running, dispNo := s.sch.nDisp, tDispatch := some s.time.ns, tiles := ts,
        hold := free.foldl (fun (m : Map Nat) t => m.set t s.time.ns) Map.empty,
        waitTiles := ts.filter (tileHeld s), bank := if j.isEval then 1 - p.live else p.live, gen := p.gen,
        image := p.imageNo, parts := if j.role == .user then p.img.parts else [], degraded := p.binds.any (·.degraded),
        expSig := match j.role with
          | .golden i => p.expected[i]?.getD 0
          | _ => j.expSig }
      let s := { s with jobs := s.jobs.set id j', sch := { s.sch with nDisp := s.sch.nDisp + 1 } }
      let s := askStop id j'.waitTiles s
      let s := if j.role == .user then countWait j s else s
      if j.kind == 2 && j.role == .user then
        setBank p.img.trains .writing 0
          (modProg p.img.trains (fun q => { q with sbJob := some id, evalMs := p.img.trainMs }) s)
      else s

/-- A golden test of a program is made and starts; successive tests take the inputs in turn. It is compared with the
expected signature of the bank it is bound to, which its own start may have made live (R108). -/
def startGolden (h : Nat) (s : State) : State :=
  match s.progs.get? h with
  | none => s
  | some p =>
    let i := p.gNext % max 1 p.expected.length
    let id := s.sch.nTaken
    let s := modProg h (fun p => { p with eligible := false }) s
    startJob id (addJob { Job.blank with
      tenant := p.tenant, prog := h, kind := p.img.kind, role := .golden i, jobseq := evalSeq i,
      tSubmit := s.time.ns } s)

/-- Dispatch decisions are taken: RUN, DEGRADED or SERVICE, DEV_STOP not under way, in-flight limit
(R59, R171, R334). -/
def mayDispatch (s : State) : Bool :=
  (s.running || s.dev.st == .service) && s.dev.stopTok.isNone && s.inFlight < 4096

/-- One dispatch decision, in the order of R182; a new best-effort job starts only where no pre-empted
job can resume. -/
def execJobDispatch (s : State) : Host.Outcome State Fault Refusal :=
  if !mayDispatch s then .next s
  else match pickLc s with
    | some id => .next (startJob id s)
    | none =>
      match pickGolden s with
      | some h => .next (startGolden h s)
      | none =>
        if (pickResume s).isSome then .next s
        else match pickBe s with
          | some id => .next (startJob id s)
          | none => .next s

/-! ## Pre-emption and resumption (R185 to R187) -/

/-- Park entries of a port in use. -/
def parkUsed (s : State) (port : Nat) : Nat :=
  s.jobs.sum (fun _ j => (j.reads.filter (fun r => r.port == port && r.parked)).length)

/-- Park an outstanding read, or mark it for reissue where no entry is free (R187). -/
def parkRead (id tile : Nat) (r : Nat × Nat) (s : State) : State :=
  let room := decide (parkUsed s r.1 < 256)
  let s := if room then s
    else { s with sch := { s.sch with parkDrop := satAdd 0xFFFF s.sch.parkDrop 1 } }
  modJob id (fun j => { j with
    reads := j.reads.filter (fun x => x.token != r.2) ++ [⟨r.1, r.2, tile, room, none, !room, false⟩] }) s

/-- A slot stops at its yield point under a pre-emption request, with its outstanding remote reads (port
and token) and writes; a job that is to end does so once every slot has stopped. -/
def execYieldPointStop (job tile : Nat) (reads : List (Nat × Nat)) (writes : List Nat) (s : State) :
    Host.Outcome State Fault Refusal :=
  match s.jobs.get? job with
  | none => .next s
  | some j =>
    if j.st != .running || !(j.stopReq || j.endAt.isSome) || (j.hold.get? tile).isNone || j.stopped.contains tile then
      .next s
    else
      let s := modJob job (fun j => { j with stopped := tile :: j.stopped }) s
      match j.endAt with
      | some (st, fc) =>
        if j.hold.keys.all (fun t => t == tile || j.stopped.contains t) then .next (endJob job st fc 0 s)
        else .next s
      | none =>
        let s := reads.foldl (fun s r => parkRead job tile r s) s
        .next (modJob job (fun j => { j with
          writes := j.writes ++ writes.map (fun w => (⟨w, false⟩ : RemWrite)) }) s)

/-- Every tile of a pre-empted job has been given up: PREEMPTED, waiting for none. -/
def preemptJob (id : Nat) (s : State) : State :=
  match s.jobs.get? id with
  | none => s
  | some j =>
    let s := modJob id (fun j => { j with
      st := .preempted, stopReq := false, stopped := [], waitTiles := [], preempts := j.preempts + 1 }) s
    modTen j.tenant (fun v => { v with acct := { v.acct with pre := satAdd 0xFFFFFFFF v.acct.pre 1 } }) s

/-- A stopped slot's context is saved once the job's remote writes have completed: its tile goes to the
job that waits for it; with the last one the job is PREEMPTED, or ends where it is to end (R185, R190, R196). -/
def execContextSaveDone (job tile : Nat) (s : State) : Host.Outcome State Fault Refusal :=
  match s.jobs.get? job with
  | none => .next s
  | some j =>
    if j.st != .running || !j.stopReq || !j.stopped.contains tile || !j.writes.isEmpty then .next s
    else
      let s := releaseTiles job (fun t => t == tile) s
      match s.jobs.get? job with
      | none => .next s
      | some j =>
        if !j.hold.cells.isEmpty then .next (grantTiles s)
        else match j.endAt with
          | some (st, fc) => .next (endJob job st fc 0 s)
          | none => .next (grantTiles (preemptJob job s))

/-- Work that comes before the resumption of a best-effort job can start (R182). -/
def olderWork (s : State) (id : Nat) : Bool :=
  mayDispatch s && ((pickLc s).isSome || ((pickGolden s).isSome && !((s.jobs.get? id).map Job.golden == some true)))

/-- A reply reaches its slot. One that an asynchronous read of a pair takes also enters the delay FIFO and the replay
area (R313); after a restart the replay area serves it (R318). -/
def takeReply (job token : Nat) (data : List Byte) (s : State) : State :=
  match s.jobs.get? job with
  | none => s
  | some j =>
    let paired := match s.progs.get? j.prog with
      | some p => p.img.paired
      | none => false
    let again := if paired then j.replay[j.replayAt]? else none
    let d := again.getD data
    modJob job (fun j => { j with
      reads := j.reads.filter (fun r => r.token != token), got := (token, d) :: j.got,
      fifo := if paired then j.fifo ++ [d] else j.fifo,
      replay := if paired && again.isNone then j.replay ++ [d] else j.replay,
      replayAt := if paired then j.replayAt + 1 else j.replayAt }) s

/-- A pre-empted job resumes on its own tiles; held replies are delivered as if they had arrived, a mismatch that
waited is acted on (R186, R187, R319). Higher-ordered work that can start goes first (R182). -/
def execJobResume (s : State) : Host.Outcome State Fault Refusal :=
  if !(s.running || s.dev.st == .service) then .next s
  else match pickResume s with
    | none => .next s
    | some id =>
      match s.jobs.get? id with
      | none => .next s
      | some j =>
        if olderWork s id then .next s
        else
          let held := j.reads.filterMap (fun r => r.held.map (fun d => (r.token, d)))
          let s := modJob id (fun j => { j with
            st := .running, hold := j.tiles.foldl (fun (m : Map Nat) t => m.set t s.time.ns) Map.empty,
            reads := (j.reads.filter (fun r => r.held.isNone)).map (fun r =>
              { r with parked := false, reissue := false }) }) s
          let s := held.foldl (fun s r => takeReply id r.1 r.2 s) s
          .next (if j.pendMis then pairMismatch id s else s)

/-! ## Remote waits (R187, R386) -/

/-- A reply meets a read that its stopped slot left: held in its park entry, discarded where it has none or the entry
has been freed (R187). -/
def holdReply (job port tile token : Nat) (data : List Byte) (s : State) : State :=
  modJob job (fun j => { j with reads := j.reads.map (fun r =>
    if r.token == token && r.port == port && r.tile == tile && r.parked then { r with held := some data } else r) }) s

/-- A reply to a remote read: delivered to a slot that runs; a read that a pre-emption request has stopped is held or
discarded, from its slot's stop on (R187). -/
def execRemoteReply (job port tile token : Nat) (data : List Byte) (s : State) : Host.Outcome State Fault Refusal :=
  match s.jobs.get? job with
  | none => .next s
  | some j =>
    let left := j.reads.any (fun r => r.token == token && (r.parked || r.reissue))
    match j.st with
    | .running => .next (if left then holdReply job port tile token data s else takeReply job token data s)
    | .preempted => .next (holdReply job port tile token data s)
    | _ => .next s

/-- An outstanding remote write completes, or fails and ends its job. -/
def execRemoteWriteDone (job token : Nat) (ok : Bool) (s : State) : Host.Outcome State Fault Refusal :=
  match s.jobs.get? job with
  | none => .next s
  | some j =>
    if !j.inFlight then .next s
    else if ok then .next (modJob job (fun j => { j with writes := j.writes.filter (fun w => w.token != token) }) s)
    else .next (endJob job FAULT 5 0 s)

/-- PARK_US after a read was parked (R187). -/
def execParkTimeout (job token : Nat) (s : State) : Host.Outcome State Fault Refusal :=
  match s.jobs.get? job with
  | none => .next s
  | some j =>
    if j.inFlight && j.reads.any (fun r => r.token == token && r.parked) then
      let s := modJob job (fun j => { j with reads := j.reads.map (fun r =>
        if r.token == token && r.parked then { r with parked := false, held := none, reissue := true } else r) }) s
      .next { s with sch := { s.sch with parkExp := satAdd 0xFFFF s.sch.parkExp 1 } }
    else .next s

/-- 1 ms without an answer: reissued once, then the job ends (R386). A parked read is not timed. -/
def execRemoteTimeout (job port tile token : Nat) (write : Bool) (s : State) : Host.Outcome State Fault Refusal :=
  match s.jobs.get? job with
  | none => .next s
  | some j =>
    if !j.inFlight then .next s
    else if write then
      if j.writes.any (fun w => w.token == token && w.again) then .next (endJob job FAULT 5 0 s)
      else .next (modJob job (fun j => { j with
        writes := j.writes.filter (fun w => w.token != token) ++ [⟨token, true⟩] }) s)
    else if j.reads.any (fun r => r.token == token && r.parked) then .next s
    else if j.reads.any (fun r => r.token == token && r.again) then .next (endJob job FAULT 0x0B01 0 s)
    else .next (modJob job (fun j => { j with
      reads := j.reads.filter (fun r => r.token != token) ++ [⟨port, token, tile, false, none, false, true⟩] }) s)

/-- A job exceeds TLIMIT_US (R190). One that is COMMITTING commits unless it restarts; then it stops at its next yield
point. -/
def execTlimitExpiry (job : Nat) (s : State) : Host.Outcome State Fault Refusal :=
  match s.jobs.get? job with
  | none => .next s
  | some j =>
    if !j.inFlight || j.tlimit == 0 then .next s
    else if j.st == .committing then .next (modJob job (fun j => { j with endAt := some (j.endAt.getD (TIMEOUT, 0)) }) s)
    else .next (stopJob job TIMEOUT 0 s)

/-! ## Finishing (R188, R191, R320, R327) -/

/-- The job waits for the checker, in the order in which frames reach COMMITTING (R320). -/
def queueChk (id : Nat) (s : State) : State :=
  fillChk (modSkk (fun k => { k with chkWait := k.chkWait ++ [id] })
    (modJob id (fun j => { j with chk := .waiting }) s))

/-- Every slot of a job has finished: COMMITTING, and then the check, the comparison or the commit that its kind asks
for. A job that was to end at its next yield point ends (R190, R196). -/
def execJobSlotsFinished (job : Nat) (s : State) : Host.Outcome State Fault Refusal :=
  match s.jobs.get? job with
  | none => .next s
  | some j =>
    if j.st != .running || !j.waitTiles.isEmpty then .next s
    else match j.endAt with
    | some (st, fc) => .next (endJob job st fc 0 s)
    | none =>
      let s := modJob job (fun j => { j with st := .committing, stopReq := false, stopped := [] }) s
      if !j.parts.isEmpty && s.chn.st != 3 then .next (endJob job TIMEOUT 0 0 s)
      else match j.role with
        | .golden _ => .next (goldenDone job s)
        | .eval _ => .next (if s.skk.debug then endJob job INVALID_OUTPUT 0 0 s else queueChk job s)
        | .user =>
          if isFrame s j && s.skk.chkrun && !s.skk.debug then .next (queueChk job s)
          else .next (passJob job false s)

/-- A participant's report reaches the master, which commits the job once the last has prepared (R191). -/
def execChainJobPrepare (job member : Nat) (s : State) : Host.Outcome State Fault Refusal :=
  match s.jobs.get? job with
  | none => .next s
  | some j =>
    if s.chn.role != 1 || s.chn.st != 3 || !j.inFlight then .next s
    else
      let s := modJob job (fun j => { j with reported := member :: j.reported }) s
      if j.prepared && j.parts.all (fun p => p == member || j.reported.contains p) then
        .next (commitChain job j.checked s)
      else .next s

/-- Adopt an epoch received, and acknowledge it, once no chain job waits for its commit; no epoch ever decreases (R191,
R382). -/
def adoptEpoch (s : State) : State :=
  match s.chn.advTo with
  | none => s
  | some e =>
    if s.jobs.any (fun _ j => j.prepared) then s
    else { s with
      sch := { s.sch with epoch := max s.sch.epoch e },
      chn := { s.chn with advTo := none, sent := s.chn.sent ++ [.ack e] } }

/-- The master's commit reaches a participant, which commits with the EPOCH given. -/
def execChainJobCommit (job epoch : Nat) (s : State) : Host.Outcome State Fault Refusal :=
  match s.jobs.get? job with
  | none => .next s
  | some j =>
    if !j.prepared || epoch < s.sch.epoch then .next s
    else
      let s := { s with sch := { s.sch with epoch := epoch } }
      .next (adoptEpoch (commitAt job epoch j.checked s))

/-- A chain job not prepared everywhere within PREP_US ends with TIMEOUT (R191, R382). -/
def execPrepareTimeout (job : Nat) (s : State) : Host.Outcome State Fault Refusal :=
  match s.jobs.get? job with
  | none => .next s
  | some j =>
    if j.inFlight && !j.parts.isEmpty then .next (adoptEpoch (endJob job TIMEOUT 0 0 s)) else .next s

end Sys2Proof.Machine
end

