-- ==== Sys2Proof/Machine/Control.lean ====
section
/-! DEFINITION. Group 0x08xx: control loops, groups, banks and swaps (R285 to R298), trace (R299, R300),
motion channels (R301 to R306). -/

namespace Sys2Proof.Machine

open Sys2Proof

/-! ## Bank entries (Table 4 of chapter 11) -/

/-- An entry at INIT (Table 4's note). -/
def entryInit : List Byte :=
  leBytes 2 0x160 ++ leBytes 2 0x160 ++ leBytes 2 0x160 ++ zeros 20 ++ leBytes 2 1 ++ [0x00, 0x01] ++ zeros 2
    ++ leBytes 2 1 ++ zeros 30

def i16 (b : List Byte) (o : Nat) : Int := asInt 16 (u16 b o)
def bRef (b : List Byte) : Nat := u16 b 0
def bMeas (b : List Byte) : Nat := u16 b 2
def bFf (b : List Byte) : Nat := u16 b 4
def bDonm (b : List Byte) : Bool := bit (u8 b 6) 0
def bEwrap (b : List Byte) : Bool := bit (u8 b 6) 1
def bShift (b : List Byte) : Nat := u8 b 7
def bUmin (b : List Byte) : Int := i16 b 18
def bUmax (b : List Byte) : Int := i16 b 20
def bSafe (b : List Byte) : Int := i16 b 22
def bGroup (b : List Byte) : Nat := u8 b 30
def bPeriod (b : List Byte) : Nat := u16 b 32
def bPhase (b : List Byte) : Nat := u16 b 34

/-- A node that a loop may read. -/
def nodeOk (c : Nat) : Bool := c ≤ 0x15F || c == 0x160 || (0x170 ≤ c && c ≤ 0x1AF)

/-- The ranges of Table 4. -/
def entryOk (b : List Byte) : Bool :=
  nodeOk (bRef b) && nodeOk (bMeas b) && nodeOk (bFf b) && u8 b 6 ≤ 3 && bShift b ≤ 8 && u16 b 14 ≤ 32767
    && decide (bUmin b ≤ bUmax b) && decide (bUmin b ≤ bSafe b) && decide (bSafe b ≤ bUmax b)
    && u16 b 24 ≤ 32767 && 1 ≤ u16 b 26 && u8 b 28 ≤ 1 && u8 b 29 ≤ 1 && bGroup b ≤ 16 && u8 b 31 == 0
    && 1 ≤ bPeriod b && bPhase b < bPeriod b && zeroAt b 36 28

def Loop.fresh : Loop :=
  { live := entryInit, standby := entryInit, st := 0, cause := 0, accsat := false, feover := false, ist := 0,
    dst := 0, ePrev := 0, yPrev := 0, first := true, u := 0, timer := 0, last := none, feRep := false, e := 0, p := 0, dd := 0,
    ff := 0, v := 0, flags := 0, inFault := false }

def Trace.idle : Trace := ⟨0, 0, 0, [], 1, 0, 0, 0, 0, [], 0, 0, none⟩

def Engine.fresh : Engine :=
  { owner := none, loops := Map.empty, sp := Map.empty, spPend := [], enPend := [], swaps := [], halt := none,
    gout := Map.empty, gwin := Map.empty, tick := none, pu := Map.empty, pg := Map.empty, trip := false, late := 0,
    trips := 0, trace := Trace.idle, dumps := [] }

def State.ce (s : State) (e : Nat) : Engine := s.ces.getD e Engine.fresh
def State.setCe (s : State) (e : Nat) (v : Engine) : State := { s with ces := s.ces.set e v }
def Engine.loop (e : Engine) (k : Nat) : Loop := e.loops.getD k Loop.fresh
def Engine.setLoop (e : Engine) (k : Nat) (l : Loop) : Engine := { e with loops := e.loops.set k l }

def SdCh.fresh : SdCh := ⟨none, [], [], 0, false, false, 0⟩
def EncCh.fresh : EncCh := ⟨none, [], 0, [], false, 0, 0, none, [], 0, false, 0, false, false, 0⟩
def State.pwm (s : State) (k : Nat) : Pwm := s.pwms.getD k ⟨none, none, 0, []⟩
def State.sd (s : State) (k : Nat) : SdCh := s.sds.getD k SdCh.fresh
def State.enc (s : State) (k : Nat) : EncCh := s.encs.getD k EncCh.fresh

/-- EV_CONTROL (R307). -/
def evControl (ce idx ev st : Nat) (s : State) : State :=
  offer0 0x08F0 (leBytes 1 ce ++ leBytes 1 idx ++ leBytes 1 ev ++ leBytes 1 st ++ leBytes 4 (s.time.ns % 2 ^ 32)) s

/-! ## Nodes (Table 3, R288) -/

/-- The loops of a group, by the live entries. -/
def Engine.members (e : Engine) (g : Nat) : List Nat :=
  (List.range 64).filter (fun k => bGroup (e.loop k).live == g)

/-- A loop's presented output. -/
def Engine.out (e : Engine) (k : Nat) : Int :=
  if (e.loop k).st == 1 then (e.loop k).u else bSafe (e.loop k).live

/-- A group's presented output. -/
def Engine.gnode (e : Engine) (g : Nat) : Int :=
  let ms := e.members g
  if ms.any (fun k => (e.loop k).st == 1) then e.gout.getD g 0
  else match ms.map (fun k => bSafe (e.loop k).live) with
    | [] => 0
    | x :: t => t.foldl min x

/-- Node of a channel of a die, none for a code that names no channel. -/
def chanNode (s : State) (die c : Nat) : Option Int :=
  if 0x140 ≤ c && c ≤ 0x14F then some (s.sd (16 * die + (c - 0x140))).node
  else if 0x150 ≤ c && c ≤ 0x157 then some (s.enc (8 * die + (c - 0x150))).n1
  else if 0x158 ≤ c && c ≤ 0x15F then some (s.enc (8 * die + (c - 0x158))).n2
  else none

/-- What a loop or group presented at the tick before n: kept while the engine is at tick n, else as it presents it
still. -/
def Engine.outAt (e : Engine) (n k : Nat) : Int := if e.tick == some n then e.pu.getD k 0 else e.out k
def Engine.gnodeAt (e : Engine) (n g : Nat) : Int := if e.tick == some n then e.pg.getD g 0 else e.gnode g

/-- The value of a node to engine `ce` (its present value `e`): `own` and `ownG` say what a loop or group of the engine
itself gives, other engines give what they presented at the tick before n. -/
def nodeWith (s : State) (ce : Nat) (e : Engine) (n : Nat) (own ownG : Nat → Int) (c : Nat) : Int :=
  let die := ce / 4
  let eng := fun i => 4 * die + i
  if c < 0x100 then
    (if eng (c / 64) == ce then own (c % 64) else (s.ce (eng (c / 64))).outAt n (c % 64))
  else if c < 0x140 then e.sp.getD (c - 0x100) 0
  else if 0x170 ≤ c && c ≤ 0x1AF then
    let g := (c - 0x170) % 16 + 1
    (if eng ((c - 0x170) / 16) == ce then ownG g else (s.ce (eng ((c - 0x170) / 16))).gnodeAt n g)
  else (chanNode s die c).getD 0

/-- A node as loop k of the engine reads it in tick n (R288): this tick's value of a lower-numbered loop and of a group
whose highest-numbered member is lower; of every other output the previous tick's. -/
def nodeVal (s : State) (ce : Nat) (e : Engine) (n k c : Nat) : Int :=
  nodeWith s ce e n (fun j => if j < k then e.out j else e.pu.getD j 0)
    (fun g => if (e.members g).all (· < k) then e.gnode g else e.pg.getD g 0) c

/-- A node of the engine's own as it is at the end of tick n. -/
def nodeEnd (s : State) (ce : Nat) (e : Engine) (n c : Nat) : Int := nodeWith s ce e n e.out e.gnode c

/-- A node of a die as it is now; setpoint registers are those of the die's first engine. -/
def nodeNow (s : State) (die c : Nat) : Int :=
  if c < 0x100 then (s.ce (4 * die + c / 64)).out (c % 64)
  else if 0x170 ≤ c && c ≤ 0x1AF then (s.ce (4 * die + (c - 0x170) / 16)).gnode ((c - 0x170) % 16 + 1)
  else nodeWith s (4 * die) (s.ce (4 * die)) 0 (fun _ => 0) (fun _ => 0) c

/-- A node is a channel whose fault flag is set (R296). -/
def nodeFault (s : State) (die c : Nat) : Bool :=
  if 0x140 ≤ c && c ≤ 0x14F then (s.sd (16 * die + (c - 0x140))).fault
  else if 0x150 ≤ c && c ≤ 0x15F then (s.enc (8 * die + (c - 0x150) % 8)).fault
  else false

/-- A node lies in an engine or channel of a tenant (R294). -/
def nodeOwned (s : State) (ce t c : Nat) : Bool :=
  let die := ce / 4
  if c < 0x100 then (s.ce (4 * die + c / 64)).owner == some t
  else if c < 0x140 || c == 0x160 then true
  else if c ≤ 0x14F then (s.sd (16 * die + (c - 0x140))).owner == some t
  else if c ≤ 0x15F then (s.enc (8 * die + (c - 0x150) % 8)).owner == some t
  else (s.ce (4 * die + (c - 0x170) / 16)).owner == some t

/-! ## The control law (R290 to R292, R295) -/

def rnd15 (x : Int) : Int := (x + 16384) / 32768
def wrap16 (x : Int) : Int := asInt 16 (ofInt 16 x)

/-- sat40 and whether it clipped. -/
def sat40 (x : Int) : Int × Bool := (satInt 40 x, satInt 40 x != x)

/-- One sample of an ENABLED loop: r, y, f, and for a bumpless swap the output before it (R290, R294). -/
def sampleLoop (l : Loop) (r y f : Int) (bump : Bool) : Loop :=
  let b := l.live
  let g := 2 ^ bShift b
  let e := if bEwrap b then wrap16 (r - y) else satInt 16 (r - y)
  let yp := if l.first then y else l.yPrev
  let ep := if l.first then e else l.ePrev
  let dy := if bEwrap b then wrap16 (y - yp) else y - yp
  let d := if bDonm b then -dy else e - ep
  let p := i16 b 8 * e
  let dd := sat40 (rnd15 ((u16 b 14 : Int) * l.dst) + i16 b 12 * d)
  let ff := i16 b 16 * f
  let ic := if bump then sat40 (l.u * 2 ^ (15 - bShift b) - p - dd.1 - ff) else sat40 (l.ist + i16 b 10 * e)
  let t := sat40 (p + ic.1 + dd.1 + ff)
  let v := satInt 16 (rnd15 (t.1 * g))
  let u := min (max v (bUmin b)) (bUmax b)
  let limited := decide (16384 ≤ (t.1 * g - u * 32768).natAbs)
  let ke := i16 b 10 * e
  let hold := limited && ((decide (0 < ke) && decide (bUmax b ≤ v)) || (decide (ke < 0) && decide (v ≤ bUmin b)))
  { l with
    ist := if hold then l.ist else ic.1, dst := dd.1, ePrev := e, yPrev := y, first := false, u := u,
    accsat := l.accsat || dd.2 || ic.2 || t.2, e := e, p := p, dd := dd.1, ff := ff, v := v,
    flags := b2n limited + 2 * b2n hold }

/-- The following-error timer after a sample at tick n (R295). -/
def feTimer (l : Loop) (n : Nat) : Nat :=
  if u16 l.live 24 == 0 then l.timer
  else if l.e.natAbs ≤ u16 l.live 24 then 0
  else l.timer + 1000 * (match l.last with
    | some k => n - k
    | none => bPeriod l.live)

/-- The timer has reached FETIME and its effect has not come about; FEACT 0 reports once until the timer is clear
again. -/
def feDue (l : Loop) : Bool :=
  l.st == 1 && u16 l.live 24 != 0 && decide (u16 l.live 26 * 1000 ≤ l.timer) && !(u8 l.live 28 == 0 && l.feRep)

/-- An entry to TRIPPED or HALTED of a loop, with EV_CONTROL (R295 to R298). -/
def stopLoop (ce k st cause : Nat) (x : Engine × State) : Engine × State :=
  let e := x.1
  let l := e.loop k
  let tr := if e.trace.st == 1 && e.trace.trig == 2 then
      { e.trace with st := 2, samples := e.trace.samples.take e.trace.pre,
                     npre := (e.trace.samples.take e.trace.pre).length, left := 8192 - e.trace.pre }
    else e.trace
  ({ (e.setLoop k { l with st := st, cause := cause, timer := 0, feRep := false, inFault := false }) with
      trip := true, trips := satAdd 0xFFFF e.trips 1, trace := tr },
   evControl ce k (if st == 2 then 2 else 3) cause x.2)

/-- FEOVER is set and reported once, or the loop trips with cause FOLLOW (R295). -/
def feAct (ce k : Nat) (x : Engine × State) : Engine × State :=
  let l := x.1.loop k
  if u8 l.live 28 == 1 then stopLoop ce k 2 1 x
  else (x.1.setLoop k { l with feover := true, feRep := true }, evControl ce k 1 l.st x.2)

/-- A loop samples at tick n (R285). -/
def samples (l : Loop) (n : Nat) : Bool := ((n : Int) - bPhase l.live) % (max 1 (bPeriod l.live) : Nat) == 0

/-- One loop's turn in a tick: an input fault trips it; else it is evaluated and supervised. -/
def evalLoop (ce n bumpMask k : Nat) (x : Engine × State) : Engine × State :=
  let e := x.1
  let s := x.2
  let l := e.loop k
  if l.st != 1 || !samples l n then x
  else if l.inFault || [bRef l.live, bMeas l.live, bFf l.live].any (nodeFault s (ce / 4)) then stopLoop ce k 2 2 x
  else
    let rd := fun c => nodeVal s ce e n k c
    let l1 := sampleLoop l (rd (bRef l.live)) (rd (bMeas l.live)) (rd (bFf l.live)) (bit bumpMask k)
    let t := feTimer l1 n
    let l1 := { l1 with
      timer := t, last := some n, feRep := l1.feRep && t != 0,
      flags := l1.flags + 8 * b2n (t != 0 && u16 l1.live 24 != 0) }
    let x := (e.setLoop k l1, s)
    if feDue l1 then feAct ce k x else x

/-- The winner of a group: the smallest u of its ENABLED members, the lowest number on ties (R292). -/
def winner (e : Engine) (g : Nat) : Option Nat :=
  ((e.members g).filter (fun k => (e.loop k).st == 1)).foldl (fun best k =>
    match best with
    | none => some k
    | some b => if (e.loop k).u < (e.loop b).u then some k else some b) none

/-- A group's output, and the integrals of its members that did not win (R292). -/
def groupOut (g n : Nat) (e : Engine) : Engine :=
  match winner e g with
  | none => { e with gwin := e.gwin.erase g }
  | some w =>
    let out := (e.loop w).u
    let e := { e with gout := e.gout.set g out, gwin := e.gwin.set g w }
    (e.members g).foldl (fun e k =>
      let l := e.loop k
      if l.st != 1 || l.last != some n then e
      else if k == w then e.setLoop k { l with flags := l.flags + 4 }
      else
        let i := sat40 (out * 2 ^ (15 - bShift l.live) - l.p - l.dd - l.ff)
        e.setLoop k { l with ist := i.1, accsat := l.accsat || i.2 }) e

/-- A loop's turn, and its group's when it is the highest-numbered member. -/
def turnLoop (ce n bumpMask : Nat) (x : Engine × State) (k : Nat) : Engine × State :=
  let x := evalLoop ce n bumpMask k x
  let l := x.1.loop k
  let g := bGroup l.live
  if g != 0 && (x.1.members g).getLast? == some k && samples l n then (groupOut g n x.1, x.2) else x

/-! ## What takes effect at a tick -/

/-- Loops of a mask. -/
def maskLoops (m : Nat) : List Nat := (List.range 64).filter (bit m)

/-- A loop may become ENABLED now (R297, R298). -/
def mayEnable (s : State) (e : Engine) : Bool :=
  (s.running || s.dev.st == .service) && s.dev.stopTok.isNone && (match e.owner with
    | some t => (s.ten t).st != .faulted
    | none => false)

/-- CTL_ENABLE or CTL_DISABLE of a mask takes effect (R291, R297). -/
def applyEn (s : State) (mask : Nat) (en : Bool) (e : Engine) : Engine :=
  (maskLoops mask).foldl (fun e k =>
    let l := e.loop k
    if en then
      if (l.st == 0 || l.st == 2) && mayEnable s e then
        e.setLoop k { l with st := 1, cause := 0, ist := 0, dst := 0, first := true, timer := 0, last := none, feRep := false,
                             u := bSafe l.live, inFault := false }
      else e
    else e.setLoop k { l with st := 0, cause := 0 }) e

/-- A swap takes effect (R294): the named loops exchange their entries, each with an EV_CONTROL, and the command
completes. -/
def applySwap (ce n : Nat) (x : Engine × State) (w : Swap) : Engine × State :=
  let e := (maskLoops w.mask).foldl (fun e k =>
    let l := e.loop k
    e.setLoop k { l with live := l.standby, standby := l.live }) x.1
  ({ e with swaps := e.swaps.filter (fun y => y.tok != w.tok) },
   complete w.tok OK (leBytes 8 (n * 1000)) ((maskLoops w.mask).foldl (fun s k => evControl ce k 6 (e.loop k).st s) x.2))

/-- A group that had no ENABLED member and has one now keeps presenting what it did until it is formed (R288). -/
def holdGroups (before after : Engine) : Engine :=
  (List.range 17).foldl (fun e g =>
    let on := fun (x : Engine) => (x.members g).any (fun k => (x.loop k).st == 1)
    if on after && !on before then { e with gout := e.gout.set g (after.pg.getD g 0) } else e) after

/-- Pending writes, swaps, enables and halts of a tick; answers also the loops swapped bumplessly. -/
def beginTick (ce n : Nat) (s : State) : Engine × Nat × State :=
  let e : Engine := s.ce ce
  let due := e.spPend.filter (fun (p : Nat × Nat × Int) => decide (p.1 ≤ n))
  let e : Engine := { e with
    pu := (List.range 64).foldl (fun (m : Map Int) k => m.set k (e.out k)) Map.empty,
    pg := (List.range 17).foldl (fun (m : Map Int) g => m.set g (e.gnode g)) Map.empty, tick := some n,
    sp := due.foldl (fun (m : Map Int) (p : Nat × Nat × Int) => m.set p.2.1 p.2.2) e.sp,
    spPend := e.spPend.filter (fun (p : Nat × Nat × Int) => decide (n < p.1)) }
  let sw := e.swaps.filter (fun (w : Swap) => decide (w.tick ≤ n))
  let x : Engine × State := sw.foldl (applySwap ce n) (e, s)
  let bump := (sw.filter (fun (w : Swap) => w.bumpless)).foldl (fun (m : Nat) (w : Swap) => m ||| w.mask) 0
  let en := x.1.enPend.filter (fun (p : Nat × Nat × Bool) => decide (p.1 ≤ n))
  let e : Engine := holdGroups e (en.foldl (fun (e : Engine) (p : Nat × Nat × Bool) => applyEn x.2 p.2.1 p.2.2 e)
    { x.1 with enPend := x.1.enPend.filter (fun (p : Nat × Nat × Bool) => decide (n < p.1)) })
  let x : Engine × State := match e.halt with
    | none => (e, x.2)
    | some c => (List.range 64).foldl (fun (y : Engine × State) k =>
        if (y.1.loop k).st == 1 && u8 (y.1.loop k).live 29 == 1 then stopLoop ce k 3 c y else y)
          ({ e with halt := none }, x.2)
  (x.1, bump, x.2)

/-! ## Trace (R299) -/

/-- The value of a trace node at the end of a tick. -/
def traceVal (s : State) (ce : Nat) (e : Engine) (n c : Nat) : Int :=
  if c < 0x200 then nodeEnd s ce e n c
  else
    let l := e.loop ((c - 0x200) / 8)
    match (c - 0x200) % 8 with
    | 0 => l.e
    | 1 => satInt 16 (rnd15 l.p)
    | 2 => satInt 16 (rnd15 l.ist)
    | 3 => satInt 16 (rnd15 l.dst)
    | 4 => l.v
    | 5 => l.u
    | 6 => l.flags
    | _ => 0

/-- TNODE crosses THRESH between two samples. -/
def crosses (t : Trace) (now : Int) : Bool :=
  match t.prev with
  | none => false
  | some p => if t.edge == 0 then decide (p < t.thresh) && decide (t.thresh ≤ now)
    else decide (t.thresh < p) && decide (now ≤ t.thresh)

/-- The trace after a tick's evaluation. -/
def traceTick (s : State) (ce n : Nat) (e : Engine) : Engine :=
  let t := e.trace
  if t.st == 0 || t.st == 3 || n % max 1 t.tdiv != 0 then e
  else
    let now := traceVal s ce e n t.tnode
    let t := if t.st == 1 && t.trig == 1 && crosses t now then
        { t with st := 2, samples := t.samples.take t.pre, npre := (t.samples.take t.pre).length,
                 left := 8192 - t.pre }
      else t
    if t.st == 2 && t.left == 0 then { e with trace := t }
    else
      let smp := (n, t.nodes.take t.nn |>.map (traceVal s ce e n))
      { e with trace := { t with
        prev := some now, samples := (smp :: t.samples).take 8192, left := if t.st == 2 then t.left - 1 else 0 } }

/-! ## Channels at a tick (R301, R304) -/

/-- The nodes of a quadrature channel, from its counter at a tick. -/
def encTick (c : EncCh) : EncCh :=
  if c.cfg.isEmpty || bit (u8 c.cfg 2) 0 then c
  else
    let h := (c.count :: c.hist).take 65
    let old := (h[u8 c.cfg 6]?).getD (h.getLast?.getD 0)
    { c with
      hist := h, n1 := wrap16 (c.count / 2 ^ u8 c.cfg 5),
      n2 := satInt 16 ((asInt 32 (ofInt 32 (c.count - old)) * (u16 c.cfg 8 : Int)) / 256) }

/-- A channel configuration takes effect. -/
def applyIo (s : State) (p : Nat × Nat × List Byte) : State :=
  let ps := p.2.2
  match p.1 with
  | 0 => { s with pwms := s.pwms.set p.2.1 { s.pwm p.2.1 with cfg := some ps, active := [] } }
  | 1 => { s with sds := s.sds.set p.2.1 { s.sd p.2.1 with cfg := ps, win := [] } }
  | _ => { s with encs := s.encs.set p.2.1 { s.enc p.2.1 with
      cfg := ps, homed := false, hist := [], sync := none, stat := [] } }

/-- Die of a channel of a kind. -/
def ioDie (kind ch : Nat) : Nat := if kind = 0 then ch / 24 else if kind = 1 then ch / 16 else ch / 8

/-- A die's first engine tick at n: configurations take effect and counters are sampled. -/
def dieTickAt (die n : Nat) (s : State) : State :=
  if s.dieTick.get? die == some n then s
  else
    let due := s.ioPend.filter (fun p => ioDie p.1 p.2.1 == die)
    let s := due.foldl applyIo { s with ioPend := s.ioPend.filter (fun p => ioDie p.1 p.2.1 != die) }
    { s with
      dieTick := s.dieTick.set die n,
      encs := s.encs.mapKV (fun k c => if k / 8 == die then encTick c else c) }

/-- An engine tick: the multiple of 1 µs that device time has reached. `skip` says that its
evaluation does not begin before the next tick, so that it is skipped whole (R285 to R287). -/
def execEngineTick (ce : Nat) (skip : Bool) (s : State) : Host.Outcome State Fault Refusal :=
  let n := s.time.ns / 1000
  let fresh := match (s.ce ce).tick with
    | some k => decide (k < n)
    | none => true
  if s.nCe ≤ ce || !fresh then .next s
  else
    let s := dieTickAt (ce / 4) n s
    let (e, bump, s) := beginTick ce n s
    if skip then .next (s.setCe ce { e with late := satAdd 0xFFFF e.late 1 })
    else
      let x := (List.range 64).foldl (turnLoop ce n bump) (e, s)
      .next (x.2.setCe ce (traceTick x.2 ce n x.1))

/-- The following-error timer of a loop has reached FETIME (R295); its group is formed again. -/
def execFollowingErrorTimeout (ce loop : Nat) (s : State) : Host.Outcome State Fault Refusal :=
  let e := s.ce ce
  if feDue (e.loop loop) then
    let x := feAct ce loop (e, s)
    let g := bGroup (e.loop loop).live
    let e := match g, winner x.1 g with
      | 0, _ => x.1
      | _, some w => { x.1 with gout := x.1.gout.set g (x.1.loop w).u, gwin := x.1.gwin.set g w }
      | _, none => { x.1 with gwin := x.1.gwin.erase g }
    .next (x.2.setCe ce e)
  else .next s

/-- Recording stops after the trigger and 8,192 − PRE samples. -/
def execTraceDone (ce : Nat) (s : State) : Host.Outcome State Fault Refusal :=
  let e := s.ce ce
  if e.trace.st == 2 && e.trace.left == 0 then
    .next (evControl ce 0 5 3 (s.setCe ce { e with trace := { e.trace with st := 3 } }))
  else .next s

/-! ## Commands -/

/-- CE is present and TENANT owns it. -/
def ownsCe (h : Hdr) (ps : List Byte) (s : State) : Bool :=
  u8 ps 0 < s.nCe && (s.ce (u8 ps 0)).owner == some h.tenant.toNat

/-- The first tick that begins at least `d` ns after now. -/
def tickAfter (s : State) (d : Nat) : Nat := (s.now + d * 65536 + 65535999) / 65536000

def Engine.anyOn (e : Engine) : Bool := e.loops.any (fun _ l => l.st == 1) || e.enPend.any (·.2.2)
/-- Some loop of the device is enabled, or will be (R59, R297). -/
def loopsOn (s : State) : Bool := s.ces.any (fun _ e => e.anyOn)

def cCtlAssign : Cmd := { Cmd.base with
  opcode := 0x0801, ten := .acts, lenOk := fun ps => ps.length == 4,
  stateOk := fun h ps s => tenLive h s &&
    (let e := s.ce (u8 ps 0)
     !e.anyOn && (e.owner.isNone || e.owner == some h.tenant.toNat)),
  paramOk := fun h ps s => u8 ps 0 < s.nCe && u8 ps 1 ≤ 1 && zeroAt ps 2 2
    && (!bit (u8 ps 1) 0 || (s.ce (u8 ps 0)).owner == some h.tenant.toNat),
  entries := fun _ _ _ => 1,
  effect := fun _ h ps s =>
    let k := u8 ps 0
    let s := journalCmd h 0x0801 k (u8 ps 1) s
    let e := s.ce k
    if bit (u8 ps 1) 0 then s.setCe k { e with owner := none }
    else if e.owner == some h.tenant.toNat then s
    else s.setCe k { e with owner := some h.tenant.toNat, late := 0, trips := 0 } }

def execCtlAssign (h : Hdr) (ps : List Byte) (s : State) : Host.Outcome State Fault Refusal :=
  cCtlAssign.exec h ps s

/-- A swap that names some of the loops of a mask is pending. -/
def swapPends (e : Engine) (m : Nat) : Bool := e.swaps.any (fun w => w.mask &&& m != 0)
def rangeMask (first n : Nat) : Nat := (2 ^ n - 1) * 2 ^ first

def cCtlBankWrite : Cmd := { Cmd.base with
  opcode := 0x0802, ten := .acts, lenOk := fun ps => ps.length == 4 + 64 * u8 ps 2,
  stateOk := fun h ps s => !ownsCe h ps s || 64 < u8 ps 1 + u8 ps 2
    || !swapPends (s.ce (u8 ps 0)) (rangeMask (u8 ps 1) (u8 ps 2)),
  paramOk := fun h ps s => ownsCe h ps s && 1 ≤ u8 ps 2 && u8 ps 2 ≤ 63 && u8 ps 1 + u8 ps 2 ≤ 64 && u8 ps 3 == 0,
  effect := fun _ _ ps s =>
    s.setCe (u8 ps 0) ((List.range (u8 ps 2)).foldl (fun e i =>
      e.setLoop (u8 ps 1 + i) { e.loop (u8 ps 1 + i) with standby := sub ps (4 + 64 * i) 64 }) (s.ce (u8 ps 0))) }

def execCtlBankWrite (h : Hdr) (ps : List Byte) (s : State) : Host.Outcome State Fault Refusal :=
  cCtlBankWrite.exec h ps s

def cCtlBankRead : Cmd := { Cmd.base with
  opcode := 0x0803, ten := .asks, states := stQuery, lenOk := fun ps => ps.length == 4, maxReply := 64,
  paramOk := fun h ps s => ownsCe h ps s && u8 ps 1 < 64 && u8 ps 2 ≤ 1 && u8 ps 3 == 0,
  data := fun _ ps s =>
    let l := (s.ce (u8 ps 0)).loop (u8 ps 1)
    if u8 ps 2 == 0 then l.live else l.standby }

def execCtlBankRead (h : Hdr) (ps : List Byte) (s : State) : Host.Outcome State Fault Refusal :=
  cCtlBankRead.exec h ps s

/-- The live entries as they would be after a swap. -/
def afterSwap (e : Engine) (m k : Nat) : List Byte := if bit m k then (e.loop k).standby else (e.loop k).live

/-- Groups keep R293: equal PERIOD and PHASE, at most 8 members. -/
def groupsOk (f : Nat → List Byte) : Bool :=
  (List.range 16).all (fun g =>
    let ms := (List.range 64).filter (fun k => bGroup (f k) == g + 1)
    ms.length ≤ 8 && (ms.map (fun k => (bPeriod (f k), bPhase (f k)))).eraseDups.length ≤ 1)

/-- The checks of a swap (R294). -/
def swapOk (s : State) (ce t m : Nat) : Bool :=
  let e := s.ce ce
  (maskLoops m).all (fun k =>
    let b := (e.loop k).standby
    entryOk b && [bRef b, bMeas b, bFf b].all (nodeOwned s ce t)) && groupsOk (afterSwap e m)

def cCtlSwap : Cmd := { Cmd.base with
  opcode := 0x0804, ten := .acts, lenOk := fun ps => ps.length == 12, cpl := some 8,
  stateOk := fun h ps s => !ownsCe h ps s || !swapPends (s.ce (u8 ps 0)) (u64 ps 4),
  paramOk := fun h ps s => ownsCe h ps s && u8 ps 1 ≤ 1 && zeroAt ps 2 2
    && swapOk s (u8 ps 0) h.tenant.toNat (u64 ps 4),
  entries := fun _ _ _ => 1,
  effect := fun tok h ps s =>
    let k := u8 ps 0
    let s := journalCmd h 0x0804 k (u64 ps 4 % 2 ^ 32) s
    let e := s.ce k
    s.setCe k { e with swaps := e.swaps ++ [⟨tok, u64 ps 4, bit (u8 ps 1) 0, tickAfter s 2000⟩] } }

def execCtlSwap (h : Hdr) (ps : List Byte) (s : State) : Host.Outcome State Fault Refusal :=
  cCtlSwap.exec h ps s

/-- A named loop reads a channel whose fault flag is set (R296). -/
def readsFault (s : State) (ce m : Nat) : Bool :=
  (maskLoops m).any (fun k =>
    let b := ((s.ce ce).loop k).live
    [bRef b, bMeas b, bFf b].any (nodeFault s (ce / 4)))

/-- While a DEV_STOP drains no loop can be enabled, so that none is ENABLED in READY (R59, R285; DEDUCED, log 24). -/
def cCtlEnable : Cmd := { Cmd.base with
  opcode := 0x0805, ten := .acts, states := [.run, .degraded, .service], lenOk := fun ps => ps.length == 12,
  stateOk := fun h ps s => !ownsCe h ps s || (!readsFault s (u8 ps 0) (u64 ps 4) && (s.ten h.tenant.toNat).st != .faulted
    && s.dev.stopTok.isNone),
  paramOk := fun h ps s => ownsCe h ps s && zeroAt ps 1 3,
  effect := fun _ _ ps s =>
    let e := s.ce (u8 ps 0)
    s.setCe (u8 ps 0) { e with enPend := e.enPend ++ [(tickAfter s 2000, u64 ps 4, true)] } }

def execCtlEnable (h : Hdr) (ps : List Byte) (s : State) : Host.Outcome State Fault Refusal :=
  cCtlEnable.exec h ps s

def cCtlDisable : Cmd := { Cmd.base with
  opcode := 0x0806, ten := .acts, states := stQuery, lenOk := fun ps => ps.length == 12,
  paramOk := fun h ps s => ownsCe h ps s && zeroAt ps 1 3,
  effect := fun _ _ ps s =>
    let e := s.ce (u8 ps 0)
    s.setCe (u8 ps 0) { e with enPend := e.enPend ++ [(tickAfter s 2000, u64 ps 4, false)] } }

def execCtlDisable (h : Hdr) (ps : List Byte) (s : State) : Host.Outcome State Fault Refusal :=
  cCtlDisable.exec h ps s

/-- A write of one setpoint register, at the first tick at least 200 ns from now (R289). -/
def writeSp (ce : Nat) (l : List (Nat × Int)) (s : State) : State :=
  let e := s.ce ce
  let n := tickAfter s 200
  s.setCe ce { e with spPend := e.spPend ++ l.map (fun p => (n, p.1, p.2)) }

def cCtlSetpt : Cmd := { Cmd.base with
  opcode := 0x0807, ten := .acts, states := stQuery, lenOk := fun ps => ps.length == 4 + 2 * u8 ps 2,
  paramOk := fun h ps s => ownsCe h ps s && 1 ≤ u8 ps 2 && u8 ps 1 + u8 ps 2 ≤ 64 && u8 ps 3 == 0,
  effect := fun _ _ ps s => writeSp (u8 ps 0)
    ((List.range (u8 ps 2)).map (fun i => (u8 ps 1 + i, i16 ps (4 + 2 * i)))) s }

def execCtlSetpt (h : Hdr) (ps : List Byte) (s : State) : Host.Outcome State Fault Refusal :=
  cCtlSetpt.exec h ps s

/-- A PCIe write to word 4k of an engine's setpoint page. -/
def execSetpointPageWrite (w : DoorWrite) (s : State) : Host.Outcome State Fault Refusal :=
  match doorWord 0x200000 16 w with
  | some (ce, o) => if (s.ce ce).owner.isSome && o / 4 < 64 then .next (writeSp ce [(o / 4, asInt 16 w.val)] s) else .next s
  | none => .next s

/-- What an aligned 32-bit read of a setpoint page gives (R289). -/
def setpointDoorRead (s : State) (off : Nat) : Nat :=
  match doorWord 0x200000 16 ⟨off, 4, 0⟩ with
  | some (ce, o) => if o / 4 < 64 then ofInt 16 ((s.ce ce).sp.getD (o / 4) 0) else 0
  | none => 0

def loopByte (e : Engine) (k : Nat) : Nat :=
  let l := e.loop k
  l.st + 4 * b2n l.accsat + 8 * b2n l.feover + 16 * l.cause + 128 * b2n (swapPends e (2 ^ k))

/-- The winning loop of a group, 0xFF while no member is ENABLED. -/
def winByte (e : Engine) (g : Nat) : Nat :=
  match e.gwin.get? g with
  | some k => if (e.loop k).st == 1 && bGroup (e.loop k).live == g then k else 0xFF
  | none => 0xFF

def cCtlStatus : Cmd := { Cmd.base with
  opcode := 0x0808, ten := .asks, states := stQuery, lenOk := fun ps => ps.length == 4, maxReply := 80,
  paramOk := fun h ps s => ownsCe h ps s && zeroAt ps 1 3,
  data := fun _ ps s =>
    let e := s.ce (u8 ps 0)
    (List.range 64).flatMap (fun k => leBytes 1 (loopByte e k))
      ++ (List.range 16).flatMap (fun g => leBytes 1 (winByte e (g + 1))) }

def execCtlStatus (h : Hdr) (ps : List Byte) (s : State) : Host.Outcome State Fault Refusal :=
  cCtlStatus.exec h ps s

/-! ## Motion channels (Table 6 of chapter 11) -/

def ioOk (s : State) (ps : List Byte) : Bool :=
  match u8 ps 0 with
  | 0 => u8 ps 1 < 24 * s.edies && u8 ps 2 ≤ 15 && u8 ps 3 == 0 && nodeOk (u16 ps 4) && u16 ps 6 ≤ 1000
      && 100 ≤ u32 ps 8 && u32 ps 8 ≤ 16777215 && u16 ps 12 ≤ 1000 && u8 ps 14 ≤ 2 && u8 ps 15 == 0
  | 1 => u8 ps 1 < 16 * s.edies && (u8 ps 2 &&& 0x0B) == u8 ps 2 && u8 ps 3 == 0 && 4 ≤ u8 ps 4 && u8 ps 4 ≤ 8
      && 40 ≤ u8 ps 5 && u8 ps 5 ≤ 200 && zeroAt ps 6 10
  | 2 =>
    u8 ps 1 < 8 * s.edies && u8 ps 2 ≤ 0x7F && u8 ps 3 == 0 && zeroAt ps 10 2 && zeroAt ps 14 2 &&
    (if bit (u8 ps 2) 0 then
       1 ≤ u8 ps 5 && u8 ps 5 ≤ 6 && 1 ≤ u16 ps 8 && 30 ≤ u16 ps 12 && u16 ps 12 ≤ 900
     else u8 ps 5 ≤ 16 && 1 ≤ u8 ps 6 && u8 ps 6 ≤ 64 && u8 ps 7 == 0)
  | _ => false

def ioOwner (s : State) (kind ch : Nat) : Option Nat :=
  if kind = 0 then (s.pwm ch).owner else if kind = 1 then (s.sd ch).owner else (s.enc ch).owner

/-- A loop or group node whose loop, or some member, is ENABLED. -/
def nodeOn (s : State) (die c : Nat) : Bool :=
  if c < 0x100 then ((s.ce (4 * die + c / 64)).loop (c % 64)).st == 1
  else if 0x170 ≤ c && c ≤ 0x1AF then
    let e := s.ce (4 * die + (c - 0x170) / 16)
    (e.members ((c - 0x170) % 16 + 1)).any (fun k => (e.loop k).st == 1)
  else false

/-- Node codes of an input channel. -/
def ioCodes (kind ch : Nat) : List Nat :=
  if kind = 1 then [0x140 + ch % 16] else if kind = 2 then [0x150 + ch % 8, 0x158 + ch % 8] else []

/-- An ENABLED loop reads the channel, or drives it (R301). -/
def ioBusy (s : State) (kind ch : Nat) : Bool :=
  let die := ioDie kind ch
  if kind = 0 then
    match (s.pwm ch).cfg with
    | some c => bit (u8 c 2) 3 && nodeOn s die (u16 c 4)
    | none => false
  else s.ces.any (fun k e => k / 4 == die && e.loops.any (fun _ l =>
    l.st == 1 && [bRef l.live, bMeas l.live, bFf l.live].any (ioCodes kind ch).contains))

/-- Take or release a channel; a new owner finds its registers at their reset values (R301, R308). -/
def ioTake (kind ch : Nat) (o : Option Nat) (s : State) : State :=
  let new := o.isSome && ioOwner s kind ch != o
  if kind = 0 then { s with pwms := s.pwms.set ch { s.pwm ch with owner := o } }
  else if kind = 1 then { s with sds := s.sds.set ch { (if new then SdCh.fresh else s.sd ch) with owner := o } }
  else { s with encs := s.encs.set ch { (if new then EncCh.fresh else s.enc ch) with owner := o } }

def cCtlIoCfg : Cmd := { Cmd.base with
  opcode := 0x0810, ten := .acts, lenOk := fun ps => ps.length == 16,
  stateOk := fun h ps s => tenLive h s &&
    (2 < u8 ps 0 || ioOwner s (u8 ps 0) (u8 ps 1) != some h.tenant.toNat || !ioBusy s (u8 ps 0) (u8 ps 1)),
  paramOk := fun h ps s => ioOk s ps && (match ioOwner s (u8 ps 0) (u8 ps 1) with
    | some t => t == h.tenant.toNat
    | none => true),
  entries := fun _ _ _ => 1,
  effect := fun _ h ps s =>
    let s := journalCmd h 0x0810 (u8 ps 1) (u32 ps 0) s
    let s := ioTake (u8 ps 0) (u8 ps 1) (if bit (u8 ps 2) 3 then some h.tenant.toNat else none) s
    { s with ioPend := s.ioPend ++ [(u8 ps 0, u8 ps 1, ps)] } }

def execCtlIoCfg (h : Hdr) (ps : List Byte) (s : State) : Host.Outcome State Fault Refusal :=
  cCtlIoCfg.exec h ps s

/-- From when to when in a period of `per` ns a channel is active, for a compare value `v` (R302): from its start, or
about its midpoint; a pulse or gap shorter than MINPW_NS is not produced. -/
def pwmSpan (c : List Byte) (v : Nat) : Nat × Nat :=
  let per := u32 c 8
  let v := if v < u16 c 12 then 0 else if per - v < u16 c 12 then per else v
  let a := if bit (u8 c 2) 0 then (per - v) / 2 else 0
  (a, a + v)

/-- A part of a period, none where it is empty. -/
def part (a b : Nat) : List (Nat × Nat) := if a < b then [(a, b)] else []

/-- A channel was active up to the end of the period before. -/
def endsOn (per : Nat) (l : List (Nat × Nat)) : Bool := l.any (fun x => x.2 == per)

/-- The channel itself, and as the odd one of a pair its complement: each turn-on edge is DT_NS late, and one that was
active up to the start of the period has no such edge there (R302). -/
def pwmOwn (c : List Byte) (was : Bool) (v : Nat) : List (Nat × Nat) :=
  let x := pwmSpan c v
  part (x.1 + (if bit (u8 c 2) 1 && !(x.1 == 0 && was) then u16 c 6 else 0)) x.2
def pwmOdd (c : List Byte) (was : Bool) (v : Nat) : List (Nat × Nat) :=
  let x := pwmSpan c v
  let d := if was then 0 else u16 c 6
  if x.1 = x.2 then part d (u32 c 8) else part d x.1 ++ part (x.2 + u16 c 6) (u32 c 8)

/-- An odd channel that the even one before it drives. -/
def pwmPaired (s : State) (k : Nat) : Bool :=
  k % 2 == 1 && (match (s.pwm (k - 1)).cfg with
    | some c => bit (u8 c 2) 1 && bit (u8 c 2) 3
    | none => false)

/-- A PWM period begins: the compare value is latched from the source node (R302). -/
def execPwmPeriod (pwm : Nat) (s : State) : Host.Outcome State Fault Refusal :=
  let p := s.pwm pwm
  match p.cfg with
  | none => .next s
  | some c =>
    if !bit (u8 c 2) 3 || pwmPaired s pwm then .next s
    else
      let u := nodeNow s (pwm / 24) (u16 c 4)
      let per := u32 c 8
      let v := if 32767 ≤ u then per else if u ≤ 0 then 0 else (u.toNat * per) / 32768
      let s := { s with pwms := s.pwms.set pwm { p with c := v, active := pwmOwn c (endsOn per p.active) v } }
      let q := s.pwm (pwm + 1)
      .next (if bit (u8 c 2) 1 && pwm % 2 == 0 then
          { s with pwms := s.pwms.set (pwm + 1) { q with active := pwmOdd c (endsOn per q.active) v } }
        else s)

/-- Sums of `n` neighbours along a list, newest first. -/
def boxSum (n : Nat) (l : List Int) : List Int := (List.range l.length).map (fun i => ((l.drop i).take n).foldl (· + ·) 0)

/-- A sinc3 decimation of the bits received since the last one, oldest first (R303). -/
def execSigmaDeltaOutput (sd : Nat) (stream : List Bool) (s : State) : Host.Outcome State Fault Refusal :=
  let c := s.sd sd
  if c.cfg.isEmpty || !bit (u8 c.cfg 2) 3 then .next s
  else
    let osr := 2 ^ u8 c.cfg 4
    let w := ((stream.take osr).reverse ++ c.win).take (3 * osr)
    let x := w.map (fun b => if b then (1 : Int) else -1)
    let v := (boxSum osr (boxSum osr (boxSum osr x))).head?.getD 0
    let node := satInt 16 (v * 32768 / 2 ^ (3 * u8 c.cfg 4))
    .next { s with sds := s.sds.set sd { c with win := w, node := node, bad := false } }

/-- An input fault of a channel: every ENABLED loop whose live entry reads it trips at its next
sample, though the flag be cleared before (R296). -/
def markFault (kind ch : Nat) (s : State) : State :=
  { s with ces := s.ces.mapKV (fun k e =>
      if k / 4 == ioDie kind ch then
        { e with loops := e.loops.mapKV (fun _ l =>
            if l.st == 1 && [bRef l.live, bMeas l.live, bFf l.live].any (ioCodes kind ch).contains then
              { l with inFault := true }
            else l) }
      else e) }

/-- A channel fault: the flag, the count and EV_CONTROL (R306). -/
def sdFault (k : Nat) (s : State) : State :=
  evControl 0xFF k 4 1 <| markFault 1 k { s with sds := s.sds.set k { s.sd k with
    fault := true, bad := true, errs := satAdd 0xFFFF (s.sd k).errs 1 } }

def execSdClockLoss (sd : Nat) (s : State) : Host.Outcome State Fault Refusal :=
  if (s.sd sd).cfg.isEmpty || !bit (u8 (s.sd sd).cfg 2) 3 then .next s else .next (sdFault sd s)

/-- A configured quadrature channel, or SENT channel. -/
def isQuad (c : EncCh) : Bool := !c.cfg.isEmpty && !bit (u8 c.cfg 2) 0 && bit (u8 c.cfg 2) 3
def isSent (c : EncCh) : Bool := !c.cfg.isEmpty && bit (u8 c.cfg 2) 0 && bit (u8 c.cfg 2) 3

def execQuadratureEdge (enc : Nat) (aLeads : Bool) (s : State) : Host.Outcome State Fault Refusal :=
  let c := s.enc enc
  if isQuad c then
    let up := aLeads != bit (u8 c.cfg 2) 2
    .next { s with encs := s.encs.set enc { c with count := asInt 32 (ofInt 32 (c.count + (if up then 1 else -1))) } }
  else .next s

def execEncIllegalTransition (enc : Nat) (s : State) : Host.Outcome State Fault Refusal :=
  let c := s.enc enc
  if isQuad c then
    .next (evControl 0xFF enc 4 1 <| markFault 2 enc { s with encs := s.encs.set enc { c with
      fault := true, errs := satAdd 0xFFFF c.errs 1 } })
  else .next s

/-- The first rising edge of the index after configuration, with ZRESET. -/
def execEncIndex (enc : Nat) (s : State) : Host.Outcome State Fault Refusal :=
  let c := s.enc enc
  if isQuad c && bit (u8 c.cfg 2) 1 && !c.homed then
    .next { s with encs := s.encs.set enc { c with count := 0, homed := true } }
  else .next s

/-- A number of nibbles, most significant first. -/
def nibbles (l : List Nat) : Nat := l.foldl (fun a x => a * 16 + x) 0
/-- A b-bit value as Q15. -/
def sentNode (l : List Nat) : Int := (nibbles l * 2 ^ (15 - 4 * l.length) : Nat)

/-- A SENT message with a synchronisation pulse of `sync` ns, and the lengths in ticks of its status,
data and CRC nibbles (R305). A pulse beyond ±25% starts no message. -/
def execSentMessage (enc sync : Nat) (ticks : List Nat) (s : State) : Host.Outcome State Fault Refusal :=
  let c := s.enc enc
  if !isSent c then .next s
  else
    let nom := 5600 * u16 c.cfg 12
    if ((sync : Int) - nom).natAbs * 4 > nom then .next s
    else
      let n := u8 c.cfg 5
      let v := ticks.map (· - 12)
      let data := (v.drop 1).take n
      let drift := match c.sync with
        | some p => decide (p < ((sync : Int) - p).natAbs * 64)
        | none => false
      let bad := ticks.length != n + 2 || ticks.any (fun t => t < 12 || 27 < t) || drift
        || Config.sentCrc (bit (u8 c.cfg 2) 4) data % 16 != (v[n + 1]?).getD 0
      if bad then
        .next { s with encs := s.encs.set enc { c with sync := some sync, errs := satAdd 0xFFFF c.errs 1 } }
      else
        let rest := data.drop 3
        let rest := if bit (u8 c.cfg 2) 5 then rest.reverse else rest
        let stat := ((v[0]?).getD 0 :: c.stat).take 18
        let c := { c with
          sync := some sync, bad := false, stat := stat, n1 := sentNode (data.take 3),
          n2 := if rest.isEmpty then c.n2 else sentNode rest }
        let c := match Config.sentSlow stat with
          | some (i, en, d) => { c with slowId := i % 256, slowEnh := en, slowData := d % 65536 }
          | none => c
        .next { s with encs := s.encs.set enc c }

def execSentTimeout (enc : Nat) (s : State) : Host.Outcome State Fault Refusal :=
  let c := s.enc enc
  if isSent c then
    .next (evControl 0xFF enc 4 1 <| markFault 2 enc { s with encs := s.encs.set enc { c with fault := true, bad := true } })
  else .next s

/-! ## Trace commands (R299, R300) -/

def traceNodeOk (c : Nat) : Bool := nodeOk c || (0x200 ≤ c && c ≤ 0x3FF)

def cCtlTraceCfg : Cmd := { Cmd.base with
  opcode := 0x0820, ten := .acts, states := stQuery, lenOk := fun ps => ps.length == 28,
  paramOk := fun h ps s => ownsCe h ps s && 1 ≤ u8 ps 1 && u8 ps 1 ≤ 8 && u8 ps 2 ≤ 2 && u8 ps 3 ≤ 1
    && (List.range (u8 ps 1)).all (fun i => traceNodeOk (u16 ps (4 + 2 * i))) && 1 ≤ u16 ps 20 && u16 ps 22 ≤ 8191
    && (u8 ps 2 != 1 || traceNodeOk (u16 ps 24)),
  effect := fun _ _ ps s =>
    let e := s.ce (u8 ps 0)
    let now := u8 ps 2 == 0
    let t : Trace := {
      nn := u8 ps 1, trig := u8 ps 2, edge := u8 ps 3, nodes := (List.range 8).map (fun i => u16 ps (4 + 2 * i)),
      tdiv := u16 ps 20, pre := u16 ps 22, tnode := u16 ps 24, thresh := i16 ps 26, st := if now then 2 else 1,
      samples := [], npre := 0, left := if now then 8192 - u16 ps 22 else 0, prev := none }
    s.setCe (u8 ps 0) { e with trace := t } }

def execCtlTraceCfg (h : Hdr) (ps : List Byte) (s : State) : Host.Outcome State Fault Refusal :=
  cCtlTraceCfg.exec h ps s

/-- The bytes of a dump (R300). -/
def dumpBytes (t : Trace) : List Byte :=
  let l := t.samples.reverse
  leBytes 8 ((l.head?.map (fun x => x.1 * 1000)).getD 0) ++ leBytes 2 t.tdiv ++ leBytes 1 t.nn ++ [0x00]
    ++ leBytes 2 l.length ++ leBytes 2 t.npre ++ t.nodes.flatMap (leBytes 2) ++ zeros 32
    ++ l.flatMap (fun x => x.2.flatMap (fun v => leBytes 2 (ofInt 16 v)))

def cCtlTraceDump : Cmd := { Cmd.base with
  opcode := 0x0821, ten := .acts, states := stQuery, lenOk := fun ps => ps.length == 16, cpl := some 0,
  denied := fun h ps s => ownsCe h ps s && u64 ps 8 % 64 == 0
    && !ownedBy s h.tenant.toNat (u64 ps 8) (64 + 16384 * (s.ce (u8 ps 0)).trace.nn),
  stateOk := fun h ps s => !ownsCe h ps s || (s.ce (u8 ps 0)).trace.st == 3,
  paramOk := fun h ps s => ownsCe h ps s && zeroAt ps 1 7 && u64 ps 8 % 64 == 0,
  effect := fun tok h ps s =>
    let e := s.ce (u8 ps 0)
    s.setCe (u8 ps 0) { e with dumps := e.dumps ++ [⟨tok, h.tenant.toNat, u64 ps 8, dumpBytes e.trace⟩] } }

def execCtlTraceDump (h : Hdr) (ps : List Byte) (s : State) : Host.Outcome State Fault Refusal :=
  cCtlTraceDump.exec h ps s

/-- The oldest dump has been written. -/
def execCtlTraceDumpDone (ce : Nat) (s : State) : Host.Outcome State Fault Refusal :=
  let e := s.ce ce
  match e.dumps with
  | d :: l => .next (complete d.tok OK [] (ownWrite d.tenant d.addr d.bytes (s.setCe ce { e with dumps := l })))
  | [] => .next s

end Sys2Proof.Machine
end

