-- ==== Sys2Proof/Machine/Gateway.lean ====
section
/-! DEFINITION. The network gateway (R366 to R374, R387, R389): routing, conversion, rings, the transmit
queues of controllers and MACs, posted writes and error reports. -/

namespace Sys2Proof.Machine

open Sys2Proof

def countDrops (n : Nat) (s : State) : State := modGwy (fun g => { g with drops := satAdd 0xFFFF g.drops n }) s

/-- The gateway forwards in every state from READY onwards (R387). -/
def State.gwyRuns (s : State) : Bool := stQuery.contains s.dev.st

/-! ## Routing entries (Table 3) -/

def rtMatch (e : List Byte) : Nat := u32 e 0
def rtMask (e : List Byte) : Nat := u32 e 4
def rtInPort (e : List Byte) : Nat := u8 e 8
def rtInKind (e : List Byte) : Nat := u8 e 9
def rtOutPort (e : List Byte) : Nat := u8 e 10
def rtOutKind (e : List Byte) : Nat := u8 e 11
def rtOutId (e : List Byte) : Nat := u32 e 12
def rtPass (e : List Byte) : Nat := u32 e 16
def rtOutDev (e : List Byte) : Nat := u16 e 20
def rtPrio (e : List Byte) : Nat := u8 e 22
def rtFlags (e : List Byte) : Nat := u8 e 23
def rtTenant (e : List Byte) : Nat := u8 e 24
def rtRate (e : List Byte) : Nat := u16 e 28
def rtBurst (e : List Byte) : Nat := u16 e 30

/-- A CAN kind: CANB, CANX or ISOBUS. -/
def canKind (k : Nat) : Bool := k < 3
def isRing (p : Nat) : Bool := 0x40 ≤ p && p < 0x80
def isCanPort (p : Nat) : Bool := p < 0x10
def isMacPort (p : Nat) : Bool := 0x10 ≤ p && p < 0x18

/-- A port code of Table 1 that this device has. -/
def portHere (s : State) (p : Nat) : Bool :=
  (isCanPort p && p < s.nCan) || (isMacPort p && p - 0x10 < s.nMacs) || isRing p

/-- A ring belongs to a tenant. -/
def ringOf (s : State) (p t : Nat) : Bool :=
  match s.gwy.rings.get? (p - 0x40) with
  | some r => r.tenant == t
  | none => false

/-- Table 4: an egress kind on an egress port, from an ingress kind. A ring takes any frame as its slot; OUTKIND is then any
identifier kind but ENCAP and SETPT, which belong to other ports (DESIGN CHOICE, log 27). -/
def convOk (ik ok port : Nat) : Bool :=
  if port == 0x30 then ok == 5
  else if isRing port then ok ≤ 3
  else if isCanPort port then canKind ik && canKind ok
  else if isMacPort port then (canKind ik && ok == 4) || (ik == 3 && ok == 3)
  else false

/-- The ports an entry may name (Table 1, R369): those of this device, and as rings and engines its tenant's. -/
def inPortOk (s : State) (e : List Byte) (t : Nat) : Bool :=
  let p := rtInPort e
  p == 0xFF || (portHere s p && (!isRing p || ringOf s p t)
    && (!isCanPort p || canKind (rtInKind e)))

def outPortOk (s : State) (e : List Byte) (t : Nat) : Bool :=
  let p := rtOutPort e
  if rtOutDev e == 0xFFFF || (s.chn.st == 3 && rtOutDev e == s.chn.devid) then
    (p == 0x30 && rtOutId e / 64 % 16 < s.nCe && (s.ce (rtOutId e / 64 % 16)).owner == some t)
    || (portHere s p && (!isRing p || ringOf s p t))
  else p == 0x30 || isCanPort p || isMacPort p || isRing p

/-- An entry keeps to Tables 3 and 4 and to R369. -/
def routeEntryOk (s : State) (e : List Byte) (t : Nat) : Bool :=
  rtMatch e < 2 ^ 29 && rtInKind e ≤ 3 && rtOutKind e ≤ 5 && (rtOutDev e < 0x1000 || rtOutDev e == 0xFFFF)
    && rtPrio e ≤ 3 && rtFlags e < 8 && rtTenant e == t && t < 64 && zeroAt e 25 3
    && (rtRate e == 0 || rtBurst e != 0) && inPortOk s e t && outPortOk s e t
    && convOk (rtInKind e) (rtOutKind e) (rtOutPort e)

def gwIndex (ps : List Byte) : Nat := u16 ps 0
def gwEntry (ps : List Byte) : List Byte := sub ps 4 32

def cGwRouteSet : Cmd := { Cmd.base with
  opcode := 0x0B01, ten := .acts, lenOk := fun ps => ps.length == 36,
  paramOk := fun h ps s => gwIndex ps < 8192 && zeroAt ps 2 2 && routeEntryOk s (gwEntry ps) h.tenant.toNat,
  entries := fun _ _ _ => 1,
  effect := fun _ h ps s =>
    let e := gwEntry ps
    let r : RouteEnt := ⟨e, 0, rtBurst e * 1000000, s.time.ns⟩
    modGwy (fun g => { g with routes := g.routes.set (gwIndex ps) r }) (journalCmd h 0x0B01 (gwIndex ps) 0 s) }

def execGwRouteSet (h : Hdr) (ps : List Byte) (s : State) : Host.Outcome State Fault Refusal :=
  cGwRouteSet.exec h ps s

def cGwRouteClear : Cmd := { Cmd.base with
  opcode := 0x0B02, states := stQuery, lenOk := fun ps => ps.length == 4,
  paramOk := fun _ ps _ => gwIndex ps < 8192 && 1 ≤ u16 ps 2 && gwIndex ps + u16 ps 2 ≤ 8192,
  entries := fun _ _ _ => 1,
  effect := fun _ h ps s =>
    let lo := gwIndex ps
    let hi := lo + u16 ps 2
    modGwy (fun g => { g with routes := g.routes.filter (fun k _ => k < lo || hi ≤ k) })
      (journalCmd h 0x0B02 lo (u16 ps 2) s) }

def execGwRouteClear (h : Hdr) (ps : List Byte) (s : State) : Host.Outcome State Fault Refusal :=
  cGwRouteClear.exec h ps s

def cGwRouteGet : Cmd := { Cmd.base with
  opcode := 0x0B03, states := stQuery, lenOk := fun ps => ps.length == 4, maxReply := 36,
  paramOk := fun _ ps _ => gwIndex ps < 8192 && zeroAt ps 2 2,
  data := fun _ ps s =>
    match s.gwy.routes.get? (gwIndex ps) with
    | some r => padTo 32 r.raw ++ leBytes 4 r.hits
    | none => zeros 36 }

def execGwRouteGet (h : Hdr) (ps : List Byte) (s : State) : Host.Outcome State Fault Refusal :=
  cGwRouteGet.exec h ps s

/-! ## Configuration of rings and ports -/

/-- DEPTH and SLOT of GW_RING_CFG. -/
def ringSizeOk (ps : List Byte) : Bool :=
  isPow2In (u16 ps 2) 16 1024 && 128 ≤ u16 ps 4 && u16 ps 4 ≤ 16384 && u16 ps 4 % 128 == 0

def cGwRingCfg : Cmd := { Cmd.base with
  opcode := 0x0B10, ten := .acts, lenOk := fun ps => ps.length == 24,
  denied := fun h ps s => u8 ps 1 == 1 && isTenant h.tenant && ringSizeOk ps &&
    !(ownedBy s h.tenant.toNat (u64 ps 8) (u16 ps 2 * u16 ps 4)
      && ownedBy s h.tenant.toNat (u64 ps 16) (u16 ps 2 * u16 ps 4)),
  paramOk := fun h ps s => u8 ps 0 < 64 && u8 ps 1 ≤ 1 && zeroAt ps 6 2
    && (u8 ps 1 == 0 || ringSizeOk ps)
    && (match s.gwy.rings.get? (u8 ps 0) with
        | some r => r.tenant == h.tenant.toNat
        | none => true),
  effect := fun _ h ps s =>
    if u8 ps 1 == 0 then modGwy (fun g => { g with rings := g.rings.erase (u8 ps 0) }) s
    else
      let r : GwRing := ⟨h.tenant.toNat, u16 ps 2, u16 ps 4, u64 ps 8, u64 ps 16, 0, 0, 0, 0, 0⟩
      modGwy (fun g => { g with rings := g.rings.set (u8 ps 0) r }) s }

def execGwRingCfg (h : Hdr) (ps : List Byte) (s : State) : Host.Outcome State Fault Refusal :=
  cGwRingCfg.exec h ps s


/-- FLAGS of GW_PORT_CFG. -/
def NetPort.flag (n : NetPort) (i : Nat) : Bool := bit (u8 n.cfg 1) i

def cGwPortCfg : Cmd := { Cmd.base with
  opcode := 0x0B20, lenOk := fun ps => ps.length == 20,
  paramOk := fun _ ps s => portHere s (u8 ps 0) && !isRing (u8 ps 0) && zeroAt ps 2 2
    && (if isCanPort (u8 ps 0) then u8 ps 1 < 4 && zeroAt ps 12 8 else u8 ps 1 < 2 && zeroAt ps 18 2),
  entries := fun _ _ _ => 1,
  effect := fun _ h ps s =>
    modNetPort (u8 ps 0) (fun n => { n with cfg := ps }) (journalCmd h 0x0B20 (u8 ps 0) (u32 ps 4) s) }

def execGwPortCfg (h : Hdr) (ps : List Byte) (s : State) : Host.Outcome State Fault Refusal :=
  cGwPortCfg.exec h ps s

def cGwIsoCfg : Cmd := { Cmd.base with
  opcode := 0x0B21, lenOk := fun ps => ps.length == 16,
  paramOk := fun _ ps s => u8 ps 0 < s.nCan && u8 ps 1 ≤ 1 && zeroAt ps 5 3,
  entries := fun _ _ _ => 1,
  effect := fun _ h ps s =>
    let s := journalCmd h 0x0B21 (u8 ps 0) (u32 ps 1) s
    let c : IsoCfg := ⟨u8 ps 2, u8 ps 3, u8 ps 4, u64 ps 8, u8 ps 2, none⟩
    modNetPort (u8 ps 0) (fun n => { n with iso := if u8 ps 1 == 1 then some c else none }) s }

def execGwIsoCfg (h : Hdr) (ps : List Byte) (s : State) : Host.Outcome State Fault Refusal :=
  cGwIsoCfg.exec h ps s

/-- EV_LINK (R376). -/
def evLink (port ev lanes : Nat) (s : State) : State :=
  offer0 0x0BF2 (leBytes 1 port ++ leBytes 1 ev ++ leBytes 1 lanes ++ [0x00] ++ leBytes 4 s.time.ns) s

/-- The address tried after one is lost (R371): the next of the configured range, 254 past its end. -/
def nextClaim (c : IsoCfg) : Nat :=
  let n := if c.claim == c.pref && !(c.lo ≤ c.pref && c.pref ≤ c.hi) then c.lo else c.claim + 1
  if c.lo ≤ n && n ≤ c.hi then n else 254

/-- The outcome of an address-claim exchange on a controller: the claim stands, or the contention is lost. -/
def execAddressClaim (ctl : Nat) (won : Bool) (s : State) : Host.Outcome State Fault Refusal :=
  match (s.netPort ctl).iso with
  | none => .next s
  | some c =>
    let held := fun (c : IsoCfg) => modNetPort ctl (fun n => { n with iso := some c }) s
    if won then
      if c.addr == some c.claim then .next s
      else .next (evLink ctl 6 0 (held { c with addr := some c.claim }))
    else
      let n := if bit c.name 63 then nextClaim c else 254
      if n == 254 then
        let s' := held { c with claim := 254, addr := some 254 }
        .next (if c.addr == some 254 then s' else evLink ctl 6 0 s')
      else .next (held { c with claim := n, addr := none })

/-! ## Frames -/

/-- The DLC of a CAN frame with `n` data bytes, as CAN FD codes lengths above 8. -/
def dlcOf (n : Nat) : Nat :=
  if n ≤ 8 then n
  else if n ≤ 12 then 9 else if n ≤ 16 then 10 else if n ≤ 20 then 11 else if n ≤ 24 then 12
  else if n ≤ 32 then 13 else if n ≤ 48 then 14 else 15

/-- A frame at the gateway: ingress port, kind, identifier, FD and BRS, DLC of a CAN frame, data (an Ethernet frame
whole), and its ingress timestamp in ns. -/
structure GFrame where
  port : Nat
  kind : Nat
  id : Nat
  flags : Nat
  dlc : Nat
  data : List Byte
  ts : Nat
  deriving DecidableEq, Repr

/-- The inner frame of an Ethernet frame that carries one (R368): a 16-byte header, then the CAN data. An
inner frame of more than 8 bytes is an FD frame, and one of a kind that Table 4 does not carry hits no entry (log 27). -/
def innerFrame (port : Nat) (f : List Byte) : GFrame :=
  let o := etherOff f + 2
  let n := u16 f (o + 2)
  ⟨port, if canKind (u8 f o) then u8 f o else 0xFF, u32 f (o + 4), if u8 f o < 2 && 8 < n then 1 else 0, dlcOf n,
    sub f (o + 16) n, u64 f (o + 8)⟩

/-- A big-endian field of GW_PORT_CFG's ENCAP_ETYPE, which the command carries little-endian. -/
def encapType (n : NetPort) : Nat := u16 n.cfg 10

/-- What arrives at a network port as the gateway sees it. -/
def gFrame (s : State) (f : Ingress) (err : Int) : Option GFrame :=
  let ts := ((s.time.ns : Int) + max (-8) (min err 8)).toNat
  match f with
  | .can ctl id ide dlc fl d =>
    if s.nCan ≤ ctl then none
    else if !ide then some ⟨ctl, 0, id % 2 ^ 11, fl % 4, dlc % 16, d, ts⟩
    else if (s.netPort ctl).iso.isSome then some ⟨ctl, 2, pgnOf id * 256 + id % 256, fl % 4, dlc % 16, d, ts⟩
    else some ⟨ctl, 1, id % 2 ^ 29, fl % 4, dlc % 16, d, ts⟩
  | .iso ctl id pgn d =>
    if s.nCan ≤ ctl then none else some ⟨ctl, 2, pgn % 2 ^ 18 * 256 + id % 256, 0, dlcOf d.length, d, ts⟩
  | .eth mac fr =>
    if s.nMacs ≤ mac || s.gated 4 mac || gptpTaken s mac fr then none
    else
      let n := s.netPort (0x10 + mac)
      if n.flag 0 && etherType fr == encapType n && !n.cfg.isEmpty then some (innerFrame (0x10 + mac) fr)
      else some ⟨0x10 + mac, 3, etherType fr + (vlanOf fr - 1) * 65536, 0, 0, fr, ts⟩
  | _ => none

/-! ## Delivery at a port of this device -/

/-- One frame to the transmit queue of a controller or MAC. -/
def enqueue (p : Nat) (f : TxFrame) (s : State) : State :=
  modNetPort p (fun n => { n with txq := n.txq ++ [f] }) s

/-- Bytes that wait in a MAC. -/
def queuedBytes (n : NetPort) : Nat := n.txq.foldl (fun a f => a + f.data.length) 0

/-- The claimed address of a controller, none where it holds none but 254 (R371). -/
def NetPort.heldAddr (n : NetPort) : Option Nat :=
  match n.iso with
  | some c => c.addr.filter (· != 254)
  | none => none

/-- Transmission on a CAN controller (R368, R370, R371). -/
def toCan (p prio kind id flags dlc : Nat) (data : List Byte) (s : State) : State :=
  let n := s.netPort p
  if (bit flags 0 && !n.flag 0) || n.flag 1 || (kind == 2 && n.heldAddr.isNone) || 64 ≤ n.txq.length then countDrops 1 s
  else
    let w := if kind = 0 then 11 else if kind = 1 then 29 else 26
    enqueue p ⟨prio, s.time.ns, kind, id % 2 ^ w, flags, dlc, data⟩ s

/-- The egress Ethernet frame (R368): ENCAP around CAN data, or the frame with the outer tag replaced or
inserted. -/
def ethOut (n : NetPort) (kind id : Nat) (f : GFrame) : List Byte :=
  let beB := fun (v : Nat) => leBytes 1 (v / 256) ++ leBytes 1 v
  if kind = 4 then
    sub n.cfg 12 6 ++ sub n.cfg 4 6 ++ beB (encapType n)
      ++ leBytes 1 f.kind ++ leBytes 1 f.port ++ leBytes 2 f.data.length ++ leBytes 4 id ++ leBytes 8 f.ts ++ f.data
  else
    let vid := id / 65536 % 4096
    if vid = 0 then f.data
    else if isVlanType (be16 f.data 12) then
      patch f.data 14 (beB (be16 f.data 14 / 4096 * 4096 + vid))
    else f.data.take 12 ++ beB 0x8100 ++ beB vid ++ f.data.drop 12

def toMac (p prio kind id : Nat) (f : GFrame) (s : State) : State :=
  let n := s.netPort p
  let d := ethOut n kind id f
  if s.gated 4 (p - 0x10) || 2 ^ 19 < queuedBytes n + d.length then countDrops 1 s
  else enqueue p ⟨prio, s.time.ns, kind, id, 0, 0, d⟩ s

/-- The first two data bytes of a frame: of an Ethernet frame those after its EtherType. -/
def firstData (f : GFrame) : List Byte := if f.kind = 3 then f.data.drop (etherOff f.data + 2) else f.data

/-- Why a delivery at a port of this device fails: 0, or REASON 3 to 5 of R373. -/
def targetFail (s : State) (t port id : Nat) : Nat :=
  if port == 0x30 then
    if s.nCe ≤ id / 64 % 16 then 3 else if (s.ce (id / 64 % 16)).owner == some t then 0 else 4
  else if isRing port then
    match s.gwy.rings.get? (port - 0x40) with
    | none => 4
    | some r =>
      if r.tenant != t then 4 else if (r.rxTail + 65536 - r.rxDone) % 65536 < r.depth then 0 else 5
  else if portHere s port then 0 else 3

/-- A received slot of a ring (R369). SEQ counts the slots written, this one among them (log 27). -/
def toRing (p prio id : Nat) (f : GFrame) (s : State) : State :=
  match s.gwy.rings.get? (p - 0x40) with
  | none => countDrops 1 s
  | some r =>
    if r.slot < f.data.length + 32 then countDrops 1 s
    else
      let h := leBytes 1 f.kind ++ leBytes 1 f.port ++ leBytes 1 f.flags ++ leBytes 1 prio
        ++ leBytes 2 f.data.length ++ zeros 2 ++ leBytes 4 id ++ zeros 4 ++ leBytes 8 f.ts
        ++ leBytes 4 (r.seq + 1) ++ zeros 4
      let a := r.rx + r.rxTail % r.depth * r.slot
      let s := checkedWrite (accTenant s r.tenant) a (h ++ f.data) s
      let r' := { r with rxTail := (r.rxTail + 1) % 65536, seq := r.seq + 1 }
      modGwy (fun g => { g with rings := g.rings.set (p - 0x40) r' }) s

/-- A setpoint delivery: the first two data bytes, a free value where the frame has fewer. -/
def toSetpt (id : Nat) (f : GFrame) (s : State) : State :=
  let d := firstData f
  if d.length < 2 then
    let r := takeFree s
    writeSp (id / 64 % 16) [(id % 64, asInt 16 (Config.freeNat r.1))] r.2
  else writeSp (id / 64 % 16) [(id % 64, asInt 16 (u16 d 0))] s

/-- Delivery of a frame at an egress port whose target passes. -/
def deliverAt (port prio kind id : Nat) (f : GFrame) (s : State) : State :=
  if port == 0x30 then toSetpt id f s
  else if isRing port then toRing port prio id f s
  else if isCanPort port then toCan port prio kind id f.flags f.dlc f.data s
  else toMac port prio kind id f s

/-! ## Posted writes and error reports (R373, R374) -/

/-- An error report is received: recorded while PWERR is 0, counted, EV_GWERR. -/
def gotReport (reason outport outdev ident idx tenant : Nat) (s : State) : State :=
  let g := s.gwy
  let s := modGwy (fun g => { g with pwerrCnt := satAdd 0xFFFF g.pwerrCnt 1 }) s
  let s := if g.pwerr then s else modGwy (fun g => { g with
    pwerr := true, e0 := ident,
    e1 := fld reason 28 4 + fld outdev 16 12 + fld outport 8 8 + fld tenant 0 8, e2 := fld idx 0 13 }) s
  offer0 0x0BF0 (leBytes 1 reason ++ leBytes 1 outport ++ leBytes 2 outdev ++ leBytes 4 ident
    ++ leBytes 2 idx ++ leBytes 1 tenant ++ [0x00] ++ leBytes 4 s.time.ns) s

/-- This device as a chain names it. -/
def State.isMember (s : State) : Bool := s.chn.st == 3

/-- The device that finds a failure reports it, at most once per routing entry and millisecond (R373). -/
def reportFail (reason : Nat) (p : Posted) (s : State) : State :=
  let k := p.src * 8192 + p.entry
  let recent := match s.gwy.reps.get? k with
    | some t => decide (s.time.ns < t + 1000000)
    | none => false
  if recent then countDrops 1 s
  else
    let s := modGwy (fun g => { g with reps := g.reps.set k s.time.ns }) s
    if p.src == s.chn.devid then gotReport reason p.port p.dev p.id p.entry p.tenant s
    else { s with chn := { s.chn with
      sent := s.chn.sent ++ [.report p.src reason p.port p.dev p.id p.entry p.tenant] } }

def execErrorReport (reason outport outdev ident idx tenant : Nat) (s : State) :
    Host.Outcome State Fault Refusal :=
  .next (if s.gwyRuns then gotReport reason outport outdev ident idx tenant s else s)

/-- A Svajor port at its reset state. -/
def SlPort.fresh : SlPort := ⟨0, false, 0, 0, 0, 0, 0, 0, 0, 0, false, false, []⟩
def State.sl (s : State) (p : Nat) : SlPort := s.sls.getD p SlPort.fresh
def modSl (p : Nat) (f : SlPort → SlPort) (s : State) : State := { s with sls := s.sls.set p (f (s.sl p)) }

/-- Bytes of a C3 packet's frame. -/
def c3Bytes (l : List C3Pkt) : Nat := l.foldl (fun a c => a + c.post.data.length + 32) 0

/-- Store a C3 packet at its egress port, where the 32 KiB buffer of its set has room (Table 5, R372); one that finds none
has waited its time at this hop and is discarded (log 28). -/
def storeC3 (p : Nat) (c : C3Pkt) (s : State) : State :=
  if 32768 < c3Bytes ((s.sl p).c3.filter (fun x => x.upper == c.upper)) + c.post.data.length + 32 then countDrops 1 s
  else modSl p (fun l => { l with c3 := l.c3 ++ [c] }) s

/-- A posted write leaves this device, its source; a member that is leaving originates nothing (R384), and a gated port
discards and counts what is routed to it (R402). -/
def sendPosted (p : Posted) (s : State) : State :=
  if !s.isMember || s.chn.leaveTok.isSome then reportFail 1 p s
  else
    match s.chn.table.get? p.dev with
    | none => reportFail 1 p s
    | some port =>
      if s.gated 1 port then reportFail 2 p (countDrops 1 s)
      else if (s.sl port).lstate != 5 then reportFail 2 p s
      else storeC3 port ⟨s.chn.gen, p.dev, false, p⟩ s

def postedFrame (p : Posted) : GFrame := ⟨p.inPort, p.kind / 16, p.id, p.flags, p.dlc, p.data, p.ts⟩

/-- A posted write reaches this device. -/
def execPostedWrite (p : Posted) (s : State) : Host.Outcome State Fault Refusal :=
  if !s.gwyRuns then .next s
  else if !s.isMember || p.dev != s.chn.devid then .next (reportFail 3 p s)
  else
    match targetFail s p.tenant p.port p.id with
    | 0 => .next (deliverAt p.port p.prio (p.kind % 16) p.id (postedFrame p) s)
    | r => .next (reportFail r p s)

/-! ## Lookup (R366, R367) -/

/-- The token bucket of an entry refilled to now, in millionths of a frame: RATE frames per ms, at most
BURST frames. -/
def refill (now : Nat) (r : RouteEnt) : RouteEnt :=
  { r with tokens := min (rtBurst r.raw * 1000000) (r.tokens + (now - r.filled) * rtRate r.raw), filled := now }

def entryHits (e : List Byte) (f : GFrame) : Bool :=
  bit (rtFlags e) 0 && (rtInPort e == 0xFF || rtInPort e == f.port) && rtInKind e == f.kind
    && (f.id &&& rtMask e) == (rtMatch e &&& rtMask e)

/-- The egress identifier (R367). -/
def egressId (e : List Byte) (id : Nat) : Nat :=
  (rtOutId e &&& (0xFFFFFFFF - rtPass e)) ||| (id &&& rtPass e)

/-- One acting entry forwards a frame, here or on another device. -/
def forward (k : Nat) (e : List Byte) (f : GFrame) (s : State) : State :=
  let id := egressId e f.id
  if rtOutDev e == 0xFFFF || (s.isMember && rtOutDev e == s.chn.devid) then
    match targetFail s (rtTenant e) (rtOutPort e) id with
    | 0 => deliverAt (rtOutPort e) (rtPrio e) (rtOutKind e) id f s
    | _ => countDrops 1 s
  else sendPosted ⟨s.chn.devid, k, rtTenant e, rtOutDev e, rtOutPort e, rtOutKind e + 16 * f.kind, id, rtPrio e,
    f.flags, f.dlc, f.port, f.ts, f.data⟩ s

/-- An entry acts: counted, its bucket charged, the frame forwarded. -/
def actEntry (k : Nat) (f : GFrame) (s : State) : State :=
  match s.gwy.routes.get? k with
  | none => s
  | some r =>
    let r := { refill s.time.ns r with hits := (r.hits + 1) % 2 ^ 32 }
    let put := fun (r : RouteEnt) => modGwy (fun g => { g with routes := g.routes.set k r }) s
    if bit (rtFlags r.raw) 2 then countDrops 1 (put r)
    else if rtRate r.raw != 0 && r.tokens < 1000000 then countDrops 1 (put r)
    else forward k r.raw f (put { r with tokens := if rtRate r.raw = 0 then r.tokens else r.tokens - 1000000 })

/-- Indices of the entries that act on a frame, at most four, in increasing index. -/
def acting (f : GFrame) : Nat → List (Nat × RouteEnt) → List Nat
  | 0, _ => []
  | _, [] => []
  | n + 1, c :: t =>
    if entryHits c.2.raw f then
      c.1 :: (if bit (rtFlags c.2.raw) 1 && !bit (rtFlags c.2.raw) 2 then acting f n t else [])
    else acting f (n + 1) t

/-- A frame is looked up and forwarded, or discarded for want of a route. -/
def route (f : GFrame) (s : State) : State :=
  match acting f 4 s.gwy.routes.cells with
  | [] => modGwy (fun g => { g with noroute := true, norouteCnt := satAdd 0xFFFF g.norouteCnt 1 }) s
  | ks => ks.foldl (fun s k => actEntry k f s) s

/-- A frame reaches the gateway from a network port: no stream context takes it, or one with COPYGW. -/
def execGatewayFrame (f : Ingress) (err : Int) (s : State) : Host.Outcome State Fault Refusal :=
  let copy := (ctxTakers s f).all (fun k => match s.ctxs.get? k with
    | some c => bit c.flags 2
    | none => true)
  if !s.gwyRuns || !copy then .next s
  else
    match gFrame s f err with
    | none => .next s
    | some g => .next (route g s)

/-! ## Ring doorbells (R369) -/

/-- One transmitted slot; what it declares beyond its own size makes it a discarded frame. -/
def txSlot (k : Nat) (s : State) : State :=
  match s.gwy.rings.get? k with
  | none => s
  | some r =>
    let a := r.tx + r.txHead % r.depth * r.slot
    let rd := checkedRead (accTenant s r.tenant) a r.slot s
    let b := rd.1
    let s := modGwy (fun g => { g with rings := g.rings.set k { r with txHead := (r.txHead + 1) % 65536 } }) rd.2
    if !ownedBy s r.tenant a r.slot then s
    else if r.slot < u16 b 4 + 32 then countDrops 1 s
    else route ⟨0x40 + k, u8 b 0, u32 b 8, u8 b 2 % 4, dlcOf (u16 b 4), sub b 32 (u16 b 4), s.time.ns⟩ s

def txSlots (k : Nat) : Nat → State → State
  | 0, s => s
  | n + 1, s => txSlots k n (txSlot k s)

/-- TXTAIL of a ring is written: the slots up to it are looked up. -/
def writeTxtail (ring v : Nat) (s : State) : State :=
  match s.gwy.rings.get? ring with
  | none => s
  | some r =>
    if !s.gwyRuns then s
    else
      let n := (v % 65536 + 65536 - r.txHead) % 65536
      let s := modGwy (fun g => { g with rings := g.rings.set ring { r with txTail := v % 65536 } }) s
      if r.depth < n then s else txSlots ring n s

def execTxtailWrite (w : DoorWrite) (s : State) : Host.Outcome State Fault Refusal :=
  match doorWord 0x300000 64 w with
  | some (ring, 0) => .next (writeTxtail ring w.val s)
  | _ => .next s

/-- RXDONE of a ring is written. -/
def writeRxdone (ring v : Nat) (s : State) : State :=
  match s.gwy.rings.get? ring with
  | none => s
  | some r => modGwy (fun g => { g with rings := g.rings.set ring { r with rxDone := v % 65536 } }) s

def execRxdoneWrite (w : DoorWrite) (s : State) : Host.Outcome State Fault Refusal :=
  match doorWord 0x300000 64 w with
  | some (ring, 4) => .next (writeRxdone ring w.val s)
  | _ => .next s

/-- What an aligned 32-bit read of a ring's doorbell page gives (R369). -/
def ringDoorRead (s : State) (off : Nat) : Nat :=
  match doorWord 0x300000 64 ⟨off, 4, 0⟩ with
  | some (ring, o) => match s.gwy.rings.get? ring with
    | some r => if o = 0 then r.txTail else if o = 4 then r.rxDone else if o = 8 then r.txHead
      else if o = 12 then r.rxTail else 0
    | none => 0
  | none => 0

/-! ## Transmission (R370) -/

/-- The frame that has waited longest in a controller is discarded after 1 ms (R370). -/
def execCanTxTimeout (ctl : Nat) (s : State) : Host.Outcome State Fault Refusal :=
  let q := (s.netPort ctl).txq
  match q with
  | [] => .next s
  | x :: t =>
    let old := t.foldl (fun (b : TxFrame) f => if f.since < b.since then f else b) x
    if s.nCan ≤ ctl || s.time.ns ≤ old.since + 1000000 then .next s
    else .next (countDrops 1 (modNetPort ctl (fun n => { n with txq := n.txq.erase old }) s))

/-- The frame that a queue sends next: highest PRIO, then order of arrival. -/
def txNext : List TxFrame → Option TxFrame
  | [] => none
  | x :: t => some (t.foldl (fun (b : TxFrame) f => if b.prio < f.prio then f else b) x)

/-- The time in ns of some bytes on a MAC's line, preamble, FCS and gap with them, rounded up. -/
def wireNs (mbps n : Nat) : Nat := ((n + 24) * 8000 + mbps - 1) / max 1 mbps

/-- A MAC starts no frame that would still be on the wire at the LTIME of the head launch entry, at its link's rate
(R242, R370). -/
def launchSoon (s : State) (mac : Nat) (f : TxFrame) : Bool :=
  match s.launch.get? mac with
  | none => false
  | some l =>
    l.ltail != l.lhead && decide (leNat (dramRead s (l.base + l.lhead % l.depth * 32) 8)
      < s.time.ns + wireNs (s.ethSt mac).mbps f.data.length)

/-- One frame leaves each controller, and each MAC whose link is up, that has one; an ISOBUS frame carries the claimed address, and is
discarded where none is held. -/
def sendFrames (s : State) : State :=
  s.gwy.ports.cells.foldl (fun s c =>
    let s := if c.2.sent.isEmpty then s else modNetPort c.1 (fun n => { n with sent := [] }) s
    match txNext c.2.txq with
    | none => s
    | some f =>
      let pop := fun (o : List TxOut) => modNetPort c.1 (fun n => { n with txq := n.txq.erase f, sent := o }) s
      if isMacPort c.1 then (if !macUp s (c.1 - 0x10) || launchSoon s (c.1 - 0x10) f then s else pop [⟨f, none⟩])
      else if f.kind = 2 then
        match c.2.heldAddr with
        | some a => pop [⟨f, some a⟩]
        | none => countDrops 1 (pop [])
      else pop [⟨f, none⟩]) s

/-- C0 messages and one C3 packet of each UP port leave. -/
def sendChain (s : State) : State :=
  let s := { s with chn := { s.chn with sent := [] } }
  s.sls.cells.foldl (fun s c =>
    if c.2.lstate == 5 then modSl c.1 (fun l => { l with c3 := l.c3.drop 1 }) s else s) s

end Sys2Proof.Machine
end

