-- ==== Sys2Proof/Machine/Chain.lean ====
section
/-! DEFINITION. Svajor links and the chain (R372, R375 to R385, R389): training, lanes, joining and
leaving, route generations and the epoch. -/

namespace Sys2Proof.Machine

open Sys2Proof

def modChn (f : Chn → Chn) (s : State) : State := { s with chn := f s.chn }
def send (m : C0Msg) (s : State) : State := modChn (fun c => { c with sent := c.sent ++ [m] }) s

/-! ## CHN_CFG -/

def ccEnable (c : List Byte) : Bool := bit (u8 c 0) 0
def ccRole (c : List Byte) : Nat := u8 c 1
def ccTopo (c : List Byte) : Nat := u8 c 2
def ccMask (c : List Byte) : Nat := u8 c 3
def ccChainId (c : List Byte) : Nat := u32 c 4
def ccReqId (c : List Byte) : Nat := u16 c 8
def ccBudget (c : List Byte) : Nat := u32 c 12
def ccPrep (c : List Byte) : Nat := u32 c 16
def ccEpoch (c : List Byte) : Nat := u32 c 20

/-- A Svajor port that CHN_CFG enables and PWR_GATE leaves running. -/
def State.slEnabled (s : State) (p : Nat) : Bool :=
  p < s.nSl && ccEnable s.chn.cfg && bit (ccMask s.chn.cfg) p && !s.gated 1 p

/-- EV_CHAIN (R389). -/
def evChain (ev reason ident : Nat) (s : State) : State :=
  offer0 0x0BF1 (leBytes 1 ev ++ leBytes 1 reason ++ leBytes 2 ident ++ leBytes 8 s.sch.epoch
    ++ leBytes 2 s.chn.gen ++ zeros 2) s

/-- A device that is no member and finds a port UP to one sends JOIN_REQ through it (R383). -/
def tryJoin (p : Nat) (s : State) : State :=
  let l := s.sl p
  if (s.chn.st == 1 || s.chn.st == 4) && s.chn.role != 1 && l.lstate == 5 && l.peerMember && s.slEnabled p then
    send (.join p (ccChainId s.chn.cfg) s.chn.role s.sch.epoch (ccReqId s.chn.cfg) s.dev.st.code)
      (modChn (fun c => { c with st := 2 }) s)
  else s

/-- The port that leaves DOWN begins to train: its registers take their reset values (R390). -/
def beginTraining (p : Nat) (s : State) : State :=
  modSl p (fun l => { l with
    lstate := 1, lanes := 0, width := 0, dly := 0, replays := 0, corr := 0, uncorr := 0, peerId := 0,
    peerPart := 0, peerMember := false }) s

def cChnCfg : Cmd := { Cmd.base with
  opcode := 0x0B30, states := [.ready, .service], lenOk := fun ps => ps.length == 24,
  stateOk := fun _ _ s => s.chn.st != 3 && s.chn.st != 2,
  paramOk := fun _ ps s => u8 ps 0 < 2 && ccRole ps ≤ 2 && ccTopo ps ≤ 2 && ccMask ps < 2 ^ s.nSl
    && (ccReqId ps < 0x1000 || ccReqId ps == 0xFFFF) && zeroAt ps 10 2
    && decide (500 ≤ ccBudget ps) && decide (ccBudget ps ≤ 1000000)
    && decide (10 ≤ ccPrep ps) && decide (ccPrep ps ≤ 100000)
    && decide (10 ≤ ccEpoch ps) && decide (ccEpoch ps ≤ 10000),
  entries := fun _ _ _ => 1,
  effect := fun _ h ps s =>
    let s := journalCmd h 0x0B30 (ccMask ps) (ccChainId ps) s
    let s := modChn (fun c => { c with cfg := ps, role := ccRole ps }) s
    -- ports that are no longer enabled go DOWN; those with a signal begin to train
    let s := (List.range s.nSl).foldl (fun s p =>
      if !s.slEnabled p then modSl p (fun l => { l with lstate := 0 }) s
      else if (s.sl p).lstate == 0 && (s.sl p).signal then beginTraining p s
      else s) s
    if !ccEnable ps then modChn (fun c => { c with st := 0 }) s
    else if ccRole ps == 1 then
      let id := if ccReqId ps == 0xFFFF then 0 else ccReqId ps
      modChn (fun c => { c with
        st := 3, devid := id, master := id, members := Map.empty.set id 1, links := [], table := Map.empty,
        old := Map.empty, lat := 0, pend := [] }) s
    else
      let s := modChn (fun c => { c with st := 1, members := Map.empty, links := [], table := Map.empty }) s
      (List.range s.nSl).foldl (fun s p => tryJoin p s) s }

def execChnCfg (h : Hdr) (ps : List Byte) (s : State) : Host.Outcome State Fault Refusal :=
  cChnCfg.exec h ps s

/-! ## Routes (R379 to R381) -/

/-- Neighbours of a member, with LINKDLY. -/
def neighbours (links : List ChLink) (a : Nat) : List (Nat × Nat) :=
  links.filterMap (fun l => if l.a == a then some (l.b, l.dly) else if l.b == a then some (l.a, l.dly) else none)

/-- Every path without a repeat from one member to another: members passed, with the sum of LINKDLY. -/
def paths (links : List ChLink) (dst : Nat) : Nat → List Nat → Nat → Nat → List (List Nat × Nat)
  | 0, _, _, _ => []
  | n + 1, seen, a, d =>
    if a == dst then [(seen.reverse, d)]
    else (neighbours links a).flatMap (fun x =>
      if seen.contains x.1 then [] else paths links dst n (x.1 :: seen) x.1 (d + x.2))

/-- How far clockwise the first hop of a path lies from its start. -/
def clockwise (p : List Nat) : Nat :=
  match p with
  | a :: b :: _ => (b + 4096 - a) % 4096
  | _ => 0

/-- The path of a route: fewest hops, clockwise among equals. -/
def bestPath (links : List ChLink) (a b : Nat) : Option (List Nat × Nat) :=
  match paths links b (links.length + 2) [a] a 0 with
  | [] => none
  | x :: t => some (t.foldl (fun (m : List Nat × Nat) y =>
      if y.1.length < m.1.length || (y.1.length == m.1.length && clockwise y.1 < clockwise m.1) then y else m) x)

/-- Path latency: LINKDLY of its links and 150 ns for each member passed. -/
def pathLat (p : List Nat × Nat) : Nat := p.2 + 150 * (p.1.length - 2)

/-- Chain latency: the largest path latency between two members. -/
def chainLat (ms : List Nat) (links : List ChLink) : Nat :=
  maxOf (ms.flatMap (fun a => ms.map (fun b => match bestPath links a b with
    | some p => pathLat p
    | none => 0)))

def reaches (links : List ChLink) (a b : Nat) : Bool := (bestPath links a b).isSome

/-- The port of this device that leads to a neighbour. -/
def portTo (s : State) (id : Nat) : Option Nat :=
  (List.range s.nSl).find? (fun p => (s.sl p).lstate == 5 && (s.sl p).peerMember && (s.sl p).peerId == id)

/-- This device's route table over a set of members. -/
def routesOf (s : State) (ms : List Nat) (links : List ChLink) : Map Nat :=
  ms.foldl (fun m b =>
    if b == s.chn.devid then m
    else match bestPath links s.chn.devid b with
      | some (_ :: n :: _, _) => match portTo s n with
        | some p => m.set b p
        | none => m
      | _ => m) Map.empty

/-! ## Joining (R383) -/

/-- A link between two members is new, and the declared topology allows it (R379): no second link between the same two; in
a line or a tree no cycle, in a line or a ring no third link of a member, in a ring one cycle. -/
def linkOk (topo : Nat) (ms : Map Nat) (links : List ChLink) (a b : Nat) : Bool :=
  (ms.get? a).isSome && (ms.get? b).isSome && a != b
    && !links.any (fun l => (l.a == a && l.b == b) || (l.a == b && l.b == a))
    && (if topo = 1 then decide (links.length < ms.cells.length)
          && (neighbours links a).length < 2 && (neighbours links b).length < 2
        else !(bestPath links a b).isSome)

/-- Members and links once the changes that wait are made. -/
def applyOp (topo : Nat) (c : Map Nat × List ChLink) (op : ChainOp) : Map Nat × List ChLink :=
  match op with
  | .join id role via _ dly _ => (c.1.set id role, c.2 ++ [⟨via, id, dly⟩])
  | .link a b dly => (c.1, if linkOk topo c.1 c.2 a b then c.2 ++ [⟨a, b, dly⟩] else c.2)
  | .reroute => c
  | .remove id => (c.1.erase id, c.2.filter (fun l => l.a != id && l.b != id))

def planned (s : State) : Map Nat × List ChLink := s.chn.pend.foldl (applyOp (ccTopo s.chn.cfg)) (s.chn.members, s.chn.links)

def degree (links : List ChLink) (a : Nat) : Nat := (neighbours links a).length

/-- The lowest identifier that no member has. -/
def lowestFree (m : Map Nat) : Nat → Nat → Option Nat
  | 0, _ => none
  | n + 1, k => if (m.get? k).isNone then some k else lowestFree m n (k + 1)

/-- The identifier a joining device gets. -/
def joinId (m : Map Nat) (req : Nat) : Option Nat :=
  if req == 0xFFFF then lowestFree m 4096 0
  else if req < 0x1000 && (m.get? req).isNone then some req else none

/-- The first reason for which the master refuses a join, 0 for none. -/
def joinReason (s : State) (via dly chainId reqId st : Nat) : Nat :=
  let c := planned s
  let links := c.2 ++ [⟨via, 0x1000, dly⟩]
  if chainId != ccChainId s.chn.cfg then 1
  else if ccBudget s.chn.cfg < chainLat (0x1000 :: c.1.keys) links then 2
  else if ccTopo s.chn.cfg != 2 && 2 < degree links via then 3
  else if (joinId c.1 reqId).isNone then 4
  else if !([4, 5, 6, 8].contains st) then 5
  else 0

/-- A join request reaches the master, or the master's refusal the device that asked. -/
def execJoinReq (m : JoinMsg) (s : State) : Host.Outcome State Fault Refusal :=
  match m with
  | .request via port dly chainId role epoch reqId st =>
    if !s.isMember || s.chn.role != 1 || ((planned s).1.get? via).isNone then .next s
    else
      match joinReason s via dly chainId reqId st, joinId (planned s).1 reqId with
      | 0, some id => .next (modChn (fun c => { c with pend := c.pend ++ [.join id role via port dly epoch] }) s)
      | r, _ => .next (send (.refused via r) s)
  | .refused reason =>
    if s.chn.st != 2 then .next s
    else .next (evChain 8 reason 0 (modChn (fun c => { c with st := 1 }) s))

/-! ## Generations and the epoch (R381, R382, R384) -/

/-- Chain jobs that a departed participant was to write for end with TIMEOUT on this device (R191). -/
def endChainJobs (gone : Nat → Bool) (s : State) : State :=
  endJobs (fun j => j.inFlight && j.parts.any gone) TIMEOUT 0 s

/-- A new generation is in force on this device; the old bank is held for 100 µs. -/
def switchGen (gen lat : Nat) (table : Map Nat) (s : State) : State :=
  modChn (fun c => { c with
    gen := gen % 65536, lat := lat, old := c.table, oldUntil := s.time.ns + 100000, table := table }) s

/-- This device has left the chain. -/
def leftChain (st ev : Nat) (s : State) : State :=
  let s := completeOpt s.chn.leaveTok OK [] s
  let s := s.chn.evicts.foldl (fun s e => complete e.2 OK [] s) s
  let id := s.chn.devid
  let s := modChn (fun c => { c with
    st := st, leaveTok := none, evicts := [], members := Map.empty, links := [], table := Map.empty,
    pend := [], advTo := none }) s
  evChain ev 0 id (endChainJobs (fun _ => true) s)

/-- The master makes the changes that wait and switches the generation: members that it can no longer
reach go as well (R384). -/
def applyChain (s : State) : State :=
  let c := planned s
  let keep := c.1.filter (fun k _ => k == s.chn.devid || reaches c.2 s.chn.devid k)
  let links := c.2.filter (fun l => (keep.get? l.a).isSome && (keep.get? l.b).isSome)
  let gone := s.chn.members.keys.filter (fun k => (keep.get? k).isNone)
  let new := keep.keys.filter (fun k => (s.chn.members.get? k).isNone)
  if (keep.get? s.chn.devid).isNone then leftChain 1 4 s
  else
    let s := modChn (fun c => { c with members := keep, links := links, pend := [] }) s
    -- a direct neighbour that joins is a member from now on
    let s := (List.range s.nSl).foldl (fun s p =>
      if (s.sl p).lstate == 5 && gone.contains (s.sl p).peerId then modSl p (fun l => { l with peerMember := false }) s
      else s) s
    let s := switchGen (s.chn.gen + 1) (chainLat keep.keys links) (routesOf s keep.keys links) s
    let s := endChainJobs gone.contains s
    let s := new.foldl (fun s k => evChain 2 0 k s) s
    let s := gone.foldl (fun s k => evChain 3 0 k s) s
    let done := s.chn.evicts.filter (fun e => gone.contains e.1)
    let s := done.foldl (fun s e => complete e.2 OK [] s) s
    modChn (fun c => { c with evicts := c.evicts.filter (fun e => !gone.contains e.1) }) s

/-- Epochs of the devices that join now. -/
def joinEpochs (l : List ChainOp) : List Nat :=
  l.filterMap (fun o => match o with
    | .join _ _ _ _ _ e => some e
    | _ => none)

/-- The master advances the epoch, and with it what waits (R382): not while a chain job of the old epoch
waits here for its commit (R191). -/
def advanceEpoch (s : State) : State :=
  if s.jobs.any (fun _ j => j.prepared) then s
  else
    let e := max s.sch.epoch (maxOf (joinEpochs s.chn.pend)) + 1
    let s := { s with sch := { s.sch with epoch := e } }
    let s := if s.chn.pend.isEmpty then s else applyChain s
    send (.advance e s.chn.gen) s

/-- Direct neighbours that join through this device become known on their port. -/
def markPeers (s : State) : State :=
  s.chn.pend.foldl (fun s o => match o with
    | .join id _ via p _ _ =>
      if via == s.chn.devid && (s.sl p).lstate == 5 && !(s.sl p).peerMember then
        modSl p (fun l => { l with peerId := id, peerMember := true }) s
      else s
    | _ => s) s

/-- EPOCH_US has passed on the master; leave requests that have reached it. -/
def execEpochAdvance (leaves : List Nat) (s : State) : Host.Outcome State Fault Refusal :=
  if !s.isMember || s.chn.role != 1 then .next s
  else
    let s := modChn (fun c => { c with
      pend := (leaves.filter (fun k => (c.members.get? k).isSome)).map ChainOp.remove ++ c.pend }) s
    .next (if s.jobs.any (fun _ j => j.prepared) then s else advanceEpoch (markPeers s))

/-- The far end of a member's port becomes a member, or is one no more: the first new member that the port leads to is the
far end (DEDUCED, log 28). -/
def knowPeers (g : ChainGen) (new gone : List Nat) (s : State) : State :=
  (List.range s.nSl).foldl (fun s p =>
    let l := s.sl p
    if l.lstate != 5 then s
    else if l.peerMember then
      (if gone.contains l.peerId then modSl p (fun l => { l with peerMember := false }) s else s)
    else match g.routes.find? (fun r => r.2 == p && new.contains r.1) with
      | some r => modSl p (fun l => { l with peerId := r.1, peerMember := true }) s
      | none => s) s

/-- A member's part of a generation switch (R381, R383, R384). -/
def takeGen (g : ChainGen) (s : State) : State :=
  let ms := g.members.foldl (fun (m : Map Nat) x => m.set x.1 x.2) Map.empty
  match g.me with
  | none => leftChain 1 4 s
  | some id =>
    let joining := s.chn.st == 2
    let before := s.chn.members
    let newMaster := !joining && g.master != s.chn.master
    let s := switchGen g.gen g.lat (g.routes.foldl (fun (m : Map Nat) x => m.set x.1 x.2) Map.empty) s
    let s := modChn (fun c => { c with st := 3, devid := id, master := g.master, members := ms }) s
    let gone := before.keys.filter (fun k => (ms.get? k).isNone)
    let new := ms.keys.filter (fun k => (before.get? k).isNone && k != id)
    let s := knowPeers g new gone (endChainJobs gone.contains s)
    if joining then evChain 1 0 id s
    else
      let s := new.foldl (fun s k => evChain 2 0 k s) s
      let s := gone.foldl (fun s k => evChain 3 0 k s) s
      if newMaster then evChain 6 0 g.master s else s

/-- ADVANCE reaches a member, or a device that joins with it: the epoch is adopted under R191, and acknowledged when it
is; `over` tells that the chain latency exceeds the budget (R380). -/
def execAdvance (epoch : Nat) (isOver : Bool) (sw : Option ChainGen) (s : State) : Host.Outcome State Fault Refusal :=
  let joins := s.chn.st == 2 && (match sw with
    | some g => g.me.isSome
    | none => false)
  if !((s.isMember && s.chn.role != 1) || joins) then .next s
  else
    let s := adoptEpoch (modChn (fun c => { c with advTo := some (max epoch (c.advTo.getD 0)) }) s)
    let s := match sw with
      | some g => takeGen g s
      | none => s
    .next (if isOver then evChain 7 0 s.chn.master s else s)

/-- A link between two members is down: the master removes whom it no longer reaches and switches the
generation (R384). -/
def linkLost (a b : Nat) (s : State) : State :=
  if !s.isMember || s.chn.role != 1 then s
  else if !s.chn.links.any (fun l => (l.a == a && l.b == b) || (l.a == b && l.b == a)) then s
  else
    let s := modChn (fun c => { c with
      links := c.links.filter (fun l => !((l.a == a && l.b == b) || (l.a == b && l.b == a))) }) s
    let gone := s.chn.members.keys.filter (fun k => k != s.chn.devid && !reaches s.chn.links s.chn.devid k)
    let s := endChainJobs gone.contains s
    let s := modChn (fun c => { c with pend := gone.map ChainOp.remove ++ .reroute :: c.pend }) s
    if s.jobs.any (fun _ j => j.prepared) then s
    else
      let e := max s.sch.epoch (maxOf (joinEpochs s.chn.pend)) + 1
      let s := { s with sch := { s.sch with epoch := e } }
      send (.advance e (s.chn.gen + 1)) (applyChain (markPeers s))

def execPortDownReport (a b : Nat) (s : State) : Host.Outcome State Fault Refusal := .next (linkLost a b s)

/-- No ADVANCE for the limit (R385): the backup becomes master over the members it reaches by `links`, another
device `by_` has become master, or this device is an ORPHAN. -/
def execMasterLost (by_ : Option Nat) (links : List ChLink) (s : State) : Host.Outcome State Fault Refusal :=
  if !s.isMember || s.chn.role == 1 then .next s
  else
    match by_ with
    | some m =>
      if s.chn.role == 2 || m == s.chn.devid then .next s
      else .next (evChain 6 0 m (modChn (fun c => { c with master := m }) s))
    | none =>
      if s.chn.role == 2 then
        let e := max s.sch.epoch (s.chn.advTo.getD 0) + 1
        let keep := s.chn.members.filter (fun k _ => k == s.chn.devid || reaches links s.chn.devid k)
        let gone := s.chn.members.keys.filter (fun k => (keep.get? k).isNone)
        let s := endChainJobs gone.contains s
        let s := { s with sch := { s.sch with epoch := e } }
        let s := modChn (fun c => { c with
          role := 1, master := c.devid, members := keep.set c.devid 1, links := links, pend := [], advTo := none }) s
        let s := switchGen (s.chn.gen + 1) (chainLat keep.keys links) (routesOf s keep.keys links) s
        let s := gone.foldl (fun s k => evChain 3 0 k s) s
        .next (send (.advance e s.chn.gen) (evChain 6 0 s.chn.devid s))
      else .next (leftChain 4 5 s)

/-! ## Leaving and queries -/

def cChnLeave : Cmd := { Cmd.base with
  opcode := 0x0B31, states := stQuery, cpl := some 0,
  stateOk := fun _ _ s => s.isMember && s.chn.leaveTok.isNone,
  entries := fun _ _ _ => 1,
  effect := fun tok h _ s =>
    let s := modChn (fun c => { c with leaveTok := some tok }) (journalCmd h 0x0B31 s.chn.devid 0 s)
    if s.chn.role == 1 then modChn (fun c => { c with pend := .remove c.devid :: c.pend }) s
    else send (.leave s.chn.devid) s }

def execChnLeave (h : Hdr) (ps : List Byte) (s : State) : Host.Outcome State Fault Refusal :=
  cChnLeave.exec h ps s

def cChnStatus : Cmd := { Cmd.base with
  opcode := 0x0B32, states := stQuery, maxReply := 24,
  data := fun _ _ s => leBytes 1 s.chn.st ++ leBytes 1 s.chn.role ++ leBytes 2 s.chn.devid ++ leBytes 2 s.chn.master
    ++ leBytes 2 s.chn.members.cells.length ++ leBytes 8 s.sch.epoch ++ leBytes 2 s.chn.gen ++ zeros 2
    ++ leBytes 4 s.chn.lat }

def execChnStatus (h : Hdr) (ps : List Byte) (s : State) : Host.Outcome State Fault Refusal :=
  cChnStatus.exec h ps s

/-- One member as CHN_MEMBERS returns it. -/
def memberBytes (s : State) (id role : Nat) : List Byte :=
  match bestPath s.chn.links s.chn.devid id with
  | some p => leBytes 2 id ++ leBytes 1 (p.1.length - 1) ++ leBytes 1 role ++ leBytes 4 (pathLat p)
  | none => leBytes 2 id ++ leBytes 1 0 ++ leBytes 1 role ++ leBytes 4 0

def isMaster (s : State) : Bool := s.isMember && s.chn.role == 1

def cChnMembers : Cmd := { Cmd.base with
  opcode := 0x0B33, states := stQuery, lenOk := fun ps => ps.length == 4, maxReply := 4096,
  stateOk := fun _ _ s => isMaster s,
  paramOk := fun _ ps _ => u16 ps 0 < 0x1000 && 1 ≤ u16 ps 2 && u16 ps 2 ≤ 512,
  data := fun _ ps s => ((s.chn.members.filter (fun k _ => u16 ps 0 ≤ k)).cells.take (u16 ps 2)).flatMap
    (fun c => memberBytes s c.1 c.2) }

def execChnMembers (h : Hdr) (ps : List Byte) (s : State) : Host.Outcome State Fault Refusal :=
  cChnMembers.exec h ps s

def cChnEvict : Cmd := { Cmd.base with
  opcode := 0x0B34, states := [.run, .degraded, .service], lenOk := fun ps => ps.length == 4, cpl := some 0,
  stateOk := fun _ _ s => isMaster s,
  paramOk := fun _ ps s => (s.chn.members.get? (u16 ps 0)).isSome && zeroAt ps 2 2,
  entries := fun _ _ _ => 1,
  effect := fun tok h ps s =>
    modChn (fun c => { c with pend := c.pend ++ [.remove (u16 ps 0)], evicts := c.evicts ++ [(u16 ps 0, tok)] })
      (journalCmd h 0x0B34 (u16 ps 0) 0 s) }

def execChnEvict (h : Hdr) (ps : List Byte) (s : State) : Host.Outcome State Fault Refusal :=
  cChnEvict.exec h ps s

/-! ## Packets (R372, R373, R378, R381) -/

/-- A C3 packet that has waited 1 ms at this hop is discarded. -/
def execC3Timeout (port : Nat) (s : State) : Host.Outcome State Fault Refusal :=
  match (s.sl port).c3 with
  | [] => .next s
  | _ :: t => .next (countDrops 1 (modSl port (fun l => { l with c3 := t }) s))

/-- A transit packet, in the lower set of buffers or, past the dateline link of a ring, in the upper one (R372): routed by
the table of its generation, or discarded; a posted write that is discarded is reported to its source. -/
def execChainPacketForward (gen dst : Nat) (upper : Bool) (post : Option Posted) (s : State) : Host.Outcome State Fault Refusal :=
  if !s.gwyRuns || !s.isMember || dst == s.chn.devid then .next s
  else
    let t := if gen == s.chn.gen then some s.chn.table
      else if (gen + 1) % 65536 == s.chn.gen && decide (s.time.ns < s.chn.oldUntil) then some s.chn.old else none
    let fail := fun r => match post with
      | some p => reportFail r p s
      | none => s
    match t.bind (fun m => m.get? dst) with
    | none => .next (fail 1)
    | some p =>
      if (s.sl p).lstate != 5 then .next (fail 2)
      else match post with
        | some w => .next (storeC3 p ⟨gen, dst, upper && ccTopo s.chn.cfg == 1, w⟩ s)
        | none => .next s

/-- A C2 request from another member is served as work of the tenant it names, and answered in C1. -/
def execRemoteRequest (token tenant addr n : Nat) (write : Option (List Byte)) (s : State) :
    Host.Outcome State Fault Refusal :=
  if !s.gwyRuns || !s.isMember then .next s
  else
    let c := accTenant s tenant
    let put := fun (ok : Bool) (d : List Byte) => modChn (fun x => { x with answer := some (token, ok, d) })
    match write with
    | some d =>
      match accessCheck s c addr d.length with
      | 0 => .next (put true [] (checkedWrite c addr d s))
      | r => .next (put false [] (violate c true r addr s))
    | none =>
      match accessCheck s c addr n with
      | 0 =>
        let r := checkedRead c addr n s
        .next (put true r.1 r.2)
      | r => .next (put false (zeros n) (violate c false r addr s))

/-! ## Links (R375 to R377) -/

def execSignalDetected (port : Nat) (s : State) : Host.Outcome State Fault Refusal :=
  if s.nSl ≤ port then .next s
  else
    let s := modSl port (fun l => { l with signal := true }) s
    .next (if s.slEnabled port && (s.sl port).lstate == 0 then beginTraining port s else s)

def execLinkRetry (port : Nat) (s : State) : Host.Outcome State Fault Refusal :=
  .next (if s.slEnabled port && (s.sl port).lstate == 0 && (s.sl port).signal then beginTraining port s else s)

/-- A training state. -/
def trains (n : Nat) : Bool := 1 ≤ n && n ≤ 4

def execLinkTrainingTimeout (port : Nat) (s : State) : Host.Outcome State Fault Refusal :=
  .next (if trains (s.sl port).lstate then modSl port (fun l => { l with lstate := 0 }) s else s)

/-- The lanes of a port that carry traffic before any is replaced. -/
def lanesOf (s : State) (port : Nat) : Nat :=
  match s.larder.map.laneSub.get? port with
  | some k => if k < 4 then 0x1F - 2 ^ k else 0x0F
  | none => 0x0F

/-- Training completes (R375): identities, LINKDLY, UP. A second link to the same device stays DOWN. The master takes a
new link to a member into its routes at the next epoch advance (R379; DEDUCED, log 28). -/
def execLinkUp (port : Nat) (peer : ChainPeer) (lanes dly : Nat) (s : State) : Host.Outcome State Fault Refusal :=
  if !s.slEnabled port || !trains (s.sl port).lstate then .next s
  else if (List.range s.nSl).any (fun p => p != port && (s.sl p).lstate == 5 && (s.sl p).peerPart == peer.part) then
    .next (modSl port (fun l => { l with lstate := 0 }) s)
  else
    let two := (s.sl port).retrain || s.larder.map.laneOut.contains port
    let ev := if (s.sl port).retrain then 5 else 1
    let s := modSl port (fun l => { l with
      lstate := 5, lanes := lanes % 32, width := if two then 2 else 4, dly := min dly 0xFFFF,
      peerId := if peer.member then peer.id else 0, peerPart := peer.part, peerMember := peer.member,
      retrain := false }) s
    let s := if isMaster s && peer.member
      then modChn (fun c => { c with pend := c.pend ++ [.link c.devid peer.id dly] }) s
      else if s.isMember && peer.member then send (.linkDly s.chn.devid peer.id dly) s
      else s
    .next (tryJoin port (evLink port ev (lanes % 32) s))

/-- LINKDLY measured again (R375, R380), which a member tells the master; `far` are links between other members as
reported to the master, known ones and new. -/
def execLinkdlyMeasure (port dly : Nat) (far : List ChLink) (s : State) : Host.Outcome State Fault Refusal :=
  if (s.sl port).lstate != 5 then .next s
  else
    let s := modSl port (fun l => { l with dly := min dly 0xFFFF }) s
    if !isMaster s then
      .next (if s.isMember && (s.sl port).peerMember then send (.linkDly s.chn.devid (s.sl port).peerId dly) s else s)
    else
      let new := ⟨s.chn.devid, (s.sl port).peerId, dly⟩ :: far
      let same := fun (x y : ChLink) => (x.a == y.a && x.b == y.b) || (x.a == y.b && x.b == y.a)
      let links := s.chn.links.map (fun l => (new.find? (same l)).getD l)
      let lat := chainLat s.chn.members.keys links
      let add := new.filter (fun l => !s.chn.links.any (same l) && (s.chn.members.get? l.a).isSome
        && (s.chn.members.get? l.b).isSome)
      let s := modChn (fun c => { c with
        links := links, lat := lat, pend := c.pend ++ add.map (fun l => .link l.a l.b l.dly) }) s
      .next (if ccBudget s.chn.cfg < lat then evChain 7 0 s.chn.devid (send .overBudget s) else s)

/-- The link is lost (R376): EV_LINK; packets whose route leads into it are discarded and reported; the
member tells the master (R384). -/
def execLinkDown (port : Nat) (s : State) : Host.Outcome State Fault Refusal :=
  let l := s.sl port
  if l.lstate != 5 then .next s
  else
    let s := modSl port (fun l => { l with lstate := 0, signal := false, c3 := [] }) s
    let s := evLink port 2 l.lanes s
    let s := l.c3.foldl (fun s c => reportFail 2 c.post s) s
    if !s.isMember || !l.peerMember then .next s
    else if s.chn.role == 1 then .next (linkLost s.chn.devid l.peerId s)
    else .next (send (.portDown s.chn.devid l.peerId) s)

/-- A flit arrives (R376): codewords corrected and not correctable, and whether its CRC is good. -/
def execFlitReceived (port corr uncorr : Nat) (ok : Bool) (s : State) : Host.Outcome State Fault Refusal :=
  if (s.sl port).lstate != 5 then .next s
  else .next (modSl port (fun l => { l with
    corr := satAdd 0xFFFF l.corr corr, uncorr := satAdd 0xFFFF l.uncorr uncorr,
    replays := satAdd 0xFFFF l.replays (b2n (!ok)) }) s)

/-- A lane fails (R377): the spare lane takes its place, or the port trains again on two lanes. `symErr` are
its symbol errors of the last 100 ms, 0 for a loss of lock. -/
def retireLane (port lane cause symErr : Nat) (s : State) : State :=
  let inst := port * 16 + lane
  let m := s.larder.map
  let used := lanesOf s port
  if m.laneOut.contains port then s
  else if !bit used lane then
    -- the spare lane itself, while it is not in service
    if (m.laneSub.get? port).isNone then
      wear 5 5 cause inst symErr (modMap (fun k => { k with
        laneSub := k.laneSub.set port 0xFF, nRetired := k.nRetired + 1 }) s)
    else s
  else if (m.laneSub.get? port).isNone then
    let s := modMap (fun k => { k with laneSub := k.laneSub.set port lane, nRetired := k.nRetired + 1 }) s
    let n := lanesOf s port
    evLink port 3 n (wear 5 3 cause inst symErr (modSl port (fun l => { l with lanes := n }) s))
  else
    let s := modMap (fun k => { k with
      laneOut := k.laneOut ++ [port], nRetired := k.nRetired + 1, nNoSpare := k.nNoSpare + 1 }) s
    let s := retireNoSpare (wear 5 4 cause inst symErr s)
    modSl port (fun l => { l with lstate := 1, lanes := 0, width := 0, retrain := true })
      (evLink port 4 (setBit used lane false) s)

def execLaneSpare (port lane symErr : Nat) (s : State) : Host.Outcome State Fault Refusal :=
  if s.nSl ≤ port || 4 < lane || (s.sl port).lstate != 5 then .next s else .next (retireLane port lane 6 symErr s)

end Sys2Proof.Machine
end

