-- ==== Sys2Proof/Machine/Memory.lean ====
section
/-! DEFINITION. DRAM accesses, DRAM errors, the ownership commands and the bandwidth regulator: the
rows of chapter 07 (R198 to R220). -/

namespace Sys2Proof.Machine

open Sys2Proof

/-! ## DRAM errors (R201, R404) -/

def modMem (f : MemSt → MemSt) (s : State) : State := { s with mem := f s.mem }

/-- Key of a bank in the retirement map: kind 4, stack and bank. -/
def bankKey (stack bank : Nat) : Nat := 4 * 2 ^ 32 + stack * 2 ^ 16 + bank

/-- Spare rows used in a bank, and left in a stack's worst bank. -/
def rowsUsed (s : State) (stack bank : Nat) : Nat := (s.larder.map.rows.getD (bankKey stack bank) (0, 0)).1
def spareLeft (s : State) (stack : Nat) : Nat :=
  Config.spareRows stack
    - maxOf ((s.larder.map.rows.filter (fun k _ => k / 2 ^ 16 == bankKey stack 0 / 2 ^ 16)).vals.map (·.1))

def EccSt.zero : EccSt := ⟨0, 0, 0⟩
def modEcc (k : Nat) (f : EccSt → EccSt) (s : State) : State :=
  modMem (fun m => { m with ecc := m.ecc.set k (f (m.ecc.getD k EccSt.zero)) }) s

/-- The pages whose bytes a row holds. -/
def rowPages (e : DramErr) : List Nat := (e.blocks.map (fun b => b * 64 / 2 ^ 20)).eraseDups

/-- A row needs repair: a spare row takes its place, or its pages retire with no spare (R201, R202, R404).
`cause` 2 corrected errors, 3 uncorrectable. -/
def repairRow (stack : Nat) (e : DramErr) (cause value : Nat) (s : State) : State :=
  let s := fwLog (s.pageOf (e.blk * 64 / 2 ^ 20)).secure 2 stack (e.blk * 64) s
  let u := rowsUsed s stack e.bank
  if u < Config.spareRows stack then
    let s := modMap (fun m => { m with
      rows := m.rows.set (bankKey stack e.bank) (u + 1, 0), nRetired := m.nRetired + 1 }) s
    wear 4 2 cause (e.blk * 64 / 2 ^ 20) value
      (modEcc stack (fun c => { c with soft := satAdd 0xFF c.soft 1 }) s)
  else
    let s := modMap (fun m => { m with dead := m.dead ++ e.blocks.filter (fun b => !m.dead.contains b) }) s
    (rowPages e).foldl (fun s pg =>
      if s.larder.map.units.contains (4, pg) then s
      else
        let s := modMap (fun m => { m with
          units := m.units ++ [(4, pg)], nRetired := m.nRetired + 1, nNoSpare := m.nNoSpare + 1 }) s
        retireNoSpare (wear 4 4 cause pg value s)) s

/-- Key of a row for its corrected errors of the last 24 hours. -/
def rowKey (stack : Nat) (e : DramErr) : Nat := (stack * 2 ^ 16 + e.bank) * 2 ^ 32 + e.row

/-- One DRAM error: counted; a row with 4 corrected errors in 24 hours, or one that cannot be corrected, is
repaired; the block of an uncorrectable error is poisoned, and no cache keeps it (R202). -/
def dramError (e : DramErr) (s : State) : State :=
  let k := stackOf s (e.blk * 64)
  if e.unc then
    let s := dropLines (e.blk * 64) 64 s
    let s := modEcc k (fun c => { c with ue := satAdd 0xFFFF c.ue 1 }) s
    let s := modMem (fun m => { m with
      ue := true, poison := if m.poison.contains e.blk then m.poison else e.blk :: m.poison }) s
    repairRow k e 3 1 s
  else
    let s := modEcc k (fun c => { c with ce := satAdd 0xFFFF c.ce 1 }) s
    let ts := s.time.ns :: (s.mem.rowErr.getD (rowKey k e) []).filter (fun t => decide (s.time.ns < t + DAY))
    if ts.length < 4 then
      modMem (fun m => { m with ce := true, rowErr := m.rowErr.set (rowKey k e) ts }) s
    else
      repairRow k e 2 ts.length
        (modMem (fun m => { m with ce := true, rowErr := m.rowErr.erase (rowKey k e) }) s)

/-- An error is met only by an access that reads its block. -/
def metBy (err : Option DramErr) (a n : Nat) (s : State) : State :=
  match err with
  | some e => if decide (e.blk * 64 < a + n) && decide (a < e.blk * 64 + 64) then dramError e s else s
  | none => s

/-- The scrub has read every location: what it met (R201). -/
def execPatrolScrub (errs : List DramErr) (s : State) : Host.Outcome State Fault Refusal :=
  if !s.powered then .next s
  else .next (errs.foldl (fun s e => if e.blk * 64 < s.nPages * 2 ^ 20 then dramError e s else s) s)

/-! ## Accesses (R206 to R214, R313) -/

/-- Some page of a range, below the capacity, forbids speculative reads: 2 for SIDEFX 1, 1 for PREF 0, 0
for none (R212). -/
def aheadStop (s : State) (a n : Nat) : Nat :=
  let ps := ((pagesOf a n).filter (fun p => decide (p < s.nPages))).map s.pageOf
  if ps.any (·.sidefx) then 2 else if ps.all (·.pref) then 0 else 1

/-- A speculative or prefetch read that is dropped unissued and counted (R212). -/
def countDrop (why : Nat) (s : State) : State :=
  modMem (fun m =>
    if why = 2 then { m with sfxDrop := satAdd 0xFFFF m.sfxDrop 1 }
    else { m with npfDrop := satAdd 0xFFFF m.npfDrop 1 }) s

/-- BWR_LABELk: STREAM, PRIO, CALLOC. -/
def State.label (s : State) (k : Nat) : Bool × Nat × Bool := s.bwr.labels.getD (k % 16) (false, 1, true)

/-- The cache lines of a read (R214 to R216): none on a page with SIDEFX 1, none of poisoned data. -/
def cacheLinesRead (cl : Nat) (secure : Bool) (t a n label : Nat) (s : State) : State :=
  let l := s.label label
  let lines := if n = 0 then [] else (List.range ((a + n - 1) / 256 - a / 256 + 1)).map (· + a / 256)
  lines.foldl (fun s x =>
    if (s.pageOf (x * 256 / 2 ^ 20)).sidefx || poisoned s (x * 256) 256 then s
    else cacheRead cl secure t x l.2.2 l.1 s) s

/-- The bytes that a read delivers to SRAM of the cluster. -/
def putSram (job cl : Nat) (dst : Option (Nat × Nat)) (d : List Byte) (s : State) : State :=
  match dst with
  | some (u, off) => sramWrite job cl u off d s
  | none => s

def gotData (d : List Byte) (s : State) : State := modMem (fun m => { m with rdata := d }) s

/-- A demand read of a job's work: checked, served from the cache or DRAM; poisoned data end the job with
FAULT, DRAM_UE (R202). The bytes and the state. -/
def workRead (job cl a n label : Nat) (j : Job) (err : Option DramErr) (s : State) : Option (List Byte) × State :=
  let c := accTenant s j.tenant
  match accessCheck s c a n with
  | 0 =>
    let s := metBy err a n s
    if poisoned s a n then (none, endJob job FAULT 0x0400 0 s)
    else
      let s := cacheLinesRead cl c.secure j.tenant a n label s
      if rtLocked s a n then
        let r := undefBytes n s
        (some r.1, r.2)
      else (some (dramRead s a n), s)
  | r => (none, violate c false r a s)

/-- A read of a paired program whose data the job has not produced itself (R313): copy A performs it, or
takes it from the replay area after a restart (R318); copy B takes it from the delay FIFO, and stalls while
that is empty. -/
def asyncRead (job cl copy a n label : Nat) (j : Job) (dst : Option (Nat × Nat)) (err : Option DramErr) (s : State) :
    State :=
  if copy = 0 then
    match j.replay[j.replayAt]? with
    | some d =>
      gotData d (putSram job cl dst d (modJob job (fun j => { j with
        replayAt := j.replayAt + 1, fifo := j.fifo ++ [d] }) s))
    | none =>
      let r := workRead job cl a n label j err s
      match r.1 with
      | some d =>
        gotData d (putSram job cl dst d (modJob job (fun j => { j with
          fifo := j.fifo ++ [d], replay := j.replay ++ [d], replayAt := j.replayAt + 1 }) r.2))
      | none => r.2
  else
    match j.fifo with
    | d :: t => gotData d (putSram job cl dst d (modJob job (fun j => { j with fifo := t }) s))
    | [] => s

/-- A speculative read of a job or a device block: dropped, or checked, served and, for a cluster, cached. -/
def aheadRead (c : Acc) (cl : Option Nat) (a n label : Nat) (err : Option DramErr) (s : State) : State :=
  if aheadStop s a n != 0 then countDrop (aheadStop s a n) s
  else
    match accessCheck s c a n with
    | 0 =>
      let s := metBy err a n s
      if poisoned s a n then s
      else
        let r := if rtLocked s a n then undefBytes n s else (dramRead s a n, s)
        match cl with
        | some k => gotData r.1 (cacheLinesRead k c.secure c.tenant a n label r.2)
        | none => gotData r.1 r.2
    | r => violate c false r a s

/-- A DRAM access of tenant work or of a device block (R206). `dst` is the SRAM place of the cluster that a
read fills. -/
def execDramTransaction (src : DramSrc) (addr label : Nat) (op : DramOp) (dst : Option (Nat × Nat)) (async : Bool)
    (err : Option DramErr) (s : State) : Host.Outcome State Fault Refusal :=
  match src with
  | .work job cl copy =>
    match s.jobs.get? job with
    | none => .next s
    | some j =>
      if j.st != .running then .next s
      else
        match op with
        | .write d => .next (jobDramWrite job cl addr d s)
        | .ahead n => .next (aheadRead (accTenant s j.tenant) (some cl) addr n label err s)
        | .read n =>
          let paired := match jobImage s j with
            | some (i, _) => i.paired
            | none => false
          if async && paired then .next (asyncRead job cl copy addr n label j dst err s)
          else
            let r := workRead job cl addr n label j err s
            match r.1 with
            | some d => .next (gotData d (putSram job cl dst d r.2))
            | none => .next (gotData (zeros n) r.2)
  | .block b tenant =>
    let c := accBlock s b tenant
    match op with
    | .write d => .next (checkedWrite c addr d s)
    | .ahead n => .next (aheadRead c none addr n label err s)
    | .read n =>
      let s := if accessCheck s c addr n = 0 then metBy err addr n s else s
      let r := checkedRead c addr n s
      .next (gotData r.1 r.2)

/-- Size of BAR4 (R200). -/
def State.bar4 (s : State) : Nat := if s.nHbm = 4 then 2 ^ 36 else 2 ^ 37

/-- A host read: checked, served with label 0 outside the cluster caches, completed as Unsupported Request (`rbad` 1)
or with the poisoned bit (`rbad` 2) (R200, R202, R208). -/
def hostRead (addr n : Nat) (err : Option DramErr) (s : State) : State :=
  match accessCheck s accHost addr n with
  | 0 =>
    let s := metBy err addr n s
    let r := if rtLocked s addr n then undefBytes n s else (dramRead s addr n, s)
    modMem (fun m => { m with rdata := r.1, rbad := if poisoned s addr n then 2 else 0 }) r.2
  | r => modMem (fun m => { m with rdata := zeros n, rbad := 1 }) (violate accHost false r addr s)

/-- A host access through BAR4; a prefetchable read is dropped where its page says so, and served as any other else
(R212). -/
def execHostBar4Access (ep addr : Nat) (op : DramOp) (err : Option DramErr) (s : State) :
    Host.Outcome State Fault Refusal :=
  if !s.portsUp || s.nEp ≤ ep then .next s
  else
    match op with
    | .write d => if s.bar4 < addr + d.length then .next s else .next (checkedWrite accHost addr d s)
    | .ahead n =>
      if s.bar4 < addr + n then .next s
      else if aheadStop s addr n != 0 then .next (countDrop (aheadStop s addr n) s)
      else .next (hostRead addr n err s)
    | .read n => if s.bar4 < addr + n then .next s else .next (hostRead addr n err s)

/-! ## Ownership commands (R209 to R211) -/

def mcFirst (ps : List Byte) : Nat := u32 ps 0
def mcCount (ps : List Byte) : Nat := u32 ps 4
def mcFlag (ps : List Byte) (i : Nat) : Bool := bit (u8 ps 8) i
def mcPages (ps : List Byte) : List Nat := (List.range (mcCount ps)).map (· + mcFirst ps)

/-- FIRST and COUNT lie within the assignable pages. -/
def mcRange (ps : List Byte) (s : State) : Bool :=
  decide (1 ≤ mcCount ps) && decide (mcFirst ps + mcCount ps ≤ s.nAssignable)

/-- A check over the pages named, made where the range and TENANT are good (step 8 judges those). -/
def mcAny (h : Hdr) (ps : List Byte) (s : State) (f : PageEnt → Bool) : Bool :=
  isTenant h.tenant && mcRange ps s && (mcPages ps).any (fun p => f (s.pageOf p))

/-- Some page belongs to another owner, or is a secure page named from a normal-world session. -/
def foreignPage (h : Hdr) (ps : List Byte) (s : State) : Bool :=
  mcAny h ps s (fun e => (e.owner != 0xFF && e.owner != h.tenant.toNat) || (e.secure && !(s.port h.port).secure))

/-- Write entries at the command's turn, in both copies of the table (R210). -/
def setPages (l : List Nat) (f : PageEnt → PageEnt) (s : State) : State :=
  modMem (fun m => { m with own := l.foldl (fun o p => o.set p (f (o.getD p PageEnt.unowned))) m.own }) s

def addMemCmd (tok : Nat) (drop : List (Nat × Nat)) (s : State) : State :=
  modMem (fun m => { m with cmds := m.cmds ++ [⟨tok, drop⟩] }) s

def cMemAssign : Cmd := { Cmd.base with
  opcode := 0x0401, ten := .acts, cpl := some 0,
  units := fun _ ps => if mcFlag ps 2 then [fwSch, fwSec] else [fwSch],
  lenOk := fun ps => ps.length == 12,
  denied := fun h ps s => u8 ps 8 < 16 && mcFlag ps 2
    && (!(s.port h.port).secure || (isTenant h.tenant && !(s.ten h.tenant.toNat).secure)),
  stateOk := fun h ps s => !mcAny h ps s (fun e => e.owner != 0xFF),
  paramOk := fun _ ps s => mcRange ps s && u8 ps 8 < 16 && zeroAt ps 9 3,
  entries := fun _ _ _ => 1,
  effect := fun tok h ps s =>
    let s := journalCmd h 0x0401 (mcFirst ps) (mcCount ps) s
    let s := setPages (mcPages ps) (fun _ =>
      ⟨h.tenant.toNat, mcFlag ps 3, mcFlag ps 1, mcFlag ps 0, mcFlag ps 2⟩) s
    addMemCmd tok [] (zeroPages (mcFirst ps) (mcCount ps) s) }

def execMemAssign (h : Hdr) (ps : List Byte) (s : State) : Host.Outcome State Fault Refusal :=
  cMemAssign.exec h ps s

/-- A range lies in a loaded program's REGION, in a queue's ring, or in the image or REGION of a load not
yet completed. -/
def rangeUsed (s : State) (a n : Nat) : Bool :=
  s.progs.any (fun _ p => overlaps p.regBase p.regSize a n)
  || s.queues.any (fun _ q => match q.rings with
      | some (sq, cq) => overlaps sq (64 * q.depth) a n || overlaps cq (64 * q.depth) a n
      | none => false)
  || s.loads.any (fun l => overlaps l.imgAddr l.imgLen a n || overlaps l.regBase l.regSize a n)

def cMemRelease : Cmd := { Cmd.base with
  opcode := 0x0402, ten := .acts, cpl := some 0,
  lenOk := fun ps => ps.length == 8,
  denied := foreignPage,
  stateOk := fun h ps s => !mcAny h ps s (fun e => e.owner == 0xFF || e.lock)
    && !(mcRange ps s && (rangeUsed s (mcFirst ps * 2 ^ 20) (mcCount ps * 2 ^ 20)))
    && !(isTenant h.tenant && mcRange ps s && tenBusy s h.tenant.toNat),
  paramOk := fun _ ps s => mcRange ps s,
  entries := fun _ _ _ => 1,
  effect := fun tok h ps s =>
    let s := journalCmd h 0x0402 (mcFirst ps) (mcCount ps) s
    let sec := (mcPages ps).filter (fun p => (s.pageOf p).secure)
    let s := sec.foldl (fun s p => zeroPages p 1 s) s
    let s := modMem (fun m => { m with own := (mcPages ps).foldl (fun o p => o.erase p) m.own }) s
    addMemCmd tok [(mcFirst ps, mcCount ps)] s }

def execMemRelease (h : Hdr) (ps : List Byte) (s : State) : Host.Outcome State Fault Refusal :=
  cMemRelease.exec h ps s

/-- MEM_FLAGS would change PREF or SIDEFX of a page. -/
def flagsChange (ps : List Byte) (e : PageEnt) : Bool := e.pref != mcFlag ps 0 || e.sidefx != mcFlag ps 1

def cMemFlags : Cmd := { Cmd.base with
  opcode := 0x0403, ten := .acts, cpl := some 0,
  lenOk := fun ps => ps.length == 12,
  denied := fun h ps s => foreignPage h ps s
    || mcAny h ps s (fun e => e.owner == h.tenant.toNat && e.lock && flagsChange ps e),
  stateOk := fun h ps s => !mcAny h ps s (fun e => e.owner == 0xFF),
  paramOk := fun _ ps s => mcRange ps s && u8 ps 8 < 16 && !mcFlag ps 2 && zeroAt ps 9 3,
  entries := fun _ _ _ => 1,
  effect := fun tok h ps s =>
    let s := journalCmd h 0x0403 (mcFirst ps) (mcCount ps) s
    let drop := (mcPages ps).filter (fun p =>
      let e := s.pageOf p
      (mcFlag ps 1 && !e.sidefx) || (!mcFlag ps 0 && e.pref))
    let s := setPages (mcPages ps) (fun e =>
      { e with pref := mcFlag ps 0, sidefx := mcFlag ps 1, lock := e.lock || mcFlag ps 3 }) s
    addMemCmd tok (drop.map (fun p => (p, 1))) s }

def execMemFlags (h : Hdr) (ps : List Byte) (s : State) : Host.Outcome State Fault Refusal :=
  cMemFlags.exec h ps s

def cMemQuery : Cmd := { Cmd.base with
  opcode := 0x0404, states := stQuery, maxReply := 4096,
  lenOk := fun ps => ps.length == 8,
  paramOk := fun _ ps s => decide (1 ≤ u16 ps 4) && decide (u16 ps 4 ≤ 1024) && zeroAt ps 6 2
    && decide (mcFirst ps + u16 ps 4 ≤ s.nAssignable),
  data := fun h ps s => (List.range (u16 ps 4)).flatMap (fun i =>
    let e := s.pageOf (mcFirst ps + i)
    leBytes 4 (if e.secure && !(s.port h.port).secure then 0x00FD0000 else e.word)) }

def execMemQuery (h : Hdr) (ps : List Byte) (s : State) : Host.Outcome State Fault Refusal :=
  cMemQuery.exec h ps s

/-- The cache drops of an ownership command finish, and it completes (R209). -/
def execMemCommandDone (i : Nat) (s : State) : Host.Outcome State Fault Refusal :=
  match s.mem.cmds[i]? with
  | none => .next s
  | some c =>
    if s.fwDown fwSch then .next s else
    let s := c.drop.foldl (fun s p => dropLines (p.1 * 2 ^ 20) (p.2 * 2 ^ 20) s) s
    .next (complete c.tok OK [] (modMem (fun m => { m with cmds := m.cmds.filter (fun x => x.tok != c.tok) }) s))

/-! ## Bandwidth regulation (R217 to R219) -/

/-- Pin rate in 0.1 Gb/s. -/
def pinRate (code : Nat) : Nat := if code = 0 then 92 else if code = 1 then 80 else 64

/-- cmax in 64-byte beats per period. -/
def State.cmax (s : State) : Nat := s.nHbm * 1024 * pinRate s.pow.dramRate * 256 / 5120

/-- c after the occupancy check; at INIT the loop starts from cmax. -/
def nextC (s : State) (q : Nat) (anyLimited : Bool) : Nat :=
  let c := if s.bwr.c = 0 then s.cmax else s.bwr.c
  if s.bwr.qhi < q then max (s.cmax / 4) (c - c / 8)
  else if q < s.bwr.qlo && anyLimited then min s.cmax (c + c / 8)
  else c

/-- A period ends (R217). While q is at or above QLO a tenant's budget bounds the beats it was given. The operands: q sampled, beats that isochronous and device traffic took, and for each tenant its
beats and whether requests waited. -/
def execBwrPeriod (q iso dev : Nat) (tens : List (Nat × Nat × Bool)) (s : State) : Host.Outcome State Fault Refusal :=
  let b := s.bwr
  let gate := fun (x : Nat × Nat × Bool) => if b.qlo ≤ b.qavg then (x.1, min x.2.1 (b.budget.getD x.1 0), x.2.2) else x
  let ts := (tens.filter (fun x => decide (x.1 < 64) && (s.ten x.1).st != .closed)).map gate
  let isOver := fun (x : Nat × Nat × Bool) => decide (b.budget.getD x.1 0 ≤ x.2.1)
  let spent := fun (x : Nat × Nat × Bool) => isOver x && b.budget.getD x.1 0 != 0
  let limited := ts.filter (fun x => x.2.2 && isOver x && decide (b.qlo ≤ b.qavg))
  let c := nextC s q (!limited.isEmpty)
  let avail := c - iso - (if limited.isEmpty then dev else min dev (c / 256))
  let dem := (ts.filter (fun x => x.2.2 || spent x)).map (·.1)
  let weight := fun t => (b.cfg.getD t (16, 16)).2
  let base := fun t => avail * (s.ten t).part.bwmin / 1024
  let rest := avail - dem.foldl (fun a t => a + base t) 0
  let total := dem.foldl (fun a t => a + weight t) 0
  let bud := fun t => base t + rest * weight t / total
  .next { s with bwr := { b with
    beats := ts.foldl (fun m x => m.set x.1 ((m.getD x.1 0 + x.2.1) % 2 ^ 64)) b.beats,
    lim := limited.foldl (fun m x => m.set x.1 (satAdd 0xFFFFFFFF (m.getD x.1 0) 1)) b.lim,
    c := c, cbudget := min c 0xFFFF, iso := min iso 0xFFFF, limited := limited.length, qavg := min q 100,
    demand := dem,
    budget := dem.foldl (fun m t => m.set t (bud t)) Map.empty,
    qshare := dem.foldl (fun m t => m.set t (max 2 (56 * bud t / avail))) Map.empty } }

end Sys2Proof.Machine
end

