-- ==== Sys2Proof/Machine/Firmware.lean ====
section
/-! DEFINITION. Firmware processors, the bundle, secure sessions, attestation, counters and the change
journal: the rows of chapter 13 (R345 to R365, R414). -/

namespace Sys2Proof.Machine

open Sys2Proof

def modFws (f : Fws → Fws) (s : State) : State := { s with fws := f s.fws }
def modLarder (f : Larder → Larder) (s : State) : State := { s with larder := f s.larder }

/-- Firmware runs: a bundle has been verified in this start. -/
def State.fwRuns (s : State) : Bool :=
  match s.dev.st with
  | .off | .init | .awaitFw => false
  | _ => true

/-- SHAKE256 and KMAC256 with 32 bytes of output (R346, R352); their values are the standards' (log 13). -/
def shake (b : List Byte) : List Byte := padTo 32 (Config.shake256 b)
def kmac (key name msg : List Byte) : List Byte := padTo 32 (Config.kmac256 key name msg)

/-! ## Words that commands also return -/

/-- IDS_VARIANT (Table 3 of chapter 00). -/
def idsVariant (s : State) : Nat :=
  fld s.part.stepLet 20 4 + fld s.part.stepNum 16 4 + fld (b2n s.part.lidL) 8 1 + fld s.edies 4 4
    + fld s.nHbm 0 4

def idsPart : Nat := 0x4D539640

/-- FWS_INFO (Table 8 of chapter 13). -/
def fwsInfo (s : State) : Nat :=
  fld ((s.fws.loaded.map (·.ifrev)).getD 0) 16 16 + fld (b2n s.part.fdisSid) 15 1
    + fld (b2n s.part.fdisNsid) 14 1 + fld (b2n s.part.intKey.isSome) 13 1
    + fld (b2n s.larder.ssk.isSome) 12 1 + fld (b2n ((s.fws.loaded.map (·.checker)).getD false)) 11 1
    + fld s.fws.loadFails 0 8

/-- FWS_SVN (Table 9). -/
def fwsSvn (s : State) : Nat :=
  fld ((s.fws.loaded.map (·.svn)).getD 0) 16 16 + fld s.larder.svnFloor 0 16

/-- FWS_DBGEN (Table 12): SID and NSID read 0 while their fuse disables them. -/
def fwsDbgen (s : State) : Nat :=
  fld (b2n s.fws.lockS) 17 1 + fld (b2n s.fws.lockNs) 16 1 + fld (b2n s.fws.allowNs) 8 1
    + fld (b2n (s.fws.sid && !s.part.fdisSid)) 3 1 + fld (b2n s.fws.snid) 2 1
    + fld (b2n (s.fws.nsid && !s.part.fdisNsid)) 1 1 + fld (b2n s.fws.nsnid) 0 1

/-! ## The bundle (R346, R347) -/

/-- A command of group 0x0Axx that SEC executes. -/
def Cmd.sec : Cmd := { Cmd.base with units := fun _ _ => [fwSec] }
/-- One that port hardware or SEC's boot code executes. -/
def Cmd.boot : Cmd := { Cmd.base with units := fun _ _ => [] }

/-- The session of a command is not a secure-world one. -/
def normalWorld (h : Hdr) (s : State) : Bool := !(s.port h.port).secure

def cFwBegin : Cmd := { Cmd.boot with
  opcode := 0x0A01, states := [.awaitFw], lenOk := fun ps => ps.length == 8,
  stateOk := fun _ _ s => s.fws.verify.isNone,
  paramOk := fun _ ps _ => u32 ps 0 % 4096 == 0 && decide (16384 ≤ u32 ps 0) && decide (u32 ps 0 ≤ 2 ^ 23)
    && zeroAt ps 4 4,
  effect := fun _ _ ps s => modFws (fun f => { f with part := some (u32 ps 0, []) }) s }

def execFwBegin (h : Hdr) (ps : List Byte) (s : State) : Host.Outcome State Fault Refusal :=
  cFwBegin.exec h ps s

/-- A bundle is in progress and not being verified. -/
def bundleOpen (s : State) : Bool := s.fws.part.isSome && s.fws.verify.isNone

def cFwChunk : Cmd := { Cmd.boot with
  opcode := 0x0A02, states := [.awaitFw],
  lenOk := fun ps => decide (9 ≤ ps.length) && decide (ps.length ≤ 4096),
  stateOk := fun _ _ s => bundleOpen s,
  paramOk := fun _ ps s => zeroAt ps 4 4 && (match s.fws.part with
    | some (total, got) => u32 ps 0 == got.length && decide (got.length + (ps.length - 8) ≤ total)
    | none => true),
  effect := fun _ _ ps s => modFws (fun f => { f with
    part := f.part.map (fun x => (x.1, x.2 ++ ps.drop 8)) }) s }

def execFwChunk (h : Hdr) (ps : List Byte) (s : State) : Host.Outcome State Fault Refusal :=
  cFwChunk.exec h ps s

def cFwEnd : Cmd := { Cmd.boot with
  opcode := 0x0A03, states := [.awaitFw], cpl := some 4,
  stateOk := fun _ _ s => bundleOpen s,
  effect := fun tok _ _ s => modFws (fun f => { f with verify := some tok }) s }

def execFwEnd (h : Hdr) (ps : List Byte) (s : State) : Host.Outcome State Fault Refusal :=
  cFwEnd.exec h ps s

/-- Largest length of a component of a type: the protected SRAM of its processor, 2 MiB for DATA. -/
def compLimit (typ : Nat) : Nat :=
  if typ = 1 then 2 ^ 20 else if typ = 2 then 2 ^ 19 else if typ = 3 then 2 ^ 21
  else if typ = 4 then 2 ^ 20 else 2 ^ 21

/-- Component entry i of a bundle (Table 3). -/
def compAt (b : List Byte) (i : Nat) : Comp :=
  let e := sub b (256 + 64 * i) 64
  ⟨u8 e 0, u32 e 4, u32 e 8, sub e 16 32⟩

def compsOf (b : List Byte) : List Comp := (List.range (u8 b 9)).map (compAt b)

/-- One component entry is valid: it lies within MLEN and its limit, and its digest matches. -/
def compOk (b : List Byte) (mlen i : Nat) : Bool :=
  let c := compAt b i
  decide (256 + 64 * i + 64 ≤ mlen) && decide (1 ≤ c.typ) && decide (c.typ ≤ 5) && c.offset % 4096 == 0 && decide (c.offset + c.len ≤ mlen) && decide (c.len ≤ compLimit c.typ)
    && shake (sub b c.offset c.len) == c.digest

/-- Types 1 to 4 once each, type 5 at most once. -/
def typesOk (cs : List Comp) : Bool :=
  [1, 2, 3, 4].all (fun t => (cs.filter (fun c => c.typ == t)).length == 1)
    && decide ((cs.filter (fun c => c.typ == 5)).length ≤ 1)

/-- The integrator part, when present, is well formed. -/
def integratorOk (b : List Byte) (mlen : Nat) : Bool :=
  let i := mlen + 4096
  let len := u32 b (i + 4)
  if b.length ≤ i then true
  else u32 b i == 0x4B48435A && decide (1 ≤ len) && decide (len ≤ 2 ^ 20)
    && b.length == i + roundup (64 + len) 4096 + 4096

/-- REASON of R346 for the bytes received of a bundle of `total` bytes; 0 when it passes. -/
def bundleReason (s : State) (total : Nat) (b : List Byte) : Nat :=
  let mlen := u32 b 16
  let i := mlen + 4096
  let sig := b.length - 4096
  if b.length != total then 1
  else if u32 b 0 != 0x4257465A || u16 b 4 / 256 != 1 || u16 b 6 != 0x9640 || s.stepping < u8 b 8
      || mlen % 4096 != 0 || total < i || u32 b 20 != total || 2 ^ 23 < total then 2
  else if shake (sub b mlen 68) != padTo 32 Config.rootHash then 3
  else if !Config.xmssVerify (sub b mlen 68) (b.take mlen) (sub b (mlen + 68) 2820) then 4
  else if u16 b 12 < s.larder.svnFloor then 5
  else if !(decide (4 ≤ u8 b 9) && decide (u8 b 9 ≤ 5) && (List.range (u8 b 9)).all (compOk b mlen)
      && typesOk (compsOf b) && integratorOk b mlen) then 6
  else if b.length ≤ i then 0
  else if s.part.intKey != some (shake (sub b sig 68)) then 7
  else if !Config.xmssVerify (sub b sig 68) (sub b i (64 + u32 b (i + 4))) (sub b (sig + 68) 2820) then 8
  else 0

/-- Status of a REASON. -/
def reasonStatus (r : Nat) : Nat :=
  if r = 0 then OK else if r = 1 || r = 2 || r = 6 then BAD_PARAM else DENIED

/-- What the device keeps of a bundle that passed. -/
def bundleOf (b : List Byte) : Bundle :=
  let mlen := u32 b 16
  let i := mlen + 4096
  let chk := decide (i < b.length)
  { ifrev := u16 b 10, svn := u16 b 12, comps := compsOf b, mdigest := shake (b.take mlen),
    checker := chk,
    chkDigest := if chk then shake (sub b i (64 + u32 b (i + 4))) else zeros 32,
    raw := b }

/-- Verification ends (R346, R347): FW_END completes, and the device enters SELF_TEST or stays. It runs in
AWAIT_FW alone (Table 10 of chapter 02). -/
def execFwVerifyDone (s : State) : Host.Outcome State Fault Refusal :=
  if s.dev.st != .awaitFw then .next s else
  match s.fws.verify, s.fws.part with
  | some tok, some (total, b) =>
    let r := bundleReason s total b
    let s := modFws (fun f => { f with verify := none, part := none }) s
    let s := complete tok (reasonStatus r) (leBytes 1 r ++ zeros 3) s
    if r = 0 then .next (setDevSt .selfTest (modFws (fun f => { f with loaded := some (bundleOf b) }) s))
    else .next (modFws (fun f => { f with loadFails := satAdd 0xFF f.loadFails 1 }) s)
  | _, _ => .next s

/-- Digest of a component type, zero for an absent one. -/
def digestOf (s : State) (typ : Nat) : List Byte :=
  match s.fws.loaded with
  | some b => match b.comps.find? (fun c => c.typ == typ) with
    | some c => padTo 32 c.digest
    | none => zeros 32
  | none => zeros 32

def cFwInfo : Cmd := { Cmd.boot with
  opcode := 0x0A04, states := stAll, maxReply := 200,
  data := fun _ _ s => leBytes 4 (fwsInfo s) ++ leBytes 4 (fwsSvn s)
    ++ [1, 2, 3, 4, 5].flatMap (digestOf s)
    ++ padTo 32 ((s.fws.loaded.map (·.chkDigest)).getD []) }

def execFwInfo (h : Hdr) (ps : List Byte) (s : State) : Host.Outcome State Fault Refusal :=
  cFwInfo.exec h ps s

/-! ## The firmware log (R351) -/

def cFwLogRead : Cmd := { Cmd.sec with
  opcode := 0x0A05, states := stQuery, maxReply := 63 * 64, lenOk := fun ps => ps.length == 8,
  paramOk := fun _ ps _ => decide (1 ≤ u16 ps 4) && decide (u16 ps 4 ≤ 63) && zeroAt ps 6 2,
  data := fun h ps s => ((s.fws.log.drop (u32 ps 0)).take (u16 ps 4)).flatMap (fun r =>
    if r.1 && normalWorld h s then patch r.2 16 (zeros 8) else r.2) }

def execFwLogRead (h : Hdr) (ps : List Byte) (s : State) : Host.Outcome State Fault Refusal :=
  cFwLogRead.exec h ps s

/-! ## Restarts (R349 to R351, R364) -/

/-- The cluster that a CCC code serves. -/
def cccCluster (s : State) (proc : Nat) : Option Nat := (List.range 12).find? (fun cl => s.cccOf cl == proc)

/-- A processor in service: SEC, PMC, SCH, a CCC that serves its cluster, or a spare CCC that has taken over. -/
def procInService (s : State) (proc : Nat) : Bool :=
  proc ≤ 2 || (match cccCluster s proc with
    | some cl => !s.larder.map.units.contains (7, if proc < 0x20 then cl else proc)
    | none => false)

/-- Restarts of a processor since INIT. -/
def rstCount (s : State) (proc : Nat) : Nat :=
  if proc = 0 then s.fws.rstSec else if proc = 1 then s.fws.rstPmc else if proc = 2 then s.fws.rstSch
  else s.fws.rstCcc.getD proc 0

def countRestart (proc : Nat) (s : State) : State :=
  modFws (fun f =>
    if proc = 0 then { f with rstSec := f.rstSec + 1 }
    else if proc = 1 then { f with rstPmc := f.rstPmc + 1 }
    else if proc = 2 then { f with rstSch := f.rstSch + 1 }
    else { f with rstCcc := f.rstCcc.set proc (f.rstCcc.getD proc 0 + 1) }) s

/-- Retire a tile with its wear record (Table 8 of chapter 15): substituted, spare lost, or no spare left. -/
def retireTileWear (cl t cause value : Nat) (s : State) : State :=
  let m := s.tileMap cl
  if 12 < t || 11 < cl || m.retired.contains t then s
  else
    let g := gtile cl t
    let s := if m.spare == some t then wear 1 5 cause (g + 0xFF00) value s
      else match m.spare with
        | some sp => wear 1 3 cause (g + sp * 256) value s
        | none => wear 1 4 cause (g + 0xFF00) value s
    retireTile cl t s

/-- A CCC retires (R351): the spare of its die takes over, or every tile of its cluster retires too. -/
def retireCcc (proc cl cause value : Nat) (s : State) : State :=
  let die := dieOf cl
  if proc < 0x20 && (s.larder.map.ccc.get? die).isNone then
    let s := modMap (fun m => { m with ccc := m.ccc.set die cl, nRetired := m.nRetired + 1 }) s
    let s := wear 7 3 cause cl value s
    modFws (fun f => { f with restarting := f.restarting.set (0x20 + die) 5 }) s
  else
    let inst := if proc < 0x20 then cl else proc
    let s := modMap (fun m => { m with
      units := m.units ++ [(7, inst)], nRetired := m.nRetired + 1, nNoSpare := m.nNoSpare + 1 }) s
    let s := retireNoSpare (wear 7 4 cause inst value s)
    let sp := match (s.tileMap cl).spare with
      | some t => [t]
      | none => []
    (sp ++ List.range 13).foldl (fun s t => retireTileWear cl t cause value s) s

/-- A processor begins to restart alone (R349). A CCC that does so for the third time within 24 hours
retires. -/
def beginRestart (proc cause : Nat) (s : State) : State :=
  if !s.fwRuns || !procInService s proc then s
  else
    let s := fwLog false 1 proc cause (countRestart proc s)
    match if proc < 0x10 then none else cccCluster s proc with
    | none => modFws (fun f => { f with restarting := f.restarting.set proc cause }) s
    | some cl =>
      let ts := s.time.ns :: (s.fws.cccTimes.getD proc []).filter (fun t => decide (s.time.ns < t + DAY))
      let s := modFws (fun f => { f with cccTimes := f.cccTimes.set proc ts }) s
      if ts.length < 3 then modFws (fun f => { f with restarting := f.restarting.set proc cause }) s
      else retireCcc proc cl 7 3 (modFws (fun f => { f with restarting := f.restarting.erase proc }) s)

/-- EV_REFCLK reports that a PMC restart delayed (R34, Table 4). -/
def flushRefEvents (s : State) : State :=
  let es := s.clk.refEvents
  es.foldl (fun s e => offerBoth evRefclkOp e s)
    { s with clk := { s.clk with refEvents := [] } }

/-- Captures that waited for the PMC. -/
def drainAllTci (s : State) : State := s.tcis.keys.foldl (fun s k => drainTci k s) s

/-- The processor whose restart ends: the one named or, for a CCC that its spare is replacing, that spare. -/
def restartKey (proc : Nat) (s : State) : Nat :=
  if (s.fws.restarting.get? proc).isSome then proc
  else match [0, 1].find? (fun die =>
      s.larder.map.ccc.get? die == some (proc - 0x10) && s.fws.restarting.get? (0x20 + die) == some 5) with
    | some die => if 0x10 ≤ proc then 0x20 + die else proc
    | none => proc

/-- A restart ends (R350, R364): EV_FWRESTART. For a spare CCC that takes over it names the CCC retired. -/
def endRestart (proc : Nat) (s : State) : State :=
  let key := restartKey proc s
  match s.fws.restarting.get? key with
  | none => s
  | some cause =>
    let s := releaseCpl (modFws (fun f => { f with restarting := f.restarting.erase key }) s)
    let who := if cause = 5 then 0x10 + s.larder.map.ccc.getD (key - 0x20) 0 else key
    let s := offer0 0x0AF0 (leBytes 1 who ++ leBytes 1 cause ++ leBytes 2 (min (rstCount s who) 0xFFFF)
      ++ leBytes 4 s.time.ns) s
    if key = fwPmc then drainAllTci (flushRefEvents s) else s

def execFwWatchdogExpiry (proc : Nat) (s : State) : Host.Outcome State Fault Refusal :=
  .next (beginRestart proc 1 s)

/-- An unrecoverable exception, or an uncorrectable error in working memory. -/
def execFwException (proc : Nat) (memory : Bool) (s : State) : Host.Outcome State Fault Refusal :=
  .next (beginRestart proc (if memory then 3 else 2) s)

def execFwRestartDone (proc : Nat) (s : State) : Host.Outcome State Fault Refusal := .next (endRestart proc s)

/-- A processor code of EV_FWRESTART. -/
def isProc (p : Nat) : Bool := p ≤ 2 || (0x10 ≤ p && p ≤ 0x1B) || p == 0x20 || p == 0x21

/-- FW_RESTART replies OK after the restart: its turn lasts until the restart is over (log 26). -/
def cFwRestart : Cmd := { Cmd.sec with
  opcode := 0x0A06, states := [.ready, .service], lenOk := fun ps => ps.length == 4,
  denied := fun h _ s => normalWorld h s,
  stateOk := fun _ ps s => !isProc (u8 ps 0) || procInService s (u8 ps 0),
  paramOk := fun _ ps _ => isProc (u8 ps 0) && zeroAt ps 1 3,
  entries := fun _ _ _ => 1,
  effect := fun _ h ps s =>
    let s := journalCmd h 0x0A06 (u8 ps 0) 0 s
    endRestart (u8 ps 0) (beginRestart (u8 ps 0) 4 s) }

def execFwRestart (h : Hdr) (ps : List Byte) (s : State) : Host.Outcome State Fault Refusal :=
  cFwRestart.exec h ps s

/-! ## Secure sessions (R352, R414) -/

def cFwSvnCommit : Cmd := { Cmd.sec with
  opcode := 0x0A10, states := [.ready, .service],
  denied := fun h _ s => normalWorld h s,
  entries := fun _ _ _ => 1,
  effect := fun _ h _ s =>
    let v := max s.larder.svnFloor ((s.fws.loaded.map (·.svn)).getD 0)
    modLarder (fun l => { l with svnFloor := v }) (journalCmd h 0x0A10 0 v s) }

def execFwSvnCommit (h : Hdr) (ps : List Byte) (s : State) : Host.Outcome State Fault Refusal :=
  cFwSvnCommit.exec h ps s

/-- The next nonce: 32 bytes that nothing fixes. -/
def nextNonce (s : State) : List Byte := padTo 32 (Config.freeBytes s.freeCtr)

def modPort (p : Port) (f : PortSt → PortSt) (s : State) : State := s.setPort p (f (s.port p))

def cFwSecChallenge : Cmd := { Cmd.sec with
  opcode := 0x0A20, states := stQuery, maxReply := 32,
  entries := fun _ _ _ => 1,
  data := fun _ _ s => nextNonce s,
  effect := fun _ h _ s =>
    let n := nextNonce s
    let s := { journalCmd h 0x0A20 0 0 s with freeCtr := s.freeCtr + 1 }
    modPort h.port (fun v => { v with nonce := some n }) s }

def execFwSecChallenge (h : Hdr) (ps : List Byte) (s : State) : Host.Outcome State Fault Refusal :=
  cFwSecChallenge.exec h ps s

/-- "ZNX-SESSION" -/
def sessionName : List Byte :=
  [0x5A, 0x4E, 0x58, 0x2D, 0x53, 0x45, 0x53, 0x53, 0x49, 0x4F, 0x4E]

/-- The MAC proves the SSK over the port's nonce. -/
def macOk (h : Hdr) (ps : List Byte) (s : State) : Bool :=
  match s.larder.ssk, (s.port h.port).nonce with
  | some k, some n => ps == kmac k sessionName (n ++ leBytes 1 (portNum h.port))
  | _, _ => false

/-- A refused proof: the nonce is consumed and, but in a lockout, the refusal counted; from the eighth on
the next 10 s are locked out. -/
def proveRefused (st : Nat) (h : Hdr) (s : State) : State :=
  if st != DENIED || h.port != .hp0 || (s.port h.port).lockout then s
  else modPort h.port (fun v => { v with
    nonce := none, proveFails := v.proveFails + 1, lockout := decide (8 ≤ v.proveFails + 1) }) s

def cFwSecProve : Cmd := { Cmd.sec with
  opcode := 0x0A21, states := stQuery, lenOk := fun ps => ps.length == 32,
  denied := fun h ps s => (s.port h.port).lockout || !macOk h ps s,
  entries := fun _ _ _ => 1,
  effect := fun _ h _ s => modPort h.port (fun v => { v with nonce := none, proveOk := true })
    (journalCmd h 0x0A21 0 0 s),
  onRefuse := fun st h _ s => proveRefused st h s }

def execFwSecProve (h : Hdr) (ps : List Byte) (s : State) : Host.Outcome State Fault Refusal :=
  cFwSecProve.exec h ps s

/-- 100 ms after a challenge the nonce ends; 100 ms after an accepted proof so does the leave to open a
secure session (`proof`). -/
def execNonceExpiry (p : Port) (proof : Bool) (s : State) : Host.Outcome State Fault Refusal :=
  .next (modPort p (fun v => if proof then { v with proveOk := false } else { v with nonce := none }) s)

def execProveLockoutEnd (p : Port) (s : State) : Host.Outcome State Fault Refusal :=
  .next (modPort p (fun v => { v with lockout := false }) s)

def cFwSskSet : Cmd := { Cmd.sec with
  opcode := 0x0A22, states := [.ready, .service], lenOk := fun ps => ps.length == 32,
  denied := fun h _ s => s.larder.ssk.isSome && normalWorld h s,
  entries := fun _ _ _ => 1,
  effect := fun _ h ps s => modLarder (fun l => { l with ssk := some ps }) (journalCmd h 0x0A22 0 0 s) }

def execFwSskSet (h : Hdr) (ps : List Byte) (s : State) : Host.Outcome State Fault Refusal :=
  cFwSskSet.exec h ps s

/-! ## Attestation (R358, R359) -/

/-- The next index of a key, and the quotes it has made in this start. -/
def keyIndex (s : State) (k : Nat) : Nat := if k = 0 then s.larder.attIndex else s.larder.idIndex
def keyQuotes (s : State) (k : Nat) : Nat := if k = 0 then s.fws.attQuotes else s.fws.idQuotes

/-- The statement that FW_ATTEST signs. -/
def statement (s : State) (nonce : List Byte) (k : Nat) : List Byte :=
  padTo 256 (nonce ++ leBytes 4 idsPart ++ leBytes 4 (idsVariant s) ++ leBytes 4 (fwsInfo s)
    ++ leBytes 1 s.dev.st.code
    ++ leBytes 1 (b2n s.skk.debug + 2 * b2n s.larder.seclive + 4 * b2n (s.dev.st == .degraded))
    ++ leBytes 1 k ++ [0x00] ++ leBytes 4 (keyIndex s k) ++ leBytes 8 s.larder.boot ++ leBytes 8 s.larder.jseq
    ++ leBytes 4 ((s.fws.loaded.map (·.svn)).getD 0) ++ leBytes 4 s.larder.svnFloor
    ++ padTo 32 ((s.fws.loaded.map (·.mdigest)).getD []) ++ padTo 32 ((s.fws.loaded.map (·.chkDigest)).getD [])
    ++ leBytes 8 s.time.ns ++ leBytes 4 (fwsDbgen s))

def cFwAttest : Cmd := { Cmd.sec with
  opcode := 0x0A30, states := stQuery, maxReply := 256 + 2820, lenOk := fun ps => ps.length == 36,
  paramOk := fun _ ps _ => decide (u8 ps 32 ≤ 1) && zeroAt ps 33 3,
  entries := fun _ _ _ => 1,
  resource := fun _ ps s =>
    let k := u8 ps 32
    if (if k = 0 then 32 else 4) ≤ keyQuotes s k || 2 ^ 20 ≤ keyIndex s k then NO_RESOURCE else 0,
  data := fun _ ps s =>
    let st := statement s (ps.take 32) (u8 ps 32)
    st ++ padTo 2820 (Config.xmssSign (u8 ps 32) (keyIndex s (u8 ps 32)) st),
  effect := fun _ h ps s =>
    let k := u8 ps 32
    let s := journalCmd h 0x0A30 k (keyIndex s k) s
    if k = 0 then
      modLarder (fun l => { l with attIndex := l.attIndex + 1 })
        (modFws (fun f => { f with attQuotes := f.attQuotes + 1 }) s)
    else
      modLarder (fun l => { l with idIndex := l.idIndex + 1 })
        (modFws (fun f => { f with idQuotes := f.idQuotes + 1 }) s) }

def execFwAttest (h : Hdr) (ps : List Byte) (s : State) : Host.Outcome State Fault Refusal :=
  cFwAttest.exec h ps s

def cFwAttestCert : Cmd := { Cmd.sec with
  opcode := 0x0A31, states := stQuery, maxReply := 68 + 2820, lenOk := fun ps => ps.length == 4,
  paramOk := fun _ ps _ => decide (u8 ps 0 ≤ 1) && zeroAt ps 1 3,
  data := fun _ ps _ =>
    let k := 1 - u8 ps 0
    padTo 68 (Config.publicKey k) ++ padTo 2820 (Config.certificate k) }

def execFwAttestCert (h : Hdr) (ps : List Byte) (s : State) : Host.Outcome State Fault Refusal :=
  cFwAttestCert.exec h ps s

/-! ## The change journal and the counters (R360, R361) -/

/-- A journal entry as 32 bytes (Table 6); OBJECT and VALUE of a secure session's entry are hidden from a
normal-world session. -/
def JEntry.bytes (e : JEntry) (hide : Bool) : List Byte :=
  leBytes 4 e.seq ++ leBytes 4 e.boot ++ leBytes 8 e.time ++ leBytes 2 e.opcode ++ leBytes 1 e.port
    ++ leBytes 1 (b2n e.secure) ++ leBytes 1 e.tenant ++ zeros 3
    ++ leBytes 4 (if hide && e.secure then 0 else e.object) ++ leBytes 4 (if hide && e.secure then 0 else e.value)

/-- Oldest and newest SEQ of the journal in the Larder. -/
def journalEnds (l : List JEntry) : List Byte :=
  leBytes 4 ((l.head?.map (·.seq)).getD 0) ++ leBytes 4 ((l.getLast?.map (·.seq)).getD 0)

def cFwJournalRead : Cmd := { Cmd.sec with
  opcode := 0x0A40, states := stQuery, maxReply := 16 + 120 * 32, lenOk := fun ps => ps.length == 8,
  paramOk := fun _ ps _ => decide (1 ≤ u16 ps 4) && decide (u16 ps 4 ≤ 120) && zeroAt ps 6 2,
  data := fun h ps s => journalEnds s.larder.journal ++ zeros 8
    ++ ((s.larder.journal.filter (fun e => decide (u32 ps 0 ≤ e.seq % 2 ^ 32))).take (u16 ps 4)).flatMap
        (fun e => e.bytes (normalWorld h s)) }

def execFwJournalRead (h : Hdr) (ps : List Byte) (s : State) : Host.Outcome State Fault Refusal :=
  cFwJournalRead.exec h ps s

/-- Entries numbered from the journal SEQ on. -/
def numberFrom (l : List JEntry) (n : Nat) : List JEntry := l.mapIdx (fun i e => { e with seq := n + i })

/-- Move the journal buffer to the Larder, which keeps the last 2,048 entries. -/
def drainJournal (s : State) : State :=
  let add := numberFrom s.fws.jbuf s.larder.jseq
  let all := s.larder.journal ++ add
  modLarder (fun l => { l with journal := all.drop (all.length - 2048), jseq := l.jseq + add.length })
    (modFws (fun f => { f with jbuf := [] }) s)

/-- SEC drains the journal buffer, unless it is restarting. -/
def execJournalDrain (s : State) : Host.Outcome State Fault Refusal :=
  if !s.fwRuns || s.fwDown fwSec then .next s else .next (drainJournal s)

def counterVal (s : State) (ps : List Byte) : Nat := s.larder.user.getD (u8 ps 0) 0

def cFwMcounter : Cmd := { Cmd.sec with
  opcode := 0x0A50, states := stQuery, maxReply := 8, lenOk := fun ps => ps.length == 4,
  denied := fun h ps s => u8 ps 1 == 1 && normalWorld h s,
  paramOk := fun _ ps _ => decide (u8 ps 0 < 8) && decide (u8 ps 1 ≤ 1) && zeroAt ps 2 2,
  entries := fun _ ps _ => u8 ps 1,
  resource := fun _ ps s => if u8 ps 1 = 1 ∧ counterVal s ps + 1 = 2 ^ 64 then NO_RESOURCE else 0,
  data := fun _ ps s => leBytes 8 (counterVal s ps + u8 ps 1),
  effect := fun _ h ps s =>
    if u8 ps 1 = 1 then
      let v := counterVal s ps + 1
      modLarder (fun l => { l with user := l.user.set (u8 ps 0) v })
        (journalCmd h 0x0A50 (u8 ps 0) (v % 2 ^ 32) s)
    else s }

def execFwMcounter (h : Hdr) (ps : List Byte) (s : State) : Host.Outcome State Fault Refusal :=
  cFwMcounter.exec h ps s

def cFwIntkeyBurn : Cmd := { Cmd.sec with
  opcode := 0x0A60, states := [.service], lenOk := fun ps => ps.length == 32,
  denied := fun h _ s => normalWorld h s,
  stateOk := fun _ _ s => s.part.intKey.isNone,
  entries := fun _ _ _ => 1,
  effect := fun _ h ps s =>
    let s := journalCmd h 0x0A60 0 0 s
    { s with part := { s.part with intKey := some ps } } }

def execFwIntkeyBurn (h : Hdr) (ps : List Byte) (s : State) : Host.Outcome State Fault Refusal :=
  cFwIntkeyBurn.exec h ps s

/-! ## Loss of blocks with secure-owned context (R355, R356) -/

/-- EV_SECLOSS: placed while a secure session is open on HP0, otherwise kept in the Larder; journaled. -/
def secLoss (kind inst tenant : Nat) (s : State) : State :=
  let s := if journalRoom 1 s then journal 0x0AF1 2 false tenant (kind * 256 + inst) 0 s else s
  if s.hp0.openS && s.hp0.secure then
    offer0 0x0AF1 (leBytes 1 kind ++ leBytes 1 inst ++ leBytes 1 tenant ++ [0x00] ++ leBytes 4 s.time.ns) s
  else
    let n : SecNotice := ⟨kind, inst, tenant, s.time.ns⟩
    modLarder (fun l => { l with notices := (l.notices ++ [n]).take 64 }) s

end Sys2Proof.Machine
end

