-- ==== Sys2Proof/Machine/Wear.lean ====
section
/-! DEFINITION. Spares and retirement (R393, R394, R403 to R405, R416), loss of power of blocks (R356, R400)
and the wear log: the rows of chapter 15 about wear. -/

namespace Sys2Proof.Machine

open Sys2Proof

def modPow (f : Pow → Pow) (s : State) : State := { s with pow := f s.pow }

/-- EV_POWER (R407); an instance or value that its event does not imply is a free value (log 29). -/
def evPower (ev : Nat) (inst value : Option Nat) (s : State) : State :=
  let f := takeFree s
  offer0 0x0CF0 (leBytes 1 ev ++ leBytes 1 (inst.getD (Config.freeNat f.1)) ++ leBytes 2 (value.getD (Config.freeNat f.1 / 256))
    ++ leBytes 4 s.time.ns) f.2

/-! ## The cap in force (R394, R395) -/

/-- CAPEFF in 25 W units. -/
def capEff (s : State) : Nat :=
  max 6 (minOf (s.part.variant.capW / 25)
    ((List.range 10).map (fun r => s.part.variant.capW * s.railIn r / railPhases.getD r 1 / 25)))

/-- The cap in force in W. -/
def capW (s : State) : Nat := 25 * min s.pow.cap (capEff s)

/-- A change, with EV_POWER event 1 when it changes the cap in force. -/
def withCap (f : State → State) (s : State) : State :=
  let n := f s
  if capW n == capW s then n else evPower 1 none (some (capW n)) n

/-! ## Blocks that lose their power without a command (R356) -/

/-- A program or reservation has slots or granules in a cluster. -/
def bindIn (cl : Nat) (b : LcBind) : Bool := b.clA == cl || b.clB == some cl

/-- A job has work on a cluster. -/
def jobIn (cl : Nat) (j : Job) : Bool := j.inFlight && j.tiles.any (fun t => t / 13 == cl)

/-- Secure-world jobs with work in a cluster end with SECLOST; EV_SECLOSS names the cluster fabric for each
tenant whose secure-owned context was there. -/
def clusterLost (cl : Nat) (s : State) : State :=
  let ts := ((s.progs.vals.filter (fun p => (s.ten p.tenant).secure && p.binds.any (bindIn cl))).map (·.tenant)).eraseDups
  let s := endJobs (fun j => jobIn cl j && (s.ten j.tenant).secure) FAULT 0x0A01 s
  ts.foldl (fun s t => secLoss 2 cl t s) s

/-! ## Regulator phases (R393, R394) -/

/-- Phases are numbered on each die in the order of Table 3, spares last (DESIGN CHOICE, log 29): the rail of
an active phase. -/
def railFrom : List Nat → Nat → Nat → Nat
  | [], r, _ => r
  | n :: t, r, p => if p < n then r else railFrom t (r + 1) (p - n)

/-- An unused spare phase of a die. -/
def freePhase (s : State) (die : Nat) : Option Nat :=
  ((List.range (sparePhases s.part.variant)).map (· + activePhases s.part.variant)).find?
    (fun p => (s.larder.map.phaseSub.get? (die * 256 + p)).isNone)

/-- The rail a phase serves; none for an unused spare. -/
def railOf (s : State) (die p : Nat) : Option Nat :=
  if p < activePhases s.part.variant then some (railFrom (diePhases s.part.variant die) 0 p)
  else s.larder.map.phaseSub.get? (die * 256 + p)

/-- A unit is recorded as retired. -/
def addUnit (kind inst : Nat) (noSpare : Bool) (s : State) : State :=
  modMap (fun m => { m with
    units := m.units ++ [(kind, inst)], nRetired := m.nRetired + 1, nNoSpare := m.nNoSpare + b2n noSpare }) s

/-- A unit in service retires with no spare, with its record. -/
def loseUnit (kind inst cause value : Nat) (s : State) : State :=
  if s.larder.map.units.contains (kind, inst) then s
  else retireNoSpare (wear kind 4 cause inst value (addUnit kind inst true s))

/-- Every tile of a cluster loses its power: the spare role first, then the tiles in service. -/
def loseTiles (cl : Nat) (s : State) : State :=
  let s := clusterLost cl s
  let sp := match (s.tileMap cl).spare with
    | some t => [t]
    | none => []
  let s := (sp ++ List.range 13).foldl (fun s t => retireTileWear cl t 5 0 s) s
  modCl cl (fun c => { Cluster.fresh with mode := c.mode, tripped := c.tripped }) s

/-- A Svajor port loses its power: its lanes retire. -/
def losePort (port : Nat) (s : State) : State :=
  let s := match execLinkDown port s with
    | .next n => n
    | _ => s
  let s := (List.range 5).foldl (fun s l => loseUnit 5 (port * 16 + l) 5 0 s) s
  modSl port (fun l => { l with lstate := 0, signal := false })
    (modMap (fun m => { m with laneSub := m.laneSub.set port 0xFF, laneOut := if m.laneOut.contains port then m.laneOut else m.laneOut ++ [port] }) s)

/-- A rail is switched off (R394): unpowered blocks retire with no spare, as units of their kinds. The rails
of the edge dies take the host ports and the SAFE pins with them. -/
def railShutdown (r : Nat) (s : State) : State :=
  let s := if r ≤ 2 then (List.range 12).foldl (fun s cl => loseTiles cl s) s else s
  let s := if r == 2 then (List.range 12).foldl (fun s cl => (List.range 192).foldl (fun s g => loseUnit 3 (cl * 256 + g) 5 0 s) s) s else s
  let s := if r == 1 then (List.range 12 ++ [0x20, 0x21]).foldl (fun s c => loseUnit 7 c 5 0 s) s else s
  let s := if r == 4 then (List.range s.nSl).foldl (fun s p => losePort p s) s else s
  if [1, 4, 5, 6, 7].contains r then (List.range s.nAssignable).foldl (fun s pg => loseUnit 4 pg 5 0 s) s else s

/-- A regulator phase retires: a spare of its die takes its place, or the rail goes on without it. -/
def retirePhase (die p cause : Nat) (fault : Bool) (s : State) : State :=
  let inst := die * 256 + p
  if s.edies ≤ die || activePhases s.part.variant + sparePhases s.part.variant ≤ p
      || s.larder.map.units.contains (6, inst) then s
  else
    let s := if fault then modPow (fun w => { w with phaseflt := true }) s else s
    match railOf s die p with
    | none =>
      let s := modMap (fun m => { m with phaseSub := m.phaseSub.set inst 0xFF }) (addUnit 6 inst false s)
      let s := wear 6 5 cause inst 0 s
      if fault then evPower 3 none none s else s
    | some r =>
      match freePhase s die with
      | some n =>
        let s := modMap (fun m => { m with phaseSub := m.phaseSub.set (die * 256 + n) r }) (addUnit 6 inst false s)
        evPower 3 none none (wear 6 3 cause inst 0 s)
      | none =>
        let s := withCap (fun s => modMap (fun m => { m with
          phaseOut := m.phaseOut.set (die * 16 + r) (m.phaseOut.getD (die * 16 + r) 0 + 1) }) (addUnit 6 inst true s)) s
        let s := retireNoSpare (wear 6 4 cause inst 0 s)
        let s := if fault then evPower 3 none none s else s
        if s.railOff r && !(decide (2 * (s.railIn r + 1) < railPhases.getD r 0)) then railShutdown r s else s

def execPhaseFault (die phase : Nat) (s : State) : Host.Outcome State Fault Refusal :=
  .next (if s.dev.st == .off then s else retirePhase die phase 5 true s)

/-! ## Aging (Table 7) -/

/-- The aging oscillators of some tiles, measured: drop against the baseline in 0.01 %. -/
def execWearMeasure (drops : List (Nat × Nat)) (s : State) : Host.Outcome State Fault Refusal :=
  .next (if !s.fwRuns then s
    else drops.foldl (fun s d =>
      if 156 ≤ d.1 || (s.tileMap (d.1 / 13)).retired.contains (d.1 % 13) then s
      else if 600 ≤ d.2 then retireTileWear (d.1 / 13) (d.1 % 13) 1 d.2 s
      else if 400 ≤ d.2 then wear 1 1 1 (d.1 + 0xFF00) d.2 s
      else s) s)

/-! ## SRAM errors (Table 7, R404, R405) -/

/-- Key of a sub-array or bank in the retirement map. -/
def sramKey (kind scope : Nat) : Nat := kind * 2 ^ 32 + scope

/-- Key of a row (0) or column (1) for its corrected errors. -/
def lineKey (kind scope col index : Nat) : Nat := ((kind * 2 ^ 32 + scope) * 2 + col) * 2 ^ 32 + index

/-- A granule of cluster SRAM retires: the program or reservation that holds it goes (R130, R404, R412). -/
def retireGranule (cl g cause value : Nat) (holder : GranHolder) (s : State) : State :=
  let s := loseUnit 3 (cl * 256 + g) cause value s
  match holder with
  | .none => trimCache s cl
  | .prog h => (match s.progs.get? h with
    | some p => (match (p.binds ++ p.old.flatMap (·.binds)).find? (bindIn cl) with
      | some b => loseProg h b.lc cl 0xFF s
      | none => s)
    | none => s)
  | .load i => (match s.loads[i]? with
    | some l => if l.binds.any (bindIn cl) then dropLoad PLACEMENT_LOST [] l s else s
    | none => s)

/-- A row (0) or column (1) is remapped at once, or has no spare left. -/
def repairLine (e : SramErr) (col cause value : Nat) (s : State) : State :=
  let kind := if e.clus then 3 else 2
  let scope := if e.clus then e.unit * 256 + e.part / 16 else e.unit * 256 + e.part
  let inst := e.unit * 256 + e.part
  let s := fwLog false 4 inst (col * 2 ^ 32 + (if col = 0 then e.row else e.col)) s
  let u := s.larder.map.rows.getD (sramKey kind scope) (0, 0)
  let left := if col = 0 then decide (u.1 < 8) else decide (u.2 < 2)
  if left then
    wear kind 2 cause inst value (modMap (fun m => { m with
      rows := m.rows.set (sramKey kind scope) (if col = 0 then (u.1 + 1, u.2) else (u.1, u.2 + 1)),
      nRetired := m.nRetired + 1 }) s)
  else if e.clus then retireGranule e.unit e.part cause value e.holder s
  else
    let s := retireNoSpare (wear 2 4 cause inst value (modMap (fun m => { m with
      nRetired := m.nRetired + 1, nNoSpare := m.nNoSpare + 1 }) s))
    retireTileWear (e.unit / 13) (e.unit % 13) cause value s

/-- A corrected error enters the history of its row or column; how many it has within 24 hours. -/
def noteError (k : Nat) (s : State) : Nat × State :=
  let ts := s.time.ns :: (s.pow.sramErr.getD k []).filter (fun t => decide (s.time.ns < t + DAY))
  (ts.length, modPow (fun w => { w with sramErr := if ts.length < 3 then w.sramErr.set k ts else w.sramErr.erase k }) s)

/-- The place of an SRAM error exists. -/
def sramHere (e : SramErr) (s : State) : Bool :=
  if e.clus then e.unit < 12 && e.part < 192 && !s.larder.map.units.contains (3, e.unit * 256 + e.part)
  else e.unit < 156 && e.part < 8 && !(s.tileMap (e.unit / 13)).retired.contains (e.unit % 13)

/-- The job that meets an error has work on its cluster. -/
def sramMeets (e : SramErr) (id : Nat) (s : State) : Bool :=
  match s.jobs.get? id with
  | some j => jobIn (if e.clus then e.unit else e.unit / 13) j
  | none => false

/-- A job restarts with the resident weights of its bank copied again (R405). -/
def reloadJob (id : Nat) (s : State) : State :=
  match s.jobs.get? id with
  | some j => fillResident j.prog j.bank (restartJob id s)
  | none => s

/-- An SRAM error, corrected or not (Table 7, R405). -/
def execSramEccError (e : SramErr) (s : State) : Host.Outcome State Fault Refusal :=
  if !s.powered || !sramHere e s then .next s
  else if e.unc then
    let s := repairLine e 0 3 1 s
    .next (match e.job with
      | some j => if sramMeets e j s then reloadJob j s else s
      | none => s)
  else
    let kind := if e.clus then 3 else 2
    let scope := e.unit * 256 + e.part
    let r := noteError (lineKey kind scope 0 e.row) s
    let c := noteError (lineKey kind scope 1 e.col) r.2
    .next (if 3 ≤ r.1 then repairLine e 0 2 r.1 c.2
      else if 3 ≤ c.1 then repairLine e 1 2 c.1 c.2
      else c.2)

/-! ## PWR_RETIRE and PWR_WEAR_READ (Table 14) -/

/-- A kind and instance of Table 8 names a unit of the device. -/
def unitHere (s : State) (kind inst : Nat) : Bool :=
  match kind with
  | 1 => inst % 256 < 156 && (inst / 256 == 0 || inst / 256 == 0xFF)
  | 2 => inst / 256 < 156 && inst % 256 < 8
  | 3 => inst / 256 < 12 && inst % 256 < 192
  | 4 => inst < s.nAssignable
  | 5 => inst / 16 < s.nSl && inst % 16 < 5
  | 6 => inst / 256 < s.edies && inst % 256 < activePhases s.part.variant + sparePhases s.part.variant
  | 7 => inst < 12 || inst == 0x20 || inst == 0x21
  | 8 => inst < 3
  | _ => false

/-- A unit is already retired. -/
def unitGone (s : State) (kind inst : Nat) : Bool :=
  let m := s.larder.map
  match kind with
  | 1 => (s.tileMap (inst % 256 / 13)).retired.contains (inst % 256 % 13)
  | 2 => (s.tileMap (inst / 256 / 13)).retired.contains (inst / 256 % 13)
  | 5 => m.laneSub.get? (inst / 16) == some (inst % 16) || m.units.contains (5, inst)
      || (!bit (lanesOf s (inst / 16)) (inst % 16))
          && ((m.laneSub.get? (inst / 16)).isSome || m.laneOut.contains (inst / 16))
  | 7 => m.units.contains (7, inst)
      || (if inst < 12 then m.ccc.get? (dieOf inst) == some inst else m.ccc.get? (inst - 0x20) == some 0xFF)
  | 8 => bit m.skink inst
  | _ => m.units.contains (kind, inst)

/-- A spare CCC that serves no cluster is lost. -/
def loseSpareCcc (die cause : Nat) (s : State) : State :=
  wear 7 5 cause (0x20 + die) 0 (modMap (fun m => { m with
    ccc := m.ccc.set die 0xFF, nRetired := m.nRetired + 1 }) s)

/-- A CCC, by its instance number, retires. -/
def retireCccInst (inst cause : Nat) (s : State) : State :=
  let proc := if inst < 12 then 0x10 + inst else inst
  match cccCluster s proc with
  | some cl => retireCcc proc cl cause 0 s
  | none => if 12 ≤ inst then loseSpareCcc (inst - 0x20) cause s else s

/-- The row of a page that PWR_RETIRE names: which bank it lies in is a free value (log 29). -/
def pageRow (pg : Nat) (s : State) : DramErr × State :=
  let f := takeFree s
  (⟨pg * 16384, false, Config.freeNat f.1, 0, (List.range 16384).map (· + pg * 16384)⟩, f.2)

/-- Retire a unit by command: CAUSE 9, without a change of state in SERVICE (R404). -/
def retireUnit (kind inst : Nat) (s : State) : State :=
  match kind with
  | 1 => retireTileWear (inst % 256 / 13) (inst % 256 % 13) 9 0 s
  | 2 => repairLine ⟨false, inst / 256, inst % 256, 0, 0, false, none, .none⟩ 0 9 0 s
  | 3 => repairLine ⟨true, inst / 256, inst % 256, 0, 0, false, none, .none⟩ 0 9 0 s
  | 4 => let e := pageRow inst s
         repairRow (stackOf s (inst * 2 ^ 20)) e.1 9 0 e.2
  | 5 => retireLane (inst / 16) (inst % 16) 9 0 s
  | 6 => retirePhase (inst / 256) (inst % 256) 9 false s
  | 7 => retireCccInst inst 9 s
  | _ => retireNoSpare (wear 8 4 9 inst 0 (modMap (fun m => { m with
      skink := setBit m.skink inst true, nRetired := m.nRetired + 1, nNoSpare := m.nNoSpare + 1 }) s))

def cPwrRetire : Cmd := { Cmd.sec with
  opcode := 0x0C04, states := [.service], lenOk := fun ps => ps.length == 8, cpl := some 0,
  denied := fun h _ s => normalWorld h s,
  stateOk := fun _ ps s => !unitHere s (u8 ps 0) (u32 ps 4) || !unitGone s (u8 ps 0) (u32 ps 4),
  paramOk := fun _ ps s => zeroAt ps 1 3 && unitHere s (u8 ps 0) (u32 ps 4),
  entries := fun _ _ _ => 1,
  effect := fun tok h ps s =>
    complete tok OK [] (retireUnit (u8 ps 0) (u32 ps 4) (journalCmd h 0x0C04 (u32 ps 4) (u8 ps 0) s)) }

def execPwrRetire (h : Hdr) (ps : List Byte) (s : State) : Host.Outcome State Fault Refusal :=
  cPwrRetire.exec h ps s

/-- A wear log record as 32 bytes (Table 8). -/
def WearRec.bytes (r : WearRec) : List Byte :=
  leBytes 4 r.seq ++ leBytes 4 r.boot ++ leBytes 8 r.time ++ leBytes 1 r.kind ++ leBytes 1 r.action
    ++ leBytes 1 r.cause ++ [0x00] ++ leBytes 4 r.inst ++ leBytes 4 r.value ++ zeros 4

/-- Oldest and newest SEQ of the wear log. -/
def wearEnds (l : List WearRec) : List Byte :=
  leBytes 4 ((l.head?.map (·.seq)).getD 0) ++ leBytes 4 ((l.getLast?.map (·.seq)).getD 0)

def cPwrWearRead : Cmd := { Cmd.sec with
  opcode := 0x0C03, states := stQuery, maxReply := 16 + 120 * 32, lenOk := fun ps => ps.length == 8,
  paramOk := fun _ ps _ => decide (1 ≤ u16 ps 4) && decide (u16 ps 4 ≤ 120) && zeroAt ps 6 2,
  data := fun _ ps s => wearEnds s.larder.wear ++ zeros 8
    ++ ((s.larder.wear.filter (fun e => decide (u32 ps 0 ≤ e.seq))).take (u16 ps 4)).flatMap WearRec.bytes }

def execPwrWearRead (h : Hdr) (ps : List Byte) (s : State) : Host.Outcome State Fault Refusal :=
  cPwrWearRead.exec h ps s

end Sys2Proof.Machine
end

