-- ==== Sys2Proof/Machine/Power.lean ====
section
/-! DEFINITION. Power cap and throttling, droop response, temperature, gating of blocks, the input monitor and
frequency measurement: the rows of chapter 15 (R395 to R402, R415) and R36. -/

namespace Sys2Proof.Machine

open Sys2Proof

/-- The island kinds and instances present (Table 10 of chapter 01). -/
def islandHere (s : State) (kind inst : Nat) : Bool :=
  match kind with
  | 0 => inst < 156
  | 1 | 2 => inst < 12
  | 3 => inst < s.nCe
  | 4 => inst == 0
  | 5 => inst < s.nHbm
  | 6 => inst < 2
  | 7 => inst < s.edies
  | 8 => inst < 3
  | _ => false

/-! ## Island clocks (R23, R27) -/

/-- Target frequency of an island kind in 0.1 MHz (Table 10 of chapter 01). -/
def islandBase (kind : Nat) : Nat := [20000, 20000, 16000, 5000, 8000, 11500, 16000, 10000, 10000].getD kind 0

/-- The compute die of an island of a throttled kind: tile, vector engine, cluster fabric, compute-die fabric. -/
def islandDie (kind inst : Nat) : Option Nat :=
  match kind with
  | 0 => some (inst / 78)
  | 1 | 2 => some (inst / 6)
  | 6 => some inst
  | _ => none

/-- The cluster whose islands a hot stretch slows. -/
def islandCluster (kind inst : Nat) : Option Nat :=
  match kind with
  | 0 => some (inst / 13)
  | 1 | 2 => some inst
  | _ => none

/-- The throttle reduction in force on an island, in 64ths: the smaller of F and its die's thermal factor (R395,
R399); no other island is throttled. -/
def throttle64 (s : State) (kind inst : Nat) : Nat :=
  match islandDie kind inst with
  | some d => min s.pow.f (s.pow.therm.getD d 64)
  | none => 64

/-- The stretch in force on an island, in percent of its current target: the deepest of the VIN droop, its own rail
droop, the fast limit and the hot stretch, which do not multiply, and never below 50 (R27, R397, R395, R399). -/
def stretchPct (s : State) (kind inst : Nat) : Nat :=
  let w := s.pow
  let vin := if w.droop.isSome then w.droopPct else 100
  let rail := w.rail.getD (kind * 256 + inst) 100
  let fast := if w.fastOn && (islandDie kind inst).isSome then 75 else 100
  let hot := match islandCluster kind inst with
    | some c => if bit w.hot c then 50 else 100
    | none => 100
  max 50 (min (min vin rail) (min fast hot))

/-- An island's clock in 0.1 MHz: the product of its target, the throttle reduction and the deepest stretch (R27). -/
def islandClock (s : State) (kind inst : Nat) : Nat :=
  islandBase kind * throttle64 s kind inst * stretchPct s kind inst / 6400

/-- The clock of the selected island belongs to the window that runs (R36). -/
def noteClock (s : State) : State :=
  let k := s.clk
  let f := islandClock s k.fselKind k.fselInst
  { s with clk := { k with
      fwPct := min k.fwPct (stretchPct s k.fselKind k.fselInst), fwLo := min k.fwLo f, fwHi := max k.fwHi f } }

/-- A window begins: it has seen the present clock alone. -/
def newWindow (s : State) : State :=
  let k := s.clk
  let f := islandClock s k.fselKind k.fselInst
  { s with clk := { k with fwPct := stretchPct s k.fselKind k.fselInst, fwLo := f, fwHi := f } }

/-- Change the power state, with what it does to the selected island's clock. -/
def modClock (f : Pow → Pow) (s : State) : State := noteClock (modPow f s)

/-! ## Power cap and throttling (R395, R396) -/

/-- The PMC's firmware runs. -/
def State.pmcRuns (s : State) : Bool := s.fwRuns && !s.fwDown fwPmc

/-- The largest F, in 64ths, that the PMC estimates would hold the cap: `p` the power measured and `share` what
of it scales with F, in 0.1 W. -/
def holdF (cap p share f : Nat) : Nat := (cap - (p - share)) * f / max 1 share

/-- F after a 100 µs interval. -/
def nextF (cap p share f : Nat) : Nat :=
  if cap < p then max 16 (f - min (f - holdF cap p share f) 4)
  else if 100 * p ≤ 97 * cap then min 64 (f + 1)
  else f

/-- Mean input power of some samples in 0.1 W. -/
def meanPower (l : List (Nat × Nat)) : Nat :=
  l.foldl (fun a x => a + x.1 * x.2) 0 / (10000 * max 1 l.length)

/-- The power that the PMC measures over an interval: the mean of its last ten samples. -/
def intervalPower (s : State) : Nat := meanPower (s.pow.samples.take 10)

/-- The PMC sets F for the power measured, by its estimate of the share of it that scales with F (R395). -/
def execPmcInterval (share : Nat) (s : State) : Host.Outcome State Fault Refusal :=
  .next (if !s.pmcRuns then s
    else modClock (fun w => { w with
      f := nextF (10 * capW s) (intervalPower s) (min share (intervalPower s)) w.f, fastOn := false }) s)

/-- The fast limit: input current (10 mA) above 1.25 × cap ÷ VIN (mV) for 1 µs. -/
def execFastLimit (vin iin : Nat) (s : State) : Host.Outcome State Fault Refusal :=
  .next (if s.powered && decide (125000 * capW s < vin * iin)
    then modClock (fun w => { w with fastlim := true, fastOn := true }) s else s)

/-! ## Droop (R397, R398) -/

/-- The deeper of two stretches, in percent of target. -/
def deeper (old : Option Nat) (pct : Nat) : Nat := min (old.getD 100) pct

/-- VIN falls to `mv`. -/
def execVinDroop (mv : Nat) (s : State) : Host.Outcome State Fault Refusal :=
  .next (if !s.powered || 100 * s.pow.droopV ≤ mv then s
    else modClock (fun w =>
      let pct := if mv + 500 < 100 * w.droopV then 50 else 75
      if w.droop.isSome then { w with droopPct := min w.droopPct pct }
      else { w with droop := some s.time.ns, droopPct := pct, vdroops := satAdd 0xFFFF w.vdroops 1 }) s)

/-- An island's local supply falls to so many thousandths of its rail's nominal. The three Skink cores are one
island (R28). -/
def execRailDroop (kind inst permille : Nat) (s : State) : Host.Outcome State Fault Refusal :=
  .next (if !s.powered || !islandHere s kind inst || 970 < permille then s
    else modClock (fun w =>
      let k := kind * 256 + inst
      let pct := if permille ≤ 950 then 50 else 75
      { w with
        rail := w.rail.set k (deeper (w.rail.get? k) pct),
        rdroops := if (w.rail.get? k).isSome then w.rdroops else satAdd 0xFFFF w.rdroops 1 }) s)

/-- VIN (`none`) or an island's local supply has been back for 1 µs. -/
def execDroopRelease (island : Option (Nat × Nat)) (s : State) : Host.Outcome State Fault Refusal :=
  .next (match island with
    | some i => modClock (fun w => { w with rail := w.rail.erase (i.1 * 256 + i.2) }) s
    | none =>
      match s.pow.droop with
      | none => s
      | some t =>
        let us := (s.time.ns - t) / 1000
        let n := modClock (fun w => { w with droop := none, droopPct := 100 }) s
        if s.time.ns - t ≤ 1000000 then n
        else evPower 2 none (if us < 65536 then some us else none) n)

/-! ## Temperature (R399, R400) -/

/-- The highest of some temperatures. -/
def hottest : List Int → Option Int
  | [] => none
  | x :: t => some (t.foldl max x)

/-- A temperature as a signed byte. -/
def tempByte (t : Option Int) (old : Nat) : Nat :=
  match t with
  | some x => ofInt 8 (satInt 8 x)
  | none => old

/-- Every cluster's sensors: hot stretch at 118 °C, released at 113 °C. -/
def hotMask (old : Nat) (l : List (List Int)) : Nat :=
  (List.range 12).foldl (fun m c =>
    match hottest (l.getD c []) with
    | some x => if 118 ≤ x then setBit m c true else if x ≤ 113 then setBit m c false else m
    | none => m) old

/-- Sensors of a compute die: its fabric and the clusters on it. -/
def dieTemps (t : Temps) (d : Nat) : List Int :=
  t.dies.getD d [] ++ ((t.clusters.drop (6 * d)).take 6).flatten

/-- The thermal factor of a die, in the manner of R395: lowered toward the PMC's estimate by at most 4/64 while
a sensor is at TTHROT, raised by 1/64 below. -/
def nextTherm (tthrot : Nat) (temp : Option Int) (hold f : Nat) : Nat :=
  match temp with
  | none => f
  | some x =>
    if (tthrot : Int) ≤ x then max 16 (f - min (f - hold) 4)
    else min 64 (f + 1)

/-- Thermal factors after a sample; a factor of 64 is not listed. -/
def thermStep (t : Temps) (w : Pow) : Map Nat :=
  (List.range 2).foldl (fun m d =>
    let f := nextTherm w.tthrot (hottest (dieTemps t d)) (t.hold.getD d 64) (m.getD d 64)
    if f = 64 then m.erase d else m.set d f) w.therm

/-- A tripped cluster every sensor of which is below 95 °C is powered again, its SRAM zeroed, in the mode
PWR_GATE left it in. -/
def restoreCluster (cl : Nat) (t : Temps) (s : State) : State :=
  match hottest (t.clusters.getD cl []) with
  | none => s
  | some x =>
    if !(s.cl cl).tripped || 95 ≤ x then s
    else
      let mode := match s.pow.gates.get? cl with
        | some 1 => PowMode.clockStopped
        | some _ => PowMode.off
        | none => PowMode.run
      evPower 5 (some cl) (some (ofInt 16 x)) (s.setCl cl { Cluster.fresh with mode := mode })

/-- What asserts THERMTRIP_N: the temperature of an edge-die or compute-die fabric sensor at 125 °C, or of a
stack at 105 °C. -/
def tripTemp (t : Temps) : Option Int :=
  hottest ((t.dies ++ t.edges).flatten.filter (fun x => 125 ≤ x) ++ t.nHbm.filter (fun x => 105 ≤ x))

/-- Stacks above 85 °C, bit k. -/
def hotStacks (l : List Int) : Nat :=
  (List.range 8).foldl (fun m k => setBit m k (decide ((l.getD k 0) > 85))) 0

def execThermalSample (t : Temps) (s : State) : Host.Outcome State Fault Refusal :=
  if !s.powered then .next s
  else
    let s := modClock (fun w => { w with
      tjmax := tempByte (hottest ((t.clusters ++ t.dies ++ t.edges).flatten)) w.tjmax,
      thbm := tempByte (hottest t.nHbm) w.thbm,
      hot := hotMask w.hot t.clusters,
      refresh2 := hotStacks t.nHbm }) s
    let s := if s.pmcRuns then modClock (fun w => { w with therm := thermStep t w }) s else s
    let s := match tripTemp t with
      | some x => if s.pow.thermtrip then s
        else evPower 6 none (some (ofInt 16 x)) (modPow (fun w => { w with thermtrip := true }) s)
      | none => s
    .next ((List.range 12).foldl (fun s cl => restoreCluster cl t s) s)

/-- A cluster with a sensor at or above 125 °C for 100 µs is powered off (R400). -/
def execClusterTrip (cl temp : Nat) (s : State) : Host.Outcome State Fault Refusal :=
  if !s.powered || 12 ≤ cl || temp < 125 || (s.cl cl).tripped then .next s
  else
    let s := endJobs (jobIn cl) FAULT 0x0C02 (clusterLost cl s)
    let s := s.progs.cells.foldl (fun s c =>
      match (c.2.binds ++ c.2.old.flatMap (·.binds)).find? (bindIn cl) with
      | some b => loseProg c.1 b.lc cl 0xFF s
      | none => s) s
    let s := s.loads.foldl (fun s l =>
      if l.binds.any (bindIn cl) then dropLoad PLACEMENT_LOST [] l s else s) s
    let s := s.setCl cl { Cluster.fresh with mode := .off, tripped := true }
    .next (evPower 4 (some cl) (some temp) (modPow (fun w => { w with trips := satAdd 0xFFFF w.trips 1 }) s))

/-! ## Gating (R401, R402, R355) -/

/-- Table 6: a block exists. -/
def gateHere (s : State) (kind inst : Nat) : Bool :=
  match kind with
  | 0 => inst < 12
  | 1 => inst < s.nSl
  | 2 => inst < s.nDisp
  | 3 => inst < s.nCsi
  | 4 => inst < s.nMacs
  | _ => false

/-- A program or reservation holds granules in a cluster. -/
def clusterUsed (s : State) (cl : Nat) (secureOnly : Bool) : Bool :=
  s.progs.any (fun _ p => (!secureOnly || (s.ten p.tenant).secure) && (p.binds.any (bindIn cl)
      || p.old.any (fun o => o.binds.any (bindIn cl))))
    || s.loads.any (fun l => (!secureOnly || (s.ten l.tenant).secure) && l.binds.any (bindIn cl))

/-- A stream context is open on a CSI-2 receiver (0) or MAC (1). -/
def portBound (s : State) (kind inst : Nat) (secureOnly : Bool) : Bool :=
  s.ctxs.any (fun _ c => c.st != .closed && c.kind == kind && c.port == inst
    && (!secureOnly || (s.ten c.tenant).secure))

/-- Secure-owned context in a block of Table 6 (R355). -/
def gateSecure (s : State) (kind inst : Nat) : Bool :=
  match kind with
  | 0 => clusterUsed s inst true
  | 2 => (match (s.disp inst).owner with
    | some t => (s.ten t).secure
    | none => false)
  | 3 => portBound s 0 inst true
  | 4 => portBound s 1 inst true
  | _ => false

/-- The condition of Table 6 keeps a block busy. -/
def gateBusy (s : State) (kind inst : Nat) : Bool :=
  match kind with
  | 0 => clusterUsed s inst false
  | 1 => (s.sl inst).lstate == 5 && s.isMember
  | 2 => (s.disp inst).owner.isSome
  | 3 => portBound s 0 inst false
  | 4 => portBound s 1 inst false || [s.time.d0, s.time.d1].any (fun d => d.enabled && d.mac == inst)
      || (s.launch.get? inst).isSome
  | _ => false

/-- Record the mode of a block. -/
def setGate (kind inst mode : Nat) (s : State) : State :=
  modPow (fun w => { w with gates := if mode = 0 then w.gates.erase (kind * 256 + inst)
                                     else w.gates.set (kind * 256 + inst) mode }) s

/-- A cut at its turn: the block is ineligible; a cluster's cache lines are dropped and a powered-off block's
SRAM and registers are zeroed (R402, log 29), a port goes DOWN, a MAC's frames are discarded. -/
def cutBlock (kind inst mode : Nat) (s : State) : State :=
  let s := setGate kind inst mode s
  match kind with
  | 0 =>
    let c := s.cl inst
    if mode = 1 then s.setCl inst { c with mode := if c.tripped then .off else .clockStopped, cache := [] }
    else s.setCl inst { Cluster.fresh with mode := .off, tripped := c.tripped }
  | 1 =>
    let s := match execLinkDown inst s with
      | .next n => n
      | _ => s
    modSl inst (fun l => if mode = 2 then SlPort.fresh else { l with lstate := 0, signal := false }) s
  | 2 =>
    let d := s.disp inst
    if mode = 2 then { s with disps := s.disps.set inst { Disp.off with hpd := d.hpd } } else s
  | 4 =>
    let q := (s.netPort (0x10 + inst)).txq
    countDrops q.length (modNetPort (0x10 + inst) (fun n => { n with txq := [] }) s)
  | _ => s

/-- A block runs again. -/
def runBlock (kind inst : Nat) (s : State) : State :=
  let s := setGate kind inst 0 s
  match kind with
  | 0 => modCl inst (fun c => { c with mode := if c.tripped then .off else .run }) s
  | _ => s

def cPwrGate : Cmd := { Cmd.base with
  opcode := 0x0C02, units := fun _ _ => [fwPmc], lenOk := fun ps => ps.length == 4, cpl := some 0,
  denied := fun h ps s => normalWorld h s && gateHere s (u8 ps 0) (u8 ps 1) && gateSecure s (u8 ps 0) (u8 ps 1),
  stateOk := fun _ ps s => !gateHere s (u8 ps 0) (u8 ps 1) || !gateBusy s (u8 ps 0) (u8 ps 1),
  paramOk := fun _ ps s => gateHere s (u8 ps 0) (u8 ps 1) && decide (u8 ps 2 ≤ 2) && zeroAt ps 3 1,
  entries := fun _ _ _ => 1,
  effect := fun tok h ps s =>
    let s := journalCmd h 0x0C02 (u16 ps 0) (u8 ps 2) s
    let s := if u8 ps 2 = 0 then s else cutBlock (u8 ps 0) (u8 ps 1) (u8 ps 2) s
    modPow (fun w => { w with gatePend := w.gatePend ++ [(tok, u8 ps 0, u8 ps 1, u8 ps 2)] }) s }

def execPwrGate (h : Hdr) (ps : List Byte) (s : State) : Host.Outcome State Fault Refusal := cPwrGate.exec h ps s

/-- A block is in its mode: the oldest PWR_GATE that waits for it completes. -/
def execPwrGateDone (kind inst : Nat) (s : State) : Host.Outcome State Fault Refusal :=
  match s.pow.gatePend.find? (fun g => g.2.1 == kind && g.2.2.1 == inst) with
  | none => .next s
  | some g =>
    if s.fwDown fwPmc then .next s else
    let s := modPow (fun w => { w with gatePend := w.gatePend.erase g }) s
    .next (complete g.1 OK [] (if g.2.2.2 = 0 then runBlock kind inst s else s))

/-! ## The input monitor (R415) -/

def meanOf (f : Nat × Nat → Nat) (l : List (Nat × Nat)) : Nat := l.foldl (fun a x => a + f x) 0 / max 1 l.length

/-- A sample of VIN (mV) and the input current (10 mA), every 10 µs. -/
def execInputMonitorSample (vin iin : Nat) (s : State) : Host.Outcome State Fault Refusal :=
  .next (if !s.powered then s
    else modPow (fun w =>
      let l := ((vin, iin) :: w.samples).take 1000
      let last := l.take 10
      { w with
        samples := l, vin := min 0xFFFF (meanOf (·.1) last), iin := min 0xFFFF (meanOf (·.2) last),
        peak := min 0xFFFF (max w.peak (meanPower last)), mean := min 0xFFFF (meanPower l) }) s)

/-! ## Registers (Tables 15 to 21) -/

def pwrStat (s : State) : Nat :=
  let w := s.pow
  fld (capEff s) 24 8 + fld w.f 16 8 + fld (b2n w.thermtrip) 6 1 + fld (b2n (w.hot != 0)) 5 1
    + fld (b2n w.droop.isSome) 4 1 + fld (b2n w.fastlim) 3 1
    + fld (b2n (decide (w.f < 64) || w.therm.any (fun _ f => decide (f < 64)))) 2 1 + fld (b2n w.phaseflt) 1 1

def pwrCfg (s : State) : Nat :=
  let w := s.pow
  fld w.cap 24 8 + fld w.capmax 16 8 + fld w.dramRate 8 2 + fld (b2n w.lockCfg) 0 1

def pwrPin (s : State) : Nat := fld s.pow.vin 16 16 + fld s.pow.iin 0 16
def pwrPower (s : State) : Nat := fld s.pow.peak 16 16 + fld s.pow.mean 0 16
def pwrTstat (s : State) : Nat := fld s.pow.tjmax 24 8 + fld s.pow.thbm 16 8 + fld s.pow.trips 0 16

/-- Clusters a test picks, bit n. -/
def clMask (f : Nat → Bool) : Nat := (List.range 12).foldl (fun m c => if f c then m + 2 ^ c else m) 0

def pwrGstat (s : State) : Nat :=
  fld (clMask (fun c => s.pow.gates.get? c == some 1)) 16 12
    + fld (clMask (fun c => s.pow.gates.get? c == some 2 || (s.cl c).tripped)) 0 12

def pwrSpare (s : State) : Nat :=
  let left := (List.range s.edies).foldl (fun a d => a + ((List.range (sparePhases s.part.variant)).filter (fun p =>
    (s.larder.map.phaseSub.get? (d * 256 + activePhases s.part.variant + p)).isNone)).length) 0
  fld left 24 8 + fld (b2n (s.larder.map.ccc.get? 0).isNone) 16 1 + fld (b2n (s.larder.map.ccc.get? 1).isNone) 17 1
    + fld (clMask (fun c => (s.tileMap c).spare.isSome)) 0 12

def pwrWear (s : State) : Nat :=
  sfld s.pow.warns 24 8 + sfld s.larder.map.nNoSpare 16 8 + sfld s.larder.map.nRetired 0 16

def cPwrStatus : Cmd := { Cmd.base with
  opcode := 0x0C01, states := stAll, units := fun _ _ => [], maxReply := 24,
  data := fun _ _ s => leBytes 4 (pwrStat s) ++ leBytes 4 (pwrCfg s) ++ leBytes 4 (pwrPin s)
    ++ leBytes 4 (pwrPower s) ++ leBytes 4 (pwrTstat s) ++ leBytes 4 (pwrGstat s) }

def execPwrStatus (h : Hdr) (ps : List Byte) (s : State) : Host.Outcome State Fault Refusal := cPwrStatus.exec h ps s

/-! ## Frequency measurement (R36) -/

/-- Bounds of the mean frequency of a window in 0.1 MHz: the lowest and the highest clock of the island in it, each
with the island's tolerance, 500 ppm, or 2% in a hold (R23, R32). -/
def meanBounds (c : Clk) : Nat × Nat :=
  let ppm := if c.hold then 20000 else 500
  (c.fwLo * (1000000 - ppm) / 1000000, (c.fwHi * (1000000 + ppm) + 999999) / 1000000)

/-- A 10.24 µs window ends with a mean frequency measured as `freq` (0.1 MHz), which lies in the bounds that the
island's clock in the window sets; MINPCT is the deepest stretch in it. The first whole window after a write of
PWR_FSEL sets VALID. -/
def execFmeasWindow (freq : Nat) (s : State) : Host.Outcome State Fault Refusal :=
  let k := s.clk
  let b := meanBounds k
  .next (if !s.powered then s
    else if !islandHere s k.fselKind k.fselInst then
      { s with clk := { k with fmValid := false, fmArmed := true, fmFreq := 0, fmMinPct := 0 } }
    else if k.fmArmed then
      newWindow { s with clk := { k with
        fmValid := true, fmFreq := min 65535 (max b.1 (min b.2 freq)), fmMinPct := k.fwPct } }
    else newWindow { s with clk := { k with fmArmed := true } })

end Sys2Proof.Machine
end

