-- ==== Sys2Proof/Machine/Device.lean ====
section
/-! DEFINITION. Sessions, device states and the reference: the rows of chapter 02 (R49, R57 to R62), of the supply
(R391) and of chapter 01 (R30 to R35). -/

namespace Sys2Proof.Machine

open Sys2Proof

/-- A command of group 0x01xx that port hardware executes for either port in every state. -/
def Cmd.hw : Cmd := { Cmd.base with hp1 := true, states := stAll, units := fun _ _ => [] }

/-! ## Sessions (R49, R66) -/

/-- EV_SECLOSS notices kept in the Larder are delivered to a secure session (R356, R357). -/
def deliverNotices (s : State) : State :=
  s.larder.notices.foldl (fun s n =>
    offer0 0x0AF1 (leBytes 1 n.kind ++ leBytes 1 n.inst ++ leBytes 1 n.tenant ++ [0x00] ++ leBytes 4 n.time) s)
    (modLarder (fun l => { l with notices := [] }) s)

/-- The new session of a port, after the reply to its SESSION_OPEN. -/
def PortSt.startSession (v : PortSt) (secure : Bool) : PortSt :=
  { v.endSession with
    openS := true, secure := secure, expSeq := v.expSeq, kept := v.kept, proveOk := v.proveOk && !secure }

def cSessionOpen : Cmd := { Cmd.hw with
  opcode := sessionOpenOp, lenOk := fun ps => ps.length == 4,
  units := fun _ ps => if u32 ps 0 == 1 then [fwSec] else [],
  denied := fun h ps s => u32 ps 0 == 1 && !(s.port h.port).proveOk,
  paramOk := fun _ ps _ => decide (u32 ps 0 ≤ 1),
  effect := fun _ h ps s =>
    let sec := u32 ps 0 == 1
    let s := s.setPort h.port ((s.port h.port).startSession sec)
    if sec then deliverNotices s else s }

def execSessionOpen (h : Hdr) (ps : List Byte) (s : State) : Host.Outcome State Fault Refusal :=
  cSessionOpen.exec h ps s

def cSessionClose : Cmd := { Cmd.hw with
  opcode := 0x0102,
  effect := fun _ h _ s => s.setPort h.port (s.port h.port).endSession }

def execSessionClose (h : Hdr) (ps : List Byte) (s : State) : Host.Outcome State Fault Refusal :=
  cSessionClose.exec h ps s

def cNop : Cmd := { Cmd.hw with
  opcode := 0x0103, lenOk := fun ps => decide (ps.length ≤ 4096), maxReply := 4096, data := fun _ ps _ => ps }

def execNop (h : Hdr) (ps : List Byte) (s : State) : Host.Outcome State Fault Refusal := cNop.exec h ps s

/-! ## Device state (R57 to R59) -/

/-- RUN, or DEGRADED when a unit is retired with no spare; ingest begins and every safety program is first
covered (R58, R230, R327). -/
def startDevice (s : State) : State :=
  let s := setDevSt (if s.dev.retired then .degraded else .run) s
  startStreams (s.progs.keys.foldl (fun s h => firstCover h s) s)

def cDevStart : Cmd := { Cmd.base with
  opcode := 0x0104, states := [.ready], cpl := some 0,
  effect := fun tok _ _ s => complete tok OK [] (startDevice s) }

def execDevStart (h : Hdr) (ps : List Byte) (s : State) : Host.Outcome State Fault Refusal := cDevStart.exec h ps s

/-- A second DEV_STOP while an accepted one drains is refused with STATE (DESIGN CHOICE, log 32: R59 names no
such case). -/
def cDevStop : Cmd := { Cmd.base with
  opcode := 0x0105, states := [.run, .degraded], cpl := some 0,
  stateOk := fun _ _ s => s.dev.stopTok.isNone && !loopsOn s,
  effect := fun tok _ _ s => syncStreams { s with dev := { s.dev with stopTok := some tok } } }

def execDevStop (h : Hdr) (ps : List Byte) (s : State) : Host.Outcome State Fault Refusal := cDevStop.exec h ps s

/-- The last running job has committed or ended: READY, where coverage does not run (R59, R327). -/
def execDevStopComplete (s : State) : Host.Outcome State Fault Refusal :=
  match s.dev.stopTok with
  | none => .next s
  | some tok =>
    if s.inFlight != 0 || !s.running || s.fwDown fwSch then .next s
    else
      let s := setDevSt .ready { s with dev := { s.dev with stopTok := none } }
      let s := { s with progs := s.progs.mapV (fun p => { p with covered := false, eligible := false, lapsed := false }) }
      .next (complete tok OK [] s)

/-- DEV_RESET has no completion, so the limit of commands that await one (R53) does not refuse it (DEDUCED, log 32). -/
def cDevReset : Cmd := { Cmd.hw with
  opcode := 0x0106, lenOk := fun ps => ps.length == 4, okStatus := ACCEPTED,
  denied := fun h _ s => h.port == .hp0 && (s.dev.st == .safe || (s.dev.st == .service && s.dev.svcFromSafe)),
  paramOk := fun _ ps _ => u32 ps 0 == 0x0000A55A,
  entries := fun _ _ _ => 1,
  effect := fun _ h _ s =>
    let s := journalCmd h 0x0106 0 0 s
    { s with dev := { s.dev with resetPend := true } } }

def execDevReset (h : Hdr) (ps : List Byte) (s : State) : Host.Outcome State Fault Refusal := cDevReset.exec h ps s

/-- A start begins anew in a state without ports: everything but the part, the Larder, the journal buffer and
what waits outside is lost. -/
def restart (n : DevSt) (s : State) : State :=
  let f := State.fresh s.part s.larder
  { f with
    dev := { f.dev with st := n, prev := s.dev.st }, clk := { f.clk with refOk := s.clk.refOk },
    fws := { f.fws with jbuf := s.fws.jbuf }, freeCtr := s.freeCtr, pending := s.pending }

/-- INIT by DEV_RESET (R62). THERMTRIP_N stays asserted until VIN is removed (R399). -/
def execDevResetInit (s : State) : Host.Outcome State Fault Refusal :=
  if !s.dev.resetPend then .next s
  else
    let n := restart .init s
    .next { n with
      dev := { n.dev with resets := satAdd 0xFF s.dev.resets 1 }, pow := { n.pow with thermtrip := s.pow.thermtrip } }

/-- A port that Table 14 does not give the command in the present state, HP1 outside SAFE or HP0 in SAFE, is refused
with DENIED, and HP0 in any other state with STATE (DEDUCED, log 32: step 6 of R50 is the port's, step 7 the state's). -/
def cServiceEnter : Cmd := { Cmd.base with
  opcode := 0x0107, hp1 := true, states := [.awaitFw, .ready, .safe],
  denied := fun h _ s => (h.port == .hp1) != (s.dev.st == .safe),
  entries := fun _ _ _ => 1,
  effect := fun _ h _ s =>
    let s := journalCmd h 0x0107 0 0 s
    if s.dev.st == .awaitFw then { s with dev := { s.dev with svcArmed := true } }
    else syncStreams (setDevSt .service { s with dev := { s.dev with svcFromSafe := s.dev.st == .safe } }) }

def execServiceEnter (h : Hdr) (ps : List Byte) (s : State) : Host.Outcome State Fault Refusal :=
  cServiceEnter.exec h ps s

def cServiceExit : Cmd := { Cmd.base with
  opcode := 0x0108, states := [.service],
  stateOk := fun _ _ s => !s.dev.svcFromSafe && !loopsOn s && s.skk.replay.vals.all (·.isEmpty),
  effect := fun _ _ _ s => syncStreams (setDevSt .ready s) }

def execServiceExit (h : Hdr) (ps : List Byte) (s : State) : Host.Outcome State Fault Refusal :=
  cServiceExit.exec h ps s

/-! ## Supply and start-up (R391, R31, R61) -/

def execVinValid (s : State) : Host.Outcome State Fault Refusal :=
  if s.dev.st != .off then .next s else .next (restart .init s)

/-- OFF: the power-fail writer stores the journal buffer; nothing else survives (R9, R354, R391). -/
def execVinLoss (s : State) : Host.Outcome State Fault Refusal :=
  if s.dev.st == .off then .next s else .next (restart .off (drainJournal s))

/-- Rails up, reference valid for 100 µs, fuses and Larder read: BOOT counts the start (R360), and the
retirement map is applied as it is recorded (R403, R416). With the reference known to be invalid the device stays
in INIT (R31). -/
def execAwaitFwEntry (s : State) : Host.Outcome State Fault Refusal :=
  if s.dev.st != .init || !s.clk.refOk then .next s
  else .next { s with
    dev := { s.dev with st := .awaitFw, prev := .init },
    larder := { s.larder with boot := s.larder.boot + 1 } }

/-- SECLIVE found set: SRAM and the firmware private region are zeroed, and one notice is held (R357). -/
def seclive (s : State) : State :=
  if !s.larder.seclive then s
  else
    let s := { s with cls := s.cls.mapV (fun c => { c with sram := Mem.empty, acc := Map.empty, cache := [] }) }
    let s := zeroPages (s.nAssignable + 1024) 1024 s
    let n : SecNotice := ⟨0xFF, 0xFF, 0xFF, s.time.ns⟩
    modLarder (fun l => { l with seclive := false, notices := (l.notices ++ [n]).take 64 }) s

/-- A spare of a unit's kind is left in its scope (R404). -/
def spareHere (s : State) (kind inst : Nat) : Bool :=
  let m := s.larder.map
  match kind with
  | 1 => (s.tileMap (inst / 13)).spare.isSome
  | 2 => decide ((m.rows.getD (sramKey 2 inst) (0, 0)).1 < 8)
  | 3 => decide ((m.rows.getD (sramKey 3 (inst / 256 * 256 + inst % 256 / 16)) (0, 0)).1 < 8)
  | 5 => (m.laneSub.get? (inst / 16)).isNone
  | 6 => (freePhase s (inst / 256)).isSome
  | 7 => inst < 12 && (m.ccc.get? (dieOf inst)).isNone
  | _ => false

/-- Retire a unit that failed error injection (CAUSE 4). -/
def retireFailed (kind inst item : Nat) (s : State) : State :=
  match kind with
  | 1 => retireTileWear (inst / 13) (inst % 13) 4 item s
  | 2 => repairLine ⟨false, inst / 256, inst % 256, 0, 0, false, none, .none⟩ 0 4 item s
  | 3 => repairLine ⟨true, inst / 256, inst % 256, 0, 0, false, none, .none⟩ 0 4 item s
  | 5 => retireLane (inst / 16) (inst % 16) 4 item s
  | 6 => retirePhase (inst / 256) (inst % 256) 4 false s
  | 7 => retireCcc (0x10 + inst) inst 4 item s
  | _ => s

/-- One failed item: the unit retires, or the bit of SKK_BIST is set and SAFE will latch. -/
def injectFail (f : BistFail) (s : State) : State :=
  match f.unit with
  | some (kind, inst) =>
    if unitHere s kind inst && !unitGone s kind inst && spareHere s kind inst then retireFailed kind inst f.item s
    else modSkk (fun k => { k with bistFail := setBit k.bistFail f.item true }) s
  | none => modSkk (fun k => { k with bistFail := setBit k.bistFail f.item true }) s

/-- The tests are done (R61, R338): soft repairs have been made permanent (R201), and the device enters READY,
SERVICE where it is armed, or SAFE on a latent fault. -/
def execSelfTestEnd (fails : List BistFail) (s : State) : Host.Outcome State Fault Refusal :=
  if s.dev.st != .selfTest then .next s
  else
    let fs := fails.filter (fun f => decide (f.item < 8))
    let s := modSkk (fun k => { k with
      bistDone := true, bistKind := (fs.head?.map (·.kind)).getD 0, bistInst := (fs.head?.map (·.inst)).getD 0 }) (seclive s)
    let s := modMem (fun m => { m with ecc := m.ecc.mapV (fun e => { e with soft := 0 }) }) s
    let s := fs.foldl (fun s f => injectFail f s) s
    .next (if s.skk.bistFail != 0 then latchSafe 0x0B 0 0 s
      else if s.dev.svcArmed then setDevSt .service { s with dev := { s.dev with svcArmed := false } }
      else setDevSt .ready s)

/-! ## The reference (R30 to R35) -/

/-- EV_REFCLK, delayed while the PMC restarts (R34): the hold's duration so far, and in FLAGS of every event what
has been detected since the hold began (DEDUCED for events 2 and 3, log 32). -/
def evRefclk (ev : Nat) (s : State) : State :=
  let d := leBytes 1 ev ++ leBytes 1 (b2n s.clk.missing + 2 * b2n s.clk.range)
    ++ leBytes 2 (min (s.clk.holdT * 8 / 1000) 0xFFFF) ++ leBytes 4 s.time.ns
  if s.fwDown fwPmc then { s with clk := { s.clk with refEvents := s.clk.refEvents ++ [d] } }
  else offerBoth evRefclkOp d s

/-- The reference becomes invalid: edges missing, or the frequency out of range. Within a hold, a new loss sets
REF_LOST again and adds to what has been detected; as the hold goes on it places no further event 1 (DEDUCED, log 32:
event 1 is "reference lost and hold begun", R34). -/
def execRefInvalid (missing range : Bool) (s : State) : Host.Outcome State Fault Refusal :=
  if !(missing || range) then .next s
  else if s.dev.st == .off || s.dev.st == .init then .next { s with clk := { s.clk with refOk := false } }
  else if s.clk.hold then .next { s with clk := { s.clk with
    refOk := false, refLost := true, missing := s.clk.missing || missing, range := s.clk.range || range } }
  else
    .next (evRefclk 1 (noteDeg { s with clk := { s.clk with
      refOk := false, refLost := true, hold := true, holdT := 0, holdRunT := 0, missing := missing, range := range } }))

/-- The reference has been valid again for 100 µs and the FLLs have relocked: the count of the hold is discarded
(R35). -/
def execRefRestored (s : State) : Host.Outcome State Fault Refusal :=
  if !s.clk.hold then .next { s with clk := { s.clk with refOk := true } }
  else
    let n := evRefclk 2 (noteDeg { s with clk := { s.clk with refOk := true, hold := false } })
    .next { n with clk := { n.clk with holdT := 0, holdRunT := 0 } }

/-- The time of the hold counted in RUN or DEGRADED exceeds HOLD_MS: ticks of 8 ns, which the time base counts (R35). -/
def Clk.holdOver (c : Clk) : Bool := c.hold && decide (c.holdMs * 125000 < c.holdRunT)

def execHoldLimitExpiry (s : State) : Host.Outcome State Fault Refusal :=
  if !s.clk.holdOver || !s.running then .next s
  else .next (latchSafe 0x0A 0 0 (evRefclk 3 s))

end Sys2Proof.Machine
end

