-- ==== Sys2Proof/Machine/Operands.lean ====
section
/-! DEFINITION. Operand forms of the register commands (R67, Table 15 of chapter 02): the PARAMS that name one word or a
run of words, and the addresses of the registers that have rows of their own. -/

namespace Sys2Proof.Machine

open Sys2Proof

/-- COUNT of a REG_READ or REG_WRITE. -/
def regCount (ps : List Byte) : Nat := u16 ps 4

/-- Addresses of `n` words. -/
def wordAddrs (a n : Nat) : List Nat := (List.range n).map (fun i => a + 4 * i)

/-- PARAMS of a read of one word, of a write of one word, and of a REG_MODIFY. -/
def readPs (a : Nat) : List Byte := leBytes 4 a ++ leBytes 2 1 ++ leBytes 2 0
def writePs (a v : Nat) : List Byte := leBytes 4 a ++ leBytes 2 1 ++ leBytes 2 0 ++ leBytes 4 v
def modPs (a mask v : Nat) : List Byte := leBytes 4 a ++ leBytes 4 mask ++ leBytes 4 v

/-- One word to be written: address, mask, value. -/
structure WordWrite where
  addr : Nat
  mask : Nat
  val : Nat
  deriving DecidableEq, Repr

/-- The words of a REG_WRITE, and the word of a REG_MODIFY. -/
def writesOf (ps : List Byte) : List WordWrite :=
  (List.range (regCount ps)).map (fun i => ⟨u32 ps 0 + 4 * i, 0xFFFFFFFF, u32 ps (8 + 4 * i)⟩)
def modifyOf (ps : List Byte) : WordWrite := ⟨u32 ps 0, u32 ps 4, u32 ps 8⟩

/-- Base of a tenant's accounting registers (R197) and of a cluster's registers (R15). -/
def schTen (t : Nat) : Nat := 0x00104000 + t * 0x100
def clBase (cl : Nat) : Nat := 0x01000000 + cl * 0x100000

/-- Address of CTL_SDc_STAT or CTL_ENCc_STAT (Table 11 of chapter 11). -/
def chanStat (isEnc : Bool) (c : Nat) : Nat := (if isEnc then 0x00703000 else 0x00702000) + c * 0x10

end Sys2Proof.Machine
end

