-- ==== Sys2Proof/Machine/Flags.lean ====
section
/-! DEFINITION. Levels and status flags that the state implies: the interrupt lines of the ports (R43), the safe-state
pins (R330), and the flags of a port's status word (Table 18 of chapter 02). -/

namespace Sys2Proof.Machine

open Sys2Proof

/-- HPn_INT_N is asserted: a whole packet waits (R43). -/
def PortSt.intOn (v : PortSt) : Bool := !v.out.isEmpty

/-- WORLD of a port: a secure-world session is open. -/
def PortSt.world (v : PortSt) : Bool := v.openS && v.secure

/-- Levels of the SAFE_P and SAFE_N balls. -/
def State.safeP (s : State) : Bool := !s.deasserted
def State.safeN (s : State) : Bool := s.deasserted

end Sys2Proof.Machine
end

