-- ==== Sys2Proof/Machine/Reg.lean ====
section
/-! DEFINITION. Register words: fields and access types (R12 to R14), locks (R13), reads and writes of
one word (R67), and the journal entries they make (R361). -/

namespace Sys2Proof.Machine

/-- Access types (Table 5 of chapter 00). -/
inductive FAcc where
  | rw | ro | wo | w1c | rwl
  deriving DecidableEq, Repr

/-- One field of a register word as it stands: place, access, present value, and what writing it
does. `put` gets the new value of an RW or RWL field; of a W1C or WO field the bits written as 1. -/
structure RField where
  lo : Nat
  w : Nat
  acc : FAcc
  val : Nat
  /-- An RWL field whose lock is set (R13). -/
  locked : Bool
  /-- The session may not change this field (R363). -/
  deny : Bool
  put : Nat → State → State

/-- A register word: its fields, what reading it does besides (a latch of a high word), who may
write it at all, and the values it refuses with BAD_PARAM (judged on the word that would result). -/
structure Reg where
  fields : List RField
  onRead : State → State
  /-- What any write of the word does besides its fields. -/
  onWrite : State → State
  denyAll : Bool
  /-- Resulting words refused with STATE. -/
  stateBad : Nat → Bool
  badWord : Nat → Bool

/-- A read-only field. -/
def ro (lo w v : Nat) : RField := ⟨lo, w, .ro, v, false, false, fun _ s => s⟩
/-- A field any session may write. -/
def rw (lo w v : Nat) (put : Nat → State → State) : RField := ⟨lo, w, .rw, v, false, false, put⟩
/-- A flag cleared by writing 1. -/
def w1c (lo : Nat) (v : Bool) (clear : State → State) : RField :=
  ⟨lo, 1, .w1c, b2n v, false, false, fun _ s => clear s⟩
/-- A write-only action bit. -/
def wo (lo : Nat) (act : State → State) : RField := ⟨lo, 1, .wo, 0, false, false, fun _ s => act s⟩
/-- A lockable field. -/
def rwl (lo w v : Nat) (locked : Bool) (put : Nat → State → State) : RField :=
  ⟨lo, w, .rwl, v, locked, false, put⟩

/-- A word of fields with no side effect of reading and no rule of its own. -/
def plainReg (fs : List RField) : Reg := ⟨fs, id, id, false, fun _ => false, fun _ => false⟩
/-- A read-only word of one field. -/
def roReg (v : Nat) : Reg := plainReg [ro 0 32 v]
/-- A word whose read latches another. -/
def latchReg (fs : List RField) (f : State → State) : Reg := ⟨fs, f, id, false, fun _ => false, fun _ => false⟩

/-- The word a read returns; WO fields read zero (R12), reserved bits read zero (R14). -/
def Reg.word (r : Reg) : Nat :=
  r.fields.foldl (fun a f => a + (if f.acc == .wo then 0 else fld f.val f.lo f.w)) 0

/-- What writing bits `v` under a mask does to a field: the new value, or none for no change. -/
def RField.change (f : RField) (mask v : Nat) : Option Nat :=
  let m := bits mask f.lo f.w
  let b := bits v f.lo f.w
  match f.acc with
  | .ro => none
  | .rw | .rwl =>
    let n := (f.val &&& (2 ^ f.w - 1 - m)) ||| (b &&& m)
    if n == f.val then none else some n
  | .w1c => if b &&& m != 0 && f.val != 0 then some 0 else none
  | .wo => if b &&& m != 0 then some (b &&& m) else none

/-- The word would change a locked field, or one this session may not change (R13, R363). A word that this
session may not write is refused to every REG_WRITE (`full`), and to a REG_MODIFY that would change a field (R67). -/
def Reg.denied (full : Bool) (r : Reg) (mask v : Nat) : Bool :=
  (full && r.denyAll) || r.fields.any (fun f => (f.change mask v).isSome && (f.locked || f.deny || r.denyAll))

/-- The word that would result, W1C and WO bits apart. -/
def Reg.result (r : Reg) (mask v : Nat) : Nat :=
  r.fields.foldl (fun a f =>
    match f.acc with
    | .rw | .rwl => a + fld ((f.change mask v).getD f.val) f.lo f.w
    | _ => a) 0

/-- The word is refused for its value. -/
def Reg.bad (r : Reg) (mask v : Nat) : Bool := r.badWord (r.result mask v)

/-- The word changes an RW, RWL or WO field, which the journal records (R361). -/
def Reg.journaled (r : Reg) (mask v : Nat) : Bool :=
  r.fields.any (fun f => f.acc != .w1c && (f.change mask v).isSome)

/-- The word is refused in the present state. -/
def Reg.badState (r : Reg) (mask v : Nat) : Bool := r.stateBad (r.result mask v)

/-- Write a word under a mask. -/
def Reg.write (r : Reg) (mask v : Nat) (s : State) : State :=
  r.onWrite (r.fields.foldl (fun s f =>
    match f.change mask v with
    | some n => f.put n s
    | none => s) s)

/-! ## Blocks (Table 6 of chapter 00) -/

/-- Blocks whose words the journal does not record: IDS, CMD and the clusters (R361). -/
def unjournaledBlock (a : Nat) : Bool := a < 0x00100000 || 0x01000000 ≤ a

/-- The SKK block, the only one HP1 may write (R41). -/
def inSkk (a : Nat) : Bool := 0x00800000 ≤ a && a < 0x00900000
/-- The BWR block, every accepted write of which is recorded (R220). -/
def inBwr (a : Nat) : Bool := 0x00300000 ≤ a && a < 0x00400000

/-- The PWR block, every accepted write of which is recorded (R408). -/
def inPwr (a : Nat) : Bool := 0x00C00000 ≤ a && a < 0x01000000

/-- Blocks writable in AWAIT_FW and SELF_TEST: CMD, FWS and PWR (R67). -/
def earlyBlock (a : Nat) : Bool :=
  (0x00010000 ≤ a && a < 0x00100000) || (0x00900000 ≤ a && a < 0x00A00000)
    || (0x00C00000 ≤ a && a < 0x01000000)

end Sys2Proof.Machine
end

