-- ==== Sys2Proof/Machine/RegMap.lean ====
section
/-! DEFINITION. The register map: every register of the manual by address, with its fields, access types, locks and
side effects (Tables 2 to 6 of chapter 00 and the register tables of every chapter). -/

namespace Sys2Proof.Machine

open Sys2Proof

/-- What a session may see and change: its port and whether it is a secure-world session. -/
structure Viewer where
  port : Port
  secure : Bool
  deriving DecidableEq, Repr

/-- The objects of a tenant are hidden from this session (R353). -/
def hides (v : Viewer) (t : Nat) (s : State) : Bool := !v.secure && (s.ten t).st != .closed && (s.ten t).secure

/-- A register of a hidden object: it reads as zero and this session may not write it (R66, R353). -/
def hideReg (hidden : Bool) (r : Reg) : Reg :=
  if hidden then { r with fields := r.fields.map (fun f => { f with val := 0 }), denyAll := true } else r

/-- An action that a reading of the word also makes. -/
def Reg.latching (r : Reg) (f : State → State) : Reg := { r with onRead := f }

/-- A lockable word: a value that is refused, and its fields. -/
def checked (bad : Nat → Bool) (fs : List RField) : Reg := { plainReg fs with badWord := bad }

/-- The fields of W1C flags and of a count that both saturate where the table says so. -/
def ros (lo w v : Nat) : RField := ro lo w (min v (2 ^ w - 1))

/-! ## IDS and CMD (Tables 2, 3 of chapter 00; 12, 18 and 19 of chapter 02) -/

def idsReg (o : Nat) (s : State) : Option Reg :=
  match o with
  | 0x0 => some (roReg idsPart)
  | 0x4 => some (roReg (idsVariant s))
  | 0x8 =>
    let d := s.dev
    some (plainReg [ros 24 8 d.resets, ro 16 8 d.cause, ro 10 1 (b2n d.svcArmed), ro 9 1 (b2n d.svcFromSafe),
      ro 8 1 (b2n d.retired), ro 4 4 d.prev.code, ro 0 4 d.st.code])
  | _ => none

def cmdStat (p : Port) (s : State) : Reg :=
  let v := s.port p
  plainReg [ro 16 16 v.expSeq,
    w1c 11 v.evlost (modPort p (fun v => { v with evlost := false })),
    w1c 10 v.cpllost (modPort p (fun v => { v with cpllost := false })),
    w1c 9 v.crcerr (modPort p (fun v => { v with crcerr := false })),
    w1c 8 v.ovf (modPort p (fun v => { v with ovf := false })),
    ro 2 1 (b2n v.world), ro 1 1 (b2n v.intOn), ro 0 1 (b2n v.openS)]

def cmdCnt (p : Port) (s : State) : Reg :=
  plainReg [ros 16 16 (s.port p).discards, ros 0 16 (s.port p).crcerrs]

def cmdReg (o : Nat) (s : State) : Option Reg :=
  match o with
  | 0x000 => some (cmdStat .hp0 s)
  | 0x004 => some (cmdCnt .hp0 s)
  | 0x100 => some (cmdStat .hp1 s)
  | 0x104 => some (cmdCnt .hp1 s)
  | _ => none

/-! ## SCH (Tables 6, 7 of chapter 05; 7, 8, 9 and 12 to 14 of chapter 06) -/

def modSch (f : Sch → Sch) (s : State) : State := { s with sch := f s.sch }

def modCld (d : Nat) (f : Colander → Colander) (s : State) : State := s.setCld d (f (s.cld d))

/-- The tenant of a call. -/
def callTenant (s : State) (c : ClCall) : Nat := ((s.jobs.get? c.job).map (·.tenant)).getD 0

def cldStat (v : Viewer) (d : Nat) (s : State) : Reg :=
  let c := s.cld d
  let run := c.running.filter (fun r => !hides v (callTenant s r) s)
  plainReg [ros 16 8 (c.queue.length + b2n c.saved.isSome), ro 8 8 ((run.map (callTenant s)).getD 0),
    w1c 2 c.preempted (modCld d (fun c => { c with preempted := false })),
    ro 1 1 (match run with
      | some r => b2n (!r.lc)
      | none => 0),
    ro 0 1 (b2n run.isSome)]

def cldCnt (d : Nat) (s : State) : Reg := plainReg [ros 16 16 (s.cld d).preempts, ro 0 16 (s.cld d).calls]

/-- A 32-bit word saturating at its maximum. -/
def satReg (n : Nat) : Reg := roReg (min n 0xFFFFFFFF)

/-- The low word of a 64-bit count saturating at its maximum. -/
def loWord (n : Nat) : Nat := min n (2 ^ 64 - 1) % 2 ^ 32
def hiWord (n : Nat) : Nat := min n (2 ^ 64 - 1) / 2 ^ 32

/-- The accounting words of a tenant; engine time in tile-µs. -/
def acctReg (t o : Nat) (s : State) : Option Reg :=
  let a := (s.ten t).acct
  let modA := fun (f : Acct → Acct) => modTen t (fun v => { v with acct := f v.acct })
  match o with
  | 0x00 => some (latchReg [ro 0 32 (loWord (a.etlc / 1000))] (modA (fun a => { a with etlcHi := hiWord (a.etlc / 1000) })))
  | 0x04 => some (roReg a.etlcHi)
  | 0x08 => some (latchReg [ro 0 32 (loWord (a.etbe / 1000))] (modA (fun a => { a with etbeHi := hiWord (a.etbe / 1000) })))
  | 0x0C => some (roReg a.etbeHi)
  | 0x10 => some (satReg a.pre)
  | 0x14 => some (satReg a.rty)
  | 0x18 => some (roReg ((s.ten t).vt % 2 ^ 32))
  | 0x1C => some (plainReg [wo 0 (modTen t (fun v => { v with acct := Acct.zero }))])
  | 0x20 => some (satReg a.dbign)
  | _ =>
    if 0x40 ≤ o && o < 0x80 && o % 4 == 0 then some (satReg (a.whlc.getD ((o - 0x40) / 4) 0))
    else if 0x80 ≤ o && o < 0xC0 && o % 4 == 0 then some (satReg (a.whbe.getD ((o - 0x80) / 4) 0))
    else none

def schReg (v : Viewer) (o : Nat) (s : State) : Option Reg :=
  match o with
  | 0x000 => some (plainReg [ro 16 13 s.inFlight, ro 0 15 s.ctxReserved])
  | 0x020 => some (checked (fun w => decide (w % 65536 < 10))
      [rw 0 16 s.sch.parkUs (fun n => modSch (fun c => { c with parkUs := n }))])
  | 0x024 => some (plainReg [ros 16 16 s.sch.parkExp, ros 0 16 s.sch.parkDrop])
  | 0x030 => some (latchReg [ro 0 32 s.sch.epoch] (modSch (fun c => { c with epochHi := c.epoch / 2 ^ 32 % 65536 })))
  | 0x034 => some (plainReg [ro 0 16 s.sch.epochHi])
  | 0x038 => some (roReg s.sch.cseq)
  | 0x800 => some (cldStat v 0 s)
  | 0x804 => some (cldCnt 0 s)
  | 0x810 => some (cldStat v 1 s)
  | 0x814 => some (cldCnt 1 s)
  | _ =>
    if 0x4000 ≤ o && o < 0x8000 then
      let t := (o - 0x4000) / 0x100
      (acctReg t (o % 0x100) s).map (hideReg (hides v t s))
    else none

/-! ## MEM and BWR (Tables 2, 6 to 9 and 11 to 16 of chapter 07) -/

def memReg (o : Nat) (s : State) : Option Reg :=
  let m := s.mem
  match o with
  | 0x00 => some (plainReg [ros 16 16 m.violCnt, w1c 2 m.ce (modMem (fun m => { m with ce := false })),
      w1c 1 m.ue (modMem (fun m => { m with ue := false })), w1c 0 m.viol (modMem (fun m => { m with viol := false }))])
  | 0x08 => some (plainReg [ros 16 16 m.sfxDrop, ros 0 16 m.npfDrop])
  | 0x10 => some (roReg (m.violAddr % 2 ^ 32))
  | 0x14 => some (roReg (m.violWord + m.violAddr / 2 ^ 32 % 65536))
  | _ =>
    let k := (o - 0x100) / 0x10
    let e := m.ecc.getD k EccSt.zero
    if o < 0x100 || s.nHbm ≤ k then none
    else match o % 0x10 with
      | 0x0 => some (plainReg [ros 16 16 e.ue, ros 0 16 e.ce])
      | 0x4 => some (plainReg [ros 8 8 e.soft, ros 0 8 (spareLeft s k)])
      | _ => none

def modBwr (f : Bwr → Bwr) (s : State) : State := { s with bwr := f s.bwr }

/-- Change BWR_LABELk: STREAM, PRIO, CALLOC. -/
def setLabel (k : Nat) (f : Bool × Nat × Bool → Bool × Nat × Bool) (s : State) : State :=
  modBwr (fun b => { b with labels := b.labels.set k (f (s.label k)) }) s

/-- BWR_Tnn_CFG: CSHARE and WEIGHT. -/
def setBwrCfg (t : Nat) (f : Nat × Nat → Nat × Nat) (s : State) : State :=
  modBwr (fun b => { b with cfg := b.cfg.set t (f (b.cfg.getD t (16, 16))) }) s

def bwrTen (t o : Nat) (s : State) : Option Reg :=
  let c := s.bwr.cfg.getD t (16, 16)
  let n := s.bwr.beats.getD t 0
  match o with
  | 0x0 => some (checked (fun w => bits w 0 8 == 0 || decide (1024 < bits w 16 11))
      [rw 16 11 c.1 (fun n => setBwrCfg t (fun c => (n, c.2))), rw 0 8 c.2 (fun n => setBwrCfg t (fun c => (c.1, n)))])
  | 0x4 => some (latchReg [ro 0 32 n]
      (modBwr (fun b => { b with beatsHi := b.beatsHi.set t (b.beats.getD t 0 / 2 ^ 32) })))
  | 0x8 => some (roReg (s.bwr.beatsHi.getD t 0))
  | 0xC => some (satReg (s.bwr.lim.getD t 0))
  | _ => none

def bwrReg (v : Viewer) (o : Nat) (s : State) : Option Reg :=
  let b := s.bwr
  match o with
  | 0x0 => some (checked (fun w => decide (bits w 16 8 < 2) || decide (100 < bits w 16 8) || bits w 8 8 == 0
        || decide (bits w 16 8 ≤ bits w 8 8))
      [rwl 16 8 b.qhi b.lock (fun n => modBwr (fun b => { b with qhi := n })),
       rwl 8 8 b.qlo b.lock (fun n => modBwr (fun b => { b with qlo := n })),
       rwl 1 1 (b2n b.lock) b.lock (fun n => modBwr (fun b => { b with lock := n == 1 }))])
  | 0x4 => some (plainReg [ros 16 16 b.cbudget, ros 0 16 b.iso])
  | 0x8 => some (plainReg [ro 8 8 b.limited, ro 0 8 b.qavg])
  | _ =>
    if 0x40 ≤ o && o < 0x80 && o % 4 == 0 then
      let k := (o - 0x40) / 4
      let l := s.label k
      some (plainReg [rw 3 1 (b2n l.1) (fun n => setLabel k (fun l => (n == 1, l.2))),
        rw 1 2 l.2.1 (fun n => setLabel k (fun l => (l.1, n, l.2.2))),
        rw 0 1 (b2n l.2.2) (fun n => setLabel k (fun l => (l.1, l.2.1, n == 1)))])
    else if 0x1000 ≤ o && o < 0x1400 then
      let t := (o - 0x1000) / 0x10
      (bwrTen t (o % 0x10) s).map (hideReg (hides v t s))
    else none

/-! ## SNS (Tables 2, 3, 8 to 11 of chapter 08) -/

/-- SNS_TNOW_FR at this moment. -/
def tnowFr (s : State) : Nat :=
  fld (b2n (s.time.active == 3)) 17 1 + fld (b2n s.clk.hold) 16 1 + fld (s.time.frac / 65536) 0 16

/-- A read of SNS_TNOW_LO latches the other two words. -/
def latchTnow (s : State) : State :=
  { s with time := { s.time with latHi := s.time.ns / 2 ^ 32 % 2 ^ 32, latFr := tnowFr s } }

def tstatWord (s0 : State) : Reg :=
  let s := servo s0
  plainReg [ro 16 16 (ofInt 16 (satInt 16 (s.time.rate / 4096))), ros 8 8 s.time.switches, ro 4 1 (b2n (slewing s)),
    ro 3 1 (b2n s.clk.hold), ro 2 1 (b2n (s.time.active == 3)), ro 0 2 s.time.active]

def domReg (d : Dom) (ofs : Bool) : Reg :=
  if ofs then roReg (ofInt 32 (satInt 32 d.offset))
  else plainReg [ros 24 8 d.gmchg, ro 16 8 d.domNum, ro 8 4 d.mac, ro 1 1 (b2n d.valid), ro 0 1 (b2n d.enabled)]

def ctxReg (v : Viewer) (k o : Nat) (s : State) : Option Reg :=
  let c := s.ctxs.get? k
  let l := s.ctxLeft.getD k ⟨0, 0, 0, 0⟩
  let hid := match c with
    | some c => hides v c.tenant s
    | none => false
  match o with
  | 0x0 => some (hideReg hid (match c with
      | some c => plainReg [ros 16 16 c.truncs, ros 8 8 c.stalls, ro 4 1 (b2n c.unit.isSome), ro 3 1 (b2n c.started),
          ro 0 3 c.st.code]
      | none => plainReg [ros 16 16 l.truncs, ros 8 8 l.stalls]))
  | 0x4 => some (hideReg hid (match c with
      | some c => plainReg [ros 16 16 c.drops, ros 0 16 c.discards]
      | none => plainReg [ros 16 16 l.drops, ros 0 16 l.discards]))
  | _ => none

def snsReg (v : Viewer) (o : Nat) (s : State) : Option Reg :=
  match o with
  | 0x00 => some (latchReg [ro 0 32 s.time.ns] latchTnow)
  | 0x04 => some (roReg s.time.latHi)
  | 0x08 => some (roReg s.time.latFr)
  | 0x10 => some (tstatWord s)
  | 0x20 => some (domReg s.time.d0 false)
  | 0x24 => some (domReg s.time.d0 true)
  | 0x28 => some (domReg s.time.d1 false)
  | 0x2C => some (domReg s.time.d1 true)
  | _ =>
    let k := (o - 0x1000) / 0x10
    if o < 0x1000 || s.nStreams ≤ k then none else ctxReg v k (o % 0x10) s

/-! ## FUS (Tables 11 to 15 of chapter 09) -/

def fusReg (v : Viewer) (n o : Nat) (s : State) : Option Reg :=
  match s.fctxs.get? n with
  | none =>
    let l := s.fclosed.getD n ⟨0, 0, 0, 0⟩
    match o with
    | 0x0 => some (roReg 0)
    | 0x4 => some (roReg l.gen)
    | 0x8 => some (plainReg [ros 16 16 l.ncont, ro 0 13 l.tracks])
    | _ => none
  | some c =>
    let hid := hides v c.tenant s
    match o with
    | 0x0 => some (hideReg hid (plainReg [ro 24 8 c.tenant,
        ro 3 1 (b2n (c.sensors.any (fun i _ => ctxBound c c.st i))), ro 2 1 (b2n (!c.pend.isEmpty)),
        ro 1 1 (b2n (fusBusy s n)), ro 0 1 1]))
    | 0x4 => some (hideReg hid (roReg c.gen))
    | 0x8 => some (hideReg hid (plainReg [ros 16 16 c.st.ncont, ro 0 13 c.st.tracks.length]))
    | _ => none

def mapReg (v : Viewer) (k o : Nat) (s : State) : Option Reg :=
  let m := s.map k
  let hid := match s.ctxs.get? k with
    | some c => hides v c.tenant s
    | none => false
  match o with
  | 0x0 => some (hideReg hid (plainReg [ros 16 16 m.unsyncs, ro 8 8 m.pairs.length, ro 0 2 m.mst]))
  | 0x4 => some (hideReg hid (satReg m.maperr))
  | _ => none

def fusBlock (v : Viewer) (o : Nat) (s : State) : Option Reg :=
  if o < 0x80 then fusReg v (o / 0x20) (o % 0x20) s
  else
    let k := (o - 0x1000) / 0x10
    if o < 0x1000 || s.nStreams ≤ k then none else mapReg v k (o % 0x10) s

/-! ## RAS (Tables 10 to 12, 14 and 15 of chapter 10) -/

def modRas (f : RasSt → RasSt) (s : State) : State := { s with ras := f s.ras }

def rcReg (v : Viewer) (n o : Nat) (s : State) : Option Reg :=
  match s.rctxs.get? n with
  | none =>
    let k := s.ras.counts.getD n (0, 0)
    match o with
    | 0x0 => some (roReg 0)
    | 0x4 => some (plainReg [ros 16 16 k.1, ro 0 16 k.2])
    | _ => none
  | some c =>
    let hid := hides v c.tenant s
    match o with
    | 0x0 => some (hideReg hid (plainReg [ro 24 8 c.tenant,
        ro 3 1 (match c.running with
          | some r => b2n (passHeld s r.pass)
          | none => 0),
        ro 2 1 (b2n c.running.isSome), ro 1 1 (b2n (c.running.isSome || rasWaits s n)), ro 0 1 1]))
    | 0x4 => some (hideReg hid (plainReg [ros 16 16 c.flushes, ro 0 16 c.passes]))
    | _ => none

def modDisp (d : Nat) (f : Disp → Disp) (s : State) : State := { s with disps := s.disps.set d (f (s.disp d)) }

def dispReg (v : Viewer) (d o : Nat) (s : State) : Option Reg :=
  let x := s.disp d
  let hid := match x.owner with
    | some t => hides v t s
    | none => false
  match o with
  | 0x0 => some (hideReg hid (plainReg [ro 24 8 (x.owner.getD 0), ros 8 16 x.flipSkip,
      w1c 4 x.underrun (modDisp d (fun x => { x with underrun := false })), ro 3 1 (b2n x.hpd), ro 0 3 x.st]))
  | 0x4 => some (hideReg hid (plainReg [ros 16 16 x.underruns, ro 0 16 x.frames]))
  | _ => none

def rasReg (v : Viewer) (o : Nat) (s : State) : Option Reg :=
  if o < 0x200 then rcReg v (o / 0x20) (o % 0x20) s
  else if o = 0x400 then
    some (plainReg [ros 16 16 s.ras.nfprim, w1c 1 s.ras.rtlock (modRas (fun r => { r with rtlock := false })),
      w1c 0 s.ras.nonres (modRas (fun r => { r with nonres := false }))])
  else
    let d := (o - 0x800) / 0x20
    if o < 0x800 || s.nDisp ≤ d then none else dispReg v d (o % 0x20) s

/-! ## CTL (Tables 9 to 11 and 13 of chapter 11) -/

def ceReg (v : Viewer) (e o : Nat) (s : State) : Option Reg :=
  let x := s.ce e
  let hid := match x.owner with
    | some t => hides v t s
    | none => false
  match o with
  | 0x0 => some (hideReg hid (plainReg [ro 24 8 (x.owner.getD 0xFF), ro 16 8 (x.loops.count (fun _ l => l.st == 1)),
      ro 8 2 x.trace.st, w1c 0 x.trip (fun s => s.setCe e { s.ce e with trip := false })]))
  | 0x4 => some (hideReg hid (plainReg [ros 16 16 x.late, ros 0 16 x.trips]))
  | _ => none

/-- A fault flag is cleared unless its cause persists (R306). -/
def sdReg (v : Viewer) (c o : Nat) (s : State) : Option Reg :=
  let x := s.sd c
  let hid := match x.owner with
    | some t => hides v t s
    | none => false
  match o with
  | 0x0 => some (hideReg hid (plainReg [ros 16 16 x.errs,
      w1c 1 x.fault (fun s => if (s.sd c).bad then s else { s with sds := s.sds.set c { s.sd c with fault := false } }),
      ro 0 1 (b2n x.owner.isSome)]))
  | _ => none

def encReg (v : Viewer) (c o : Nat) (s : State) : Option Reg :=
  let x := s.enc c
  let hid := match x.owner with
    | some t => hides v t s
    | none => false
  match o with
  | 0x0 => some (hideReg hid (plainReg [ros 16 16 x.errs, ro 8 1 (b2n x.homed),
      w1c 1 x.fault (fun s => if (s.enc c).bad then s else { s with encs := s.encs.set c { s.enc c with fault := false } }),
      ro 0 1 (b2n x.owner.isSome)]))
  | 0x4 => some (hideReg hid (roReg (ofInt 32 (x.hist.headD 0))))
  | 0x8 => some (hideReg hid (plainReg [ro 24 8 x.slowId, ro 19 1 (b2n x.slowEnh), ro 0 16 x.slowData]))
  | _ => none

def ctlReg (v : Viewer) (o : Nat) (s : State) : Option Reg :=
  if o < 0x1000 then (if s.nCe ≤ o / 0x100 then none else ceReg v (o / 0x100) (o % 0x100) s)
  else if 0x2000 ≤ o && o < 0x3000 then
    let c := (o - 0x2000) / 0x10
    if 16 * s.edies ≤ c then none else sdReg v c (o % 0x10) s
  else if 0x3000 ≤ o && o < 0x4000 then
    let c := (o - 0x3000) / 0x10
    if 8 * s.edies ≤ c then none else encReg v c (o % 0x10) s
  else none

/-! ## SKK (Tables 8 to 13 of chapter 12) -/

/-- SKK_STATUS; the pins read back as they are driven (a level that differs latches SAFE, R331). -/
def skkStatus (s : State) : Reg :=
  let k := s.skk
  plainReg [ro 24 8 k.cause, ros 16 8 s.nLapsed, ro 8 1 (b2n k.sweepDone), ro 7 1 (b2n s.safeP),
    ro 6 1 (b2n s.safeN), ro 5 1 (b2n (!s.deasserted)), ro 4 1 (b2n k.armed), ro 3 1 (b2n s.duplex),
    ro 2 1 (b2n k.chkrun), ro 1 1 (b2n k.debug), ro 0 1 (b2n k.latched)]

/-- HBMS and SKWDT_MS are from 1 to 100. -/
def badMs (n : Nat) : Bool := n == 0 || decide (100 < n)

def skkReg (v : Viewer) (o : Nat) (s : State) : Option Reg :=
  let k := s.skk
  match o with
  | 0x00 => some (skkStatus s)
  | 0x04 => some { checked (fun w => badMs (bits w 24 8) || badMs (bits w 16 8))
      [rwl 24 8 k.hbms k.lock (fun n => modSkk (fun k => { k with hbms := n })),
       rwl 16 8 k.skwdt k.lock (fun n => modSkk (fun k => { k with skwdt := n })),
       rwl 3 1 (b2n k.pclock) k.lock (fun n => modSkk (fun k => { k with pclock := n == 1 })),
       rwl 2 1 (b2n k.lapseLatch) k.lock (fun n => modSkk (fun k => { k with lapseLatch := n == 1 })),
       rwl 1 1 (b2n k.lock) k.lock (fun n => modSkk (fun k => { k with lock := n == 1 }))] with
      denyAll := v.port == .hp0 && !v.secure }
  | 0x08 => some (plainReg [ros 16 16 k.mismatch, ros 0 16 k.failfr])
  | 0x0C => some (plainReg [ro 24 3 s.larder.map.skink, ros 16 8 k.dissC, ros 8 8 k.dissB, ros 0 8 k.dissA])
  | 0x10 => some (roReg (bistWord k))
  | 0x14 => some (latchReg [ro 0 32 k.ltime] (modSkk (fun k => { k with ltimeHi := k.ltime / 2 ^ 32 % 2 ^ 32 })))
  | 0x18 => some (roReg k.ltimeHi)
  | 0x1C =>
    let hid := match s.progs.get? k.lprog with
      | some p => hides v p.tenant s
      | none => false
    some (plainReg [ro 16 16 (if hid then 0 else k.lprog), ro 8 8 k.ldetail, ro 0 8 k.cause])
  | _ => none

/-! ## FWS (Tables 8 to 12 of chapter 13) -/

/-- A watchdog limit is from 1 to 1,000 ms. -/
def badWdt (n : Nat) : Bool := n == 0 || decide (1000 < n)

def wdtReg (v : Viewer) (hi lo : Nat) (putHi putLo : Nat → Fws → Fws) : Reg :=
  { checked (fun w => badWdt (bits w 16 10) || badWdt (bits w 0 10))
      [rw 16 10 hi (fun n => modFws (putHi n)), rw 0 10 lo (fun n => modFws (putLo n))] with denyAll := !v.secure }

/-- Clearing an invasive enable detaches the debugger from that world's contexts (R362). -/
def detach (secure : Bool) (f : Fws) : Fws := { f with attached := f.attached.filter (fun a => a.2.2 != secure) }

def dbgenReg (v : Viewer) (s : State) : Reg :=
  let f := s.fws
  let secOnly := fun (r : RField) => { r with deny := !v.secure }
  let normal := fun (r : RField) => { r with deny := !v.secure && !f.allowNs }
  plainReg [
    secOnly (rwl 17 1 (b2n f.lockS) f.lockS (fun n => modFws (fun f => { f with lockS := n == 1 }))),
    rwl 16 1 (b2n f.lockNs) f.lockNs (fun n => modFws (fun f => { f with lockNs := n == 1 })),
    secOnly (rwl 8 1 (b2n f.allowNs) f.lockS (fun n => modFws (fun f => { f with allowNs := n == 1 }))),
    secOnly (rwl 3 1 (b2n (f.sid && !s.part.fdisSid)) f.lockS (fun n => modFws (fun f =>
      if n == 1 then { f with sid := true } else detach true { f with sid := false }))),
    secOnly (rwl 2 1 (b2n f.snid) f.lockS (fun n => modFws (fun f => { f with snid := n == 1 }))),
    normal (rwl 1 1 (b2n (f.nsid && !s.part.fdisNsid)) f.lockNs (fun n => modFws (fun f =>
      if n == 1 then { f with nsid := true } else detach false { f with nsid := false }))),
    normal (rwl 0 1 (b2n f.nsnid) f.lockNs (fun n => modFws (fun f => { f with nsnid := n == 1 })))]

def fwsReg (v : Viewer) (o : Nat) (s : State) : Option Reg :=
  let f := s.fws
  match o with
  | 0x00 => some (roReg (fwsInfo s))
  | 0x04 => some (roReg (fwsSvn s))
  | 0x10 => some (wdtReg v f.pmcMs f.schMs (fun n f => { f with pmcMs := n }) (fun n f => { f with schMs := n }))
  | 0x14 => some (wdtReg v f.secMs f.cccMs (fun n f => { f with secMs := n }) (fun n f => { f with cccMs := n }))
  | 0x18 => some (plainReg [ros 24 8 f.rstSec, ros 16 8 f.rstPmc, ros 8 8 f.rstSch, ros 0 8 (f.rstCcc.sum (fun _ n => n))])
  | 0x20 => some (dbgenReg v s)
  | _ => none

/-! ## GWY and CHN (Tables 8 to 14 of chapter 14) -/

def gwyReg (v : Viewer) (o : Nat) (s : State) : Option Reg :=
  let g := s.gwy
  let hid := hides v (g.e1 % 256) s
  match o with
  | 0x00 => some (plainReg [ros 16 16 g.pwerrCnt, w1c 1 g.noroute (modGwy (fun g => { g with noroute := false })),
      w1c 0 g.pwerr (modGwy (fun g => { g with pwerr := false }))])
  | 0x04 => some (plainReg [ros 16 16 g.norouteCnt, ros 0 16 g.drops])
  | 0x10 => some (hideReg hid (roReg g.e0))
  | 0x14 => some (hideReg hid (roReg g.e1))
  | 0x18 => some (hideReg hid (plainReg [ro 0 13 g.e2]))
  | _ => none

def slReg (p o : Nat) (s : State) : Option Reg :=
  let l := s.sl p
  match o with
  | 0x0 => some (plainReg [ro 20 12 l.peerId, ro 15 5 l.lanes, ro 8 4 l.width, ro 0 3 l.lstate])
  | 0x4 => some (plainReg [ros 16 16 l.replays, ros 0 16 l.dly])
  | 0x8 => some (plainReg [ros 16 16 l.corr, ros 0 16 l.uncorr])
  | _ => none

def chnReg (o : Nat) (s : State) : Option Reg :=
  let c := s.chn
  match o with
  | 0x0 => some (plainReg [ro 20 12 c.devid, ro 18 2 c.role, ro 3 13 c.members.cells.length, ro 0 3 c.st])
  | 0x4 => some (satReg c.lat)
  | _ =>
    let p := (o - 0x100) / 0x10
    if o < 0x100 || s.nSl ≤ p then none else slReg p (o % 0x10) s

/-! ## PWR (Tables 11 to 13 of chapter 01; 15 to 21 of chapter 15) -/

def modClk (f : Clk → Clk) (s : State) : State := { s with clk := f s.clk }

/-- PWR_CFG: a change of CAP or CAPMAX acts on the cap in force (R392, R395). -/
def pwrCfgReg (s : State) : Reg :=
  let w := s.pow
  { plainReg [
      rw 24 8 w.cap (fun n => withCap (modPow (fun w => { w with cap := n }))),
      rwl 16 8 w.capmax w.lockCfg (fun n => withCap (modPow (fun w => { w with capmax := n, cap := min w.cap n }))),
      rwl 8 2 w.dramRate w.lockCfg (fun n => modPow (fun w => { w with dramRate := n })),
      rwl 0 1 (b2n w.lockCfg) w.lockCfg (fun n => modPow (fun w => { w with lockCfg := n == 1 }))] with
    badWord := fun v => decide (bits v 16 8 < 6) || decide (s.part.variant.capW / 25 < bits v 16 8) || bits v 8 2 == 3
      || (bits v 24 8 != w.cap && (decide (bits v 24 8 < 6) || decide (bits v 16 8 < bits v 24 8))),
    stateBad := fun v => bits v 8 2 != w.dramRate && bits v 8 2 != 3
      && !(s.dev.st == .awaitFw || s.dev.st == .selfTest || s.dev.st == .ready) }

/-- PWR_FMEAS: of an island that is absent zero; after a write of PWR_FSEL, while VALID is 0, FREQ and MINPCT keep the values
of the selection before (DESIGN CHOICE, log 32: R36 states none). -/
def fmeasWord (s : State) : Nat :=
  let k := s.clk
  if islandHere s k.fselKind k.fselInst then fld (b2n k.fmValid) 31 1 + fld k.fmMinPct 16 8 + fld k.fmFreq 0 16 else 0

def pwrReg (o : Nat) (s : State) : Option Reg :=
  let w := s.pow
  let k := s.clk
  match o with
  | 0x000 => some (plainReg [ro 24 8 (capEff s), ro 16 8 w.f, ro 6 1 (b2n w.thermtrip), ro 5 1 (b2n (w.hot != 0)),
      ro 4 1 (b2n w.droop.isSome), w1c 3 w.fastlim (modPow (fun w => { w with fastlim := false })),
      ro 2 1 (bits (pwrStat s) 2 1), w1c 1 w.phaseflt (modPow (fun w => { w with phaseflt := false }))])
  | 0x004 => some (pwrCfgReg s)
  | 0x008 => some (roReg (pwrPin s))
  | 0x00C => some (latchReg [ro 0 32 (pwrPower s)] (modPow (fun w => { w with peak := 0 })))
  | 0x100 => some (checked (fun v => badMs (bits v 16 8)) [
      rwl 16 8 k.holdMs k.lock (fun n => modClk (fun k => { k with holdMs := n })),
      rwl 8 1 (b2n k.lock) k.lock (fun n => modClk (fun k => { k with lock := n == 1 })),
      ro 2 1 (b2n k.hold), w1c 1 k.refLost (modClk (fun k => { k with refLost := false })), ro 0 1 (b2n k.refOk)])
  | 0x110 => some { plainReg [rw 8 4 k.fselKind (fun n => modClk (fun k => { k with fselKind := n })),
      rw 0 8 k.fselInst (fun n => modClk (fun k => { k with fselInst := n }))] with
      onWrite := modClk (fun k => { k with fmValid := false, fmArmed := false }) }
  | 0x114 => some (roReg (fmeasWord s))
  | 0x200 => some (checked (fun v => decide (bits v 0 8 < 0x5A) || decide (0x78 < bits v 0 8)) [
      rwl 8 1 (b2n w.lockDroop) w.lockDroop (fun n => modPow (fun w => { w with lockDroop := n == 1 })),
      rwl 0 8 w.droopV w.lockDroop (fun n => modPow (fun w => { w with droopV := n }))])
  | 0x204 => some (plainReg [ros 16 16 w.vdroops, ros 0 16 w.rdroops])
  | 0x300 => some (checked (fun v => decide (bits v 0 8 < 85) || decide (110 < bits v 0 8)) [
      rwl 8 1 (b2n w.lockT) w.lockT (fun n => modPow (fun w => { w with lockT := n == 1 })),
      rwl 0 8 w.tthrot w.lockT (fun n => modPow (fun w => { w with tthrot := n }))])
  | 0x304 => some (roReg (pwrTstat s))
  | 0x308 => some (roReg (pwrGstat s))
  | 0x400 => some (roReg (pwrSpare s))
  | 0x404 => some (roReg (pwrWear s))
  | _ => none

/-! ## Clusters (Tables 8 to 11 of chapter 03; 3 and 4 of chapter 05; 13 of chapter 10) -/

def clReg (n o : Nat) (s : State) : Option Reg :=
  let c := s.cl n
  match o with
  | 0x400 => some (plainReg [
      wo 31 (modCl n (fun c => { c with nonfinCnt := 0, qsatCnt := 0 })),
      w1c 4 c.nonfin (modCl n (fun c => { c with nonfin := false })),
      w1c 3 c.ocsat (modCl n (fun c => { c with ocsat := false })),
      w1c 2 c.accsat (modCl n (fun c => { c with accsat := false })),
      w1c 1 c.qsat (modCl n (fun c => { c with qsat := false })),
      w1c 0 c.skew (modCl n (fun c => { c with skew := false }))])
  | 0x404 => some (plainReg [ros 16 16 c.nonfinCnt, ros 0 16 c.qsatCnt])
  | 0x408 => some (plainReg [ro 16 16 c.scaleTag, ro 0 16 c.dataTag])
  | 0x40C => some (plainReg [ro 16 16 c.expTag, ro 12 4 c.skTile, ro 10 2 c.skDma, ro 9 1 (b2n c.skGen),
      ro 8 1 (b2n c.skFmt)])
  | 0x420 => some (plainReg [wo 31 (modCl n (fun c => { c with haloDw := 0, haloSw := 0 })),
      w1c 0 c.stale (modCl n (fun c => { c with stale := false }))])
  | 0x424 => some (satReg c.haloDw)
  | 0x428 => some (satReg c.haloSw)
  | 0x430 => some (satReg c.nonres)
  | _ => none

/-! ## The map (Table 6 of chapter 00) -/

/-- The register at an address as a session sees it; none where the address is unassigned or its instance is
absent (R3, R67). -/
def regAt (v : Viewer) (a : Nat) (s : State) : Option Reg :=
  if 0x01000000 ≤ a then
    (if a < 0x01C00000 then clReg ((a - 0x01000000) / 0x100000) (a % 0x100000) s else none)
  else match a / 0x100000 with
    | 0x0 => if a < 0x10000 then idsReg a s else cmdReg (a - 0x10000) s
    | 0x1 => schReg v (a % 0x100000) s
    | 0x2 => memReg (a % 0x100000) s
    | 0x3 => bwrReg v (a % 0x100000) s
    | 0x4 => snsReg v (a % 0x100000) s
    | 0x5 => fusBlock v (a % 0x100000) s
    | 0x6 => rasReg v (a % 0x100000) s
    | 0x7 => ctlReg v (a % 0x100000) s
    | 0x8 => skkReg v (a % 0x100000) s
    | 0x9 => fwsReg v (a % 0x100000) s
    | 0xA => gwyReg v (a % 0x100000) s
    | 0xB => chnReg (a % 0x100000) s
    | 0xC => pwrReg (a % 0x100000) s
    | _ => none

end Sys2Proof.Machine
end

