-- ==== Sys2Proof/Machine/RegCmds.lean ====
section
/-! DEFINITION. The register commands (R41, R67, R361, R363) and the rows that name one register access. -/

namespace Sys2Proof.Machine

open Sys2Proof

/-- The session of a packet as the register map sees it. -/
def viewer (h : Hdr) (s : State) : Viewer := ⟨h.port, (s.port h.port).secure⟩

/-- Every word is an assigned register of a present instance (R67). -/
def wordsOk (v : Viewer) (a n : Nat) (s : State) : Bool :=
  a % 4 == 0 && (wordAddrs a n).all (fun x => (regAt v x s).isSome)

/-- Read words in order: each read sees what the earlier ones latched. -/
def readWords (v : Viewer) : List Nat → State → List Byte × State
  | [], s => ([], s)
  | a :: t, s =>
    match regAt v a s with
    | none => readWords v t s
    | some r =>
      let x := readWords v t (r.onRead s)
      (leBytes 4 r.word ++ x.1, x.2)

def cRegRead : Cmd := { Cmd.hw with
  opcode := 0x0110, lenOk := fun ps => ps.length == 8, maxReply := 1024,
  paramOk := fun h ps s => 1 ≤ regCount ps && regCount ps ≤ 256 && zeroAt ps 6 2
    && wordsOk (viewer h s) (u32 ps 0) (regCount ps) s,
  data := fun h ps s => (readWords (viewer h s) (wordAddrs (u32 ps 0) (regCount ps)) s).1,
  effect := fun _ h ps s => (readWords (viewer h s) (wordAddrs (u32 ps 0) (regCount ps)) s).2 }

def execRegRead (h : Hdr) (ps : List Byte) (s : State) : Host.Outcome State Fault Refusal := cRegRead.exec h ps s

/-! ## Writes -/

/-- A test on the register that a word names, false where it names none. -/
def WordWrite.test (v : Viewer) (f : Reg → Nat → Nat → Bool) (s : State) (w : WordWrite) : Bool :=
  match regAt v w.addr s with
  | some r => f r w.mask w.val
  | none => false

/-- A word that the change journal records (R361, R220, R408). -/
def recorded (full : Bool) (a : Nat) (r : Reg) (mask v : Nat) : Bool :=
  !unjournaledBlock a && (r.journaled mask v || inPwr a || (full && inBwr a))

/-- The words can be judged: every address is aligned and assigned (R50). -/
def writesOk (v : Viewer) (l : List WordWrite) (s : State) : Bool :=
  l.all (fun w => w.addr % 4 == 0 && (regAt v w.addr s).isSome)

/-- Step 6: the port, then what any word may not change, where it can be judged (R41, R13, R363). -/
def writesDenied (full : Bool) (h : Hdr) (l : List WordWrite) (s : State) : Bool :=
  (h.port == .hp1 && l.any (fun w => !inSkk w.addr))
    || (writesOk (viewer h s) l s && l.any (WordWrite.test (viewer h s) (Reg.denied full) s))

/-- Step 7: the blocks writable before READY, and words that the present state refuses, where the addresses can be
judged (R50). -/
def writesState (h : Hdr) (l : List WordWrite) (s : State) : Bool :=
  !writesOk (viewer h s) l s
    || (!((s.dev.st == .awaitFw || s.dev.st == .selfTest) && l.any (fun w => !earlyBlock w.addr))
        && !l.any (WordWrite.test (viewer h s) Reg.badState s))

/-- Step 8: addresses and values. -/
def writesParam (h : Hdr) (l : List WordWrite) (s : State) : Bool :=
  writesOk (viewer h s) l s && !l.any (WordWrite.test (viewer h s) Reg.bad s)

def writesEntries (full : Bool) (h : Hdr) (l : List WordWrite) (s : State) : Nat :=
  (l.filter (fun w => WordWrite.test (viewer h s) (recorded full w.addr) s w)).length

/-- The word at an address. -/
def wordAt (v : Viewer) (a : Nat) (s : State) : Nat :=
  match regAt v a s with
  | some r => r.word
  | none => 0

/-- Write one word, with its journal entry. -/
def writeWord (full : Bool) (h : Hdr) (s : State) (w : WordWrite) : State :=
  match regAt (viewer h s) w.addr s with
  | none => s
  | some r =>
    let n := r.write w.mask w.val s
    if recorded full w.addr r w.mask w.val then
      journalCmd h (if full then 0x0111 else 0x0112) w.addr (wordAt (viewer h s) w.addr n) n
    else n

def cRegWrite : Cmd := { Cmd.hw with
  opcode := 0x0111, lenOk := fun ps => decide (8 ≤ ps.length) && ps.length == 8 + 4 * regCount ps,
  denied := fun h ps s => (h.port == .hp1 && !inSkk (u32 ps 0)) || writesDenied true h (writesOf ps) s,
  stateOk := fun h ps s => writesState h (writesOf ps) s,
  paramOk := fun h ps s => 1 ≤ regCount ps && regCount ps ≤ 256 && zeroAt ps 6 2 && writesParam h (writesOf ps) s,
  entries := fun h ps s => writesEntries true h (writesOf ps) s,
  effect := fun _ h ps s => (writesOf ps).foldl (writeWord true h) s }

def execRegWrite (h : Hdr) (ps : List Byte) (s : State) : Host.Outcome State Fault Refusal := cRegWrite.exec h ps s

def cRegModify : Cmd := { Cmd.hw with
  opcode := 0x0112, lenOk := fun ps => ps.length == 12, maxReply := 4,
  denied := fun h ps s => writesDenied false h [modifyOf ps] s,
  stateOk := fun h ps s => writesState h [modifyOf ps] s,
  paramOk := fun h ps s => writesParam h [modifyOf ps] s,
  entries := fun h ps s => writesEntries false h [modifyOf ps] s,
  data := fun h ps s => leBytes 4 (wordAt (viewer h s) (u32 ps 0) (writeWord false h s (modifyOf ps))),
  effect := fun _ h ps s => writeWord false h s (modifyOf ps) }

def execRegModify (h : Hdr) (ps : List Byte) (s : State) : Host.Outcome State Fault Refusal := cRegModify.exec h ps s

/-! ## Rows that are one register access -/

/-- ETLC_LO (`word` 0) or ETBE_LO. -/
def execLoWordRead (h : Hdr) (tenant word : Nat) (s : State) : Host.Outcome State Fault Refusal :=
  cRegRead.exec h (readPs (schTen tenant + (if word = 0 then 0x00 else 0x08))) s

def execSchTnnActlClr (h : Hdr) (tenant : Nat) (s : State) : Host.Outcome State Fault Refusal :=
  cRegWrite.exec h (writePs (schTen tenant + 0x1C) 1) s

def execSchEpochLoRead (h : Hdr) (s : State) : Host.Outcome State Fault Refusal := cRegRead.exec h (readPs 0x00100030) s

def execBwrTnnBloRead (h : Hdr) (tenant : Nat) (s : State) : Host.Outcome State Fault Refusal :=
  cRegRead.exec h (readPs (0x00301000 + tenant * 0x10 + 0x4)) s

def execSnsTnowLoRead (h : Hdr) (s : State) : Host.Outcome State Fault Refusal := cRegRead.exec h (readPs 0x00400000) s

def execSkkLtimeLoRead (h : Hdr) (s : State) : Host.Outcome State Fault Refusal := cRegRead.exec h (readPs 0x00800014) s

/-- A W1C write of FAULT of a sigma-delta or encoder channel (R306). -/
def execChannelFaultClear (h : Hdr) (isEnc : Bool) (ch : Nat) (s : State) : Host.Outcome State Fault Refusal :=
  cRegModify.exec h (modPs (chanStat isEnc ch) 2 2) s

def execFwsDbgenWrite (h : Hdr) (v : Nat) (s : State) : Host.Outcome State Fault Refusal :=
  cRegWrite.exec h (writePs 0x00900020 v) s

def execPwrFselWrite (h : Hdr) (v : Nat) (s : State) : Host.Outcome State Fault Refusal :=
  cRegWrite.exec h (writePs 0x00C00110 v) s

/-- A write of CAP, CAPMAX or DRAMRATE alone. -/
def execPwrCfgCap (h : Hdr) (v : Nat) (s : State) : Host.Outcome State Fault Refusal :=
  cRegModify.exec h (modPs 0x00C00004 0xFF000000 (fld v 24 8)) s

def execPwrCfgCapmax (h : Hdr) (v : Nat) (s : State) : Host.Outcome State Fault Refusal :=
  cRegModify.exec h (modPs 0x00C00004 0x00FF0000 (fld v 16 8)) s

def execPwrCfgDramrate (h : Hdr) (v : Nat) (s : State) : Host.Outcome State Fault Refusal :=
  cRegModify.exec h (modPs 0x00C00004 0x00000300 (fld v 8 2)) s

def execPwrPowerRead (h : Hdr) (s : State) : Host.Outcome State Fault Refusal := cRegRead.exec h (readPs 0x00C0000C) s

def execClrcntWrite (h : Hdr) (cl : Nat) (s : State) : Host.Outcome State Fault Refusal :=
  cRegModify.exec h (modPs (clBase cl + 0x400) 0x80000000 0x80000000) s

def execHalostatClrwait (h : Hdr) (cl : Nat) (s : State) : Host.Outcome State Fault Refusal :=
  cRegModify.exec h (modPs (clBase cl + 0x420) 0x80000000 0x80000000) s

end Sys2Proof.Machine
end

