-- ==== Sys2Proof/Machine/Wire.lean ====
section
/-! DEFINITION. The wire of a host port: its four transactions (R42 to R45), parsing, admission and checks of command
packets (R46, R50, R52), and EV_LOST (R68). -/

namespace Sys2Proof.Machine

open Sys2Proof

/-- Every command, by group (the command tables of all chapters). -/
def cmdTable : List Cmd :=
  [cSessionOpen, cSessionClose, cNop, cDevStart, cDevStop, cDevReset, cServiceEnter, cServiceExit, cRegRead, cRegWrite,
   cRegModify]
  ++ [cProgLoad, cProgFitcheck, cProgUnload, cProgReplace, cProgInfo, cWbankStatus, cWbankOpen, cWbankSubmit,
   cWbankAbandon]
  ++ [cTenantOpen, cTenantQuiesce, cTenantResume, cTenantReset, cTenantClose, cTenantStatus, cQueueCreate,
   cQueueDestroy, cQueueStatus, cQueueRings, cJobSubmit, cJobCancel, cJobStatus, cPartitionSet, cPartitionGet,
   cBatchJoin, cBatchLeave, cBatchStatus]
  ++ [cMemAssign, cMemRelease, cMemFlags, cMemQuery]
  ++ [cStreamOpen, cStreamClose, cStreamStart, cStreamStop, cStreamStatus, cTimeCfg, cTimeStatus, cTimeStep, cPulseArm,
   cPulseCancel, cCaptureCfg, cLaunchCfg]
  ++ [cFusMapCfg, cFusMapStatus, cFusOpen, cFusClose, cFusSensorSet, cFusCalibReset, cFusStatus, cFusSensorStatus]
  ++ [cRasOpen, cRasClose, cRasStatus, cDispCfg, cDispOff, cDispFlip, cDispStatus]
  ++ [cCtlAssign, cCtlBankWrite, cCtlBankRead, cCtlSwap, cCtlEnable, cCtlDisable, cCtlSetpt, cCtlStatus, cCtlIoCfg,
   cCtlTraceCfg, cCtlTraceDump]
  ++ [cSkkArm, cSkkProgCfg, cSkkProgStatus, cSkkSafeReq, cSkkMbox, cSkkGoldenNow, cSkkBistGet]
  ++ [cFwBegin, cFwChunk, cFwEnd, cFwInfo, cFwLogRead, cFwRestart, cFwSvnCommit, cFwSecChallenge, cFwSecProve,
   cFwSskSet, cFwAttest, cFwAttestCert, cFwJournalRead, cFwMcounter, cFwIntkeyBurn]
  ++ [cGwRouteSet, cGwRouteClear, cGwRouteGet, cGwRingCfg, cGwPortCfg, cGwIsoCfg, cChnCfg, cChnLeave, cChnStatus,
   cChnMembers, cChnEvict]
  ++ [cPwrStatus, cPwrGate, cPwrWearRead, cPwrRetire]

/-- The command of an opcode, where one has it. -/
def cmdOf (op : Nat) : Option Cmd := cmdTable.find? (fun c => c.opcode == op)

/-! ## The bytes of a transaction (R46, R50, R52) -/

/-- The packet header of Table 5 in the first ten bytes. -/
def headerOf (b : List Byte) (params : List Byte) (bad : Option Nat) : InPkt :=
  ⟨u16 b 0, u8 b 2, u8 b 3, u16 b 4, u16 b 8, params, bad⟩

/-- Space a packet's reply is reckoned at (R52). -/
def replySpace (op : Nat) : Nat :=
  max 16 (14 + (match cmdOf op with
    | some c => c.maxReply
    | none => 0))

/-- Packets in the rest of a transaction, as their LENGTH fields lay them out; each has its ten header bytes. -/
def countPkts : Nat → List Byte → Nat
  | 0, _ => 0
  | k + 1, b => if b.length < 10 then 0 else 1 + countPkts k (b.drop (14 + u16 b 6))

/-- Take the packets of a transaction into the input buffer: admission before every check, framing, then CRC; the
rest of the transaction is discarded after the first failure. `waiting` is the reply space of those taken before. -/
def takePkts : Nat → Nat → List Byte → PortSt → PortSt
  | 0, _, _, v => v
  | k + 1, waiting, b, v =>
    if b.length < 10 then v
    else
      let op := u16 b 0
      let len := u16 b 6
      if !(v.admits waiting (replySpace op - 14) len) then v.overflow (countPkts (k + 1) b)
      else if 4096 < len || b.length < 14 + len then
        { v with inb := v.inb ++ [headerOf b [] (some BAD_LENGTH)] }
      else if crc32c (b.take (10 + len)) != u32 b (10 + len) then
        { v with inb := v.inb ++ [headerOf b [] (some BAD_CRC)] }
      else
        takePkts k (waiting + replySpace op) (b.drop (14 + len))
          { v with inb := v.inb ++ [headerOf b (sub b 10 len) none] }

/-- The header of a packet taken. An internal inconsistency (R55) is reported by the rows of the commands alone (log 32). -/
def InPkt.hdr (p : Port) (k : InPkt) : Hdr :=
  ⟨p, BitVec.ofNat 8 k.tenant, BitVec.ofNat 8 k.queue, BitVec.ofNat 16 k.tag, BitVec.ofNat 16 k.seq, false⟩

/-- A packet at its turn. -/
def runPkt (p : Port) (k : InPkt) (s : State) : State :=
  let h := k.hdr p
  match k.bad with
  | some st =>
    let s := replyOnly k.opcode h st [] s
    if st == BAD_CRC then
      modPort p (fun v => { v with crcerr := true, crcerrs := satAdd 0xFFFF v.crcerrs 1 }) s
    else s
  | none =>
    match cmdOf k.opcode with
    | some c => c.run h k.params s
    | none => runUnknown k.opcode h s

/-- The packets of the input buffer run in their order of arrival (R64). -/
def runPkts (p : Port) : List InPkt → State → State
  | [], s => s
  | k :: t, s => runPkts p t (runPkt p k (modPort p (fun v => { v with inb := k :: t }) s))

/-- The command phase of a transaction of a code (Table 2 of chapter 02): its second byte is the bitwise inverse of
the first. A transaction with another code in its first byte, or another second byte, is ignored whole (R42). -/
def phaseOk (code : Nat) (ph : CmdPhase) : Bool := ph.code.toNat == code && ph.inv == ~~~ph.code

/-- WRITE_PACKET: the data phase of a transaction. -/
def execWritePacket (p : Port) (ph : CmdPhase) (data : List Byte) (s : State) : Host.Outcome State Fault Refusal :=
  if !s.portsUp || !phaseOk 0x12 ph then .next s
  else
    let s := modPort p (takePkts data.length 0 data) s
    .next (modPort p (fun v => { v with inb := [] }) (runPkts p (s.port p).inb s))

/-! ## Reading (R44, Table 3 of chapter 02) -/

/-- Packets left after `n` bytes have been read, and how many bytes of the first of them were. -/
def readPkts : Nat → List OutPkt → List OutPkt × Nat
  | n, [] => ([], n)
  | n, o :: t => if o.len ≤ n then readPkts (n - o.len) t else (o :: t, n)

/-- READ_REPLY: `n` bytes are read; whole packets leave, then fill bytes follow. -/
def PortSt.readReply (n : Nat) (v : PortSt) : PortSt :=
  let r := readPkts n v.out
  { v with
    out := r.1,
    begun := !r.1.isEmpty && (decide (0 < r.2) || (v.begun && r.1.length == v.out.length)),
    dq := padTo n (v.out.flatMap OutPkt.bytes) }

def execReadReply (p : Port) (ph : CmdPhase) (n : Nat) (s : State) : Host.Outcome State Fault Refusal :=
  .next (if s.portsUp && phaseOk 0x13 ph then modPort p (PortSt.readReply n) s else s)

/-- The 8 bytes of READ_PORT_STATUS. -/
def portStatus (v : PortSt) : List Byte :=
  [0xA5] ++ leBytes 1 (b2n v.openS + 2 * b2n v.ovf + 4 * b2n (!v.out.isEmpty)) ++ leBytes 2 v.expSeq
    ++ leBytes 2 (inBuf - v.inb.foldl (fun a k => a + k.len) 0) ++ leBytes 2 (min 0xFFFF (pktBytes v.out))

def execReadPortStatus (p : Port) (ph : CmdPhase) (s : State) : Host.Outcome State Fault Refusal :=
  .next (if s.portsUp && phaseOk 0x05 ph then modPort p (fun v => { v with dq := portStatus v }) s else s)

/-- PORT_RESET (R45). -/
def PortSt.reset (v : PortSt) : PortSt :=
  { v.endSession with inb := [], out := [], begun := false, discards := 0, crcerrs := 0 }

def execPortReset (p : Port) (ph : CmdPhase) (s : State) : Host.Outcome State Fault Refusal :=
  .next (if s.portsUp && phaseOk 0xF0 ph then modPort p PortSt.reset s else s)

/-! ## EV_LOST (R68) -/

/-- Room has returned after discards: one EV_LOST. A count above its 2 bytes is a free value (log 9). -/
def execEvLost (p : Port) (s : State) : Host.Outcome State Fault Refusal :=
  let v := s.port p
  .next (if !v.openS || v.lostEv == 0 || !v.plainRoom 18 then s
    else
      let f := takeFree s
      let cnt := fun n => if n ≤ 0xFFFF then n else Config.freeNat f.1
      offer p evLostOp (leBytes 2 (cnt v.lostEv) ++ leBytes 2 (cnt v.lostSafety))
        (modPort p (fun v => { v with lostEv := 0, lostSafety := 0 }) f.2))

end Sys2Proof.Machine
end

