-- ==== Sys2Proof/Machine/Dispatch.lean ====
section
/-! DEFINITION. What every command does: one arm for each constructor of Instr. -/

namespace Sys2Proof.Machine

open Sys2Proof

/-- The effect of a command on everything but the queue of waiting commands. -/
def exec (i : Instr) (s : State) : Host.Outcome State Fault Refusal :=
  match i with
  | .writePacket p ph data => Sys2Proof.Machine.execWritePacket p ph data s
  | .readReply p ph n => Sys2Proof.Machine.execReadReply p ph n s
  | .readPortStatus p ph => Sys2Proof.Machine.execReadPortStatus p ph s
  | .portReset p ph => Sys2Proof.Machine.execPortReset p ph s
  | .sessionOpen h ps => Sys2Proof.Machine.execSessionOpen h ps s
  | .sessionClose h ps => Sys2Proof.Machine.execSessionClose h ps s
  | .nop h ps => Sys2Proof.Machine.execNop h ps s
  | .devStart h ps => Sys2Proof.Machine.execDevStart h ps s
  | .devStop h ps => Sys2Proof.Machine.execDevStop h ps s
  | .devStopComplete => Sys2Proof.Machine.execDevStopComplete s
  | .devReset h ps => Sys2Proof.Machine.execDevReset h ps s
  | .devResetInit => Sys2Proof.Machine.execDevResetInit s
  | .serviceEnter h ps => Sys2Proof.Machine.execServiceEnter h ps s
  | .serviceExit h ps => Sys2Proof.Machine.execServiceExit h ps s
  | .regRead h ps => Sys2Proof.Machine.execRegRead h ps s
  | .regWrite h ps => Sys2Proof.Machine.execRegWrite h ps s
  | .regModify h ps => Sys2Proof.Machine.execRegModify h ps s
  | .evLost p => Sys2Proof.Machine.execEvLost p s
  | .vinValid => Sys2Proof.Machine.execVinValid s
  | .vinLoss => Sys2Proof.Machine.execVinLoss s
  | .awaitFwEntry => Sys2Proof.Machine.execAwaitFwEntry s
  | .selfTestEnd fails => Sys2Proof.Machine.execSelfTestEnd fails s
  | .refInvalid missing range => Sys2Proof.Machine.execRefInvalid missing range s
  | .refRestored => Sys2Proof.Machine.execRefRestored s
  | .holdLimitExpiry => Sys2Proof.Machine.execHoldLimitExpiry s
  | .tenantOpen h ps => Sys2Proof.Machine.execTenantOpen h ps s
  | .tenantQuiesce h ps => Sys2Proof.Machine.execTenantQuiesce h ps s
  | .tenantQuiesceDrained t => Sys2Proof.Machine.execTenantQuiesceDrained t s
  | .tenantResume h ps => Sys2Proof.Machine.execTenantResume h ps s
  | .tenantReset h ps => Sys2Proof.Machine.execTenantReset h ps s
  | .tenantClose h ps => Sys2Proof.Machine.execTenantClose h ps s
  | .tenantCloseDrained t => Sys2Proof.Machine.execTenantCloseDrained t s
  | .tenantStatus h ps => Sys2Proof.Machine.execTenantStatus h ps s
  | .queueCreate h ps => Sys2Proof.Machine.execQueueCreate h ps s
  | .queueDestroy h ps => Sys2Proof.Machine.execQueueDestroy h ps s
  | .queueStatus h ps => Sys2Proof.Machine.execQueueStatus h ps s
  | .wbankStatus h ps => Sys2Proof.Machine.execWbankStatus h ps s
  | .wbankOpen h ps => Sys2Proof.Machine.execWbankOpen h ps s
  | .wbankSubmit h ps => Sys2Proof.Machine.execWbankSubmit h ps s
  | .wbankAbandon h ps => Sys2Proof.Machine.execWbankAbandon h ps s
  | .evalMsExpiry prog => Sys2Proof.Machine.execEvalMsExpiry prog s
  | .writeback job cl tile src conv dest => Sys2Proof.Machine.execWriteback job cl tile src conv dest s
  | .blockPairFetch cl fs => Sys2Proof.Machine.execBlockPairFetch cl fs s
  | .progLoad h ps => Sys2Proof.Machine.execProgLoad h ps s
  | .progLoadComplete n => Sys2Proof.Machine.execProgLoadComplete n s
  | .progFitcheck h ps => Sys2Proof.Machine.execProgFitcheck h ps s
  | .progUnload h ps => Sys2Proof.Machine.execProgUnload h ps s
  | .progUnloadDrained prog => Sys2Proof.Machine.execProgUnloadDrained prog s
  | .progReplace h ps => Sys2Proof.Machine.execProgReplace h ps s
  | .progReplaceDrained prog => Sys2Proof.Machine.execProgReplaceDrained prog s
  | .progReplaceSwitch prog => Sys2Proof.Machine.execProgReplaceSwitch prog s
  | .progInfo h ps => Sys2Proof.Machine.execProgInfo h ps s
  | .haloEntryWrite job idx copy step waitUs rows => Sys2Proof.Machine.execHaloEntryWrite job idx copy step waitUs rows s
  | .haloEntryRead job idx copy step waitUs unit off => Sys2Proof.Machine.execHaloEntryRead job idx copy step waitUs unit off s
  | .colanderCall job cl desc => Sys2Proof.Machine.execColanderCall job cl desc s
  | .colanderCallDone die => Sys2Proof.Machine.execColanderCallDone die s
  | .queueRings h ps => Sys2Proof.Machine.execQueueRings h ps s
  | .sqTailWrite w => Sys2Proof.Machine.execSqTailWrite w s
  | .cqHeadWrite w => Sys2Proof.Machine.execCqHeadWrite w s
  | .sqEntryTake tenant queue => Sys2Proof.Machine.execSqEntryTake tenant queue s
  | .jobSubmit h ps => Sys2Proof.Machine.execJobSubmit h ps s
  | .jobCancel h ps => Sys2Proof.Machine.execJobCancel h ps s
  | .jobStatus h ps => Sys2Proof.Machine.execJobStatus h ps s
  | .partitionSet h ps => Sys2Proof.Machine.execPartitionSet h ps s
  | .partitionGet h ps => Sys2Proof.Machine.execPartitionGet h ps s
  | .batchJoin h ps => Sys2Proof.Machine.execBatchJoin h ps s
  | .batchLeave h ps => Sys2Proof.Machine.execBatchLeave h ps s
  | .batchStatus h ps => Sys2Proof.Machine.execBatchStatus h ps s
  | .jobDispatch => Sys2Proof.Machine.execJobDispatch s
  | .yieldPointStop job tile reads writes => Sys2Proof.Machine.execYieldPointStop job tile reads writes s
  | .contextSaveDone job tile => Sys2Proof.Machine.execContextSaveDone job tile s
  | .jobResume => Sys2Proof.Machine.execJobResume s
  | .remoteReply job port tile token data => Sys2Proof.Machine.execRemoteReply job port tile token data s
  | .remoteWriteDone job token ok => Sys2Proof.Machine.execRemoteWriteDone job token ok s
  | .parkTimeout job token => Sys2Proof.Machine.execParkTimeout job token s
  | .tlimitExpiry job => Sys2Proof.Machine.execTlimitExpiry job s
  | .jobSlotsFinished job => Sys2Proof.Machine.execJobSlotsFinished job s
  | .loWordRead h tenant word => Sys2Proof.Machine.execLoWordRead h tenant word s
  | .schTnnActlClr h tenant => Sys2Proof.Machine.execSchTnnActlClr h tenant s
  | .schEpochLoRead h => Sys2Proof.Machine.execSchEpochLoRead h s
  | .dramTransaction src addr label op dst async err => Sys2Proof.Machine.execDramTransaction src addr label op dst async err s
  | .hostBar4Access ep addr op err => Sys2Proof.Machine.execHostBar4Access ep addr op err s
  | .patrolScrub errs => Sys2Proof.Machine.execPatrolScrub errs s
  | .memAssign h ps => Sys2Proof.Machine.execMemAssign h ps s
  | .memRelease h ps => Sys2Proof.Machine.execMemRelease h ps s
  | .memFlags h ps => Sys2Proof.Machine.execMemFlags h ps s
  | .memQuery h ps => Sys2Proof.Machine.execMemQuery h ps s
  | .memCommandDone n => Sys2Proof.Machine.execMemCommandDone n s
  | .bwrPeriod q iso dev tens => Sys2Proof.Machine.execBwrPeriod q iso dev tens s
  | .bwrTnnBloRead h tenant => Sys2Proof.Machine.execBwrTnnBloRead h tenant s
  | .streamOpen h ps => Sys2Proof.Machine.execStreamOpen h ps s
  | .streamClose h ps => Sys2Proof.Machine.execStreamClose h ps s
  | .streamStart h ps => Sys2Proof.Machine.execStreamStart h ps s
  | .streamStop h ps => Sys2Proof.Machine.execStreamStop h ps s
  | .streamStatus h ps => Sys2Proof.Machine.execStreamStatus h ps s
  | .unitStart f err => Sys2Proof.Machine.execUnitStart f err s
  | .streamPacket f err => Sys2Proof.Machine.execStreamPacket f err s
  | .unitEnd f err => Sys2Proof.Machine.execUnitEnd f err s
  | .streamHoldExpiry ctx => Sys2Proof.Machine.execStreamHoldExpiry ctx s
  | .streamDoneWrite w => Sys2Proof.Machine.execStreamDoneWrite w s
  | .snsTnowLoRead h => Sys2Proof.Machine.execSnsTnowLoRead h s
  | .timeCfg h ps => Sys2Proof.Machine.execTimeCfg h ps s
  | .timeStatus h ps => Sys2Proof.Machine.execTimeStatus h ps s
  | .timeStep h ps => Sys2Proof.Machine.execTimeStep h ps s
  | .syncReceived mac domNum gm offset rate => Sys2Proof.Machine.execSyncReceived mac domNum gm offset rate s
  | .syncTimeout dom => Sys2Proof.Machine.execSyncTimeout dom s
  | .ethLinkLoss mac => Sys2Proof.Machine.execEthLinkLoss mac s
  | .domainRevert => Sys2Proof.Machine.execDomainRevert s
  | .pulseArm h ps => Sys2Proof.Machine.execPulseArm h ps s
  | .pulseCancel h ps => Sys2Proof.Machine.execPulseCancel h ps s
  | .pulseEdge tpo => Sys2Proof.Machine.execPulseEdge tpo s
  | .captureCfg h ps => Sys2Proof.Machine.execCaptureCfg h ps s
  | .tciEdge tci rising err => Sys2Proof.Machine.execTciEdge tci rising err s
  | .launchCfg h ps => Sys2Proof.Machine.execLaunchCfg h ps s
  | .ltailWrite w => Sys2Proof.Machine.execLtailWrite w s
  | .launchEntry mac busy err => Sys2Proof.Machine.execLaunchEntry mac busy err s
  | .fusMapCfg h ps => Sys2Proof.Machine.execFusMapCfg h ps s
  | .fusMapStatus h ps => Sys2Proof.Machine.execFusMapStatus h ps s
  | .fusOpen h ps => Sys2Proof.Machine.execFusOpen h ps s
  | .fusClose h ps => Sys2Proof.Machine.execFusClose h ps s
  | .fusCloseDone ctx => Sys2Proof.Machine.execFusCloseDone ctx s
  | .fusSensorSet h ps => Sys2Proof.Machine.execFusSensorSet h ps s
  | .fusStatus h ps => Sys2Proof.Machine.execFusStatus h ps s
  | .fusSensorStatus h ps => Sys2Proof.Machine.execFusSensorStatus h ps s
  | .fusCalibReset h ps => Sys2Proof.Machine.execFusCalibReset h ps s
  | .fusionCall job cl copy desc => Sys2Proof.Machine.execFusionCall job cl copy desc s
  | .fusionCallStart die => Sys2Proof.Machine.execFusionCallStart die s
  | .fusionCallDone die => Sys2Proof.Machine.execFusionCallDone die s
  | .rasOpen h ps => Sys2Proof.Machine.execRasOpen h ps s
  | .rasClose h ps => Sys2Proof.Machine.execRasClose h ps s
  | .rasCloseDone rctx => Sys2Proof.Machine.execRasCloseDone rctx s
  | .rasStatus h ps => Sys2Proof.Machine.execRasStatus h ps s
  | .renderPassIssue job cl desc => Sys2Proof.Machine.execRenderPassIssue job cl desc s
  | .renderPassStart rctx => Sys2Proof.Machine.execRenderPassStart rctx s
  | .renderPassDone rctx => Sys2Proof.Machine.execRenderPassDone rctx s
  | .dispCfg h ps => Sys2Proof.Machine.execDispCfg h ps s
  | .dispTrainingDone disp ok => Sys2Proof.Machine.execDispTrainingDone disp ok s
  | .dispOff h ps => Sys2Proof.Machine.execDispOff h ps s
  | .dispFlip h ps => Sys2Proof.Machine.execDispFlip h ps s
  | .dispStatus h ps => Sys2Proof.Machine.execDispStatus h ps s
  | .vblank disp => Sys2Proof.Machine.execVblank disp s
  | .underrun disp pixels => Sys2Proof.Machine.execUnderrun disp pixels s
  | .hpdChange disp plugged => Sys2Proof.Machine.execHpdChange disp plugged s
  | .dispLinkLoss disp => Sys2Proof.Machine.execDispLinkLoss disp s
  | .ctlAssign h ps => Sys2Proof.Machine.execCtlAssign h ps s
  | .ctlBankWrite h ps => Sys2Proof.Machine.execCtlBankWrite h ps s
  | .ctlBankRead h ps => Sys2Proof.Machine.execCtlBankRead h ps s
  | .ctlSwap h ps => Sys2Proof.Machine.execCtlSwap h ps s
  | .ctlEnable h ps => Sys2Proof.Machine.execCtlEnable h ps s
  | .ctlDisable h ps => Sys2Proof.Machine.execCtlDisable h ps s
  | .ctlSetpt h ps => Sys2Proof.Machine.execCtlSetpt h ps s
  | .setpointPageWrite w => Sys2Proof.Machine.execSetpointPageWrite w s
  | .ctlStatus h ps => Sys2Proof.Machine.execCtlStatus h ps s
  | .ctlIoCfg h ps => Sys2Proof.Machine.execCtlIoCfg h ps s
  | .ctlTraceCfg h ps => Sys2Proof.Machine.execCtlTraceCfg h ps s
  | .ctlTraceDump h ps => Sys2Proof.Machine.execCtlTraceDump h ps s
  | .ctlTraceDumpDone ce => Sys2Proof.Machine.execCtlTraceDumpDone ce s
  | .engineTick ce skip => Sys2Proof.Machine.execEngineTick ce skip s
  | .followingErrorTimeout ce loop => Sys2Proof.Machine.execFollowingErrorTimeout ce loop s
  | .traceDone ce => Sys2Proof.Machine.execTraceDone ce s
  | .pwmPeriod pwm => Sys2Proof.Machine.execPwmPeriod pwm s
  | .sigmaDeltaOutput sd stream => Sys2Proof.Machine.execSigmaDeltaOutput sd stream s
  | .sdClockLoss sd => Sys2Proof.Machine.execSdClockLoss sd s
  | .encIllegalTransition enc => Sys2Proof.Machine.execEncIllegalTransition enc s
  | .encIndex enc => Sys2Proof.Machine.execEncIndex enc s
  | .sentMessage enc sync ticks => Sys2Proof.Machine.execSentMessage enc sync ticks s
  | .sentTimeout enc => Sys2Proof.Machine.execSentTimeout enc s
  | .channelFaultClear h isEnc ch => Sys2Proof.Machine.execChannelFaultClear h isEnc ch s
  | .skkArm h ps => Sys2Proof.Machine.execSkkArm h ps s
  | .skkProgCfg h ps => Sys2Proof.Machine.execSkkProgCfg h ps s
  | .skkProgStatus h ps => Sys2Proof.Machine.execSkkProgStatus h ps s
  | .skkSafeReq h ps => Sys2Proof.Machine.execSkkSafeReq h ps s
  | .sweepDone => Sys2Proof.Machine.execSweepDone s
  | .skkMbox h ps => Sys2Proof.Machine.execSkkMbox h ps s
  | .skkGoldenNow h ps => Sys2Proof.Machine.execSkkGoldenNow h ps s
  | .skkBistGet h ps => Sys2Proof.Machine.execSkkBistGet h ps s
  | .skkLtimeLoRead h => Sys2Proof.Machine.execSkkLtimeLoRead h s
  | .skKick => Sys2Proof.Machine.execSkKick s
  | .skNext => Sys2Proof.Machine.execSkNext s
  | .skVerdict prog jobseq pass => Sys2Proof.Machine.execSkVerdict prog jobseq pass s
  | .skRead addr len dst => Sys2Proof.Machine.execSkRead addr len dst s
  | .skPath grid thr rects => Sys2Proof.Machine.execSkPath grid thr rects s
  | .skDispreg disp region x y w h => Sys2Proof.Machine.execSkDispreg disp region x y w h s
  | .skDispcrc disp region => Sys2Proof.Machine.execSkDispcrc disp region s
  | .skMbox => Sys2Proof.Machine.execSkMbox s
  | .skTime => Sys2Proof.Machine.execSkTime s
  | .skSafe detail => Sys2Proof.Machine.execSkSafe detail s
  | .verdictTimeout job => Sys2Proof.Machine.execVerdictTimeout job s
  | .windowClose job layer window a b diff ckpt => Sys2Proof.Machine.execWindowClose job layer window a b diff ckpt s
  | .goldenEligible prog => Sys2Proof.Machine.execGoldenEligible prog s
  | .coverageDue prog => Sys2Proof.Machine.execCoverageDue prog s
  | .placementDeadline n => Sys2Proof.Machine.execPlacementDeadline n s
  | .coreDissent core majority => Sys2Proof.Machine.execCoreDissent core majority s
  | .skinkSramError unc => Sys2Proof.Machine.execSkinkSramError unc s
  | .skwdtExpiry => Sys2Proof.Machine.execSkwdtExpiry s
  | .pinFeedbackMismatch => Sys2Proof.Machine.execPinFeedbackMismatch s
  | .debuggerAttach kind inst secure => Sys2Proof.Machine.execDebuggerAttach kind inst secure s
  | .debugAction tgt off bytes => Sys2Proof.Machine.execDebugAction tgt off bytes s
  | .heartbeat => Sys2Proof.Machine.execHeartbeat s
  | .fwBegin h ps => Sys2Proof.Machine.execFwBegin h ps s
  | .fwChunk h ps => Sys2Proof.Machine.execFwChunk h ps s
  | .fwEnd h ps => Sys2Proof.Machine.execFwEnd h ps s
  | .fwVerifyDone => Sys2Proof.Machine.execFwVerifyDone s
  | .fwInfo h ps => Sys2Proof.Machine.execFwInfo h ps s
  | .fwLogRead h ps => Sys2Proof.Machine.execFwLogRead h ps s
  | .fwRestart h ps => Sys2Proof.Machine.execFwRestart h ps s
  | .fwWatchdogExpiry proc => Sys2Proof.Machine.execFwWatchdogExpiry proc s
  | .fwException proc memory => Sys2Proof.Machine.execFwException proc memory s
  | .fwRestartDone proc => Sys2Proof.Machine.execFwRestartDone proc s
  | .fwSvnCommit h ps => Sys2Proof.Machine.execFwSvnCommit h ps s
  | .fwSecChallenge h ps => Sys2Proof.Machine.execFwSecChallenge h ps s
  | .fwSecProve h ps => Sys2Proof.Machine.execFwSecProve h ps s
  | .nonceExpiry p proof => Sys2Proof.Machine.execNonceExpiry p proof s
  | .proveLockoutEnd p => Sys2Proof.Machine.execProveLockoutEnd p s
  | .fwSskSet h ps => Sys2Proof.Machine.execFwSskSet h ps s
  | .fwAttest h ps => Sys2Proof.Machine.execFwAttest h ps s
  | .fwAttestCert h ps => Sys2Proof.Machine.execFwAttestCert h ps s
  | .fwJournalRead h ps => Sys2Proof.Machine.execFwJournalRead h ps s
  | .fwMcounter h ps => Sys2Proof.Machine.execFwMcounter h ps s
  | .fwIntkeyBurn h ps => Sys2Proof.Machine.execFwIntkeyBurn h ps s
  | .journalDrain => Sys2Proof.Machine.execJournalDrain s
  | .fwsDbgenWrite h v => Sys2Proof.Machine.execFwsDbgenWrite h v s
  | .gatewayFrame f err => Sys2Proof.Machine.execGatewayFrame f err s
  | .postedWrite p => Sys2Proof.Machine.execPostedWrite p s
  | .errorReport reason outport outdev ident idx tenant => Sys2Proof.Machine.execErrorReport reason outport outdev ident idx tenant s
  | .canTxTimeout ctl => Sys2Proof.Machine.execCanTxTimeout ctl s
  | .txtailWrite w => Sys2Proof.Machine.execTxtailWrite w s
  | .rxdoneWrite w => Sys2Proof.Machine.execRxdoneWrite w s
  | .addressClaim ctl won => Sys2Proof.Machine.execAddressClaim ctl won s
  | .c3Timeout port => Sys2Proof.Machine.execC3Timeout port s
  | .chainPacketForward gen dst upper post => Sys2Proof.Machine.execChainPacketForward gen dst upper post s
  | .flitReceived port corr uncorr ok => Sys2Proof.Machine.execFlitReceived port corr uncorr ok s
  | .linkUp port peer lanes dly => Sys2Proof.Machine.execLinkUp port peer lanes dly s
  | .linkTrainingTimeout port => Sys2Proof.Machine.execLinkTrainingTimeout port s
  | .linkRetry port => Sys2Proof.Machine.execLinkRetry port s
  | .linkdlyMeasure port dly far => Sys2Proof.Machine.execLinkdlyMeasure port dly far s
  | .linkDown port => Sys2Proof.Machine.execLinkDown port s
  | .laneSpare port lane symErr => Sys2Proof.Machine.execLaneSpare port lane symErr s
  | .joinReq m => Sys2Proof.Machine.execJoinReq m s
  | .portDownReport a b => Sys2Proof.Machine.execPortDownReport a b s
  | .epochAdvance leaves => Sys2Proof.Machine.execEpochAdvance leaves s
  | .advance epoch isOver sw => Sys2Proof.Machine.execAdvance epoch isOver sw s
  | .masterLost by_ links => Sys2Proof.Machine.execMasterLost by_ links s
  | .remoteTimeout job port tile token write => Sys2Proof.Machine.execRemoteTimeout job port tile token write s
  | .prepareTimeout job => Sys2Proof.Machine.execPrepareTimeout job s
  | .gwRouteSet h ps => Sys2Proof.Machine.execGwRouteSet h ps s
  | .gwRouteClear h ps => Sys2Proof.Machine.execGwRouteClear h ps s
  | .gwRouteGet h ps => Sys2Proof.Machine.execGwRouteGet h ps s
  | .gwRingCfg h ps => Sys2Proof.Machine.execGwRingCfg h ps s
  | .gwPortCfg h ps => Sys2Proof.Machine.execGwPortCfg h ps s
  | .gwIsoCfg h ps => Sys2Proof.Machine.execGwIsoCfg h ps s
  | .chnCfg h ps => Sys2Proof.Machine.execChnCfg h ps s
  | .chnLeave h ps => Sys2Proof.Machine.execChnLeave h ps s
  | .chnStatus h ps => Sys2Proof.Machine.execChnStatus h ps s
  | .chnMembers h ps => Sys2Proof.Machine.execChnMembers h ps s
  | .chnEvict h ps => Sys2Proof.Machine.execChnEvict h ps s
  | .vinDroop mv => Sys2Proof.Machine.execVinDroop mv s
  | .railDroop kind inst permille => Sys2Proof.Machine.execRailDroop kind inst permille s
  | .droopRelease island => Sys2Proof.Machine.execDroopRelease island s
  | .pmcInterval share => Sys2Proof.Machine.execPmcInterval share s
  | .fastLimit vin iin => Sys2Proof.Machine.execFastLimit vin iin s
  | .phaseFault die phase => Sys2Proof.Machine.execPhaseFault die phase s
  | .thermalSample t => Sys2Proof.Machine.execThermalSample t s
  | .clusterTrip cl temp => Sys2Proof.Machine.execClusterTrip cl temp s
  | .wearMeasure drops => Sys2Proof.Machine.execWearMeasure drops s
  | .sramEccError e => Sys2Proof.Machine.execSramEccError e s
  | .pwrStatus h ps => Sys2Proof.Machine.execPwrStatus h ps s
  | .pwrGate h ps => Sys2Proof.Machine.execPwrGate h ps s
  | .pwrGateDone kind inst => Sys2Proof.Machine.execPwrGateDone kind inst s
  | .pwrWearRead h ps => Sys2Proof.Machine.execPwrWearRead h ps s
  | .pwrRetire h ps => Sys2Proof.Machine.execPwrRetire h ps s
  | .pwrCfgCap h v => Sys2Proof.Machine.execPwrCfgCap h v s
  | .pwrCfgCapmax h v => Sys2Proof.Machine.execPwrCfgCapmax h v s
  | .pwrCfgDramrate h v => Sys2Proof.Machine.execPwrCfgDramrate h v s
  | .pwrFselWrite h v => Sys2Proof.Machine.execPwrFselWrite h v s
  | .fmeasWindow freq => Sys2Proof.Machine.execFmeasWindow freq s
  | .pwrPowerRead h => Sys2Proof.Machine.execPwrPowerRead h s
  | .clrcntWrite h cl => Sys2Proof.Machine.execClrcntWrite h cl s
  | .halostatClrwait h cl => Sys2Proof.Machine.execHalostatClrwait h cl s
  | .quadratureEdge enc aLeads => Sys2Proof.Machine.execQuadratureEdge enc aLeads s
  | .remoteRequest token tenant addr n write => Sys2Proof.Machine.execRemoteRequest token tenant addr n write s
  | .chainJobPrepare job member => Sys2Proof.Machine.execChainJobPrepare job member s
  | .chainJobCommit job epoch => Sys2Proof.Machine.execChainJobCommit job epoch s
  | .signalDetected port => Sys2Proof.Machine.execSignalDetected port s
  | .ethLinkUp mac mbps => Sys2Proof.Machine.execEthLinkUp mac mbps s
  | .peerDelayMessage mac domNum capable => Sys2Proof.Machine.execPeerDelayMessage mac domNum capable s
  | .inputMonitorSample vin iin => Sys2Proof.Machine.execInputMonitorSample vin iin s

end Sys2Proof.Machine
end

