-- ==== Sys2Proof/Machine/Tick.lean ====
section
/-! DEFINITION. One tick of the 125 MHz time base (R222, R223) and what leaves the device while no command waits
(log 10). -/

namespace Sys2Proof.Machine

/-- INC in units of 2^-32 ns: 8 ns × (1 + rate), the rate in 2^-16 ppm. -/
def incOf (rate : Int) : Nat := (2 ^ 35 + rate * 2 ^ 19 / 1000000).toNat

/-- A domain's time moves on by its own rate, device time by INC: how far they run apart, in 2^-32 ns ÷ 10^6. -/
def Dom.run8 (d : Dom) (rate : Int) : Dom :=
  { d with drift := d.drift + (2 ^ 35 * 1000000 + d.rate * 2 ^ 19) - (incOf rate * 1000000 : Nat) }

/-- Every time base adds INC. -/
def tick (s : State) : State :=
  let n := s.time.frac + incOf s.time.rate
  { s with time := { s.time with
      ns := s.time.ns + n / 2 ^ 32, frac := n % 2 ^ 32,
      d0 := s.time.d0.run8 s.time.rate, d1 := s.time.d1.run8 s.time.rate } }

/-- The time of a hold, and that of it in RUN or DEGRADED, where the count stops and is kept elsewhere (R35). -/
def countHold (s : State) : State :=
  if s.clk.hold then
    { s with clk := { s.clk with holdT := s.clk.holdT + 1, holdRunT := s.clk.holdRunT + b2n s.running } }
  else s

/-- The device has left INIT: its time bases run. -/
def State.timeRuns (s : State) : Bool := s.dev.st != .off && s.dev.st != .init

/-- A tick with no command waiting: device time advances, a hold is counted, the servo acts, frames and chain packets leave. -/
def idle (s : State) : State := if s.timeRuns then sendChain (sendFrames (servo (countHold (tick s)))) else s

end Sys2Proof.Machine
end

