-- ==== Sys2Proof/Safety.lean ====
section
/-! DEFINITION. The words the statements use: when a packet's command is taken, the forms of its reply, and what every
step keeps. -/

namespace Sys2Proof.Machine

/-- A packet that is admitted (R52) and passes every check of R50: the ports are up, there is room for it and its
reply, a session is open and the sequence number is the expected one (neither asked of SESSION_OPEN, R49), and
steps 5 to 10 find nothing and the firmware does not abandon it (R55). -/
def Cmd.taken (c : Cmd) (h : Hdr) (ps : List Byte) (s : State) : Bool :=
  s.portsUp && (s.port h.port).admits 0 c.maxReply ps.length
  && (c.opcode == sessionOpenOp || ((s.port h.port).openS && h.seq.toNat == (s.port h.port).expSeq))
  && c.outcome h ps s == OK

/-- A packet of an open session with the expected sequence number that is admitted but fails a check of steps 5 to 10,
or is abandoned with INTERNAL (R55). -/
def Cmd.refusedBy (c : Cmd) (h : Hdr) (ps : List Byte) (s : State) : Bool :=
  s.portsUp && (s.port h.port).admits 0 c.maxReply ps.length
  && c.opcode != sessionOpenOp && (s.port h.port).openS && h.seq.toNat == (s.port h.port).expSeq
  && c.outcome h ps s != OK

/-- The state with a reply of status OK at the end of the output FIFO and the sequence number used (R48, R51). -/
def okReply (op : Nat) (h : Hdr) (data : List Byte) (s : State) : State := replyUse op h OK data s

/-- The token of a command that is answered ACCEPTED, and the state with that reply placed and the space of a
completion with up to `n` bytes of data reserved (R48, R52). -/
def acceptedReply (op : Nat) (h : Hdr) (n : Nat) (s : State) : Nat × State :=
  accept h.port op h.tag.toNat h.seq.toNat (14 + n) (replyUse op h ACCEPTED [] s)

/-- SAFE, or a SERVICE state entered from SAFE (R57). -/
def State.safeHeld (s : State) : Bool := s.dev.st == .safe || (s.dev.st == .service && s.dev.svcFromSafe)

/-- The transitions of Table 10 of chapter 02. -/
def DevSt.mayMove : DevSt → DevSt → Bool
  | _, .off => true
  | .off, .init => true
  | .off, _ => false
  | .init, n => n == .awaitFw
  | _, .init => true
  | .awaitFw, n => n == .selfTest
  | .selfTest, n => n == .ready || n == .service || n == .safe
  | .ready, n => n == .run || n == .degraded || n == .safe || n == .service
  | .run, n => n == .degraded || n == .ready || n == .safe
  | .degraded, n => n == .ready || n == .safe
  | .service, n => n == .safe || n == .ready
  | .safe, n => n == .service

/-- The fields of PWR_CFG hold values of their widths (Table 16 of chapter 15). -/
def Pow.inFields (w : Pow) : Bool := decide (w.cap < 256) && decide (w.capmax < 256) && decide (w.dramRate < 4)

/-- The form that every step keeps: DRAM and Skink SRAM list each byte once, in rising order; the fields of PWR_CFG
and the expected sequence numbers hold values of their widths. -/
def State.formOk (s : State) : Bool :=
  s.mem.dram.wf && s.skk.sram.wf && s.pow.inFields && decide (s.hp0.expSeq < 65536) && decide (s.hp1.expSeq < 65536)

end Sys2Proof.Machine
end

