-- ==== Sys2Proof/Certificates/Slice0/Obligations.lean ====
section
/-! DEFINITION. The statements for the provers, by chapter of the manual. -/

open Sys2Proof Sys2Proof.Machine

/-- Commands are taken in their order of arrival (R64); one step takes one (log 1). -/
def Obligations.StepRunsFrontCommand : Prop :=
  ∀ (i : Instr) (rest : List Instr) (s : State),
    step { s with pending := i :: rest } = exec i { s with pending := rest }

/-- INC is added to device time at each tick of the 125 MHz time base (R222, R223; log 10). -/
def Obligations.IdleStepAddsInc : Prop :=
  ∀ (s : State), s.pending = [] →
    ((s.dev.st = .off ∨ s.dev.st = .init) → step s = .next s)
    ∧ ((s.dev.st ≠ .off ∧ s.dev.st ≠ .init) →
      step s = .next (sendChain (sendFrames (servo (countHold (tick s))))))
    ∧ (tick s).time.ns * 2 ^ 32 + (tick s).time.frac
        = s.time.ns * 2 ^ 32 + s.time.frac + (2 ^ 35 + s.time.rate * 2 ^ 19 / 1000000).toNat
    ∧ (s.time.rate = 0 → (tick s).time.ns * 2 ^ 32 + (tick s).time.frac = s.time.ns * 2 ^ 32 + s.time.frac + 2 ^ 35)
    ∧ (tick s).time.frac < 2 ^ 32
    ∧ { tick s with time := s.time } = s
    ∧ { (tick s).time with ns := s.time.ns, frac := s.time.frac, d0 := s.time.d0, d1 := s.time.d1 } = s.time
    ∧ { (tick s).time.d0 with drift := s.time.d0.drift } = s.time.d0
    ∧ { (tick s).time.d1 with drift := s.time.d1.drift } = s.time.d1
    ∧ (s.clk.hold = false → countHold s = s)
    ∧ (s.clk.hold = true → countHold s = { s with clk := { s.clk with
        holdT := s.clk.holdT + 1, holdRunT := s.clk.holdRunT + (if s.running = true then 1 else 0) } })

/-- INIT leaves no session, tenant, queue, program or job, and an event count of zero (R45, R62, R69, R410). -/
def Obligations.ResetHoldsSpecValues : Prop :=
  State.reset.dev.st = .awaitFw ∧ State.reset.dev.prev = .init ∧ State.reset.dev.cause = 0
  ∧ State.reset.hp0 = PortSt.init ∧ State.reset.hp1 = PortSt.init
  ∧ PortSt.init.openS = false ∧ PortSt.init.inb = [] ∧ PortSt.init.out = [] ∧ PortSt.init.evCount = 0
  ∧ PortSt.init.awaiting = [] ∧ PortSt.init.evlost = false ∧ PortSt.init.cpllost = false ∧ PortSt.init.crcerr = false
  ∧ PortSt.init.ovf = false ∧ PortSt.init.discards = 0 ∧ PortSt.init.crcerrs = 0
  ∧ (∀ t, (State.reset.ten t).st = .closed)
  ∧ (∀ t q, State.reset.queue? t q = none) ∧ State.reset.jobs = Map.empty ∧ State.reset.progs = Map.empty
  ∧ State.reset.ctxs = Map.empty ∧ State.reset.time.ns = 0 ∧ State.reset.time.frac = 0
  ∧ State.reset.skk.latched = false ∧ State.reset.skk.armed = false ∧ State.reset.deasserted = false
  ∧ State.reset.safeN = false ∧ State.reset.safeP = true
  ∧ State.reset.clk.holdMs = 10 ∧ State.reset.skk.hbms = 10 ∧ State.reset.skk.skwdt = 10
  ∧ State.reset.pow.inFields = true ∧ State.reset.pending = []

/-- The sequence check (R51) of a packet that has been admitted (R52). -/
def Obligations.RetransmissionAndBadSequence : Prop :=
  ∀ (c : Cmd) (h : Hdr) (ps : List Byte) (s : State), c ∈ cmdTable → c.opcode ≠ sessionOpenOp →
    (s.port h.port).openS = true →
    (h.seq.toNat = (s.port h.port).expSeq → seqCheck h (s.port h.port) = .pass)
    ∧ (∀ o, h.seq.toNat ≠ (s.port h.port).expSeq → (h.seq.toNat + 1) % 65536 = (s.port h.port).expSeq →
        (s.port h.port).kept = some (h.tag.toNat, o) →
        c.run h ps s = s.setPort h.port { s.port h.port with out := (s.port h.port).out ++ [o] })
    ∧ (h.seq.toNat ≠ (s.port h.port).expSeq →
        (∀ o, (s.port h.port).kept = some (h.tag.toNat, o) → (h.seq.toNat + 1) % 65536 ≠ (s.port h.port).expSeq) →
        c.run h ps s = s.setPort h.port { s.port h.port with
          out := (s.port h.port).out ++
            [mkReply c.opcode h BAD_SEQUENCE (leBytes 2 (s.port h.port).expSeq)] })
    ∧ (∀ st data, ((replyUse c.opcode h st data s).port h.port).kept
          = some (h.tag.toNat, mkReply c.opcode h st data)
        ∧ ((replyUse c.opcode h st data s).port h.port).expSeq = (h.seq.toNat + 1) % 65536)

/-- A command refused by R50 has had no effect (R55) but its reply and its sequence number (R51). -/
def Obligations.RefusedCommandHasNoEffect : Prop :=
  ∀ (c : Cmd) (h : Hdr) (ps : List Byte) (s : State), c ∈ cmdTable → c.opcode ≠ 0x0A21 → c.refusedBy h ps s = true →
    let refused := fun st => s.setPort h.port { s.port h.port with
      out := (s.port h.port).out ++ [mkReply c.opcode h st []],
      kept := some (h.tag.toNat, mkReply c.opcode h st []),
      expSeq := (h.seq.toNat + 1) % 65536 }
    (c.verdict h ps s ≠ OK → c.exec h ps s = .next (refused (c.verdict h ps s)))
    ∧ (c.verdict h ps s = OK → h.inconsistent = true
      ∧ c.exec h ps s = .next (fwLog (s.port h.port).secure 5 c.opcode h.seq.toNat (refused INTERNAL)))

/-- READ_REPLY (R44). -/
def Obligations.ReadReplyDeliversWholePackets : Prop :=
  ∀ (p : Port) (ph : CmdPhase) (n : Nat) (s : State), s.portsUp = true → phaseOk 0x13 ph = true →
    ∃ (k : Nat) (b : Bool), k ≤ (s.port p).out.length
      ∧ pktBytes ((s.port p).out.take k) ≤ n
      ∧ (k = (s.port p).out.length ∨ n < pktBytes ((s.port p).out.take (k + 1)))
      ∧ exec (.readReply p ph n) s = .next (s.setPort p { s.port p with
          out := (s.port p).out.drop k, begun := b,
          dq := (((s.port p).out.flatMap OutPkt.bytes) ++ List.replicate n 0).take n })

/-- READ_PORT_STATUS (Table 3 of chapter 02), PORT_RESET (R45) and the command phase (R42). -/
def Obligations.PortStatusAndPortReset : Prop :=
  (∀ (p : Port) (ph : CmdPhase) (s : State), s.portsUp = true →
    (phaseOk 0x05 ph = true → exec (.readPortStatus p ph) s = .next (s.setPort p { s.port p with
      dq := [0xA5] ++ leBytes 1 (b2n (s.port p).openS + 2 * b2n (s.port p).ovf + 4 * b2n (!(s.port p).out.isEmpty))
        ++ leBytes 2 (s.port p).expSeq
        ++ leBytes 2 (32 * 1024 - (s.port p).inb.foldl (fun a k => a + k.len) 0)
        ++ leBytes 2 (min 0xFFFF (pktBytes (s.port p).out)) }))
    ∧ (phaseOk 0xF0 ph = true → exec (.portReset p ph) s = .next (s.setPort p { s.port p with
      openS := false, secure := false, kept := none, inb := [], out := [], begun := false, discards := 0, crcerrs := 0,
      awaiting := (s.port p).awaiting.map (fun w => { w with live := false, space := 0 }) })))
  ∧ ∀ (p : Port) (ph : CmdPhase) (s : State),
    (∀ code, phaseOk code ph = true ↔ ph.code.toNat = code ∧ ph.inv = ~~~ph.code)
    ∧ (∀ d, phaseOk 0x12 ph = false → exec (.writePacket p ph d) s = .next s)
    ∧ (∀ n, phaseOk 0x13 ph = false → exec (.readReply p ph n) s = .next s)
    ∧ (phaseOk 0x05 ph = false → exec (.readPortStatus p ph) s = .next s)
    ∧ (phaseOk 0xF0 ph = false → exec (.portReset p ph) s = .next s)

/-- WRITE_PACKET of one packet (R46, R47, R50). -/
def Obligations.WirePacketReachesItsCommand : Prop :=
  ∀ (p : Port) (ph : CmdPhase) (tag seq : BitVec 16) (ps : List Byte) (crc : Nat) (s : State), s.portsUp = true →
    phaseOk 0x12 ph = true →
    (s.port p).openS = true → (s.port p).inb = [] → (s.port p).expSeq = seq.toNat → ps.length ≤ 4096 →
    (s.port p).admits 0 4096 ps.length = true → crc < 2 ^ 32 →
    let head := leBytes 2 0x0103 ++ [0xFF, 0xFF] ++ leBytes 2 tag.toNat ++ leBytes 2 ps.length
      ++ leBytes 2 seq.toNat ++ ps
    let h : Hdr := ⟨p, 0xFF, 0xFF, tag, seq, false⟩
    (crc = crc32c head → exec (.writePacket p ph (head ++ leBytes 4 crc)) s = .next (okReply 0x0103 h ps s))
    ∧ (crc ≠ crc32c head → exec (.writePacket p ph (head ++ leBytes 4 crc)) s = .next (s.setPort p { s.port p with
        out := (s.port p).out ++ [mkReply 0x0103 h BAD_CRC []], crcerr := true,
        crcerrs := min 0xFFFF ((s.port p).crcerrs + 1) }))

/-- Events of R68 take no room from replies (R52), and every one offered is counted (R410). A new EV_SKSTAT replaces any that waits unread; EV_SAFE and EV_DEBUG are never discarded (R68). EV_LOST (R68). -/
def Obligations.EventsNeverDisplaceReplies : Prop :=
  (∀ (v : PortSt) (op : Nat) (data : List Byte),
    (v.openS = false → v.offer op data = v)
    ∧ (v.openS = true →
        (v.offer op data).evCount = v.evCount + 1
        ∧ (v.offer op data).out.filter (fun o => !o.evt) = v.out.filter (fun o => !o.evt)
        ∧ (v.begun = true → (v.offer op data).out.head? = v.out.head? ∨ v.out = [])))
  ∧ (∀ (v : PortSt) (data : List Byte), v.openS = true →
    (((v.offer evSkstatOp data).freshPart.filter (fun o => o.evt && o.opcode == evSkstatOp)).length ≤ 1)
    ∧ (∀ o ∈ (v.offer evSkstatOp data).freshPart, o.evt = true → o.opcode = evSkstatOp → o.data = data)
    ∧ (∀ op, op = evSafeOp ∨ op = evDebugOp →
        (v.offer op data).freshPart
          = ⟨op, OK, true, false, 0, (v.evCount + 1) % 65536, data⟩ :: v.freshPart ∨ (v.begun = true ∧ v.out = [])))
  ∧ (∀ (p : Port) (s : State), (s.port p).openS = true → (s.port p).lostEv ≠ 0 → (s.port p).plainRoom 18 = true →
    (s.port p).lostEv ≤ 0xFFFF → (s.port p).lostSafety ≤ 0xFFFF →
    exec (.evLost p) s = .next (offer p 0x01F1
      (leBytes 2 (s.port p).lostEv ++ leBytes 2 (s.port p).lostSafety)
      (State.setPort { s with freeCtr := s.freeCtr + 1 } p { s.port p with lostEv := 0, lostSafety := 0 })))

/-- Table 14 of chapter 02: the commands of a session (R49). -/
def Obligations.SessionCommands : Prop :=
  (∀ (h : Hdr) (ps : List Byte) (s : State),
    (cNop.taken h ps s = true → exec (.nop h ps) s = .next (okReply 0x0103 h ps s))
    ∧ (cSessionClose.taken h ps s = true → exec (.sessionClose h ps) s = .next
        (let t := okReply 0x0102 h [] s
         t.setPort h.port { t.port h.port with
           openS := false, secure := false, kept := none,
           awaiting := (t.port h.port).awaiting.map (fun w => { w with live := false, space := 0 }) }))
    ∧ (cSessionOpen.taken h ps s = true → u32 ps 0 = 0 → exec (.sessionOpen h ps) s = .next
        (let t := okReply 0x0101 h [] s
         t.setPort h.port { t.port h.port with
           openS := true, secure := false, expSeq := (h.seq.toNat + 1) % 65536,
           awaiting := (t.port h.port).awaiting.map (fun w => { w with live := false, space := 0 }) }))
    ∧ (cSessionOpen.taken h ps s = true → u32 ps 0 = 1 → (s.port h.port).proveOk = true ∧ exec (.sessionOpen h ps) s = .next
        (let t := okReply 0x0101 h [] s
         let u := t.setPort h.port { t.port h.port with
           openS := true, secure := true, proveOk := false, expSeq := (h.seq.toNat + 1) % 65536,
           awaiting := (t.port h.port).awaiting.map (fun w => { w with live := false, space := 0 }) }
         s.larder.notices.foldl (fun v n => offer .hp0 0x0AF1
           (leBytes 1 n.kind ++ leBytes 1 n.inst ++ leBytes 1 n.tenant ++ [0x00] ++ leBytes 4 n.time) v)
           { u with larder := { s.larder with notices := [] } })))
  ∧ ∀ (v : PortSt) (w : Await) (st : Nat) (data : List Byte), v.awaiting.find? (fun x => x.tok == w.tok) = some w →
    w.live = false → v.complete w.tok st data
      = { v with awaiting := v.awaiting.filter (fun x => x.tok != w.tok), cpllost := true }

/-- The transitions of Table 10 of chapter 02 that commands make (R57 to R62). -/
def Obligations.DeviceStateCommands : Prop :=
  (∀ (h : Hdr) (ps : List Byte) (s : State),
    (cDevStart.taken h ps s = true → exec (.devStart h ps) s = .next
        (let a := acceptedReply 0x0104 h 0 s
         complete a.1 OK [] (startStreams (a.2.progs.keys.foldl (fun s k => firstCover k s)
           (setDevSt (if s.dev.retired then .degraded else .run) a.2)))))
    ∧ (cDevStop.taken h ps s = true → exec (.devStop h ps) s = .next
        (let a := acceptedReply 0x0105 h 0 s
         syncStreams { a.2 with dev := { s.dev with stopTok := some s.sch.nTok } }))
    ∧ (cDevReset.taken h ps s = true → exec (.devReset h ps) s = .next
        (let t := journalCmd h 0x0106 0 0 (replyUse 0x0106 h ACCEPTED [] s)
         { t with dev := { s.dev with resetPend := true } }))
    ∧ (cServiceEnter.taken h ps s = true → s.dev.st = .awaitFw → exec (.serviceEnter h ps) s = .next
        (let t := journalCmd h 0x0107 0 0 (okReply 0x0107 h [] s)
         { t with dev := { s.dev with svcArmed := true } }))
    ∧ (cServiceEnter.taken h ps s = true → s.dev.st ≠ .awaitFw → exec (.serviceEnter h ps) s = .next
        (let t := journalCmd h 0x0107 0 0 (okReply 0x0107 h [] s)
         syncStreams (setDevSt .service { t with dev := { s.dev with svcFromSafe := s.dev.st == .safe } })))
    ∧ (cServiceExit.taken h ps s = true → exec (.serviceExit h ps) s = .next
        (syncStreams (setDevSt .ready (okReply 0x0108 h [] s)))))
  ∧ ∀ (n : DevSt) (s : State), setDevSt n s = offerBoth 0x01F0
      (leBytes 1 n.code ++ leBytes 1 s.dev.st.code ++ leBytes 1 s.dev.cause ++ [0x00])
      { s with dev := { s.dev with st := n, prev := s.dev.st } }

/-- Rows of Table 10 of chapter 02 that the device makes of itself (R57, R59, R61, R62). -/
def Obligations.SupplyAndStartEvents : Prop :=
  ∀ (s : State),
    let f := State.fresh s.part s.larder
    let kept := fun (n : DevSt) (g : State) (jb : List JEntry) => ({ g with
      dev := { g.dev with st := n, prev := s.dev.st }, clk := { g.clk with refOk := s.clk.refOk },
      fws := { g.fws with jbuf := jb }, freeCtr := s.freeCtr, pending := s.pending } : State)
    let tested := fun (kind inst : Nat) => ({ s with
      skk := { s.skk with bistDone := true, bistKind := kind, bistInst := inst },
      mem := { s.mem with ecc := s.mem.ecc.mapV (fun e => { e with soft := 0 }) } } : State)
    (∀ tok, s.dev.stopTok = some tok → s.running = true → s.inFlight = 0 → s.fwDown fwSch = false →
      exec .devStopComplete s = .next (complete tok OK []
        (let t := setDevSt .ready { s with dev := { s.dev with stopTok := none } }
         { t with progs := s.progs.mapV (fun p => { p with covered := false, eligible := false, lapsed := false }) })))
    ∧ (s.dev.resetPend = true → exec .devResetInit s = .next
        (let n := kept .init f s.fws.jbuf
         { n with dev := { n.dev with resets := min 0xFF (s.dev.resets + 1) },
                  pow := { n.pow with thermtrip := s.pow.thermtrip } }))
    ∧ (s.dev.st = .off → exec .vinValid s = .next (kept .init f s.fws.jbuf))
    ∧ (s.dev.st ≠ .off → exec .vinLoss s = .next (kept .off (State.fresh s.part (drainJournal s).larder) []))
    ∧ f.part = s.part ∧ f.larder = s.larder ∧ f.tens = Map.empty ∧ f.queues = Map.empty ∧ f.progs = Map.empty
    ∧ f.hp0 = PortSt.init ∧ f.hp1 = PortSt.init ∧ f.mem = MemSt.init
    ∧ (s.dev.st = .init → s.clk.refOk = true → exec .awaitFwEntry s = .next { s with
        dev := { s.dev with st := .awaitFw, prev := .init },
        larder := { s.larder with boot := s.larder.boot + 1 } })
    ∧ (s.dev.st = .init → s.clk.refOk = false → exec .awaitFwEntry s = .next s)
    ∧ (s.dev.st = .selfTest → s.skk.bistFail = 0 → s.larder.seclive = false →
      (s.dev.svcArmed = false → exec (.selfTestEnd []) s = .next (setDevSt .ready (tested 0 0)))
      ∧ (s.dev.svcArmed = true → exec (.selfTestEnd []) s = .next
        (setDevSt .service { tested 0 0 with dev := { s.dev with svcArmed := false } }))
      ∧ (∀ item kind inst, item < 8 → exec (.selfTestEnd [⟨item, kind, inst, none⟩]) s = .next
        (latchSafe 0x0B 0 0 { tested kind inst with
          skk := { (tested kind inst).skk with bistFail := 2 ^ item } })))

/-- The reference monitor (R30 to R35). -/
def Obligations.ReferenceEvents : Prop :=
  ∀ (s : State),
    (∀ missing range, (missing || range) = true →
      ((s.dev.st = .off ∨ s.dev.st = .init) → exec (.refInvalid missing range) s
        = .next { s with clk := { s.clk with refOk := false } })
      ∧ (s.dev.st ≠ .off → s.dev.st ≠ .init → s.clk.hold = true → exec (.refInvalid missing range) s
        = .next { s with clk := { s.clk with
          refOk := false, refLost := true, missing := s.clk.missing || missing, range := s.clk.range || range } })
      ∧ (s.dev.st ≠ .off → s.dev.st ≠ .init → s.clk.hold = false → exec (.refInvalid missing range) s
        = .next (evRefclk 1 (noteDeg { s with clk := { s.clk with
          refOk := false, refLost := true, hold := true, holdT := 0, holdRunT := 0,
          missing := missing, range := range } }))))
    ∧ (s.clk.hold = true → exec .refRestored s = .next
      (let n := evRefclk 2 (noteDeg { s with clk := { s.clk with refOk := true, hold := false } })
       { n with clk := { n.clk with holdT := 0, holdRunT := 0 } }))
    ∧ (s.clk.hold = true → s.running = true → s.clk.holdMs * 125000 < s.clk.holdRunT →
      exec .holdLimitExpiry s = .next (latchSafe 0x0A 0 0 (evRefclk 3 s)))
    ∧ (∀ ev,
      let d := leBytes 1 ev ++ leBytes 1 (b2n s.clk.missing + 2 * b2n s.clk.range)
        ++ leBytes 2 (min (s.clk.holdT * 8 / 1000) 0xFFFF) ++ leBytes 4 s.time.ns
      (s.fwDown fwPmc = false → evRefclk ev s = offerBoth 0x01F2 d s)
      ∧ (s.fwDown fwPmc = true → evRefclk ev s
        = { s with clk := { s.clk with refEvents := s.clk.refEvents ++ [d] } }))
    ∧ { noteDeg s with time := s.time } = s
    ∧ (noteDeg s = s ∨ (noteDeg s).time = { s.time with unsure := (s.time.ns, s.degNow) :: s.time.unsure })

/-- What HP1 may not do (R41). -/
def Obligations.Hp1RefusesOtherGroups : Prop :=
  ∀ (c : Cmd) (h : Hdr) (ps : List Byte) (s : State), c ∈ cmdTable → h.port = .hp1 → s.portsUp = true →
    s.hp1.openS = true → h.seq.toNat = s.hp1.expSeq → s.hp1.admits 0 c.maxReply ps.length = true → c.lenOk ps = true →
    ((c.opcode / 256 ≠ 0x01 ∧ c.opcode / 256 ≠ 0x09)
      ∨ ((c.opcode = 0x0111 ∨ c.opcode = 0x0112) ∧ ¬ (0x00800000 ≤ u32 ps 0 ∧ u32 ps 0 < 0x00900000))) →
    c.opcode ≠ 0x0A21 →
    c.exec h ps s = .next { s with hp1 := { s.hp1 with
      out := s.hp1.out ++ [mkReply c.opcode h DENIED []], kept := some (h.tag.toNat, mkReply c.opcode h DENIED []),
      expSeq := (h.seq.toNat + 1) % 65536 } }

/-- The register commands (R67). What REG_MODIFY does to each kind of field (R67). -/
def Obligations.RegisterCommandsAndMask : Prop :=
  ((∀ (v : Viewer) (a : Nat) (t : List Nat) (r : Reg) (s : State), regAt v a s = some r →
    readWords v (a :: t) s = (leBytes 4 r.word ++ (readWords v t (r.onRead s)).1, (readWords v t (r.onRead s)).2))
  ∧ ∀ (h : Hdr) (ps : List Byte) (s : State),
    (cRegRead.taken h ps s = true → exec (.regRead h ps) s = .next
      (let as := (List.range (u16 ps 4)).map (fun i => u32 ps 0 + 4 * i)
       (readWords (viewer h s) as (okReply 0x0110 h (readWords (viewer h s) as (consumed h s)).1 s)).2))
    ∧ (cRegWrite.taken h ps s = true → exec (.regWrite h ps) s = .next
      (((List.range (u16 ps 4)).map (fun i => (⟨u32 ps 0 + 4 * i, 0xFFFFFFFF, u32 ps (8 + 4 * i)⟩ : WordWrite))).foldl
        (writeWord true h) (okReply 0x0111 h [] s)))
    ∧ (cRegModify.taken h ps s = true → exec (.regModify h ps) s = .next
      (writeWord false h (okReply 0x0112 h (leBytes 4 (wordAt (viewer h s) (u32 ps 0)
        (writeWord false h (consumed h s) ⟨u32 ps 0, u32 ps 4, u32 ps 8⟩))) s) ⟨u32 ps 0, u32 ps 4, u32 ps 8⟩)))
  ∧ (∀ (f : RField) (mask v : Nat),
    ((f.acc = .rw ∨ f.acc = .rwl) → f.val < 2 ^ f.w →
      ∀ i, i < f.w → ((f.change mask v).getD f.val).testBit i
        = if mask.testBit (f.lo + i) then v.testBit (f.lo + i) else f.val.testBit i)
    ∧ (f.acc = .ro → f.change mask v = none)
    ∧ (f.acc = .w1c → f.w = 1 →
      ((f.change mask v).isSome = true ↔ f.val ≠ 0 ∧ mask.testBit f.lo = true ∧ v.testBit f.lo = true))
    ∧ (f.acc = .wo → f.w = 1 →
      ((f.change mask v).isSome = true ↔ mask.testBit f.lo = true ∧ v.testBit f.lo = true)))

/-- The rows that read one word with an effect (R197 and the register tables). The rows that are one register write. -/
def Obligations.RegisterRowsReadAndWrite : Prop :=
  (∀ (h : Hdr) (s : State),
    (∀ t, t < 64 → cRegRead.taken h (readPs (0x00104000 + t * 0x100)) s = true → hides (viewer h s) t s = false →
      exec (.loWordRead h t 0) s = .next
        (let n := min ((s.ten t).acct.etlc / 1000) (2 ^ 64 - 1)
         let r := okReply 0x0110 h (leBytes 4 (n % 2 ^ 32)) s
         r.setTen t { s.ten t with acct := { (s.ten t).acct with etlcHi := n / 2 ^ 32 } }))
    ∧ (∀ t, t < 64 → cRegRead.taken h (readPs (0x00104000 + t * 0x100 + 8)) s = true → hides (viewer h s) t s = false →
      exec (.loWordRead h t 1) s = .next
        (let n := min ((s.ten t).acct.etbe / 1000) (2 ^ 64 - 1)
         let r := okReply 0x0110 h (leBytes 4 (n % 2 ^ 32)) s
         r.setTen t { s.ten t with acct := { (s.ten t).acct with etbeHi := n / 2 ^ 32 } }))
    ∧ (cRegRead.taken h (readPs 0x00100030) s = true → exec (.schEpochLoRead h) s = .next
        (let r := okReply 0x0110 h (leBytes 4 (s.sch.epoch % 2 ^ 32)) s
         { r with sch := { s.sch with epochHi := s.sch.epoch / 2 ^ 32 % 65536 } }))
    ∧ (∀ t, t < 64 → cRegRead.taken h (readPs (0x00301004 + t * 0x10)) s = true → hides (viewer h s) t s = false →
      exec (.bwrTnnBloRead h t) s = .next
        (let r := okReply 0x0110 h (leBytes 4 (s.bwr.beats.getD t 0 % 2 ^ 32)) s
         { r with bwr := { s.bwr with beatsHi := s.bwr.beatsHi.set t (s.bwr.beats.getD t 0 / 2 ^ 32) } }))
    ∧ (cRegRead.taken h (readPs 0x00400000) s = true → exec (.snsTnowLoRead h) s = .next
        (let r := okReply 0x0110 h (leBytes 4 (s.time.ns % 2 ^ 32)) s
         { r with time := { s.time with latHi := s.time.ns / 2 ^ 32 % 2 ^ 32, latFr := tnowFr s } }))
    ∧ (cRegRead.taken h (readPs 0x00800014) s = true → exec (.skkLtimeLoRead h) s = .next
        (let r := okReply 0x0110 h (leBytes 4 (s.skk.ltime % 2 ^ 32)) s
         { r with skk := { s.skk with ltimeHi := s.skk.ltime / 2 ^ 32 % 2 ^ 32 } }))
    ∧ (cRegRead.taken h (readPs 0x00C0000C) s = true → exec (.pwrPowerRead h) s = .next
        (let r := okReply 0x0110 h (leBytes 2 s.pow.mean ++ leBytes 2 s.pow.peak) s
         { r with pow := { s.pow with peak := 0 } })))
  ∧ (∀ (h : Hdr) (v : Nat) (s : State),
    let cfg := fun (cap capmax rate : Nat) => cap * 2 ^ 24 + capmax * 2 ^ 16 + rate * 2 ^ 8 + b2n s.pow.lockCfg
    let ok := fun (w : Nat) => okReply 0x0112 h (leBytes 4 w) s
    (∀ n, n < 64 → cRegWrite.taken h (writePs (0x0010401C + n * 0x100) 1) s = true →
      exec (.schTnnActlClr h n) s = .next (journalCmd h 0x0111 (0x0010401C + n * 0x100) 0
        ((okReply 0x0111 h [] s).setTen n { s.ten n with acct := Acct.zero })))
    ∧ (v < 2 ^ 32 → cRegWrite.taken h (writePs 0x00C00110 v) s = true →
      exec (.pwrFselWrite h v) s = .next (journalCmd h 0x0111 0x00C00110 (v / 2 ^ 8 % 16 * 2 ^ 8 + v % 256)
        { okReply 0x0111 h [] s with clk := { s.clk with
          fselKind := v / 2 ^ 8 % 16, fselInst := v % 256, fmValid := false, fmArmed := false } }))
    ∧ (∀ n, n < 12 → cRegModify.taken h (modPs (0x01000400 + n * 0x100000) 0x80000000 0x80000000) s = true →
      let c := s.cl n
      exec (.clrcntWrite h n) s = .next ((ok (16 * b2n c.nonfin + 8 * b2n c.ocsat + 4 * b2n c.accsat + 2 * b2n c.qsat
        + b2n c.skew)).setCl n { c with nonfinCnt := 0, qsatCnt := 0 }))
    ∧ (∀ n, n < 12 → cRegModify.taken h (modPs (0x01000420 + n * 0x100000) 0x80000000 0x80000000) s = true →
      exec (.halostatClrwait h n) s = .next
        ((ok (b2n (s.cl n).stale)).setCl n { s.cl n with haloDw := 0, haloSw := 0 }))
    ∧ (∀ c, c < 64 → cRegModify.taken h (modPs (0x00702000 + c * 0x10) 2 2) s = true →
      (∀ o, (s.sd c).owner = some o → hides (viewer h s) o s = false) →
      let f := (s.sd c).fault && (s.sd c).bad
      let r := ok (min (s.sd c).errs 0xFFFF * 2 ^ 16 + 2 * b2n f + b2n (s.sd c).owner.isSome)
      exec (.channelFaultClear h false c) s = .next
        (if (s.sd c).fault = f then r else { r with sds := s.sds.set c { s.sd c with fault := false } }))
    ∧ (∀ c, c < 32 → cRegModify.taken h (modPs (0x00703000 + c * 0x10) 2 2) s = true →
      (∀ o, (s.enc c).owner = some o → hides (viewer h s) o s = false) →
      let f := (s.enc c).fault && (s.enc c).bad
      let r := ok (min (s.enc c).errs 0xFFFF * 2 ^ 16 + 2 ^ 8 * b2n (s.enc c).homed + 2 * b2n f
        + b2n (s.enc c).owner.isSome)
      exec (.channelFaultClear h true c) s = .next
        (if (s.enc c).fault = f then r else { r with encs := s.encs.set c { s.enc c with fault := false } }))
    ∧ (∀ c o, c < 64 → (s.sd c).owner = some o → hides (viewer h s) o s = true →
      cRegModify.taken h (modPs (0x00702000 + c * 0x10) 2 2) s = true →
      exec (.channelFaultClear h false c) s = .next (ok 0))
    ∧ (∀ c o, c < 32 → (s.enc c).owner = some o → hides (viewer h s) o s = true →
      cRegModify.taken h (modPs (0x00703000 + c * 0x10) 2 2) s = true →
      exec (.channelFaultClear h true c) s = .next (ok 0))
    ∧ (v < 256 → s.pow.inFields = true → cRegModify.taken h (modPs 0x00C00004 0xFF000000 (v * 2 ^ 24)) s = true →
      let w := cfg v s.pow.capmax s.pow.dramRate
      exec (.pwrCfgCap h v) s = .next (journalCmd h 0x0112 0x00C00004 w (if v = s.pow.cap then ok w
        else withCap (modPow (fun p => { p with cap := v })) (ok w))))
    ∧ (v < 256 → s.pow.inFields = true → cRegModify.taken h (modPs 0x00C00004 0x00FF0000 (v * 2 ^ 16)) s = true →
      let w := cfg (if v = s.pow.capmax then s.pow.cap else min s.pow.cap v) v s.pow.dramRate
      exec (.pwrCfgCapmax h v) s = .next (journalCmd h 0x0112 0x00C00004 w (if v = s.pow.capmax then ok w
        else withCap (modPow (fun p => { p with capmax := v, cap := min s.pow.cap v })) (ok w))))
    ∧ (v < 4 → s.pow.inFields = true → cRegModify.taken h (modPs 0x00C00004 0x00000300 (v * 2 ^ 8)) s = true →
      let w := cfg s.pow.cap s.pow.capmax v
      exec (.pwrCfgDramrate h v) s = .next (journalCmd h 0x0112 0x00C00004 w
        { ok w with pow := { s.pow with dramRate := v } }))
    ∧ (∀ (f : State → State) (u : State), withCap f u
        = if capW (f u) = capW u then f u else evPower 1 none (some (capW (f u))) (f u))
    ∧ (v < 2 ^ 32 → cRegWrite.taken h (writePs 0x00900020 v) s = true → (s.port h.port).secure = true →
      s.part.fdisSid = false → s.part.fdisNsid = false → s.fws.lockS = false → s.fws.lockNs = false →
      let f := { s.fws with
        lockS := v.testBit 17, lockNs := v.testBit 16, allowNs := v.testBit 8, sid := v.testBit 3, snid := v.testBit 2,
        nsid := v.testBit 1, nsnid := v.testBit 0,
        attached := s.fws.attached.filter (fun a => if a.2.2 then !s.fws.sid || v.testBit 3
          else !s.fws.nsid || v.testBit 1) }
      let w := b2n (v.testBit 17) * 2 ^ 17 + b2n (v.testBit 16) * 2 ^ 16 + b2n (v.testBit 8) * 2 ^ 8
        + b2n (v.testBit 3) * 2 ^ 3 + b2n (v.testBit 2) * 2 ^ 2 + b2n (v.testBit 1) * 2 + b2n (v.testBit 0)
      let t := { okReply 0x0111 h [] s with fws := f }
      exec (.fwsDbgenWrite h v) s = .next (if f = s.fws then t else journalCmd h 0x0111 0x00900020 w t)))

/-- The life of a tenant (R69, R70, R211). -/
def Obligations.TenantLifeCycle : Prop :=
  (∀ (h : Hdr) (ps : List Byte) (s : State),
    let n := h.tenant.toNat
    (cTenantOpen.taken h ps s = true → exec (.tenantOpen h ps) s = .next (markSecLive (setTenSt n .opened
      (resetBwr n ((okReply 0x0301 h [] s).setTen n { Tenant.fresh with secure := (s.port h.port).secure })))))
    ∧ (cTenantQuiesce.taken h ps s = true → exec (.tenantQuiesce h ps) s = .next (setTenSt n .quiesced
      ((acceptedReply 0x0302 h 0 s).2.setTen n { s.ten n with draining := true, tok := some s.sch.nTok })))
    ∧ (cTenantResume.taken h ps s = true → exec (.tenantResume h ps) s = .next
      (setTenSt n .opened (okReply 0x0303 h [] s)))
    ∧ (cTenantReset.taken h ps s = true → exec (.tenantReset h ps) s = .next (startStreams (setTenSt n .opened
      (modTen n (fun v => { v with cause := 0 }) (cancelQueued n (okReply 0x0305 h [] s))))))
    ∧ (cTenantClose.taken h ps s = true → exec (.tenantClose h ps) s = .next
      (let t1 := modTen n (fun v => { v with closing := true, tok := some s.sch.nTok }) (acceptedReply 0x0304 h 0 s).2
       let t2 := if (s.ten n).st = .opened then setTenSt n .quiesced t1 else t1
       cancelQueued n (runLoads
        ((t2.loads.filter (fun l => l.tenant == n)).foldl (fun s l => dropLoad STATE [] l s) t2))))
    ∧ (cTenantStatus.taken h ps s = true → exec (.tenantStatus h ps) s = .next (okReply 0x0306 h
      (if (s.ten n).st = .closed then zeros 5
       else leBytes 1 (s.ten n).st.code ++ leBytes 2 (queueMask s n) ++ leBytes 1 (s.ten n).cause
         ++ leBytes 1 (b2n (s.ten n).closing + 2 * b2n (s.ten n).draining)) s)))
  ∧ ∀ (t : Nat) (s : State),
    (tenBusy s t = false → s.fwDown fwSch = false →
      ((s.ten t).draining = true → exec (.tenantQuiesceDrained t) s = .next
        (completeOpt (s.ten t).tok OK [] (s.setTen t { s.ten t with draining := false, tok := none })))
      ∧ ((s.ten t).closing = true → exec (.tenantCloseDrained t) s = .next
        (let u := (s.progs.filter (fun _ p => p.tenant == t)).keys.foldl (fun s h => unloadProg h s) s
         let r := releasePages t (closeUnits t { u with queues := u.queues.filter (fun k _ => k / 16 != t) })
         completeOpt (s.ten t).tok OK [] (markSecLive ((setTenSt t .closed r).setTen t
           { Tenant.fresh with acct := (s.ten t).acct, vt := (s.ten t).vt })))))
    ∧ (∀ u, (s.ten t).closing = true → tenBusy s t = false → s.fwDown fwSch = false →
      exec (.tenantCloseDrained t) s = .next u → (u.ten t).st = .closed ∧ ∀ q, q < 16 → u.queue? t q = none)
    ∧ (∀ pg e, (releasePages t s).mem.own.get? pg = some e → e.owner = t → e.lock = true)

/-- The queue commands (R71, R72, R173). Doorbells (R174, R175) and the taking of entries (R178). -/
def Obligations.QueuesDoorbellsAndRings : Prop :=
  (∀ (h : Hdr) (ps : List Byte) (s : State),
    let k := h.tenant.toNat * 16 + h.queue.toNat
    (cQueueCreate.taken h ps s = true → exec (.queueCreate h ps) s = .next
      { okReply 0x0310 h [] s with queues := s.queues.set k ⟨u8 ps 0, u16 ps 2, none, 0, 0, 0, 0, 0, false, Map.empty⟩ })
    ∧ (cQueueDestroy.taken h ps s = true → exec (.queueDestroy h ps) s = .next
      { okReply 0x0311 h [] s with queues := s.queues.erase k })
    ∧ (∀ q, s.queues.get? k = some q → cQueueRings.taken h ps s = true → exec (.queueRings h ps) s = .next
      { okReply 0x0313 h [] s with queues := s.queues.set k { q with rings := some (u64 ps 0, u64 ps 8) } })
    ∧ (∀ q, s.queues.get? k = some q → cQueueStatus.taken h ps s = true → exec (.queueStatus h ps) s = .next
      (okReply 0x0312 h (leBytes 2 q.cls ++ leBytes 2 q.depth
        ++ leBytes 2 (queueJobs s h.tenant.toNat h.queue.toNat - queueInFlight s h.tenant.toNat h.queue.toNat)
        ++ leBytes 2 (queueInFlight s h.tenant.toNat h.queue.toNat)) s)))
  ∧ (∀ (w : DoorWrite) (t qn o : Nat), t < 64 → qn < 16 → (o = 0 ∨ o = 4) →
      (queueDoor w = some (t, qn, o) ↔ w.size = 4 ∧ w.off = t * 0x1000 + qn * 0x40 + o))
  ∧ (∀ (w : DoorWrite) (s : State), (∀ t qn, queueDoor w ≠ some (t, qn, 0)) → exec (.sqTailWrite w) s = .next s)
  ∧ (∀ (w : DoorWrite) (s : State), (∀ t qn, queueDoor w ≠ some (t, qn, 4)) → exec (.cqHeadWrite w) s = .next s)
  ∧ (∀ (t qn v : Nat) (s : State), t < 64 → qn < 16 →
    let at_ := t * 0x1000 + qn * 0x40
    (∀ q, s.queues.get? (qkey t qn) = some q → q.rings.isSome = true → (s.ten t).st = .opened →
      (sqAhead q v ≤ q.depth → exec (.sqTailWrite ⟨at_, 4, v⟩) s = .next { s with
        queues := s.queues.set (qkey t qn) { q with sqTail := v % 2 ^ 32, overrun := false } })
      ∧ (q.depth < sqAhead q v → exec (.sqTailWrite ⟨at_, 4, v⟩) s = .next (faultTenant t 1 { s with
        queues := s.queues.set (qkey t qn) { q with sqTail := v % 2 ^ 32, overrun := true } }))
      ∧ exec (.cqHeadWrite ⟨at_ + 4, 4, v⟩) s = .next { s with
        queues := s.queues.set (qkey t qn) { q with cqHead := v % 2 ^ 32 } })
    ∧ ((∀ q, s.queues.get? (qkey t qn) = some q → q.rings = none ∨ (s.ten t).st ≠ .opened) →
      exec (.sqTailWrite ⟨at_, 4, v⟩) s = .next (s.setTen t { s.ten t with
        acct := { (s.ten t).acct with dbign := min 0xFFFFFFFF ((s.ten t).acct.dbign + 1) } })
      ∧ exec (.cqHeadWrite ⟨at_ + 4, 4, v⟩) s = exec (.sqTailWrite ⟨at_, 4, v⟩) s)
    ∧ (∀ q sq cq, s.queues.get? (qkey t qn) = some q → q.rings = some (sq, cq) → (s.ten t).st = .opened →
      s.fwDown fwSch = false → s.dev.st ∈ [DevSt.ready, .run, .degraded, .service] → q.overrun = false →
      sqAhead q q.sqTail ≠ 0 → queueJobs s t qn < q.depth → cqOwed q + queueJobs s t qn < q.depth →
      let a := sq + q.sqHead % q.depth * 64
      let rd := devRead (accSch t) a 64 s
      let r := rd.2
      let r' := { r with queues := r.queues.set (qkey t qn) { q with sqHead := (q.sqHead + 1) % 65536 } }
      exec (.sqEntryTake t qn) s = .next
        (if descStatus r t q.cls rd.1 = OK then takeJob (jobOf r t qn q rd.1 none) r'
         else deliver (jobOf r t qn q rd.1 none) (descStatus r t q.cls rd.1) 0 0 0 (countTaken t qn r'))
      ∧ (accessCheck s (accSch t) a 64 = 0 → rtLocked s a 64 = false → rd = (dramRead s a 64, s))))

/-- The job commands (R172, R196). -/
def Obligations.JobCommands : Prop :=
  ∀ (h : Hdr) (ps : List Byte) (s : State),
    let t := h.tenant.toNat
    let qn := h.queue.toNat
    (∀ q, s.queues.get? (qkey t qn) = some q → cJobSubmit.taken h ps s = true → exec (.jobSubmit h ps) s = .next
      (takeJob (jobOf (acceptedReply 0x0320 h 64 s).2 t qn q ps (some s.sch.nTok)) (acceptedReply 0x0320 h 64 s).2))
    ∧ (∀ id j, findJob s t qn (u32 ps 0) = some (id, j) → cJobCancel.taken h ps s = true →
      exec (.jobCancel h ps) s = .next (stopJob id FAULT 3 (okReply 0x0321 h [] s)))
    ∧ (findJob s t qn (u32 ps 0) = none → cJobCancel.taken h ps s = true →
      exec (.jobCancel h ps) s = .next (okReply 0x0321 h [] s))
    ∧ (∀ id j, findJob s t qn (u32 ps 0) = some (id, j) → cJobStatus.taken h ps s = true →
      exec (.jobStatus h ps) s = .next
        (okReply 0x0322 h (leBytes 1 j.st.code ++ [0x00] ++ leBytes 2 (min 0xFFFF j.preempts)) s))
    ∧ (∀ q, s.queues.get? (qkey t qn) = some q → findJob s t qn (u32 ps 0) = none → cJobStatus.taken h ps s = true →
      exec (.jobStatus h ps) s = .next (okReply 0x0322 h
        ([0x04, 0x00] ++ leBytes 2 ((q.outcomes.get? (u32 ps 0)).elim 0 (fun x => x.2))) s))

/-- Partitions (R194, R195) and sequence batches (R192, R193). -/
def Obligations.PartitionAndBatchCommands : Prop :=
  ∀ (h : Hdr) (ps : List Byte) (s : State),
    let n := h.tenant.toNat
    (cPartitionSet.taken h ps s = true → ∃ tiles csram, exec (.partitionSet h ps) s = .next
        (modTen n (fun v => { v with part := ⟨tiles, csram, u16 ps 36, u16 ps 38⟩ })
          (journalCmd h 0x0330 0 (u32 ps 36) (okReply 0x0330 h [] s)))
      ∧ ∀ c, c < 12 → csram.getD c 0 = u8 ps (24 + c) ∧ tiles.getD c 0
          = (List.range 13).foldl (fun a i => a + (if bit (u16 ps (2 * c)) i && s.rolledTile c i then 2 ^ i else 0)) 0)
    ∧ (cPartitionGet.taken h ps s = true → (s.ten n).st ≠ .closed → exec (.partitionGet h ps) s = .next
      (okReply 0x0331 h (partBytes (s.ten n).part) s))
    ∧ (cPartitionGet.taken h ps s = true → (s.ten n).st = .closed → exec (.partitionGet h ps) s = .next
      (okReply 0x0331 h (zeros 36 ++ leBytes 2 0 ++ leBytes 2 1) s))
    ∧ (∀ p, s.progs.get? (u16 ps 0) = some p → cBatchJoin.taken h ps s = true → exec (.batchJoin h ps) s = .next
      { (acceptedReply 0x0350 h 2 s).2 with
        progs := s.progs.set (u16 ps 0) { p with changes := p.changes ++ [⟨true, u32 ps 4, u16 ps 2, s.sch.nTok⟩] } })
    ∧ (∀ p, s.progs.get? (u16 ps 0) = some p → cBatchLeave.taken h ps s = true → exec (.batchLeave h ps) s = .next
      { (acceptedReply 0x0351 h 0 s).2 with
        progs := s.progs.set (u16 ps 0) { p with changes := p.changes ++ [⟨false, u32 ps 4, 0, s.sch.nTok⟩] } })
    ∧ (∀ p, s.progs.get? (u16 ps 0) = some p → cBatchStatus.taken h ps s = true → exec (.batchStatus h ps) s = .next
      (okReply 0x0352 h (leBytes 2 p.members.length ++ leBytes 2 (p.storePages - p.usedPages.length)
        ++ leBytes 4 p.steps) s))

/-- The order of dispatch (R182 to R186). -/
def Obligations.DispatchOrder : Prop :=
  ∀ (s : State),
    (mayDispatch s = true →
      (∀ id, pickLc s = some id → exec .jobDispatch s = .next (startJob id s))
      ∧ (∀ k, pickLc s = none → pickGolden s = some k → exec .jobDispatch s = .next (startGolden k s))
      ∧ (∀ id, pickLc s = none → pickGolden s = none → pickResume s = none → pickBe s = some id →
          exec .jobDispatch s = .next (startJob id s)))
    ∧ (∀ id j p, s.jobs.get? id = some j → s.progs.get? j.prog = some p → j.kind = 0 → j.role = .user →
      ∃ j', (startJob id s).jobs.get? id = some j' ∧ j'.st = .running ∧ j'.tDispatch = some s.time.ns
        ∧ j'.tiles = progTiles p.binds ∧ j'.waitTiles = j'.tiles.filter (tileHeld s)
        ∧ (∀ t, (j'.hold.get? t).isSome = true ↔ t ∈ j'.tiles ∧ tileHeld s t = false)
        ∧ (startJob id s).sch.nDisp = s.sch.nDisp + 1 ∧ (startJob id s).mem.dram = s.mem.dram)
    ∧ (∀ id j, (s.running || s.dev.st == .service) = true → pickResume s = some id → s.jobs.get? id = some j →
      olderWork s id = false →
      let u := (j.reads.filterMap (fun r => r.held.map (fun d => (r.token, d)))).foldl
        (fun s r => takeReply id r.1 r.2 s) { s with jobs := s.jobs.set id { j with
          st := .running, hold := j.tiles.foldl (fun m t => m.set t s.time.ns) Map.empty,
          reads := (j.reads.filter (fun r => r.held.isNone)).map (fun r => { r with parked := false, reissue := false }) } }
      exec .jobResume s = .next (if j.pendMis = true then pairMismatch id u else u))

/-- Pre-emption, remote waits and limits (R185 to R190, R386). -/
def Obligations.PreemptionEvents : Prop :=
  ∀ (id tile : Nat) (j : Job) (s : State), s.jobs.get? id = some j →
    (∀ ws, j.st = .running → j.stopReq = true → j.endAt = none → (j.hold.get? tile).isSome = true →
      tile ∉ j.stopped → exec (.yieldPointStop id tile [] ws) s = .next { s with jobs := s.jobs.set id { j with
        stopped := tile :: j.stopped, writes := j.writes ++ ws.map (fun w => ⟨w, false⟩) } })
    ∧ (∀ t0, j.st = .running → j.stopReq = true → tile ∈ j.stopped → j.writes = [] → j.hold = ⟨[(tile, t0)]⟩ →
      let r := releaseTiles id (fun t => t == tile) s
      let j' := { j with hold := ⟨[]⟩, etime := j.etime + (s.time.ns - t0) }
      r = chargeTen j.tenant (j.lc || j.golden) (s.time.ns - t0) { s with jobs := s.jobs.set id j' }
      ∧ (j.endAt = none → exec (.contextSaveDone id tile) s = .next (grantTiles (modTen j.tenant
          (fun v => { v with acct := { v.acct with pre := min 0xFFFFFFFF (v.acct.pre + 1) } })
          { r with jobs := r.jobs.set id { j' with
            st := .preempted, stopReq := false, stopped := [], waitTiles := [], preempts := j.preempts + 1 } })))
      ∧ (∀ st fc, j.endAt = some (st, fc) → exec (.contextSaveDone id tile) s = .next (endJob id st fc 0 r)))
    ∧ (∀ port token data,
      let left := j.reads.any (fun r => r.token == token && (r.parked || r.reissue))
      (∀ p, s.progs.get? j.prog = some p → p.img.paired = false → j.st = .running → left = false →
        exec (.remoteReply id port tile token data) s = .next { s with jobs := s.jobs.set id { j with
          reads := j.reads.filter (fun r => r.token != token), got := (token, data) :: j.got } })
      ∧ ((j.st = .preempted ∨ j.st = .running ∧ left = true) →
        exec (.remoteReply id port tile token data) s = .next { s with jobs := s.jobs.set id { j with
          reads := j.reads.map (fun r => if r.token = token ∧ r.port = port ∧ r.tile = tile ∧ r.parked = true
            then { r with held := some data } else r) } }))
    ∧ (∀ token, j.inFlight = true → exec (.remoteWriteDone id token true) s = .next { s with
        jobs := s.jobs.set id { j with writes := j.writes.filter (fun w => w.token != token) } })
    ∧ (∀ token, j.inFlight = true → exec (.remoteWriteDone id token false) s = .next (endJob id FAULT 5 0 s))
    ∧ (∀ token, j.inFlight = true → j.reads.any (fun r => r.token == token && r.parked) = true →
      exec (.parkTimeout id token) s = .next { s with
        jobs := s.jobs.set id { j with reads := j.reads.map (fun r =>
          if r.token = token ∧ r.parked = true then { r with parked := false, held := none, reissue := true } else r) },
        sch := { s.sch with parkExp := min 0xFFFF (s.sch.parkExp + 1) } })
    ∧ (∀ port token, j.inFlight = true → j.reads.any (fun r => r.token == token && (r.parked || r.again)) = false →
      exec (.remoteTimeout id port tile token false) s = .next { s with jobs := s.jobs.set id { j with
        reads := j.reads.filter (fun r => r.token != token) ++ [⟨port, token, tile, false, none, false, true⟩] } })
    ∧ (∀ port token, j.inFlight = true → j.reads.any (fun r => r.token == token && r.parked) = false →
      j.reads.any (fun r => r.token == token && r.again) = true →
      exec (.remoteTimeout id port tile token false) s = .next (endJob id FAULT 0x0B01 0 s))
    ∧ (∀ port token, j.inFlight = true → j.writes.any (fun w => w.token == token && w.again) = true →
      exec (.remoteTimeout id port tile token true) s = .next (endJob id FAULT 5 0 s))
    ∧ (j.inFlight = true → j.tlimit ≠ 0 → j.st ≠ .committing →
      exec (.tlimitExpiry id) s = .next (stopJob id TIMEOUT 0 s))
    ∧ (j.tlimit ≠ 0 → j.st = .committing → j.endAt = none → exec (.tlimitExpiry id) s = .next { s with
        jobs := s.jobs.set id { j with endAt := some (TIMEOUT, 0) } })

/-- COMMITTING and chain commits (R188, R191, R320, R382). -/
def Obligations.JobsFinish : Prop :=
  ∀ (id : Nat) (j : Job) (s : State), s.jobs.get? id = some j →
    (j.st = .running → j.waitTiles = [] →
      let c := { s with jobs := s.jobs.set id { j with st := .committing, stopReq := false, stopped := [] } }
      (∀ st fc, j.endAt = some (st, fc) → exec (.jobSlotsFinished id) s = .next (endJob id st fc 0 s))
      ∧ (j.endAt = none →
        (j.parts ≠ [] → s.chn.st ≠ 3 → exec (.jobSlotsFinished id) s = .next (endJob id TIMEOUT 0 0 c))
        ∧ ((j.parts = [] ∨ s.chn.st = 3) →
          (j.role = .user → (isFrame c j && s.skk.chkrun && !s.skk.debug) = true →
            exec (.jobSlotsFinished id) s = .next (queueChk id c))
          ∧ (j.role = .user → (isFrame c j && s.skk.chkrun && !s.skk.debug) = false →
            exec (.jobSlotsFinished id) s = .next (passJob id false c))
          ∧ (∀ i, j.role = .golden i → exec (.jobSlotsFinished id) s = .next (goldenDone id c))
          ∧ (∀ i, j.role = .eval i → s.skk.debug = false → exec (.jobSlotsFinished id) s = .next (queueChk id c))
          ∧ (∀ i, j.role = .eval i → s.skk.debug = true →
            exec (.jobSlotsFinished id) s = .next (endJob id INVALID_OUTPUT 0 0 c)))))
    ∧ (∀ m, s.chn.role = 1 → s.chn.st = 3 → j.inFlight = true →
      let r := { s with jobs := s.jobs.set id { j with reported := m :: j.reported } }
      let all := j.prepared && j.parts.all (fun p => p == m || j.reported.contains p)
      exec (.chainJobPrepare id m) s = .next (if all = true then commitChain id j.checked r else r))
    ∧ (∀ e, j.prepared = true → s.sch.epoch ≤ e → exec (.chainJobCommit id e) s = .next
        (adoptEpoch (commitAt id e j.checked { s with sch := { s.sch with epoch := e } })))
    ∧ (j.inFlight = true → j.parts ≠ [] → exec (.prepareTimeout id) s = .next (adoptEpoch (endJob id TIMEOUT 0 0 s)))

/-- Loading and unloading (R119, R134, R137). A load waits while an earlier one has yet to make its
steps. -/
def Obligations.ProgramLoadAndInfo : Prop :=
  (∀ (h : Hdr) (ps : List Byte) (s : State),
    let n := h.tenant.toNat
    let k := u16 ps 0
    let a := (acceptedReply 0x0201 h 28 s).2
    let b := (acceptedReply 0x0202 h 28 s).2
    let waits := loadsWait s && step1Ok s n ps
    (∀ img bs cs, cProgLoad.taken h ps s = true → waits = false → fitCheck a n ps false = .fit img bs cs →
      exec (.progLoad h ps) s = .next (reserve (mkLoad s.sch.nTok n ps .copying img bs cs
        (imgBytes (dramRead s (u64 ps 0) 256)) none) a))
    ∧ (∀ st d, cProgLoad.taken h ps s = true → waits = false → fitCheck a n ps false = .fail st d →
      exec (.progLoad h ps) s = .next (complete s.sch.nTok st d a))
    ∧ (cProgLoad.taken h ps s = true → waits = true →
      exec (.progLoad h ps) s = .next { a with loads := s.loads ++ [waitLoad s.sch.nTok n ps .waitLoad none a] })
    ∧ (∀ img bs cs, cProgFitcheck.taken h ps s = true → waits = false → fitCheck b n ps false = .fit img bs cs →
      exec (.progFitcheck h ps) s = .next (complete s.sch.nTok OK (bindData 0 img bs) b))
    ∧ (∀ st d, cProgFitcheck.taken h ps s = true → waits = false → fitCheck b n ps false = .fail st d →
      exec (.progFitcheck h ps) s = .next (complete s.sch.nTok st d b))
    ∧ (cProgFitcheck.taken h ps s = true → waits = true →
      exec (.progFitcheck h ps) s = .next { b with loads := s.loads ++ [waitLoad s.sch.nTok n ps .waitFit none b] })
    ∧ (∀ p, s.progs.get? k = some p → cProgUnload.taken h ps s = true → exec (.progUnload h ps) s = .next
        (endJobs (fun j => j.prog == k && j.st == .queued && j.role == .user) STATE 0
          { (acceptedReply 0x0203 h 0 s).2 with
            progs := s.progs.set k { p with stopped := true, unloadTok := some s.sch.nTok } }))
    ∧ (∀ p, s.progs.get? k = some p → h.tenant ≠ 0xFF → cProgInfo.taken h ps s = true →
      exec (.progInfo h ps) s = .next (okReply 0x0205 h (progInfo k p) s))
    ∧ (h.tenant = 0xFF → cProgInfo.taken h ps s = true → exec (.progInfo h ps) s = .next (okReply 0x0205 h
      (padTo 60 (leBytes 4 fmtMajors ++ leBytes 4 ((2 ^ 30 - s.storeUsed) / 2 ^ 20)
        ++ leBytes 2 s.progs.cells.length)) s)))
  ∧ ∀ (s : State), s.fwDown fwSch = false →
    (∀ i l, s.loads[i]? = some l → l.st = .copying → l.replace = none →
      let k := nextHandle s
      let c := copyWeights l s
      let n := { c with
        loads := s.loads.filter (fun x => x.tok != l.tok), progs := s.progs.set k (newProg l s.sch.nImages),
        sch := { s.sch with lastHandle := k, nImages := s.sch.nImages + 1 } }
      let p := newProg l s.sch.nImages
      exec (.progLoadComplete i) s = .next (complete l.tok OK (bindData k l.img l.binds)
        (fillResident k 0 (clearLost l (if s.running = true then firstCover k n else n))))
      ∧ p.tenant = l.tenant ∧ p.img = l.img ∧ p.binds = l.binds ∧ p.live = 0 ∧ p.gen = 0 ∧ p.sb = .free)
    ∧ (∀ g p, s.progs.get? g = some p → p.unloadTok.isSome = true → progBusy s g = false →
      exec (.progUnloadDrained g) s = .next (completeOpt p.unloadTok OK []
        (unloadProg g { s with progs := s.progs.set g { p with unloadTok := none } })))

/-- Replacing a program (R138). -/
def Obligations.ProgramReplacement : Prop :=
  (∀ (h : Hdr) (ps : List Byte) (s : State) (p : Prog), s.progs.get? (u16 ps 40) = some p →
    cProgReplace.taken h ps s = true →
    let n := h.tenant.toNat
    let k := u16 ps 40
    let a := (acceptedReply 0x0204 h 28 s).2
    let m := { a with progs := s.progs.set k { p with replacing := true } }
    (u8 ps 42 = 1 → step1Ok s n ps = true →
      exec (.progReplace h ps) s = .next { m with
        loads := s.loads ++ [waitLoad s.sch.nTok n ps .draining (some (k, 1)) a] })
    ∧ (u8 ps 42 = 1 → step1Ok s n ps = false → exec (.progReplace h ps) s = .next (complete s.sch.nTok DENIED [] a))
    ∧ (u8 ps 42 = 0 → (loadsWait s && step1Ok s n ps) = true → exec (.progReplace h ps) s = .next { m with
        loads := s.loads ++ [waitLoad s.sch.nTok n ps .waitLoad (some (k, 0)) a] })
    ∧ (u8 ps 42 = 0 → (loadsWait s && step1Ok s n ps) = false →
      (∀ img bs cs, replaceCheck a n p ps = .fit img bs cs →
        exec (.progReplace h ps) s = .next (reserve (mkLoad s.sch.nTok n ps .copying img bs cs
          (imgBytes (dramRead s (u64 ps 0) 256)) (some (k, 0))) m))
      ∧ (∀ st d, replaceCheck a n p ps = .fail st d →
        exec (.progReplace h ps) s = .next (complete s.sch.nTok st d a))))
  ∧ ∀ (s : State) (g : Nat) (p : Prog) (l : Load), s.progs.get? g = some p → s.fwDown fwSch = false →
    (loadOf s g .draining = some l → progBusy s g = false →
      exec (.progReplaceDrained g) s = .next (runLoads (endDrain l s))
      ∧ ∀ img bs cs, l.replace = some (g, 1) → s.loads.filter (fun x => x.tok == l.tok) = [l] →
        s.loads.all (fun x => x.tok == l.tok || x.st == .copying) = true →
        replaceCheck (asFree g p (endDrain l s)) l.tenant p l.params = .fit img bs cs →
        exec (.progReplaceDrained g) s = .next
          (reserveWaiting { l with st := .copying, img := img, binds := bs, copies := cs } (endDrain l s)))
    ∧ (loadOf s g .copying = some l →
      let f := if p.sb = .free then copyWeights l s else freeCand g 5 STATE (copyWeights l s)
      let used := f.jobs.any (fun _ j => j.prog == g && j.inFlight && j.image == p.imageNo)
      let r := modProg g (fun q => { q with
        img := l.img, imageNo := f.sch.nImages, regBase := l.regBase, regSize := l.regSize, batch := l.batch,
        binds := l.binds, old := if used = true then p.old ++ [(⟨p.imageNo, p.img, p.binds⟩ : OldImg)] else p.old,
        live := 0, gen := (q.gen + 1) % 2 ^ 32, expected := l.img.golden, gNext := 0, replacing := false }) f
      exec (.progReplaceSwitch g) s = .next (complete l.tok OK (bindData g l.img l.binds)
        (evProg g p.tenant 4 0xFF 0xFF 0xFF (fillResident g 0 { r with
          loads := r.loads.filter (fun x => x.tok != l.tok),
          sch := { r.sch with nImages := r.sch.nImages + 1 } }))))

/-- The standby bank (R105, R109). -/
def Obligations.WeightBankCommands : Prop :=
  ∀ (h : Hdr) (ps : List Byte) (s : State),
    let k := u16 ps 0
    (∀ p, s.progs.get? k = some p →
      (cWbankStatus.taken h ps s = true → exec (.wbankStatus h ps) s = .next (okReply 0x0260 h
        (leBytes 1 p.live ++ leBytes 1 p.sb.code ++ leBytes 1 p.reason ++ [0x00] ++ leBytes 4 p.gen
          ++ leBytes 1 (b2n p.cand.isSome) ++ zeros 3) s))
      ∧ (cWbankOpen.taken h ps s = true → exec (.wbankOpen h ps) s = .next (setBank k .writing 0
        { okReply 0x0261 h [] s with progs := s.progs.set k { p with sbHost := true } }))
      ∧ (cWbankSubmit.taken h ps s = true → exec (.wbankSubmit h ps) s = .next
        (startEval k (u16 ps 2) (some s.sch.nTok) (acceptedReply 0x0262 h 0 s).2))
      ∧ (cWbankAbandon.taken h ps s = true → exec (.wbankAbandon h ps) s = .next
        (freeCand k 3 STATE (okReply 0x0263 h [] s))))
    ∧ (∀ g p, s.progs.get? g = some p → p.sb = .evaluating → exec (.evalMsExpiry g) s = .next (freeCand g 2 TIMEOUT s))
    ∧ (∀ g r p, s.progs.get? g = some p → ∃ q, (setBank g .writing r s).progs.get? g = some q ∧ q.sb = .writing)

/-- The scale byte of an extent (R87) and the codes under it (R88). -/
def Obligations.QuantiserPicksSmallestScale : Prop :=
  ∀ (w amax : Nat), 2 ≤ w →
    scaleByte w 0 = 0
    ∧ (∀ n m e, amax ≠ 0 → fdecode fp32 amax = .fin n m e →
      1 ≤ scaleByte w amax ∧ scaleByte w amax ≤ 0xFF
      ∧ (∀ c, 1 ≤ c → c < scaleByte w amax → dyLe m e ((scaleVal c).1 * cmaxOf w) (scaleVal c).2 = false)
      ∧ (scaleByte w amax < 0xFF →
        dyLe m e ((scaleVal (scaleByte w amax)).1 * cmaxOf w) (scaleVal (scaleByte w amax)).2 = true))
    ∧ (∀ x, quantOne w 0 x = (0, false))
    ∧ (∀ sb x, -(cmaxOf w : Int) ≤ (quantOne w sb x).1 ∧ (quantOne w sb x).1 ≤ (cmaxOf w : Int))

/-- Accumulation in the matrix unit (R77, R85). -/
def Obligations.IntegerAccumulationSaturates : Prop :=
  (∀ (l : List Int) (a : Int) (f : Bool), -(2 ^ 31 : Int) ≤ a → a ≤ 2 ^ 31 - 1 →
    let r := l.foldl addInt (a, f);
    -(2 ^ 31 : Int) ≤ r.1 ∧ r.1 ≤ 2 ^ 31 - 1 ∧ (f = true → r.2 = true) ∧ (r.2 = false → r.1 = a + l.sum))
  ∧ ∀ (wa wb acc sa sb : Nat) (a b : List Nat), sa = 0 ∨ sb = 0 → addGroup wa wb acc a b sa sb = acc

/-- WRITEBACK (R89, R92, R124) and BLOCK_PAIR_FETCH (R96, R97, R100). -/
def Obligations.TileResultsAndSkew : Prop :=
  ∀ (s : State),
    (∀ job cl tile src conv dest j, s.jobs.get? job = some j → j.st = .running → wbFits src conv dest = true →
      roleOk s j dest = true →
      (∀ u, wbRows job cl tile src s = (none, u) → exec (.writeback job cl tile src conv dest) s = .next u)
      ∧ (∀ rows u, wbRows job cl tile src s = (some rows, u) →
        let nf := if convTakesFloat conv = true then (rows.flatten.filter fnonfin).length else 0
        let r := convWrites conv dest rows
        (nf ≠ 0 → jobNfmode s j = 0 →
          exec (.writeback job cl tile src conv dest) s = .next (endJob job FAULT 1 0 (countNonfin cl 1 u)))
        ∧ ((nf = 0 ∨ jobNfmode s j ≠ 0) →
          exec (.writeback job cl tile src conv dest) s = .next (r.1.foldl (fun s w => wbWrite job cl dest w s)
            (modCl cl (fun c => { c with
              ocsat := c.ocsat || r.2.1, qsat := c.qsat || decide (r.2.2 ≠ 0),
              qsatCnt := min 0xFFFF (c.qsatCnt + r.2.2) }) (countNonfin cl nf u)))))
      ∧ (∀ f blks vs u, loadBlks job cl tile f blks s = (some vs, u) →
        wbRows job cl tile (.acc f blks none) s = (some (joinBlks (vs.map (fun v => v.2.1))),
          modCl cl (fun c => { c with accsat := c.accsat || vs.any (fun v => v.2.2) }) (modCl cl (fun c => { c with
            acc := vs.foldl (fun m v => m.set (tile * 16 + v.1) v.2.1.flatten) c.acc }) u))))
    ∧ (∀ cl fs,
      let r := fs.foldl (fetchPair cl) ([], s)
      (r.1 = [] → exec (.blockPairFetch cl fs) s = .next r.2)
      ∧ (r.1 ≠ [] → ∃ c, c ∈ r.1 ∧ (∀ d ∈ r.1, pairRank c ≤ pairRank d)
        ∧ exec (.blockPairFetch cl fs) s = .next
          (r.1.foldl (fun s c => endJob c.job SCALE_SKEW 0 0 s) (r.2.setCl cl (logSkew c (r.2.cl cl))))))
    ∧ (∀ cl f j acc, s.jobs.get? f.job = some j → j.st = .running →
      let d := workBytes f.job cl f.src.unit (dataAt f.src f.blk) (dataLen f.src f.blk) s
      let c := workBytes f.job cl f.src.unit (scaleAt f.src f.blk) 64 d.2
      let k := pairCheckOf f.job f.tiles f.dma f.gen f.src f.blk d.1 c.1
      ((c.2.jobs.get? f.job).isSome = true → pairFails k = true → fetchPair cl (acc, s) f = (acc ++ [k], c.2))
      ∧ ((c.2.jobs.get? f.job).isSome = true → pairFails k = false → ∀ u a b, f.dst = some (u, a, b) →
        fetchPair cl (acc, s) f = (acc, sramWrite f.job cl u b c.1 (sramWrite f.job cl u a d.1 c.2))))

/-- Halo transfers (R150, R152). -/
def Obligations.HaloCreditsAndStaleRows : Prop :=
  (∀ (job idx copy step waitUs : Nat) (j : Job) (d : HaloDecl) (s : State),
    s.jobs.get? job = some j → haloDecl s j idx = some d → j.st = .running →
    let b := haloBuf s job idx copy d.depth
    let cl := slotCluster s j copy d.consumer
    let s1 := modCl cl (fun c => { c with haloDw := min 0xFFFFFFFF (c.haloDw + waitUs) }) s
    (∀ rows, b.space ≠ 0 → exec (.haloEntryWrite job idx copy step waitUs rows) s = .next
      (modCl (slotCluster s j copy d.producer) (fun c => { c with haloSw := min 0xFFFFFFFF (c.haloSw + waitUs) })
        (setHalo { b with
          entries := b.entries ++ [(step % 65536, j.dispNo % 256, rows)], space := b.space - 1 } s)))
    ∧ (∀ unit off rows t, b.entries = (step % 65536, j.dispNo % 256, rows) :: t →
      exec (.haloEntryRead job idx copy step waitUs unit off) s = .next
        (sramWrite job cl unit off rows (setHalo { b with entries := t, space := b.space + 1 } s1)))
    ∧ (∀ unit off st tag rows t, b.entries = (st, tag, rows) :: t → (st ≠ step % 65536 ∨ tag ≠ j.dispNo % 256) →
      exec (.haloEntryRead job idx copy step waitUs unit off) s = .next
        (endJob job FAULT 2 0 (modCl cl (fun c => { c with stale := true }) s1))))
  ∧ ∀ (job cl unit off : Nat) (bs : List Byte) (s : State),
    let span := sramSpan s job cl unit
    (off + bs.length ≤ span.2 → sramWrite job cl unit off bs s
      = modCl cl (fun c => { c with sram := c.sram.writeN (span.1 + off) bs }) s)
    ∧ (span.2 < off + bs.length → sramWrite job cl unit off bs s = sramViolate job true off s)

/-- Colander calls (R160 to R168). The output area of a call (R164): a header of 64 bytes and MAXKEEP records of 32. -/
def Obligations.ColanderCallsAndRecords : Prop :=
  ((∀ (job cl : Nat) (desc : List Byte) (j : Job) (s : State), s.jobs.get? job = some j → j.st = .running →
    let c := s.cld (cl / 6)
    let call : ClCall := ⟨job, cl, j.lc, desc⟩
    (c.running = none → exec (.colanderCall job cl desc) s = .next
      (s.setCld (cl / 6) (startCall { c with queue := c.queue ++ [call] })))
    ∧ (∀ r, c.running = some r → (j.lc && !r.lc) = false → exec (.colanderCall job cl desc) s = .next
      (s.setCld (cl / 6) (startCall { c with queue := c.queue ++ [call] })))
    ∧ (∀ r, c.running = some r → (j.lc && !r.lc) = true → exec (.colanderCall job cl desc) s = .next
      (s.setCld (cl / 6) (startCall { c with
        queue := c.queue ++ [call], running := none, saved := some r, preempted := true,
        preempts := min 0xFFFF (c.preempts + 1) }))))
  ∧ (∀ (die : Nat) (r : ClCall) (j : Job) (s : State), (s.cld die).running = some r → s.jobs.get? r.job = some j →
    cdMode r.desc 0 = false → cdMode r.desc 4 = false → 2 ^ 48 ≤ u64 r.desc 56 → 2 ^ 48 ≤ u64 r.desc 72 →
    let nb := cdN r.desc * 4 * cdElem r.desc
    let ns := cdN r.desc * cdC r.desc * cdElem r.desc
    let span := sramSpan s r.job r.cl 13
    u64 r.desc 56 - 2 ^ 48 + nb ≤ span.2 → u64 r.desc 72 - 2 ^ 48 + ns ≤ span.2 →
    let c := s.cld die
    let s1 := s.setCld die (startCall { c with running := none, calls := (c.calls + 1) % 65536 })
    let sram := fun a n => (s.cl r.cl).sram.readN (span.1 + (a - 2 ^ 48)) n
    let o := cdRun r.desc (sram (u64 r.desc 56) nb) [] (sram (u64 r.desc 72) ns) []
    ((o.2 = 0 ∨ jobNfmode s j ≠ 0) →
      exec (.colanderCallDone die) s = .next (jobWrite r.job r.cl (u64 r.desc 88) o.1 (countNonfin r.cl o.2 s1)))
    ∧ (o.2 ≠ 0 → jobNfmode s j = 0 →
      exec (.colanderCallDone die) s = .next (endJob r.job FAULT 1 0 (countNonfin r.cl 1 s1)))))
  ∧ (∀ (d boxes anch scores thr : List Byte),
    (cdRun d boxes anch scores thr).1.length = 64 + 32 * cdMaxKeep d
    ∧ leNat ((cdRun d boxes anch scores thr).1.take 4) ≤ cdMaxKeep d)

/-- Writes and zeroing of DRAM (R201, R209, R214). -/
def Obligations.DramReadsBackWhatWasWritten : Prop :=
  ∀ (a : Nat) (bs : List Byte) (first count : Nat) (s : State),
    dramRead (dramWrite a bs s) a bs.length = bs
    ∧ (∀ x, (x < a ∨ a + bs.length ≤ x) → (dramWrite a bs s).mem.dram.read x = s.mem.dram.read x)
    ∧ (bs ≠ [] → ∀ b ∈ (dramWrite a bs s).mem.poison, b * 64 + 64 ≤ a ∨ a + bs.length ≤ b * 64)
    ∧ (s.mem.dram.wf = true → (dramWrite a bs s).mem.dram.wf = true ∧ (zeroPages first count s).mem.dram.wf = true)
    ∧ (∀ x, (zeroPages first count s).mem.dram.read x
        = if first * 2 ^ 20 ≤ x ∧ x < first * 2 ^ 20 + count * 2 ^ 20 then 0 else s.mem.dram.read x)

/-- The memory check (R206) and what fails it (R208). -/
def Obligations.DramAccessesAreChecked : Prop :=
  (∀ (src ten reason a : Nat) (secure write : Bool) (s : State),
    recordViol src secure write ten reason a s = { s with mem := { s.mem with
      violAddr := if s.mem.viol = true then s.mem.violAddr else a % 2 ^ 48,
      violWord := if s.mem.viol = true then s.mem.violWord
        else fld reason 28 4 + fld src 26 2 + fld (b2n secure) 25 1 + fld (b2n write) 24 1 + fld ten 16 8,
      viol := true, violCnt := min 0xFFFF (s.mem.violCnt + 1) } })
  ∧ ∀ (s : State) (addr : Nat), (∀ n, poisoned s addr n = false) → (∀ n, rtLocked s addr n = false) →
    (∀ ep, s.portsUp = true → ep < s.nEp →
      (∀ d, addr + d.length ≤ s.bar4 →
        (accessCheck s accHost addr d.length = 0 →
          exec (.hostBar4Access ep addr (.write d) none) s = .next (dramWrite addr d s))
        ∧ (accessCheck s accHost addr d.length ≠ 0 → exec (.hostBar4Access ep addr (.write d) none) s = .next
          (recordViol 1 false true 0xFF (accessCheck s accHost addr d.length) addr s)))
      ∧ (∀ n, addr + n ≤ s.bar4 →
        (accessCheck s accHost addr n = 0 →
          exec (.hostBar4Access ep addr (.read n) none) s = .next { s with
            mem := { s.mem with rdata := dramRead s addr n, rbad := 0 } })
        ∧ (accessCheck s accHost addr n ≠ 0 → exec (.hostBar4Access ep addr (.read n) none) s = .next
          (modMem (fun m => { m with rdata := zeros n, rbad := 1 })
            (recordViol 1 false false 0xFF (accessCheck s accHost addr n) addr s)))
        ∧ (aheadStop s addr n ≠ 0 →
          exec (.hostBar4Access ep addr (.ahead n) none) s = .next (countDrop (aheadStop s addr n) s))))
    ∧ (∀ job cl copy label j, s.jobs.get? job = some j → j.st = .running →
      let c : Acc := ⟨0, (s.ten j.tenant).secure, j.tenant, j.tenant⟩
      (∀ d dst async err, copyBOutput s j cl addr = false →
        (accessCheck s c addr d.length = 0 →
          exec (.dramTransaction (.work job cl copy) addr label (.write d) dst async err) s = .next (dramWrite addr d s))
        ∧ (accessCheck s c addr d.length ≠ 0 →
          exec (.dramTransaction (.work job cl copy) addr label (.write d) dst async err) s = .next
            (faultTenant j.tenant 2 (recordViol 0 c.secure true j.tenant (accessCheck s c addr d.length) addr s))))
      ∧ (∀ d dst async err, copyBOutput s j cl addr = true →
        exec (.dramTransaction (.work job cl copy) addr label (.write d) dst async err) s = .next { s with
          jobs := s.jobs.set job { j with bOut := j.bOut.writeN addr d } })
      ∧ (∀ n u off, accessCheck s c addr n = 0 →
        exec (.dramTransaction (.work job cl copy) addr label (.read n) (some (u, off)) false none) s = .next
          (let t := sramWrite job cl u off (dramRead s addr n) (cacheLinesRead cl c.secure j.tenant addr n label s)
           { t with mem := { t.mem with rdata := dramRead s addr n } }))
      ∧ (∀ n dst async err, aheadStop s addr n ≠ 0 →
        exec (.dramTransaction (.work job cl copy) addr label (.ahead n) dst async err) s
          = .next (countDrop (aheadStop s addr n) s)))
    ∧ (∀ b tenant label dst async,
      let c := accBlock s b tenant
      (b = .sec → c = ⟨2, true, tenant.getD 0xFE, 0xFE⟩)
      ∧ (b ∈ [DevBlock.pmc, .sch, .ccc, .scrub] → c = ⟨2, false, tenant.getD 0xFE, 0xFE⟩)
      ∧ (∀ n, accessCheck s c addr n = 0 →
        exec (.dramTransaction (.block b tenant) addr label (.read n) dst async none) s = .next
          { s with mem := { s.mem with rdata := dramRead s addr n } })
      ∧ (∀ d err, accessCheck s c addr d.length = 0 →
        exec (.dramTransaction (.block b tenant) addr label (.write d) dst async err) s = .next (dramWrite addr d s))
      ∧ (∀ d err, accessCheck s c addr d.length ≠ 0 →
        exec (.dramTransaction (.block b tenant) addr label (.write d) dst async err) s = .next
          (fwLog c.secure 3 0 (addr % 2 ^ 48)
            (recordViol 2 c.secure true c.field (accessCheck s c addr d.length) addr s)))
      ∧ (∀ n err, aheadStop s addr n ≠ 0 →
        exec (.dramTransaction (.block b tenant) addr label (.ahead n) dst async err) s
          = .next (countDrop (aheadStop s addr n) s)))
    ∧ (∀ why, countDrop why s = { s with mem := { s.mem with
        sfxDrop := if why = 2 then min 0xFFFF (s.mem.sfxDrop + 1) else s.mem.sfxDrop,
        npfDrop := if why = 2 then s.mem.npfDrop else min 0xFFFF (s.mem.npfDrop + 1) } })

/-- The ownership commands (R209 to R211). The bandwidth regulator (R217 to R219) and the patrol scrub (R201). -/
def Obligations.OwnershipBandwidthAndScrub : Prop :=
  (∀ (h : Hdr) (ps : List Byte) (s : State),
    let pages := (List.range (u32 ps 4)).map (· + u32 ps 0)
    let first := u32 ps 0
    let count := u32 ps 4
    (cMemAssign.taken h ps s = true → exec (.memAssign h ps) s = .next (addMemCmd s.sch.nTok [] (zeroPages first count
      (setPages pages (fun _ => ⟨h.tenant.toNat, bit (u8 ps 8) 3, bit (u8 ps 8) 1, bit (u8 ps 8) 0, bit (u8 ps 8) 2⟩)
        (journalCmd h 0x0401 first count (acceptedReply 0x0401 h 0 s).2)))))
    ∧ (cMemRelease.taken h ps s = true → exec (.memRelease h ps) s = .next
      (let z := (pages.filter (fun p => (s.pageOf p).secure)).foldl (fun s p => zeroPages p 1 s)
          (journalCmd h 0x0402 first count (acceptedReply 0x0402 h 0 s).2)
       { z with mem := { z.mem with
          own := pages.foldl (fun o p => o.erase p) z.mem.own,
          cmds := z.mem.cmds ++ [⟨s.sch.nTok, [(first, count)]⟩] } }))
    ∧ (cMemFlags.taken h ps s = true → exec (.memFlags h ps) s = .next
      (let j := journalCmd h 0x0403 first count (acceptedReply 0x0403 h 0 s).2
       let drop := pages.filter (fun p =>
          (bit (u8 ps 8) 1 && !(s.pageOf p).sidefx) || (!bit (u8 ps 8) 0 && (s.pageOf p).pref))
       { j with mem := { s.mem with
          own := pages.foldl (fun o p => o.set p (let e := o.getD p PageEnt.unowned
            { e with pref := bit (u8 ps 8) 0, sidefx := bit (u8 ps 8) 1, lock := e.lock || bit (u8 ps 8) 3 })) s.mem.own,
          cmds := s.mem.cmds ++ [⟨s.sch.nTok, drop.map (fun p => (p, 1))⟩] } }))
    ∧ (cMemQuery.taken h ps s = true → exec (.memQuery h ps) s = .next (okReply 0x0404 h
      ((List.range (u16 ps 4)).flatMap (fun i => leBytes 4
        (if ((s.pageOf (u32 ps 0 + i)).secure && !(s.port h.port).secure) = true then 0x00FD0000
         else (s.pageOf (u32 ps 0 + i)).word))) s))
    ∧ (∀ i c, s.mem.cmds[i]? = some c → s.fwDown fwSch = false → exec (.memCommandDone i) s = .next
      (let t := c.drop.foldl (fun s p => dropLines (p.1 * 2 ^ 20) (p.2 * 2 ^ 20) s) s
       complete c.tok OK [] { t with mem := { t.mem with cmds := t.mem.cmds.filter (fun x => x.tok != c.tok) } })))
  ∧ (∀ (s : State),
    (∀ (q iso dev : Nat) (tens : List (Nat × Nat × Bool)),
      let b := s.bwr
      let gate := fun (x : Nat × Nat × Bool) =>
        if b.qlo ≤ b.qavg then (x.1, min x.2.1 (b.budget.getD x.1 0), x.2.2) else x
      let ts := (tens.filter (fun x => decide (x.1 < 64) && (s.ten x.1).st != .closed)).map gate
      let isOver := fun (x : Nat × Nat × Bool) => decide (b.budget.getD x.1 0 ≤ x.2.1)
      let limited := ts.filter (fun x => x.2.2 && isOver x && decide (b.qlo ≤ b.qavg))
      let c0 := if b.c = 0 then s.cmax else b.c
      let c := if b.qhi < q then max (s.cmax / 4) (c0 - c0 / 8)
        else if (decide (q < b.qlo) && !limited.isEmpty) = true then min s.cmax (c0 + c0 / 8) else c0
      let avail := c - iso - (if limited.isEmpty = true then dev else min dev (c / 256))
      let dem := (ts.filter (fun x => x.2.2 || (isOver x && b.budget.getD x.1 0 != 0))).map (·.1)
      let base := fun t => avail * (s.ten t).part.bwmin / 1024
      let weight := fun t => (b.cfg.getD t (16, 16)).2
      let bud := fun t => base t + (avail - dem.foldl (fun a t => a + base t) 0) * weight t
        / dem.foldl (fun a t => a + weight t) 0
      exec (.bwrPeriod q iso dev tens) s = .next { s with bwr := { b with
        beats := ts.foldl (fun m x => m.set x.1 ((m.getD x.1 0 + x.2.1) % 2 ^ 64)) b.beats,
        lim := limited.foldl (fun m x => m.set x.1 (min 0xFFFFFFFF (m.getD x.1 0 + 1))) b.lim,
        c := c, cbudget := min c 0xFFFF, iso := min iso 0xFFFF, limited := limited.length, qavg := min q 100,
        demand := dem, budget := dem.foldl (fun m t => m.set t (bud t)) Map.empty,
        qshare := dem.foldl (fun m t => m.set t (max 2 (56 * bud t / avail))) Map.empty } })
    ∧ exec (.patrolScrub []) s = .next s
    ∧ (∀ e, s.dev.st ≠ .off → e.unc = false → e.blk * 64 < s.nPages * 2 ^ 20 →
        let k := stackOf s (e.blk * 64)
        let row := rowKey k e
        let ts := s.time.ns :: (s.mem.rowErr.getD row []).filter (fun t => decide (s.time.ns < t + DAY))
        let c := s.mem.ecc.getD k EccSt.zero
        ts.length < 4 → exec (.patrolScrub [e]) s = .next { s with mem := { s.mem with
          ce := true, rowErr := s.mem.rowErr.set row ts,
          ecc := s.mem.ecc.set k { c with ce := min 0xFFFF (c.ce + 1) } } }))

/-- The stream commands (R225, R230 to R232) and the doorbell pages of contexts (R228). -/
def Obligations.StreamCommands : Prop :=
  (∀ (h : Hdr) (ps : List Byte) (s : State),
    let k := u8 ps 0
    (cStreamOpen.taken h ps s = true → exec (.streamOpen h ps) s = .next
      (let t := okReply 0x0501 h [] s
       setCtxSt k .idle 0 { t with
         maps := s.maps.erase k, ctxLeft := s.ctxLeft.erase k,
         ctxs := s.ctxs.set k { openCtx h.tenant.toNat ps with st := .closed } }))
    ∧ (∀ c, s.ctxs.get? k = some c →
      (cStreamStart.taken h ps s = true → exec (.streamStart h ps) s = .next (syncStreams
        { okReply 0x0503 h [] s with
          ctxs := s.ctxs.set k (if c.started then c else { c with started := true, units := 0 }) }))
      ∧ (cStreamStop.taken h ps s = true → exec (.streamStop h ps) s = .next (syncStreams
        { okReply 0x0504 h [] s with ctxs := s.ctxs.set k { c with started := false } }))
      ∧ (cStreamClose.taken h ps s = true → exec (.streamClose h ps) s = .next
        (let t := setCtxSt k .closed 0 (okReply 0x0502 h [] s)
         { t with ctxs := t.ctxs.erase k, ctxLeft := s.ctxLeft.set k ⟨c.truncs, c.stalls, c.drops, c.discards⟩ }))
      ∧ (cStreamStatus.taken h ps s = true → exec (.streamStatus h ps) s = .next (okReply 0x0505 h
        (leBytes 1 c.st.code ++ leBytes 1 (b2n c.started) ++ leBytes 1 c.reason ++ [0x00] ++ leBytes 4 c.units
          ++ leBytes 4 c.truncs ++ leBytes 4 c.drops) s))))
  ∧ (∀ (k reason : Nat) (n : CtxSt) (c : StreamCtx) (s : State), s.ctxs.get? k = some c → c.st ≠ n →
    setCtxSt k n reason s = offer0 0x05F0 (leBytes 1 k ++ leBytes 1 n.code ++ leBytes 1 c.st.code ++ leBytes 1 reason
      ++ leBytes 4 c.units) { s with ctxs := s.ctxs.set k { c with
        st := n, resync := c.resync || n == .seeking || n == .stalled,
        stalls := if n = .stalled then min 0xFF (c.stalls + 1) else c.stalls } })
  ∧ (∀ (k v : Nat) (c : StreamCtx) (s : State), k < 96 → s.ctxs.get? k = some c →
    exec (.streamDoneWrite ⟨0x40000 + k * 0x1000, 4, v⟩) s = .next { s with
      ctxs := s.ctxs.set k { c with done_ := v % 65536 } })
  ∧ (∀ (w : DoorWrite) (s : State), (w.size ≠ 4 ∨ w.off % 0x1000 ≠ 0) → exec (.streamDoneWrite w) s = .next s)

/-- Units (R224 to R231). -/
def Obligations.UnitsAreStampedAndDescribed : Prop :=
  ∀ (k : Nat) (c : StreamCtx) (f : Ingress) (err : Int) (s : State),
    s.ctxs.get? k = some c → c.st ≠ .closed → c.st ≠ .idle →
    (ctxTakers s f = [k] → c.unit = none → startsUnit c f = true →
      ((c.tail + 65536 - c.done_) % 65536 < c.nbuf →
        let u : UnitSt := {
          no := c.units + 1, tstart := stampOf s c err, resync := c.resync, noref := s.clk.hold,
          holdover := s.time.active == 3, domain := if s.time.active = 3 then 0xFF else s.time.active,
          buf := c.tail % c.nbuf, bytes := 0, pkts := 0, pktErrs := 0, frame := frameNo f, portInfo := portInfo f,
          bad := 0, keyed := false, field := none }
        exec (.unitStart f err) s = .next (modCtx k (fun c => { c with resync := false, unit := some u })
          (setCtxSt k .live 0 { s with ctxs := s.ctxs.set k { c with units := (c.units + 1) % 2 ^ 32 } })))
      ∧ (c.nbuf ≤ (c.tail + 65536 - c.done_) % 65536 → exec (.unitStart f err) s = .next { s with
        ctxs := s.ctxs.set k { c with
          units := (c.units + 1) % 2 ^ 32, drops := min 0xFFFFFFFF (c.drops + 1), dropsSince := c.dropsSince + 1 } }))
    ∧ (∀ u kd fl inf d, ctxTakers s f = [k] → c.st = .live → c.unit = some u → packetOf c f = some (kd, fl, inf, d) →
      (match f with | .bad _ _ => False | _ => True) →
      let r := leBytes 2 d.length ++ leBytes 1 kd ++ leBytes 1 fl ++ leBytes 4 inf
        ++ leBytes 8 (stampOf s c err / 65536) ++ padTo (roundup d.length 16) d
      let a := c.bufBase + u.buf * c.bufBytes + u.bytes
      u.bad = 0 → u.bytes + r.length ≤ c.bufBytes → rtLocked s a r.length = false →
      accessCheck s (accTenant s c.tenant) a r.length = 0 →
      exec (.streamPacket f err) s = .next (dramWrite a r { s with ctxs := s.ctxs.set k { c with
        unit := some { keyUnit (s.map k) kd d u with bytes := u.bytes + r.length, pkts := u.pkts + 1 } } }))
    ∧ (∀ u, c.unit = some u →
      let a := c.ring + c.tail % c.nbuf * 64
      let v := { u with noref := u.noref || s.clk.hold, holdover := u.holdover || s.time.active == 3 }
      accessCheck s (accTenant s c.tenant) a 64 = 0 → rtLocked s a 64 = false →
      (ctxTakers s f = [k] → c.st = .live → endsUnit c u f = some 0 →
        exec (.unitEnd f err) s = .next (modCtx k (fun c => { c with tail := (c.tail + 1) % 65536, dropsSince := 0 })
          (dramWrite a (descBytes c v true 0 (stampOf s c err))
            (modCtx k (fun c => { c with unit := none }) (recordUnit k v true true s)))))
      ∧ (c.st = .live → exec (.streamHoldExpiry k) s = .next (setCtxSt k .stalled 1
        (modCtx k (fun c => { c with tail := (c.tail + 1) % 65536, dropsSince := 0 })
          (dramWrite a (descBytes c v false 1 s.now)
            (modCtx k (fun c => { c with unit := none, reason := 1, truncs := min 0xFFFFFFFF (c.truncs + 1) })
              (recordUnit k v false true (scrambleBuf c v s))))))))
    ∧ (c.st = .seeking ∨ c.st = .live → c.unit = none → c.period ≠ 0 →
      exec (.streamHoldExpiry k) s = .next (setCtxSt k .stalled 0 s))

/-- The time commands (R243). -/
def Obligations.TimeCommands : Prop :=
  (∀ (h : Hdr) (ps : List Byte) (s : State),
    (cTimeCfg.taken h ps s = true → exec (.timeCfg h ps) s = .next
      (let t := servo (journalCmd h 0x0510 (u8 ps 16) 0 (okReply 0x0510 h [] s))
       reselect 1 { t with time := { t.time with
         d0 := cfgDom t.time.d0 ps 0, d1 := cfgDom t.time.d1 ps 8, pref := u8 ps 16, tauS := u8 ps 17,
         revertS := u16 ps 18, autostep := u8 ps 20 == 1 } }))
    ∧ (cTimeStatus.taken h ps s = true → exec (.timeStatus h ps) s = .next (okReply 0x0511 h
      (leBytes 1 s.time.active
        ++ leBytes 1 (b2n (s.time.active == 3) + 2 * b2n s.clk.hold + 4 * b2n (slewing s)) ++ zeros 2
        ++ satBytes 4 (servo s).time.rate ++ domStatus s s.time.d0 ++ domStatus s s.time.d1) s))
    ∧ (cTimeStep.taken h ps s = true →
      let n := stepTarget ps s
      let t := stepTime (n - s.time.ns).toNat
        (journalCmd h 0x0512 (u8 ps 0) (n.toNat % 2 ^ 32) (okReply 0x0512 h [] s))
      (s.time.ns : Int) < n
      ∧ exec (.timeStep h ps) s = .next (if u8 ps 0 = 0 then { t with time := { t.time with frac := 0 } } else t)))
  ∧ (∀ (d : Nat) (s : State),
    let mv := fun (x : Dom) => { x with serv := x.serv - (d : Int), lastSync := x.lastSync.map (· + d) }
    stepTime d s = { evTime s.time.active s.time.active 6 s with
      time := { s.time with
        ns := s.time.ns + d, rateAt := s.time.rateAt + d, d0 := mv s.time.d0, d1 := mv s.time.d1 },
      ctxs := s.ctxs.mapV (fun c => { c with resync := true }) })

/-- Domains (R234 to R236). -/
def Obligations.TimeEventsSelectTheDomain : Prop :=
  ∀ (s : State),
    let v := servo s
    (∀ k mac n gm offset rate, k < 2 → (s.dom k).enabled = true → (s.dom k).mac = mac → (s.dom k).domNum = n →
      (k = 1 → s.time.d0.enabled = false ∨ s.time.d0.mac ≠ mac ∨ s.time.d0.domNum ≠ n) →
      s.fwDown fwPmc = false → macUp s mac = true →
      let d := s.dom k
      let chg := d.lastSync.isSome && d.gm != gm
      let run := if chg = true then 1 else min 4 (d.run + 1)
      exec (.syncReceived mac n gm offset rate) s = .next (reselect 3 (v.setDom k { d with
        gm := gm, run := run, gmchg := if chg = true then min 0xFF (d.gmchg + 1) else d.gmchg, offset := offset,
        serv := offset, drift := 0, rate := rate, lastSync := some s.time.ns,
        valid := macCap s mac && decide (4 ≤ run) })))
    ∧ (∀ k, k < 2 → (s.dom k).enabled = true → exec (.syncTimeout k) s = .next
        (reselect 1 (v.setDom k { s.dom k with valid := false, run := 0 })))
    ∧ (∀ mac, mac < s.nMacs →
        let f := fun (d : Dom) => if d.mac = mac then { d with valid := false, run := 0 } else d
        exec (.ethLinkLoss mac) s = .next (reselect 2 { v with
          eth := s.eth.set mac { s.ethSt mac with link := false, asCap := false },
          time := { v.time with d0 := f s.time.d0, d1 := f s.time.d1 } }))
    ∧ (∀ mac mbps, mac < s.nMacs → macUp s mac = false →
        exec (.ethLinkUp mac mbps) s = .next { s with eth := s.eth.set mac ⟨true, false, mbps⟩ })
    ∧ (∀ k mac n cap, k < 2 → (s.dom k).enabled = true → (s.dom k).mac = mac → (s.dom k).domNum = n →
      s.fwDown fwPmc = false → macUp s mac = true →
      let f := fun (d : Dom) => if d.enabled = true ∧ d.mac = mac then { d with valid := cap && decide (4 ≤ d.run) } else d
      let m := macSend mac (Config.peerDelay mac n s.freeCtr) { v with freeCtr := s.freeCtr + 1 }
      exec (.peerDelayMessage mac n cap) s = .next (reselect 2 { m with
        eth := s.eth.set mac { s.ethSt mac with asCap := cap },
        time := { v.time with d0 := f s.time.d0, d1 := f s.time.d1 } }))
    ∧ ((s.dom s.time.pref).valid = true → s.time.active = 1 - s.time.pref → s.time.revertS ≠ 0 →
      exec .domainRevert s = .next (setActive s.time.pref 4 v))
    ∧ (∀ n cause, n ≠ s.time.active → (setActive n cause s).time.active = n)
    ∧ (∀ cause, (reselect cause s).time.active = 3
        ∨ ((reselect cause s).dom (reselect cause s).time.active).valid = true)

/-- Pulses, captures and launch (R239 to R242). -/
def Obligations.PulsesCapturesAndLaunch : Prop :=
  (∀ (h : Hdr) (ps : List Byte) (s : State),
    let k := u8 ps 0
    (cPulseArm.taken h ps s = true →
      let g : PulseProg := ⟨pulseStart ps, u32 ps 16 * 65536, u32 ps 20 * 65536,
        if bit (u8 ps 1) 0 then u32 ps 24 else 1, bit (u8 ps 1) 1⟩
      let p := if (s.tpo k).inPulse then { s.tpo k with next := some g }
        else { s.tpo k with
          prog := some g, next := none, n := 0, cancelled := false, driven := true, low := g.low }
      exec (.pulseArm h ps) s = .next { okReply 0x0520 h [] s with tpos := s.tpos.set k p })
    ∧ (cPulseCancel.taken h ps s = true →
      let p := if (s.tpo k).inPulse then { s.tpo k with cancelled := true, next := none }
        else { s.tpo k with prog := none, next := none }
      exec (.pulseCancel h ps) s = .next { okReply 0x0521 h [] s with tpos := s.tpos.set k p })
    ∧ (cCaptureCfg.taken h ps s = true → exec (.captureCfg h ps) s = .next (drainTci k
      { okReply 0x0530 h [] s with tcis := s.tcis.set k { s.tci k with edge := u8 ps 1 } }))
    ∧ (cLaunchCfg.taken h ps s = true →
      let l : Launch := ⟨h.tenant.toNat, u16 ps 2, u32 ps 4, u64 ps 8, 0, 0⟩
      exec (.launchCfg h ps) s = .next { okReply 0x0540 h [] s with
        launch := if u8 ps 1 = 0 then s.launch.erase k else s.launch.set k l }))
  ∧ ∀ (s : State),
    (∀ o g, (s.tpo o).prog = some g →
      ((s.tpo o).inPulse = false → g.start + (s.tpo o).n * g.period ≤ s.now →
        exec (.pulseEdge o) s = .next { s with tpos := s.tpos.set o { s.tpo o with inPulse := true, edgeAt := s.now } })
      ∧ ((s.tpo o).inPulse = true → (s.tpo o).edgeAt + g.width ≤ s.now →
        exec (.pulseEdge o) s = .next { s with tpos := s.tpos.set o ((s.tpo o).ended g) }))
    ∧ (∀ i rising err, i < 4 * s.edies → (s.tci i).edge = (if rising = true then 1 else 2) ∨ (s.tci i).edge = 3 →
      let e := (if rising = true then 1 else 2, ((s.now : Int) + max (-8) (min err 8) * 65536).toNat)
      let t := if (s.tci i).fifo.length < 16 then { s.tci i with fifo := (s.tci i).fifo ++ [e] }
        else { s.tci i with lost := (s.tci i).lost + 1 }
      exec (.tciEdge i rising err) s = .next (drainTci i { s with tcis := s.tcis.set i t }))
    ∧ (∀ i, s.fwDown fwPmc = true → drainTci i s = s)
    ∧ (∀ i e, s.fwDown fwPmc = false → (s.tci i).fifo = [e] → drainTci i s =
      { offer0 0x05F2 (leBytes 1 i ++ leBytes 1 e.1 ++ leBytes 2 (min (s.tci i).lost 0xFFFF)
          ++ leBytes 8 (e.2 / 65536) ++ leBytes 2 (e.2 % 65536) ++ zeros 2) s with
        tcis := s.tcis.set i { s.tci i with fifo := [], lost := 0 } })
    ∧ (∀ mac l, s.launch.get? mac = some l →
      (∀ v, mac < 8 → exec (.ltailWrite ⟨0x100000 + mac * 0x1000, 4, v⟩) s = .next { s with
        launch := s.launch.set mac { l with ltail := v % 65536 } })
      ∧ (∀ busy err, l.ltail ≠ l.lhead →
        let a := l.base + l.lhead % l.depth * 32
        let e := dramRead s a 32
        ownedBy s l.tenant a 32 = true → accessCheck s (accTenant s l.tenant) a 32 = 0 → rtLocked s a 32 = false →
        u64 e 0 ≤ s.time.ns → s.time.ns ≤ u64 e 0 + l.lateUs * 1000 →
        accessCheck s (accTenant s l.tenant) (u64 e 8) (u16 e 16) = 0 →
        let t := ownWrite l.tenant (a + 18) (leBytes 1 (if busy = true then 2 else 1))
          { s with launch := s.launch.set mac { l with lhead := (l.lhead + 1) % 65536 } }
        let f := checkedRead (accTenant t l.tenant) (u64 e 8) (u16 e 16) t
        exec (.launchEntry mac busy err) s = .next (macSend mac f.1 (ownWrite l.tenant (a + 20)
          (leBytes 8 ((s.time.ns : Int) + max (-8) (min err 16)).toNat) f.2))))
    ∧ (∀ w, (w.size ≠ 4 ∨ w.off % 0x1000 ≠ 0) → exec (.ltailWrite w) s = .next s)

/-- Fusion contexts (R260, R264) and clock maps (R244). -/
def Obligations.FusionContexts : Prop :=
  (∀ (h : Hdr) (ps : List Byte) (s : State),
    let k := u8 ps 0
    (cFusMapCfg.taken h ps s = true →
      let m : ClockMap := { ClockMap.fresh with
        cfg := true, src := u8 ps 1, flags := u8 ps 2, kindSel := u8 ps 3, off := u32 ps 4, tickPs := u32 ps 8,
        errNs := u32 ps 12, ofsNs := asInt 32 (u32 ps 16), nfit := u8 ps 20, limPpm := u16 ps 22,
        table := (s.map k).table }
      exec (.fusMapCfg h ps) s = .next { okReply 0x0601 h [] s with maps := s.maps.set k m })
    ∧ (cFusOpen.taken h ps s = true → exec (.fusOpen h ps) s = .next
      { okReply 0x0610 h [] s with fctxs := s.fctxs.set k (openFus h.tenant.toNat ps) })
    ∧ (∀ c, s.fctxs.get? k = some c →
      (cFusClose.taken h ps s = true → exec (.fusClose h ps) s = .next
        { (acceptedReply 0x0611 h 0 s).2 with fctxs := s.fctxs.set k { c with closing := some s.sch.nTok } })
      ∧ (cFusSensorSet.taken h ps s = true →
        let d := { c with pend := c.pend ++ [(s.sch.nTok, .sensor (u8 ps 1) (sensorOf ps))] }
        let t := { (acceptedReply 0x0612 h 0 s).2 with fctxs := s.fctxs.set k d }
        exec (.fusSensorSet h ps) s = .next (if fusHeld s k = true then t else applyAll k t))
      ∧ (cFusCalibReset.taken h ps s = true →
        let d := { c with pend := c.pend ++ [(s.sch.nTok, .reset (u8 ps 1))] }
        let t := { (acceptedReply 0x0615 h 0 s).2 with fctxs := s.fctxs.set k d }
        exec (.fusCalibReset h ps) s = .next (if fusHeld s k = true then t else applyAll k t))))
  ∧ (∀ (n : Nat) (c : FusCtx) (s : State), s.fctxs.get? n = some c → applyAll n s =
    c.pend.foldl (fun s p => applyPend n p s) { s with fctxs := s.fctxs.set n { c with pend := [] } })
  ∧ (∀ (n tok : Nat) (g : FusChange) (c : FusCtx) (s : State), s.fctxs.get? n = some c →
    applyPend n (tok, g) s = complete tok OK [] (evFusion n 4 g.idx 0 (c.gen % 2 ^ 32)
      (boundEvents n c (applyOne c g) { s with fctxs := s.fctxs.set n (applyOne c g) })))
  ∧ (∀ (c : FusCtx) (i : Nat) (x : FusSensor),
    (applyOne c (.sensor i x)).sensors = c.sensors.set i x
    ∧ (let same := ∃ o, c.sensors.get? i = some o ∧ o.ext = x.ext ∧ o.kind = x.kind ∧ o.stream = x.stream
      (same → (applyOne c (.sensor i x)).st = c.st)
      ∧ (¬ same → (applyOne c (.sensor i x)).st = { c.st with corr := c.st.corr.set i FusCorr.zero }))
    ∧ (applyOne c (.reset i)).st.corr = (if i = 0xFF then Map.empty else c.st.corr.set i FusCorr.zero))
  ∧ (∀ (n tok : Nat) (c : FusCtx) (s : State), s.fctxs.get? n = some c → c.closing = some tok →
    fusRunning s n = false → s.fwDown fwSch = false →
    let t := c.pend.foldl (fun s p => complete p.1 STATE [] s) s
    exec (.fusCloseDone n) s = .next (complete tok OK []
      { t with fctxs := t.fctxs.erase n,
               fclosed := t.fclosed.set n ⟨t.sch.nDisp, c.gen, c.st.ncont, c.st.tracks.length⟩ }))

/-- Calls (R261 to R263) and the assignment (R258). -/
def Obligations.FusionCalls : Prop :=
  (∀ (job cl copy : Nat) (desc : List Byte) (j : Job) (s : State), s.jobs.get? job = some j → j.st = .running →
    (fusCtxFor s j (u8 desc 0) = none → exec (.fusionCall job cl copy desc) s = .next (endJob job FAULT 0x0600 0 s))
    ∧ ((fusCtxFor s j (u8 desc 0)).isSome = true → exec (.fusionCall job cl copy desc) s = .next
      (s.setFeng (dieOf cl) { s.feng (dieOf cl) with
        queue := (s.feng (dieOf cl)).queue ++ [⟨job, cl, copy, j.lc, desc⟩] })))
  ∧ (∀ (die : Nat) (x : FusCall) (e : FusEng) (j : Job) (s : State), pickCall s (s.feng die) = some (x, e) →
    s.jobs.get? x.job = some j →
    let n := u8 x.desc 0
    e.running = some x ∧ (∀ r, (s.feng die).running = some r → r.lc = false ∧ x.lc = true ∧ e.saved = some r)
    ∧ ((s.feng die).saved = some x → exec (.fusionCallStart die) s = .next (s.setFeng die e))
    ∧ ((s.feng die).saved ≠ some x →
      (fusCtxFor s j n = none → exec (.fusionCallStart die) s = .next (endJob x.job FAULT 0x0600 0 s))
      ∧ (∀ c, fusCtxFor s j n = some c → exec (.fusionCallStart die) s = .next
        ((if c.began = some x.job then s else beginCall n x.job (applyAll n s)).setFeng die e))))
  ∧ (∀ (die : Nat) (r : FusCall) (j : Job) (c : FusCtx) (s : State), (s.feng die).running = some r →
    s.jobs.get? r.job = some j → s.fctxs.get? (u8 r.desc 0) = some c →
    let s0 := s.setFeng die { s.feng die with running := none }
    let hd := cdRead r.job r.cl (u64 r.desc 8) 64 s0
    let rs := cdRead r.job r.cl (u64 r.desc 8 + 64) (32 * min 32 (fbNin hd.1)) hd.2
    let fb := hd.1 ++ rs.1
    let tv := callTv rs.2 c r.desc fb
    let bufs := readInputs r.job r.cl (fusInputs tv.2 c fb tv.1) tv.2
    let ds := readDets r.job r.cl r.desc bufs.1 bufs.2
    let skew := (bufs.1.flatMap (fun b => [b.feat, b.depth])).findSome? (zqFails r.job)
    let o := fusCompute ds.2 c (u8 r.desc 0) tv.1 r.desc fb bufs.1 ds.1
    (rs.2.jobs.get? r.job).isSome = true →
    (fbOk c fb = false → exec (.fusionCallDone die) s = .next (endJob r.job FAULT 0x0601 0 rs.2))
    ∧ (fbOk c fb = true → (ds.2.jobs.get? r.job).isSome = true →
      (∀ k, skew = some k → exec (.fusionCallDone die) s = .next
        (endJob r.job SCALE_SKEW 0 0 (modCl r.cl (logSkew k) ds.2)))
      ∧ (skew = none → o.nonfin ≠ 0 → jobNfmode ds.2 j = 0 → exec (.fusionCallDone die) s = .next
        (endJob r.job FAULT 1 0 (countNonfin r.cl 1 ds.2)))
      ∧ (skew = none → (o.nonfin = 0 ∨ jobNfmode ds.2 j ≠ 0) → exec (.fusionCallDone die) s = .next
        (writeFusion r o (countSat r.cl o.clamped (countNonfin r.cl o.nonfin ds.2))))))
  ∧ (∀ (l : List Pair), ((assign l).map (·.1)).Nodup ∧ ((assign l).map (·.2)).Nodup
    ∧ ∀ a ∈ assign l, ∃ p ∈ l, a = (p.ti, p.di))

/-- Render contexts (R281) and passes (R267 to R277). -/
def Obligations.RenderContextsAndPasses : Prop :=
  (∀ (h : Hdr) (ps : List Byte) (s : State),
    let k := u8 ps 0
    (cRasOpen.taken h ps s = true → exec (.rasOpen h ps) s = .next
      { okReply 0x0701 h [] s with
        rctxs := s.rctxs.set k ⟨h.tenant.toNat, u32 ps 4, u64 ps 8, none, 0, 0, 0, none⟩,
        ras := { s.ras with counts := s.ras.counts.erase k } })
    ∧ (∀ c, s.rctxs.get? k = some c → cRasClose.taken h ps s = true → exec (.rasClose h ps) s = .next
      { (acceptedReply 0x0702 h 0 s).2 with rctxs := s.rctxs.set k { c with closing := some s.sch.nTok } }))
  ∧ (∀ (k tok : Nat) (c : RasCtx) (s : State), s.rctxs.get? k = some c → c.closing = some tok → c.running = none →
    s.fwDown fwSch = false → exec (.rasCloseDone k) s = .next (complete tok OK []
      { s with rctxs := s.rctxs.erase k, ras := { s.ras with counts := s.ras.counts.set k (c.flushes, c.passes) } }))
  ∧ (∀ (job cl : Nat) (desc : List Byte) (j : Job) (s : State), s.jobs.get? job = some j → j.st = .running →
    exec (.renderPassIssue job cl desc) s = .next { s with rwait := s.rwait ++ [⟨job, cl, j.lc, desc⟩] })
  ∧ (∀ (k : Nat) (p : RPass) (j : Job) (s : State), nextPass s k = some p → s.jobs.get? p.job = some j →
    passWaits s k p (passRanges p.desc (passBlk s p)) = false →
    let rd := cdRead p.job p.cl (u64 p.desc 8) (blkLen p) s
    let cause := passCause rd.2 j p.desc rd.1
    (rd.2.jobs.get? p.job).isSome = true →
    (cause ≠ 0 → exec (.renderPassStart k) s = .next (endJob p.job FAULT cause 0 rd.2))
    ∧ (∀ c, cause = 0 → rd.2.rctxs.get? k = some c → exec (.renderPassStart k) s = .next
      (let t := countDisplaced p rd.2
       let run : RRun := ⟨p, rd.1, passRanges p.desc rd.1, []⟩
       runBinning k p j rd.1 (c.poolMib * 2 ^ 20) (setRunning k run id { t with rwait := t.rwait.erase p }))))
  ∧ (∀ (k : Nat) (p : RPass) (j : Job) (b : List Byte) (pool : Nat) (s : State),
    let r := fetchDraws (passEnv s k p j b) s
    let t := { r.2.2 with ras := { r.2.2.ras with nfprim := min 0xFFFF (r.2.2.ras.nfprim + r.2.1) } }
    ((t.jobs.get? p.job).isNone = true → runBinning k p j b pool s = t)
    ∧ (∀ c, (t.jobs.get? p.job).isSome = true → t.rctxs.get? k = some c →
      let n := binAll pool (primRec (u8 p.desc 7)) r.1
      runBinning k p j b pool s = { t with rctxs := t.rctxs.set k { c with
        running := some ⟨p, b, passRanges p.desc b, n.done ++ [n.cur]⟩, flushes := c.flushes + n.done.length,
        peak := max c.peak n.peak } }))
  ∧ (∀ (k : Nat) (c : RasCtx) (r : RRun) (j : Job) (s : State),
    s.rctxs.get? k = some c → c.running = some r → s.jobs.get? r.pass.job = some j → passHeld s r.pass = false →
    let e := passEnv s k r.pass j r.blk
    let t := finishTiles e r.phases (renderPhases e (passClusters s r.pass) [] r.phases s)
    ((t.jobs.get? r.pass.job).isNone = true → exec (.renderPassDone k) s = .next t)
    ∧ (∀ d, (t.jobs.get? r.pass.job).isSome = true → t.rctxs.get? k = some d → d.running.isSome = true →
      let u := { t with rctxs := t.rctxs.set k { d with running := none, passes := (d.passes + 1) % 65536 } }
      (u8 r.blk 16 = 0xFF → exec (.renderPassDone k) s = .next u)
      ∧ (u8 r.blk 16 ≠ 0xFF → exec (.renderPassDone k) s = .next
        (modJob r.pass.job (fun j => { j with flips := j.flips ++ [passFlip r.blk] }) u))))

/-- Displays (R278 to R283). -/
def Obligations.DisplayCommandsAndEvents : Prop :=
  (∀ (h : Hdr) (ps : List Byte) (s : State),
    let k := u8 ps 0
    let d := s.disp k
    (cDispCfg.taken h ps s = true → exec (.dispCfg h ps) s = .next { (acceptedReply 0x0710 h 0 s).2 with
      disps := s.disps.set k { d with st := 1, train := some ⟨s.sch.nTok, h.tenant.toNat, ps, d.st⟩ } })
    ∧ (cDispFlip.taken h ps s = true →
      let f : Plane := ⟨u64 ps 8, u32 ps 16, u8 ps 20, none⟩
      let base := u8 ps 1 = 0
      let old := if base then d.nbase else d.noverlay
      exec (.dispFlip h ps) s = .next { okReply 0x0712 h [] s with disps := s.disps.set k { d with
        flipSkip := if old.isSome then min 0xFFFF (d.flipSkip + 1) else d.flipSkip,
        nbase := if base then some (f, s.time.ns) else d.nbase,
        noverlay := if base then d.noverlay else some (f, s.time.ns) } })
    ∧ (∀ d, s.disps.get? k = some d → cDispOff.taken h ps s = true →
      let t := untrain k STATE (okReply 0x0711 h [] s)
      exec (.dispOff h ps) s = .next { t with disps := t.disps.set k { d with
        owner := none, st := 0, under := [], train := none, base := none, overlay := none, nbase := none,
        noverlay := none } }))
  ∧ (∀ (k status : Nat) (d : Disp) (n : Train) (s : State), s.disps.get? k = some d → d.train = some n →
    untrain k status s = complete n.tok status []
      { s with disps := s.disps.set k { d with train := none, st := n.prev } })
  ∧ ∀ (k : Nat) (d : Disp) (s : State), s.disps.get? k = some d →
    (∀ n, d.train = some n →
      (let t := complete n.tok OK [] { s with disps := s.disps.set k (trained s d n) }
       exec (.dispTrainingDone k true) s = .next (if n.prev = 3 then evDisplay k 4 t else t))
      ∧ (trained s d n).owner = some n.tenant ∧ (trained s d n).cfg = n.ps ∧ (trained s d n).st = 2
      ∧ (trained s d n).train = none
      ∧ exec (.dispTrainingDone k false) s = .next (untrain k TIMEOUT s))
    ∧ (d.train = none → d.st = 3 → exec (.dispTrainingDone k true) s = .next
      (evDisplay k 4 { s with disps := s.disps.set k { d with st := 2 } }))
    ∧ (d.st = 2 →
      (let a := frameCrcs k s
       let t := scanCheck k { a with disps := a.disps.set k { d with frames := (d.frames + 1) % 2 ^ 32, under := [] } }
       let b := flipDue s.time.ns d.base d.nbase
       let o := flipDue s.time.ns d.overlay d.noverlay
       exec (.vblank k) s = .next (if (t.disp k).st = 2 then { t with disps := t.disps.set k { t.disp k with
         base := b.1, nbase := b.2, overlay := o.1, noverlay := o.2 } } else t))
      ∧ (∀ px, let on := px.filter (fun q => q.1 < planeW d.cfg 0 && q.2 < planeH d.cfg 0)
        on.isEmpty = false →
        let t := { s with disps := s.disps.set k { d with
          underrun := true, under := d.under ++ on,
          underruns := if d.under.isEmpty then min 0xFFFFFFFF (d.underruns + 1) else d.underruns } }
        exec (.underrun k px) s = .next (if d.underrun = true then t else evDisplay k 5 t))
      ∧ (d.train = none → exec (.dispLinkLoss k) s = .next
        (evDisplay k 3 { s with disps := s.disps.set k { d with st := 3 } })))
    ∧ (∀ n, d.train = some n → n.prev = 2 → exec (.dispLinkLoss k) s = .next
      (evDisplay k 3 { s with disps := s.disps.set k { d with train := some { n with prev := 3 } } }))
    ∧ (∀ plugged, k < s.nDisp → d.hpd ≠ plugged → exec (.hpdChange k plugged) s = .next
      (evDisplay k (if plugged then 1 else 2) { s with disps := s.disps.set k { d with hpd := plugged } }))
    ∧ (∀ now (cur : Option Plane), flipDue now cur none = (cur, none)
      ∧ ∀ p t, flipDue now cur (some (p, t)) = (if t + 10000 ≤ now then (some p, none) else (cur, some (p, t))))

/-- The control commands (R287 to R301). -/
def Obligations.ControlCommands : Prop :=
  (∀ (h : Hdr) (ps : List Byte) (s : State),
    let k := u8 ps 0
    let t := h.tenant.toNat
    let e := s.ce k
    (cCtlAssign.taken h ps s = true →
      let j := journalCmd h 0x0801 k (u8 ps 1) (okReply 0x0801 h [] s)
      (u8 ps 1 = 1 → exec (.ctlAssign h ps) s = .next (j.setCe k { e with owner := none }))
      ∧ (u8 ps 1 = 0 → e.owner = none → exec (.ctlAssign h ps) s = .next
        (j.setCe k { e with owner := some t, late := 0, trips := 0 }))
      ∧ (u8 ps 1 = 0 → e.owner = some t → exec (.ctlAssign h ps) s = .next j))
    ∧ (cCtlBankWrite.taken h ps s = true →
      let v := (List.range (u8 ps 2)).foldl (fun e i =>
        e.setLoop (u8 ps 1 + i) { e.loop (u8 ps 1 + i) with standby := sub ps (4 + 64 * i) 64 }) e
      exec (.ctlBankWrite h ps) s = .next ((okReply 0x0802 h [] s).setCe k v)
      ∧ (∀ i, i < u8 ps 2 → (v.loop (u8 ps 1 + i)).standby = sub ps (4 + 64 * i) 64)
      ∧ (∀ n, (n < u8 ps 1 ∨ u8 ps 1 + u8 ps 2 ≤ n) → v.loop n = e.loop n)
      ∧ (∀ n, { v.loop n with standby := [] } = { e.loop n with standby := [] }))
    ∧ (cCtlSwap.taken h ps s = true → exec (.ctlSwap h ps) s = .next
      (let j := journalCmd h 0x0804 k (u64 ps 4 % 2 ^ 32) (acceptedReply 0x0804 h 8 s).2
       j.setCe k { e with swaps := e.swaps ++ [⟨s.sch.nTok, u64 ps 4, bit (u8 ps 1) 0, tickAfter s 2000⟩] }))
    ∧ (cCtlEnable.taken h ps s = true → exec (.ctlEnable h ps) s = .next ((okReply 0x0805 h [] s).setCe k
      { e with enPend := e.enPend ++ [(tickAfter s 2000, u64 ps 4, true)] }))
    ∧ (cCtlDisable.taken h ps s = true → exec (.ctlDisable h ps) s = .next ((okReply 0x0806 h [] s).setCe k
      { e with enPend := e.enPend ++ [(tickAfter s 2000, u64 ps 4, false)] }))
    ∧ (cCtlSetpt.taken h ps s = true →
      let l := (List.range (u8 ps 2)).map (fun i => (tickAfter s 200, u8 ps 1 + i, i16 ps (4 + 2 * i)))
      exec (.ctlSetpt h ps) s = .next ((okReply 0x0807 h [] s).setCe k { e with spPend := e.spPend ++ l }))
    ∧ (cCtlIoCfg.taken h ps s = true →
      let j := journalCmd h 0x0810 (u8 ps 1) (u32 ps 0) (okReply 0x0810 h [] s)
      exec (.ctlIoCfg h ps) s = .next { ioTake (u8 ps 0) (u8 ps 1) (if bit (u8 ps 2) 3 then some t else none) j with
        ioPend := s.ioPend ++ [(u8 ps 0, u8 ps 1, ps)] })
    ∧ (cCtlTraceCfg.taken h ps s = true →
      let r : Trace := {
        nn := u8 ps 1, trig := u8 ps 2, edge := u8 ps 3, nodes := (List.range 8).map (fun i => u16 ps (4 + 2 * i)),
        tdiv := u16 ps 20, pre := u16 ps 22, tnode := u16 ps 24, thresh := i16 ps 26,
        st := if u8 ps 2 = 0 then 2 else 1, samples := [], npre := 0,
        left := if u8 ps 2 = 0 then 8192 - u16 ps 22 else 0, prev := none }
      exec (.ctlTraceCfg h ps) s = .next ((okReply 0x0820 h [] s).setCe k { e with trace := r }))
    ∧ (cCtlTraceDump.taken h ps s = true → exec (.ctlTraceDump h ps) s = .next
      ((acceptedReply 0x0821 h 0 s).2.setCe k { e with dumps := e.dumps ++ [⟨s.sch.nTok, t, u64 ps 8, dumpBytes e.trace⟩] })))
  ∧ (∀ (k : Nat) (o : Option Nat) (s : State),
    ioTake 0 k o s = { s with pwms := s.pwms.set k { s.pwm k with owner := o } }
    ∧ (o.isSome = true → (s.sd k).owner ≠ o → ioTake 1 k o s = { s with
      sds := s.sds.set k { SdCh.fresh with owner := o } })
    ∧ (o = none ∨ (s.sd k).owner = o → ioTake 1 k o s = { s with sds := s.sds.set k { s.sd k with owner := o } })
    ∧ (o.isSome = true → (s.enc k).owner ≠ o → ioTake 2 k o s = { s with
      encs := s.encs.set k { EncCh.fresh with owner := o } })
    ∧ (o = none ∨ (s.enc k).owner = o → ioTake 2 k o s = { s with encs := s.encs.set k { s.enc k with owner := o } }))
  ∧ ∀ (n : Nat) (s : State),
    (∀ r v, n < 16 → (s.ce n).owner.isSome = true → r < 64 →
      exec (.setpointPageWrite ⟨0x200000 + n * 0x1000 + 4 * r, 4, v⟩) s = .next (s.setCe n { s.ce n with
        spPend := (s.ce n).spPend ++ [(tickAfter s 200, r, asInt 16 v)] }))
    ∧ (∀ d l, (s.ce n).dumps = d :: l → exec (.ctlTraceDumpDone n) s = .next
      (complete d.tok OK [] (ownWrite d.tenant d.addr d.bytes (s.setCe n { s.ce n with dumps := l }))))

/-- The control law (R290, R291) and the low selector (R292). -/
def Obligations.ControlLawAndSelectors : Prop :=
  (∀ (l : Loop) (r y f : Int) (bump : Bool), bUmin l.live ≤ bUmax l.live →
    let m := sampleLoop l r y f bump
    bUmin l.live ≤ m.u ∧ m.u ≤ bUmax l.live
    ∧ (-(2 ^ 39 : Int) ≤ l.ist ∧ l.ist < 2 ^ 39 → -(2 ^ 39 : Int) ≤ m.ist ∧ m.ist < 2 ^ 39)
    ∧ -(2 ^ 39 : Int) ≤ m.dst ∧ m.dst < 2 ^ 39
    ∧ (l.accsat = true → m.accsat = true) ∧ m.live = l.live ∧ m.st = l.st ∧ m.first = false
    ∧ (bit m.flags 0 = true → bUmax l.live ≤ m.v → 0 < i16 l.live 10 * m.e → m.ist = l.ist)
    ∧ (bit m.flags 0 = true → m.v ≤ bUmin l.live → i16 l.live 10 * m.e < 0 → m.ist = l.ist)
    ∧ (bUmin l.live ≤ m.v → m.v ≤ bUmax l.live → m.u = m.v))
  ∧ ∀ (e : Engine) (g w : Nat), winner e g = some w →
    w ∈ e.members g ∧ (e.loop w).st = 1
    ∧ ∀ k ∈ e.members g, (e.loop k).st = 1 → (e.loop w).u ≤ (e.loop k).u ∧ ((e.loop w).u = (e.loop k).u → w ≤ k)

/-- Ticks (R285 to R299) and channels (R302 to R306). -/
def Obligations.EngineTicksAndChannels : Prop :=
  (∀ (n : Nat) (s : State),
    let q := s.time.ns / 1000
    let e := s.ce n
    (n < s.nCe → (∀ k, e.tick = some k → k < q) →
      let b := beginTick n q (dieTickAt (n / 4) q s)
      let x := (List.range 64).foldl (turnLoop n q b.2.1) (b.1, b.2.2)
      exec (.engineTick n true) s = .next (b.2.2.setCe n { b.1 with late := min 0xFFFF (b.1.late + 1) })
      ∧ exec (.engineTick n false) s = .next (x.2.setCe n (traceTick x.2 n q x.1)))
    ∧ (∀ k, feDue (e.loop k) = true →
      let l := e.loop k
      let g := bGroup l.live
      let x := feAct n k (e, s)
      x = (if u8 l.live 28 = 1 then stopLoop n k 2 1 (e, s)
        else (e.setLoop k { l with feover := true, feRep := true }, evControl n k 1 l.st s))
      ∧ (g = 0 → exec (.followingErrorTimeout n k) s = .next (x.2.setCe n x.1))
      ∧ (∀ w, g ≠ 0 → winner x.1 g = some w → exec (.followingErrorTimeout n k) s = .next
        (x.2.setCe n { x.1 with gout := x.1.gout.set g (x.1.loop w).u, gwin := x.1.gwin.set g w }))
      ∧ (g ≠ 0 → winner x.1 g = none → exec (.followingErrorTimeout n k) s = .next
        (x.2.setCe n { x.1 with gwin := x.1.gwin.erase g })))
    ∧ (e.trace.st = 2 → e.trace.left = 0 → exec (.traceDone n) s = .next
      (evControl n 0 5 3 (s.setCe n { e with trace := { e.trace with st := 3 } })))
    ∧ (∀ c, (s.pwm n).cfg = some c → bit (u8 c 2) 3 = true → pwmPaired s n = false →
      let u := nodeNow s (n / 24) (u16 c 4)
      let v := if 32767 ≤ u then u32 c 8 else if u ≤ 0 then 0 else u.toNat * u32 c 8 / 32768
      let t := { s with pwms := s.pwms.set n { s.pwm n with c := v, active := pwmOwn c (endsOn (u32 c 8) (s.pwm n).active) v } }
      let q := t.pwm (n + 1)
      exec (.pwmPeriod n) s = .next (if (bit (u8 c 2) 1 && n % 2 == 0) = true then
        { t with pwms := t.pwms.set (n + 1) { q with active := pwmOdd c (endsOn (u32 c 8) q.active) v } } else t))
    ∧ ((s.sd n).cfg.isEmpty = false → bit (u8 (s.sd n).cfg 2) 3 = true →
      (∀ bits, let osr := 2 ^ u8 (s.sd n).cfg 4
        let w := ((bits.take osr).reverse ++ (s.sd n).win).take (3 * osr)
        let v := (boxSum osr (boxSum osr (boxSum osr (w.map (fun b => if b then (1 : Int) else -1))))).head?.getD 0
        exec (.sigmaDeltaOutput n bits) s = .next { s with sds := s.sds.set n { s.sd n with
          win := w, node := satInt 16 (v * 32768 / 2 ^ (3 * u8 (s.sd n).cfg 4)), bad := false } })
      ∧ exec (.sdClockLoss n) s = .next (evControl 0xFF n 4 1 (markFault 1 n { s with sds := s.sds.set n { s.sd n with
          fault := true, bad := true, errs := min 0xFFFF ((s.sd n).errs + 1) } })))
    ∧ (isQuad (s.enc n) = true →
      (∀ lead, exec (.quadratureEdge n lead) s = .next { s with encs := s.encs.set n { s.enc n with
        count := asInt 32 (ofInt 32 ((s.enc n).count + (if lead != bit (u8 (s.enc n).cfg 2) 2 then 1 else -1))) } })
      ∧ exec (.encIllegalTransition n) s = .next (evControl 0xFF n 4 1 (markFault 2 n { s with
          encs := s.encs.set n { s.enc n with fault := true, errs := min 0xFFFF ((s.enc n).errs + 1) } }))
      ∧ (bit (u8 (s.enc n).cfg 2) 1 = true → (s.enc n).homed = false → exec (.encIndex n) s = .next
        { s with encs := s.encs.set n { s.enc n with count := 0, homed := true } }))
    ∧ (isSent (s.enc n) = true →
      let c := s.enc n
      exec (.sentTimeout n) s = .next (evControl 0xFF n 4 1 (markFault 2 n { s with encs := s.encs.set n { c with
        fault := true, bad := true } }))
      ∧ ∀ (sync : Nat) (ticks : List Nat), ((sync : Int) - (5600 * u16 c.cfg 12 : Nat)).natAbs * 4 ≤ 5600 * u16 c.cfg 12 →
        let v := ticks.map (· - 12)
        let m := u8 c.cfg 5
        let data := (v.drop 1).take m
        let good := ticks.length = m + 2 ∧ (∀ t ∈ ticks, 12 ≤ t ∧ t ≤ 27)
          ∧ (∀ p, c.sync = some p → ((sync : Int) - p).natAbs * 64 ≤ p)
          ∧ Config.sentCrc (bit (u8 c.cfg 2) 4) data % 16 = (v[m + 1]?).getD 0
        (¬ good → exec (.sentMessage n sync ticks) s = .next { s with encs := s.encs.set n { c with
          sync := some sync, errs := min 0xFFFF (c.errs + 1) } })
        ∧ (good →
          let rest := if bit (u8 c.cfg 2) 5 then (data.drop 3).reverse else data.drop 3
          let stat := ((v[0]?).getD 0 :: c.stat).take 18
          let d := { c with
            sync := some sync, bad := false, stat := stat, n1 := sentNode (data.take 3),
            n2 := if rest.isEmpty then c.n2 else sentNode rest }
          (Config.sentSlow stat = none → exec (.sentMessage n sync ticks) s = .next { s with encs := s.encs.set n d })
          ∧ ∀ i en x, Config.sentSlow stat = some (i, en, x) → exec (.sentMessage n sync ticks) s = .next
            { s with encs := s.encs.set n { d with slowId := i % 256, slowEnh := en, slowData := x % 65536 } })))
  ∧ (∀ (n q k : Nat) (e : Engine) (w : Swap) (s : State), k < 64 →
    (bit w.mask k = true → (applySwap n q (e, s) w).1.loop k
      = { e.loop k with live := (e.loop k).standby, standby := (e.loop k).live })
    ∧ (bit w.mask k = false → (applySwap n q (e, s) w).1.loop k = e.loop k))
  ∧ (∀ (n q m k : Nat) (e : Engine) (s : State),
    ((e.loop k).st ≠ 1 ∨ samples (e.loop k) q = false → evalLoop n q m k (e, s) = (e, s))
    ∧ ((e.loop k).st = 1 → samples (e.loop k) q = true →
      ((e.loop k).inFault = true ∨ ∃ c ∈ [bRef (e.loop k).live, bMeas (e.loop k).live, bFf (e.loop k).live],
        nodeFault s (n / 4) c = true) → evalLoop n q m k (e, s) = stopLoop n k 2 2 (e, s)))

/-- Entry to SAFE (R333 to R337) and the pins (R332). -/
def Obligations.SafeLatchesOnceWithItsCause : Prop :=
  ∀ (cause prog detail : Nat) (s : State),
    (s.skk.latched = false → safeFrom s cause = true →
      let t := latchSafe cause prog detail s
      t.skk.latched = true ∧ t.skk.cause = cause ∧ t.skk.ltime = s.time.ns ∧ t.skk.lprog = prog
      ∧ t.skk.ldetail = detail ∧ t.dev.st = .safe ∧ t.dev.cause = cause
      ∧ t.jobs.any (fun _ j => j.inFlight) = false ∧ t.deasserted = false)
    ∧ (s.skk.latched = true ∨ safeFrom s cause = false → latchSafe cause prog detail s = s)
    ∧ (∀ h ps, cSkkSafeReq.taken h ps s = true →
      exec (.skkSafeReq h ps) s = .next (latchSafe 0x09 0 0 (okReply 0x0904 h [] s)))
    ∧ (s.skk.chkrun = true → s.skk.kickAt + s.skk.skwdt * 1000000 < s.time.ns → exec .skwdtExpiry s = .next (latchSafe 0x06 0 0 s))
    ∧ exec (.skinkSramError true) s = .next (latchSafe 0x07 0 0 s)
    ∧ exec (.skinkSramError false) s = .next { s with skk := { s.skk with sramCorr := s.skk.sramCorr + 1 } }
    ∧ (s.deasserted = true → exec .pinFeedbackMismatch s = .next (latchSafe 0x0C 0 0 s))

/-- The safety commands (Table 7) and events of chapter 12. -/
def Obligations.SafetyCommandsAndEvents : Prop :=
  (∀ (h : Hdr) (ps : List Byte) (s : State),
    (cSkkArm.taken h ps s = true → exec (.skkArm h ps) s = .next (modSkk (fun k => { k with armed := u8 ps 0 == 1 })
      (journalCmd h 0x0901 0 (u8 ps 0) (okReply 0x0901 h [] s))))
    ∧ (∀ p, s.progs.get? (u16 ps 0) = some p →
      (cSkkProgCfg.taken h ps s = true →
        let t := journalCmd h 0x0902 (u16 ps 0) (u32 ps 2) (okReply 0x0902 h [] s)
        exec (.skkProgCfg h ps) s = .next { t with progs := s.progs.set (u16 ps 0) { p with
          gwin := u16 ps 2, verdictUs := u16 ps 4, retries := u8 ps 6, gelig := u8 ps 7, chkId := u8 ps 8 } })
      ∧ (cSkkGoldenNow.taken h ps s = true → exec (.skkGoldenNow h ps) s = .next
        { okReply 0x0906 h [] s with progs := s.progs.set (u16 ps 0) { p with eligible := true } }))
    ∧ (cSkkMbox.taken h ps s = true → exec (.skkMbox h ps) s = .next
      (modSkk (fun k => { k with mbox := ps, mboxCnt := (k.mboxCnt + 1) % 2 ^ 32 }) (okReply 0x0905 h [] s))))
  ∧ ∀ (s : State),
    (∀ id j ly w a b d ck, s.jobs.get? id = some j → j.st = .running ∨ j.st = .preempted →
      a.any (fun p => onCopyB s j p.cl) = false → b.all (fun p => onCopyB s j p.cl) = true →
      winCount a ≤ 4096 → winCount b ≤ 4096 →
      let sa := windowSig ly w (winBytes s id a)
      let sb := windowSig ly w (flipBytes d (winBytes s id b))
      let r := j.sigs ++ [⟨winIface j a, ly, w, sa⟩]
      let t := { s with jobs := s.jobs.set id { j with sigs := r } }
      (sa = sb ∨ s.skk.debug = true → exec (.windowClose id ly w a b d ck) s = .next (if ck = true then
        { s with jobs := s.jobs.set id { j with sigs := r, ckpt := true, ckSigs := r, replay := [], replayAt := 0 } }
        else t))
      ∧ (sa ≠ sb → s.skk.debug = false →
        (j.st = .running → exec (.windowClose id ly w a b d ck) s = .next (pairMismatch id t))
        ∧ (j.st = .preempted → exec (.windowClose id ly w a b d ck) s = .next
          { s with jobs := s.jobs.set id { j with sigs := r, pendMis := true } })))
    ∧ (∀ id j, s.jobs.get? id = some j → isFrame s j = true → j.st = .committing → j.chk ≠ .none →
      exec (.verdictTimeout id) s = .next (endJob id INVALID_OUTPUT 0 2 s))
    ∧ (∀ g p, s.progs.get? g = some p → p.img.paired = true → s.running = true →
      (p.lastPass + p.gelig * p.gwinOn * 10000 ≤ s.time.ns →
        exec (.goldenEligible g) s = .next { s with progs := s.progs.set g { p with eligible := true } })
      ∧ (p.covered = true → p.lapsed = false → p.due ≤ s.time.ns →
        (s.skk.lapseLatch = true → exec (.coverageDue g) s = .next (latchSafe 0x04 g 0 s))
        ∧ (s.skk.lapseLatch = false → exec (.coverageDue g) s = .next
          (evCoverage g 1 p.due { s with progs := s.progs.set g { p with lapsed := true } }))))
    ∧ (∀ i r, s.skk.lost[i]? = some r → r.deadline ≤ s.time.ns →
      let t := { s with skk := { s.skk with lost := s.skk.lost.eraseIdx i } }
      exec (.placementDeadline i) s = .next (if s.running then latchSafe 0x03 r.prog 0 t else t))
    ∧ (∀ c, c ≤ 2 → bit s.larder.map.skink c = false → s.skk.debug = false → s.dev.st ≠ .off → s.dev.st ≠ .init →
      (s.duplex = true → ∀ m, exec (.coreDissent c m) s = .next (latchSafe 0x05 0 c s))
      ∧ exec (.coreDissent c false) s = .next (latchSafe 0x05 0 c s)
      ∧ (s.duplex = false →
        let ts := (s.time.ns :: s.skk.diss24.getD c []).filter (fun t => decide (s.time.ns < t + DAY))
        let t := modSkk (fun k => countDissent c { k with diss24 := k.diss24.set c ts }) s
        exec (.coreDissent c true) s = .next (if ts.length < 3 then t else retireNoSpare (wear 8 4 8 c 3
          (modMap (fun m => { m with
            skink := setBit m.skink c true, nRetired := m.nRetired + 1, nNoSpare := m.nNoSpare + 1 }) t)))))
    ∧ (s.skk.latched = true → s.skk.sweepDone = false → exec .sweepDone s = .next
      (evSafe 2 (modSkk (fun k => { k with sweepDone := true }) (sweepProgs (fun p => !p.img.paired) s))))
    ∧ (s.portsUp = true → s.dev.st ≠ .awaitFw → s.hp1.openS = true →
      let n := (s.skk.hbCount + 1) % 2 ^ 32
      let k := s.skk
      exec .heartbeat s = .next (offer .hp1 evSkstatOp (leBytes 1 s.dev.st.code
        ++ leBytes 1 (b2n k.latched + 2 * b2n k.debug + 4 * b2n k.armed + 8 * b2n s.duplex
            + 16 * b2n (s.nLapsed != 0) + 32 * b2n s.deasserted + 64 * b2n k.chkrun)
        ++ leBytes 1 (min 0xFF s.nSafety) ++ leBytes 1 (min 0xFF s.nLapsed) ++ leBytes 8 s.time.ns ++ leBytes 4 n)
        { s with skk := { k with hbCount := n } }))

/-- Skink's services (Table 3 of chapter 12) and debugging (R339, R340, R362). -/
def Obligations.SkinkServicesAndDebug : Prop :=
  ∀ (s : State),
    (s.checkerOn = true →
      exec .skKick s = .next { s with skk := { s.skk with chkrun := true, kickAt := s.time.ns } }
      ∧ (∀ id t j p, s.skk.chkq = id :: t → s.jobs.get? id = some j → s.progs.get? j.prog = some p →
        exec .skNext s = .next (skResult 0 (leBytes 2 j.prog ++ leBytes 1 p.chkId ++ leBytes 4 j.jobseq ++ leBytes 4 j.gen
            ++ extents j.outs ++ extents j.ins)
          (modJob id (fun j => { j with chk := .taken }) (fillChk { s with skk := { s.skk with chkq := t } }))))
      ∧ (∀ g n pass id j, s.jobs.cells.find? (fun c => c.2.prog == g && c.2.jobseq == n && underCheck c.2) = some (id, j) →
        exec (.skVerdict g n pass) s = .next (judge id pass s))
      ∧ (∀ id j, s.jobs.get? id = some j → judge id false s = endJob id INVALID_OUTPUT 0 1 s
        ∧ (j.role = .user → judge id true s = passJob id true s)
        ∧ (∀ i, j.role = .eval i → s.skk.debug = false →
          judge id true s = evalPassed j.prog i (frameSig j) (finishJob id OK 0 0 0 s)))
      ∧ (∀ a n dst,
        let r := (readable s).find? (fun r => r.2.1 ≤ a && a + n ≤ r.2.1 + r.2.2)
        (r = none → exec (.skRead a n dst) s = .next (skResult 1 [] (violate (accDev true 0xFE) false 2 a s)))
        ∧ (∀ t b m, r = some (t, b, m) →
          (skReason s t a n ≠ 0 → exec (.skRead a n dst) s = .next
            (skResult 1 [] (violate (accDev true t) false (skReason s t a n) a s)))
          ∧ (skReason s t a n = 0 → n ≤ 65536 → dst + n ≤ 2 ^ 21 →
            let d := checkedRead (accDev true t) a n s
            exec (.skRead a n dst) s = .next (skResult 0 [] { d.2 with skk := { d.2.skk with
              sram := d.2.skk.sram.writeN dst d.1 } }))))
      ∧ (∀ grid thr rs, rs.isEmpty = false → rs.length ≤ 32 →
        let f := (pathGrids s).find? (fun g => g.2.data == grid)
        (f = none → exec (.skPath grid thr rs) s = .next (skResult 1 [] s))
        ∧ (∀ t g, f = some (t, g) →
          let n := g.gx * g.gy
          let d := checkedRead (accDev true t) g.data (ZqSrc.dataBytes ⟨g.data, g.scale, n⟩) s
          let c := checkedRead (accDev true t) g.scale (ZqSrc.blocks ⟨g.data, g.scale, n⟩ * 64) d.2
          let m := checkedRead (accDev true t) g.mask n c.2
          let r := (List.range n).foldl (pathCell g ⟨n, d.1, c.1⟩ m.1 thr rs) (0, 0, 0, f32inf)
          exec (.skPath grid thr rs) s = .next (skResult 0
            (leBytes 4 r.1 ++ leBytes 4 r.2.1 ++ leBytes 4 r.2.2.1 ++ leBytes 4 r.2.2.2) m.2)))
      ∧ (∀ d r x y w h, d < s.nDisp → r ≤ 3 → exec (.skDispreg d r x y w h) s = .next (skResult 0 []
        { s with skk := { s.skk with regions := s.skk.regions.set (d * 4 + r) ⟨x, y, w, h⟩ } }))
      ∧ (∀ d r c, s.skk.crcs.get? (d * 4 + r) = some c → exec (.skDispcrc d r) s = .next
        (skResult 0 (leBytes 8 c ++ leBytes 4 (s.disp d).frames) s))
      ∧ exec .skMbox s = .next (skResult 0 (s.skk.mbox ++ leBytes 4 s.skk.mboxCnt) s)
      ∧ exec .skTime s = .next (skResult 0 (leBytes 8 s.time.ns ++ leBytes 2 (s.time.frac / 65536)) s)
      ∧ (∀ d, exec (.skSafe d) s = .next (latchSafe 0x08 0 (d % 256) s)))
    ∧ (∀ kind inst sec, s.portsUp = true →
      (dbgInvasive s sec = false → exec (.debuggerAttach kind inst sec) s = .next
        (violate (accDev sec 0xFE) false 5 0 s))
      ∧ (dbgInvasive s sec = true →
        let t := { s with fws := { s.fws with attached := (kind, inst, sec) :: s.fws.attached } }
        exec (.debuggerAttach kind inst sec) s = .next
          (if (dbgSets kind inst && (s.dev.st == .ready || s.running) && !s.skk.debug) = true then
            offerBoth evDebugOp (leBytes 1 kind ++ leBytes 1 inst ++ leBytes 1 (b2n sec) ++ [0x00] ++ leBytes 4 s.time.ns)
              { t with skk := { s.skk with debug := true } }
          else t)))
    ∧ (s.dev.st = .service → s.portsUp = true →
      (∀ g lc slot pos off bs p, s.progs.get? g = some p → dbgInvasive s (s.ten p.tenant).secure = true →
        let log := s.skk.replay.getD g []
        (slotReached s p lc slot false = true →
          (p.img.paired = false → exec (.debugAction (.slot g lc slot pos false) off bs) s = .next
            (slotWrite p lc slot false off bs s))
          ∧ (p.img.paired = true → log.length < 4096 →
            exec (.debugAction (.slot g lc slot pos false) off bs) s = .next
              (modSkk (fun k => { k with replay := k.replay.set g (log ++ [⟨lc, slot, pos, off, bs⟩]) })
                (slotWrite p lc slot false off bs s))))
        ∧ exec (.debugAction (.slot g lc slot pos true) off bs) s = .next s)
      ∧ (∀ g off bs p e l, s.progs.get? g = some p → s.skk.replay.getD g [] = e :: l →
        exec (.debugAction (.replay g) off bs) s = .next
          (modSkk (fun k => { k with replay := if l.isEmpty then k.replay.erase g else k.replay.set g l })
            (slotWrite p e.lc (mirrorSlot p e.lc e.slot) true e.off e.bytes s)))
      ∧ (∀ off bs, dbgInvasive s true = true → dbgAttached s 4 0 true = true →
        exec (.debugAction (.skink 0) off bs) s = .next { s with skk := { s.skk with
          sram := s.skk.sram.writeN off bs } }))

/-- Bundles (R346, R347) and restarts (R349 to R351). -/
def Obligations.BundlesAndRestarts : Prop :=
  (∀ (h : Hdr) (ps : List Byte) (s : State),
    (cFwBegin.taken h ps s = true → exec (.fwBegin h ps) s = .next
      (modFws (fun f => { f with part := some (u32 ps 0, []) }) (okReply 0x0A01 h [] s)))
    ∧ (∀ total got, s.fws.part = some (total, got) → cFwChunk.taken h ps s = true → exec (.fwChunk h ps) s = .next
      (modFws (fun f => { f with part := some (total, got ++ ps.drop 8) }) (okReply 0x0A02 h [] s)))
    ∧ (cFwEnd.taken h ps s = true → exec (.fwEnd h ps) s = .next
      (modFws (fun f => { f with verify := some s.sch.nTok }) (acceptedReply 0x0A03 h 4 s).2))
    ∧ (cFwRestart.taken h ps s = true → exec (.fwRestart h ps) s = .next (endRestart (u8 ps 0)
      (beginRestart (u8 ps 0) 4 (journalCmd h 0x0A06 (u8 ps 0) 0 (okReply 0x0A06 h [] s))))))
  ∧ (∀ (tok total : Nat) (b : List Byte) (s : State), s.dev.st = .awaitFw → s.fws.verify = some tok →
    s.fws.part = some (total, b) →
    let r := bundleReason s total b
    let t := complete tok (reasonStatus r) (leBytes 1 r ++ zeros 3)
      (modFws (fun f => { f with verify := none, part := none }) s)
    (r = 0 → exec .fwVerifyDone s = .next (setDevSt .selfTest (modFws (fun f => { f with loaded := some (bundleOf b) }) t)))
    ∧ (r ≠ 0 → exec .fwVerifyDone s = .next (modFws (fun f => { f with loadFails := satAdd 0xFF f.loadFails 1 }) t)))
  ∧ ∀ (proc : Nat) (s : State),
    (s.fwRuns = true → procInService s proc = true → ∀ cause,
      let t := fwLog false 1 proc cause (countRestart proc s)
      let ts := s.time.ns :: (s.fws.cccTimes.getD proc []).filter (fun t => decide (s.time.ns < t + DAY))
      let hold := fun (t : State) => modFws (fun f => { f with restarting := f.restarting.set proc cause }) t
      let u := modFws (fun f => { f with cccTimes := f.cccTimes.set proc ts }) t
      (proc ≤ 2 → beginRestart proc cause s = hold t)
      ∧ (∀ cl, 0x10 ≤ proc → cccCluster s proc = some cl → beginRestart proc cause s = (if ts.length < 3 then hold u
        else retireCcc proc cl 7 3 (modFws (fun f => { f with restarting := f.restarting.erase proc }) u))))
    ∧ (s.fwRuns = false ∨ procInService s proc = false → ∀ cause, beginRestart proc cause s = s)
    ∧ exec (.fwWatchdogExpiry proc) s = .next (beginRestart proc 1 s)
    ∧ (∀ memory, exec (.fwException proc memory) s = .next (beginRestart proc (if memory then 3 else 2) s))
    ∧ exec (.fwRestartDone proc) s = .next (endRestart proc s)
    ∧ (∀ cause, s.fws.restarting.get? proc = some cause →
      let t := releaseCpl (modFws (fun f => { f with restarting := f.restarting.erase proc }) s)
      let who := if cause = 5 then 0x10 + t.larder.map.ccc.getD (proc - 0x20) 0 else proc
      let u := offer0 0x0AF0 (leBytes 1 who ++ leBytes 1 cause ++ leBytes 2 (min (rstCount t who) 0xFFFF)
        ++ leBytes 4 t.time.ns) t
      endRestart proc s = (if proc = fwPmc then drainAllTci (flushRefEvents u) else u))

/-- Secure sessions (R352, R414), attestation (R358), counters (R360) and the journal (R361). -/
def Obligations.SecureSessionsCountersAndJournal : Prop :=
  (∀ (h : Hdr) (ps : List Byte) (s : State),
    let p := h.port
    let j := fun (op object value : Nat) (d : List Byte) => journalCmd h op object value (okReply op h d s)
    (cFwSecChallenge.taken h ps s = true → exec (.fwSecChallenge h ps) s = .next
      (modPort p (fun v => { v with nonce := some (nextNonce s) })
        { j 0x0A20 0 0 (nextNonce s) with freeCtr := s.freeCtr + 1 }))
    ∧ (cFwSecProve.taken h ps s = true → exec (.fwSecProve h ps) s = .next
      (modPort p (fun v => { v with nonce := none, proveOk := true }) (j 0x0A21 0 0 [])))
    ∧ (cFwSecProve.refusedBy h ps s = true → cFwSecProve.verdict h ps s = DENIED → p = .hp0 → (s.port p).lockout = false →
      exec (.fwSecProve h ps) s = .next (modPort p (fun v => { v with
        nonce := none, proveFails := v.proveFails + 1, lockout := decide (8 ≤ v.proveFails + 1) })
        (replyUse 0x0A21 h DENIED [] s)))
    ∧ (cFwSvnCommit.taken h ps s = true →
      let v := max s.larder.svnFloor ((s.fws.loaded.map (·.svn)).getD 0)
      exec (.fwSvnCommit h ps) s = .next (modLarder (fun l => { l with svnFloor := v }) (j 0x0A10 0 v [])))
    ∧ (cFwSskSet.taken h ps s = true → exec (.fwSskSet h ps) s = .next
      (modLarder (fun l => { l with ssk := some ps }) (j 0x0A22 0 0 [])))
    ∧ (cFwIntkeyBurn.taken h ps s = true → exec (.fwIntkeyBurn h ps) s = .next
      { j 0x0A60 0 0 [] with part := { s.part with intKey := some ps } })
    ∧ (cFwAttest.taken h ps s = true →
      let k := u8 ps 32
      let st := statement s (ps.take 32) k
      let d := st ++ padTo 2820 (Config.xmssSign k (keyIndex s k) st)
      let t := j 0x0A30 k (keyIndex s k) d
      d.length = 3076
      ∧ (k = 0 → exec (.fwAttest h ps) s = .next { t with
        larder := { t.larder with attIndex := t.larder.attIndex + 1 }, fws := { t.fws with attQuotes := t.fws.attQuotes + 1 } })
      ∧ (k = 1 → exec (.fwAttest h ps) s = .next { t with
        larder := { t.larder with idIndex := t.larder.idIndex + 1 }, fws := { t.fws with idQuotes := t.fws.idQuotes + 1 } }))
    ∧ (cFwMcounter.taken h ps s = true →
      let v := counterVal s ps
      (u8 ps 1 = 0 → exec (.fwMcounter h ps) s = .next (okReply 0x0A50 h (leBytes 8 v) s))
      ∧ (u8 ps 1 = 1 → exec (.fwMcounter h ps) s = .next (modLarder (fun l => { l with user := l.user.set (u8 ps 0) (v + 1) })
        (j 0x0A50 (u8 ps 0) ((v + 1) % 2 ^ 32) (leBytes 8 (v + 1)))))))
  ∧ ∀ (p : Port) (s : State),
    exec (.nonceExpiry p false) s = .next (s.setPort p { s.port p with nonce := none })
    ∧ exec (.nonceExpiry p true) s = .next (s.setPort p { s.port p with proveOk := false })
    ∧ exec (.proveLockoutEnd p) s = .next (s.setPort p { s.port p with lockout := false })
    ∧ (s.fwRuns = true → s.fwDown fwSec = false →
      let all := s.larder.journal ++ numberFrom s.fws.jbuf s.larder.jseq
      exec .journalDrain s = .next { s with
        larder := { s.larder with
          journal := all.drop (all.length - 2048), jseq := s.larder.jseq + (numberFrom s.fws.jbuf s.larder.jseq).length },
        fws := { s.fws with jbuf := [] } })
    ∧ (∀ (l : List JEntry) (n i : Nat), (numberFrom l n).length = l.length
      ∧ (numberFrom l n)[i]? = (l[i]?).map (fun e => { e with seq := n + i }))

/-- The gateway (R366 to R374) and transit packets (R378, R381). -/
def Obligations.GatewayCommandsAndFrames : Prop :=
  (∀ (h : Hdr) (ps : List Byte) (s : State),
    let j := fun (op object value : Nat) => journalCmd h op object value (okReply op h [] s)
    (cGwRouteSet.taken h ps s = true →
      let r : RouteEnt := ⟨gwEntry ps, 0, rtBurst (gwEntry ps) * 1000000, s.time.ns⟩
      exec (.gwRouteSet h ps) s = .next
        (modGwy (fun g => { g with routes := g.routes.set (gwIndex ps) r }) (j 0x0B01 (gwIndex ps) 0)))
    ∧ (cGwRouteClear.taken h ps s = true → exec (.gwRouteClear h ps) s = .next (modGwy (fun g => { g with
        routes := g.routes.filter (fun k _ => k < gwIndex ps || gwIndex ps + u16 ps 2 ≤ k) })
      (j 0x0B02 (gwIndex ps) (u16 ps 2))))
    ∧ (cGwRingCfg.taken h ps s = true →
      let r : GwRing := ⟨h.tenant.toNat, u16 ps 2, u16 ps 4, u64 ps 8, u64 ps 16, 0, 0, 0, 0, 0⟩
      exec (.gwRingCfg h ps) s = .next (modGwy (fun g => { g with
        rings := if u8 ps 1 = 0 then g.rings.erase (u8 ps 0) else g.rings.set (u8 ps 0) r }) (okReply 0x0B10 h [] s)))
    ∧ (cGwPortCfg.taken h ps s = true → exec (.gwPortCfg h ps) s = .next
      (modNetPort (u8 ps 0) (fun n => { n with cfg := ps }) (j 0x0B20 (u8 ps 0) (u32 ps 4))))
    ∧ (cGwIsoCfg.taken h ps s = true →
      let c : IsoCfg := ⟨u8 ps 2, u8 ps 3, u8 ps 4, u64 ps 8, u8 ps 2, none⟩
      exec (.gwIsoCfg h ps) s = .next (modNetPort (u8 ps 0)
        (fun n => { n with iso := if u8 ps 1 = 1 then some c else none }) (j 0x0B21 (u8 ps 0) (u32 ps 1)))))
  ∧ ∀ (s : State),
    (s.gwyRuns = true →
      (∀ f err g, ctxTakers s f = [] → gFrame s f err = some g →
        let ks := acting g 4 s.gwy.routes.cells
        (ks = [] → exec (.gatewayFrame f err) s = .next (modGwy (fun w => { w with
          noroute := true, norouteCnt := min 0xFFFF (w.norouteCnt + 1) }) s))
        ∧ (ks ≠ [] → ks.length ≤ 4 ∧ exec (.gatewayFrame f err) s = .next (ks.foldl (fun s k => actEntry k g s) s)))
      ∧ (∀ p, s.isMember = true → p.dev = s.chn.devid →
        (targetFail s p.tenant p.port p.id = 0 → exec (.postedWrite p) s = .next
          (deliverAt p.port p.prio (p.kind % 16) p.id (postedFrame p) s))
        ∧ (targetFail s p.tenant p.port p.id ≠ 0 → exec (.postedWrite p) s = .next
          (reportFail (targetFail s p.tenant p.port p.id) p s)))
      ∧ (∀ dst w p up, s.isMember = true → dst ≠ s.chn.devid → s.chn.table.get? dst = some p → (s.sl p).lstate = 5 →
        exec (.chainPacketForward s.chn.gen dst up (some w)) s = .next
          (storeC3 p ⟨s.chn.gen, dst, up && ccTopo s.chn.cfg == 1, w⟩ s)
        ∧ exec (.chainPacketForward s.chn.gen dst up none) s = .next s)
      ∧ (∀ k r v, k < 64 → s.gwy.rings.get? k = some r →
        let n := (v % 65536 + 65536 - r.txHead) % 65536
        let t := modGwy (fun g => { g with rings := g.rings.set k { r with txTail := v % 65536 } }) s
        exec (.txtailWrite ⟨0x300000 + k * 0x1000, 4, v⟩) s = .next (if r.depth < n then t else txSlots k n t))
      ∧ (∀ rs op od id ix tn,
        let g := { s.gwy with pwerrCnt := min 0xFFFF (s.gwy.pwerrCnt + 1) }
        exec (.errorReport rs op od id ix tn) s = .next (offer0 0x0BF0
          (leBytes 1 rs ++ leBytes 1 op ++ leBytes 2 od ++ leBytes 4 id ++ leBytes 2 ix ++ leBytes 1 tn ++ [0x00]
            ++ leBytes 4 s.time.ns)
          { s with gwy := if s.gwy.pwerr then g else { g with
              pwerr := true, e0 := id, e1 := fld rs 28 4 + fld od 16 12 + fld op 8 8 + fld tn 0 8,
              e2 := fld ix 0 13 } })))
    ∧ (∀ k r v, k < 64 → s.gwy.rings.get? k = some r → exec (.rxdoneWrite ⟨0x300000 + k * 0x1000 + 4, 4, v⟩) s = .next
      (modGwy (fun g => { g with rings := g.rings.set k { r with rxDone := v % 65536 } }) s))
    ∧ (∀ c x l, c < s.nCan → (s.netPort c).txq = x :: l →
      let old := l.foldl (fun (b : TxFrame) f => if f.since < b.since then f else b) x
      old.since + 1000000 < s.time.ns → exec (.canTxTimeout c) s = .next
        (countDrops 1 (modNetPort c (fun n => { n with txq := n.txq.erase old }) s)))
    ∧ (∀ p x l, (s.sl p).c3 = x :: l → exec (.c3Timeout p) s = .next
      (countDrops 1 (modSl p (fun v => { v with c3 := l }) s)))
    ∧ (∀ c i, (s.netPort c).iso = some i →
      (i.addr ≠ some i.claim → exec (.addressClaim c true) s = .next
        (evLink c 6 0 (modNetPort c (fun n => { n with iso := some { i with addr := some i.claim } }) s)))
      ∧ (bit i.name 63 = true → nextClaim i ≠ 254 → exec (.addressClaim c false) s = .next
        (modNetPort c (fun n => { n with iso := some { i with claim := nextClaim i, addr := none } }) s))
      ∧ (bit i.name 63 = false ∨ nextClaim i = 254 →
        let t := modNetPort c (fun n => { n with iso := some { i with claim := 254, addr := some 254 } }) s
        exec (.addressClaim c false) s = .next (if i.addr = some 254 then t else evLink c 6 0 t)))

/-- Links (R375 to R378). -/
def Obligations.LinksTrainCarryAndFail : Prop :=
  ∀ (p : Nat) (s : State),
    let l := s.sl p
    (p < s.nSl →
      let t := modSl p (fun l => { l with signal := true }) s
      exec (.signalDetected p) s = .next (if (t.slEnabled p && (t.sl p).lstate == 0) = true then beginTraining p t else t))
    ∧ (s.slEnabled p = true → l.lstate = 0 → l.signal = true → exec (.linkRetry p) s = .next (beginTraining p s))
    ∧ beginTraining p s = modSl p (fun l => { l with
      lstate := 1, lanes := 0, width := 0, dly := 0, replays := 0, corr := 0, uncorr := 0, peerId := 0, peerPart := 0,
      peerMember := false }) s
    ∧ (trains l.lstate = true →
      exec (.linkTrainingTimeout p) s = .next (modSl p (fun l => { l with lstate := 0 }) s)
      ∧ (s.slEnabled p = true → ∀ peer lanes dly,
        let twice := (List.range s.nSl).any (fun q => q != p && (s.sl q).lstate == 5 && (s.sl q).peerPart == peer.part)
        (twice = true → exec (.linkUp p peer lanes dly) s = .next (modSl p (fun l => { l with lstate := 0 }) s))
        ∧ (twice = false →
          let t := modSl p (fun m => { m with
            lstate := 5, lanes := lanes % 32,
            width := if l.retrain || s.larder.map.laneOut.contains p then 2 else 4, dly := min dly 0xFFFF,
            peerId := if peer.member then peer.id else 0, peerPart := peer.part, peerMember := peer.member,
            retrain := false }) s
          let u := if (isMaster t && peer.member) = true
            then modChn (fun c => { c with pend := c.pend ++ [.link c.devid peer.id dly] }) t
            else if (t.isMember && peer.member) = true then send (.linkDly t.chn.devid peer.id dly) t else t
          exec (.linkUp p peer lanes dly) s = .next
            (tryJoin p (evLink p (if l.retrain then 5 else 1) (lanes % 32) u)))))
    ∧ (l.lstate = 5 →
      (∀ corr uncorr ok, exec (.flitReceived p corr uncorr ok) s = .next (modSl p (fun l => { l with
        corr := min 0xFFFF (l.corr + corr), uncorr := min 0xFFFF (l.uncorr + uncorr),
        replays := min 0xFFFF (l.replays + b2n (!ok)) }) s))
      ∧ (∀ lane e, p < s.nSl → lane ≤ 4 → s.larder.map.laneOut.contains p = false → bit (lanesOf s p) lane = true →
        (s.larder.map.laneSub.get? p = none →
          let t := modMap (fun k => { k with laneSub := k.laneSub.set p lane, nRetired := k.nRetired + 1 }) s
          let n := lanesOf t p
          exec (.laneSpare p lane e) s = .next
            (evLink p 3 n (wear 5 3 6 (p * 16 + lane) e (modSl p (fun l => { l with lanes := n }) t))))
        ∧ ((s.larder.map.laneSub.get? p).isSome = true →
          let t := modMap (fun k => { k with
            laneOut := k.laneOut ++ [p], nRetired := k.nRetired + 1, nNoSpare := k.nNoSpare + 1 }) s
          exec (.laneSpare p lane e) s = .next
            (modSl p (fun l => { l with lstate := 1, lanes := 0, width := 0, retrain := true })
              (evLink p 4 (setBit (lanesOf s p) lane false) (retireNoSpare (wear 5 4 6 (p * 16 + lane) e t))))))
      ∧ (let t := l.c3.foldl (fun s c => reportFail 2 c.post s)
            (evLink p 2 l.lanes (modSl p (fun l => { l with lstate := 0, signal := false, c3 := [] }) s))
        exec (.linkDown p) s = .next (if (!t.isMember || !l.peerMember) = true then t
          else if t.chn.role = 1 then linkLost t.chn.devid l.peerId t else send (.portDown t.chn.devid l.peerId) t))
      ∧ (∀ dly far,
        let t := modSl p (fun l => { l with dly := min dly 0xFFFF }) s
        let peer := (t.sl p).peerId
        let same := fun (x y : ChLink) => (x.a == y.a && x.b == y.b) || (x.a == y.b && x.b == y.a)
        let new := ⟨t.chn.devid, peer, dly⟩ :: far
        let links := t.chn.links.map (fun l => (new.find? (same l)).getD l)
        let lat := chainLat t.chn.members.keys links
        let add := new.filter (fun l => !t.chn.links.any (same l) && (t.chn.members.get? l.a).isSome
          && (t.chn.members.get? l.b).isSome)
        let u := modChn (fun c => { c with
          links := links, lat := lat, pend := c.pend ++ add.map (fun l => .link l.a l.b l.dly) }) t
        (isMaster t = false → exec (.linkdlyMeasure p dly far) s = .next
          (if (t.isMember && (t.sl p).peerMember) = true then send (.linkDly t.chn.devid peer dly) t else t))
        ∧ (isMaster t = true → exec (.linkdlyMeasure p dly far) s = .next
          (if ccBudget u.chn.cfg < lat then evChain 7 0 u.chn.devid (send .overBudget u) else u))))

/-- The chain (R372, R379 to R385). -/
def Obligations.ChainMembersAndEpoch : Prop :=
  (∀ (h : Hdr) (ps : List Byte) (s : State),
    (cChnCfg.taken h ps s = true →
      let a := modChn (fun c => { c with cfg := ps, role := ccRole ps })
        (journalCmd h 0x0B30 (ccMask ps) (ccChainId ps) (okReply 0x0B30 h [] s))
      let b := (List.range a.nSl).foldl (fun s p =>
        if !s.slEnabled p then modSl p (fun l => { l with lstate := 0 }) s
        else if (s.sl p).lstate == 0 && (s.sl p).signal then beginTraining p s else s) a
      let id := if ccReqId ps = 0xFFFF then 0 else ccReqId ps
      (ccEnable ps = false → exec (.chnCfg h ps) s = .next (modChn (fun c => { c with st := 0 }) b))
      ∧ (ccEnable ps = true → ccRole ps = 1 → exec (.chnCfg h ps) s = .next (modChn (fun c => { c with
        st := 3, devid := id, master := id, members := Map.empty.set id 1, links := [], table := Map.empty,
        old := Map.empty, lat := 0, pend := [] }) b))
      ∧ (ccEnable ps = true → ccRole ps ≠ 1 →
        let d := modChn (fun c => { c with st := 1, members := Map.empty, links := [], table := Map.empty }) b
        exec (.chnCfg h ps) s = .next ((List.range d.nSl).foldl (fun s p => tryJoin p s) d)))
    ∧ (cChnLeave.taken h ps s = true →
      let t := modChn (fun c => { c with leaveTok := some s.sch.nTok })
        (journalCmd h 0x0B31 s.chn.devid 0 (acceptedReply 0x0B31 h 0 s).2)
      exec (.chnLeave h ps) s = .next (if s.chn.role = 1 then
        modChn (fun c => { c with pend := .remove c.devid :: c.pend }) t else send (.leave t.chn.devid) t))
    ∧ (cChnEvict.taken h ps s = true → exec (.chnEvict h ps) s = .next (modChn (fun c => { c with
        pend := c.pend ++ [.remove (u16 ps 0)], evicts := c.evicts ++ [(u16 ps 0, s.sch.nTok)] })
      (journalCmd h 0x0B34 (u16 ps 0) 0 (acceptedReply 0x0B34 h 0 s).2))))
  ∧ ∀ (s : State),
    (isMaster s = true →
      (∀ via port dly cid role ep rq st, ((planned s).1.get? via).isSome = true →
        (∀ id, joinReason s via dly cid rq st = 0 → joinId (planned s).1 rq = some id →
          exec (.joinReq (.request via port dly cid role ep rq st)) s = .next
            (modChn (fun c => { c with pend := c.pend ++ [.join id role via port dly ep] }) s))
        ∧ (joinReason s via dly cid rq st ≠ 0 → exec (.joinReq (.request via port dly cid role ep rq st)) s = .next
          (send (.refused via (joinReason s via dly cid rq st)) s)))
      ∧ (∀ leaves,
        let t := modChn (fun c => { c with
          pend := (leaves.filter (fun k => (c.members.get? k).isSome)).map ChainOp.remove ++ c.pend }) s
        let u := markPeers t
        let e := max u.sch.epoch (maxOf (joinEpochs u.chn.pend)) + 1
        let v := { u with sch := { u.sch with epoch := e } }
        let w := if v.chn.pend.isEmpty then v else applyChain v
        (t.jobs.any (fun _ j => j.prepared) = true → exec (.epochAdvance leaves) s = .next t)
        ∧ (t.jobs.any (fun _ j => j.prepared) = false → u.jobs.any (fun _ j => j.prepared) = false →
          exec (.epochAdvance leaves) s = .next (send (.advance e w.chn.gen) w)))
      ∧ (∀ a b,
        let on := fun (l : ChLink) => (l.a == a && l.b == b) || (l.a == b && l.b == a)
        (s.chn.links.any on = false → exec (.portDownReport a b) s = .next s)
        ∧ (s.chn.links.any on = true →
          let s1 := modChn (fun c => { c with links := c.links.filter (fun l => !on l) }) s
          let gone := s1.chn.members.keys.filter (fun k => k != s1.chn.devid && !reaches s1.chn.links s1.chn.devid k)
          let s2 := endChainJobs gone.contains s1
          let s3 := modChn (fun c => { c with pend := gone.map ChainOp.remove ++ .reroute :: c.pend }) s2
          let e := max s3.sch.epoch (maxOf (joinEpochs s3.chn.pend)) + 1
          exec (.portDownReport a b) s = .next (if s3.jobs.any (fun _ j => j.prepared) = true then s3
            else send (.advance e (s3.chn.gen + 1))
              (applyChain (markPeers { s3 with sch := { s3.sch with epoch := e } }))))))
    ∧ (∀ reason, s.chn.st = 2 → exec (.joinReq (.refused reason)) s = .next
      (evChain 8 reason 0 (modChn (fun c => { c with st := 1 }) s)))
    ∧ (s.isMember = true → s.chn.role ≠ 1 →
      (∀ e isOver sw,
        let t := adoptEpoch (modChn (fun c => { c with advTo := some (max e (c.advTo.getD 0)) }) s)
        let u := match sw with
          | some g => takeGen g t
          | none => t
        exec (.advance e isOver sw) s = .next (if isOver = true then evChain 7 0 u.chn.master u else u))
      ∧ (∀ links, s.chn.role = 2 →
        let e := max s.sch.epoch (s.chn.advTo.getD 0) + 1
        let keep := s.chn.members.filter (fun k _ => k == s.chn.devid || reaches links s.chn.devid k)
        let gone := s.chn.members.keys.filter (fun k => (keep.get? k).isNone)
        let a := endChainJobs gone.contains s
        let b := modChn (fun c => { c with
          role := 1, master := c.devid, members := keep.set c.devid 1, links := links, pend := [], advTo := none })
          { a with sch := { a.sch with epoch := e } }
        let d := gone.foldl (fun s k => evChain 3 0 k s)
          (switchGen (b.chn.gen + 1) (chainLat keep.keys links) (routesOf b keep.keys links) b)
        exec (.masterLost none links) s = .next (send (.advance e d.chn.gen) (evChain 6 0 d.chn.devid d)))
      ∧ (∀ links, s.chn.role ≠ 2 → exec (.masterLost none links) s = .next (leftChain 4 5 s)
        ∧ ∀ m, m ≠ s.chn.devid → exec (.masterLost (some m) links) s = .next
          (evChain 6 0 m (modChn (fun c => { c with master := m }) s))))
    ∧ (∀ e, s.chn.advTo = some e →
      (s.jobs.any (fun _ j => j.prepared) = true → adoptEpoch s = s)
      ∧ (s.jobs.any (fun _ j => j.prepared) = false → adoptEpoch s = { s with
        sch := { s.sch with epoch := max s.sch.epoch e },
        chn := { s.chn with advTo := none, sent := s.chn.sent ++ [.ack e] } }))
    ∧ (∀ tok t a, s.gwyRuns = true → s.isMember = true →
      let c := accTenant s t
      let put := fun (ok : Bool) (d : List Byte) (s : State) => { s with chn := { s.chn with answer := some (tok, ok, d) } }
      (∀ n, accessCheck s c a n = 0 → exec (.remoteRequest tok t a n none) s = .next
        (put true (checkedRead c a n s).1 (checkedRead c a n s).2))
      ∧ (∀ n, accessCheck s c a n ≠ 0 → exec (.remoteRequest tok t a n none) s = .next
        (put false (zeros n) (violate c false (accessCheck s c a n) a s)))
      ∧ (∀ n d, accessCheck s c a d.length = 0 → exec (.remoteRequest tok t a n (some d)) s = .next
        (put true [] (checkedWrite c a d s)))
      ∧ (∀ n d, accessCheck s c a d.length ≠ 0 → exec (.remoteRequest tok t a n (some d)) s = .next
        (put false [] (violate c true (accessCheck s c a d.length) a s))))

/-- Supply and temperature (R395 to R400, R415) and frequency measurement (R36). -/
def Obligations.ThrottlingDroopsAndTemperature : Prop :=
  (∀ cap p share f : Nat, 16 ≤ f → f ≤ 64 →
    let g := nextF cap p share f
    16 ≤ g ∧ g ≤ 64 ∧ f ≤ g + 4 ∧ g ≤ f + 1 ∧ (cap < p → g ≤ f))
  ∧ (∀ (f : Pow → Pow) (s : State), modClock f s = noteClock { s with pow := f s.pow })
  ∧ (∀ (s : State),
    let k := s.clk
    let f := islandClock s k.fselKind k.fselInst
    noteClock s = { s with clk := { k with
      fwPct := min k.fwPct (stretchPct s k.fselKind k.fselInst), fwLo := min k.fwLo f, fwHi := max k.fwHi f } })
  ∧ ∀ (s : State), s.powered = true →
    (∀ share, s.pmcRuns = true → exec (.pmcInterval share) s = .next (modClock (fun w => { w with
        f := nextF (10 * capW s) (intervalPower s) (min share (intervalPower s)) w.f, fastOn := false }) s))
    ∧ (∀ v i, 125000 * capW s < v * i → exec (.fastLimit v i) s = .next
      (modClock (fun w => { w with fastlim := true, fastOn := true }) s))
    ∧ (∀ v i, v * i ≤ 125000 * capW s → exec (.fastLimit v i) s = .next s)
    ∧ (∀ mv, s.pow.droop = none →
      (100 * s.pow.droopV ≤ mv → exec (.vinDroop mv) s = .next s)
      ∧ (mv < 100 * s.pow.droopV → exec (.vinDroop mv) s = .next (modClock (fun w => { w with
        droop := some s.time.ns, droopPct := if mv + 500 < 100 * s.pow.droopV then 50 else 75,
        vdroops := min 0xFFFF (s.pow.vdroops + 1) }) s)))
    ∧ (∀ k i m, islandHere s k i = true → s.pow.rail.get? (k * 256 + i) = none →
      (970 < m → exec (.railDroop k i m) s = .next s)
      ∧ (m ≤ 970 → exec (.railDroop k i m) s = .next (modClock (fun w => { w with
        rail := w.rail.set (k * 256 + i) (if m ≤ 950 then 50 else 75), rdroops := min 0xFFFF (s.pow.rdroops + 1) }) s)))
    ∧ (∀ i, exec (.droopRelease (some i)) s = .next
      (modClock (fun w => { w with rail := w.rail.erase (i.1 * 256 + i.2) }) s))
    ∧ (∀ t, s.pow.droop = some t →
      let n := modClock (fun w => { w with droop := none, droopPct := 100 }) s
      let us := (s.time.ns - t) / 1000
      exec (.droopRelease none) s = .next (if s.time.ns - t ≤ 1000000 then n
        else evPower 2 none (if us < 65536 then some us else none) n))
    ∧ (∀ t,
      let a := modClock (fun w => { w with
        tjmax := tempByte (hottest ((t.clusters ++ t.dies ++ t.edges).flatten)) w.tjmax,
        thbm := tempByte (hottest t.nHbm) w.thbm, hot := hotMask w.hot t.clusters, refresh2 := hotStacks t.nHbm }) s
      let b := if a.pmcRuns then modClock (fun w => { w with therm := thermStep t w }) a else a
      let c := match tripTemp t with
        | some x => if b.pow.thermtrip then b
          else evPower 6 none (some (ofInt 16 x)) { b with pow := { b.pow with thermtrip := true } }
        | none => b
      exec (.thermalSample t) s = .next ((List.range 12).foldl (fun s cl => restoreCluster cl t s) c))
    ∧ (∀ c x, c < 12 → 125 ≤ x → (s.cl c).tripped = false →
      let a := endJobs (jobIn c) FAULT 0x0C02 (clusterLost c s)
      let b := a.progs.cells.foldl (fun s p =>
        match (p.2.binds ++ p.2.old.flatMap (·.binds)).find? (bindIn c) with
        | some b => loseProg p.1 b.lc c 0xFF s
        | none => s) a
      let d := b.loads.foldl (fun s l => if l.binds.any (bindIn c) then dropLoad PLACEMENT_LOST [] l s else s) b
      let e := d.setCl c { Cluster.fresh with mode := .off, tripped := true }
      exec (.clusterTrip c x) s = .next
        (evPower 4 (some c) (some x) { e with pow := { e.pow with trips := min 0xFFFF (e.pow.trips + 1) } }))
    ∧ (∀ v i,
      let l := ((v, i) :: s.pow.samples).take 1000
      exec (.inputMonitorSample v i) s = .next { s with pow := { s.pow with
        samples := l, vin := min 0xFFFF (meanOf (·.1) (l.take 10)), iin := min 0xFFFF (meanOf (·.2) (l.take 10)),
        peak := min 0xFFFF (max s.pow.peak (meanPower (l.take 10))), mean := min 0xFFFF (meanPower l) } })
    ∧ (islandHere s s.clk.fselKind s.clk.fselInst = true → ∀ fr,
      let b := meanBounds s.clk
      exec (.fmeasWindow fr) s = .next (newWindow { s with clk := if s.clk.fmArmed then { s.clk with
          fmValid := true, fmFreq := min 65535 (max b.1 (min b.2 fr)), fmMinPct := s.clk.fwPct }
        else { s.clk with fmArmed := true } }))
    ∧ (islandHere s s.clk.fselKind s.clk.fselInst = false → ∀ fr, exec (.fmeasWindow fr) s = .next { s with
      clk := { s.clk with fmValid := false, fmArmed := true, fmFreq := 0, fmMinPct := 0 } })

/-- Gating (R401, R402), wear and retirement (R393, R403 to R405, R416). -/
def Obligations.GatingWearAndRetirement : Prop :=
  (∀ (h : Hdr) (ps : List Byte) (s : State),
    (cPwrGate.taken h ps s = true →
      let j := journalCmd h 0x0C02 (u16 ps 0) (u8 ps 2) (acceptedReply 0x0C02 h 0 s).2
      exec (.pwrGate h ps) s = .next (modPow (fun w => { w with
        gatePend := w.gatePend ++ [(s.sch.nTok, u8 ps 0, u8 ps 1, u8 ps 2)] })
        (if u8 ps 2 = 0 then j else cutBlock (u8 ps 0) (u8 ps 1) (u8 ps 2) j)))
    ∧ (cPwrRetire.taken h ps s = true → exec (.pwrRetire h ps) s = .next (complete s.sch.nTok OK []
      (retireUnit (u8 ps 0) (u32 ps 4) (journalCmd h 0x0C04 (u32 ps 4) (u8 ps 0) (acceptedReply 0x0C04 h 0 s).2)))))
  ∧ ∀ (s : State),
    (∀ k i g, s.fwDown fwPmc = false → s.pow.gatePend.find? (fun g => g.2.1 == k && g.2.2.1 == i) = some g →
      let t := modPow (fun w => { w with gatePend := w.gatePend.erase g }) s
      exec (.pwrGateDone k i) s = .next (complete g.1 OK [] (if g.2.2.2 = 0 then runBlock k i t else t)))
    ∧ (∀ d p r n, s.dev.st ≠ .off → d < s.edies → p < activePhases s.part.variant + sparePhases s.part.variant →
      s.larder.map.units.contains (6, d * 256 + p) = false → railOf s d p = some r → freePhase s d = some n →
      exec (.phaseFault d p) s = .next (evPower 3 none none (wear 6 3 5 (d * 256 + p) 0
        (modMap (fun m => { m with phaseSub := m.phaseSub.set (d * 256 + n) r })
          (addUnit 6 (d * 256 + p) false { s with pow := { s.pow with phaseflt := true } })))))
    ∧ (∀ t d, s.fwRuns = true → t < 156 → (s.tileMap (t / 13)).retired.contains (t % 13) = false →
      (d < 400 → exec (.wearMeasure [(t, d)]) s = .next s)
      ∧ (400 ≤ d → d < 600 → exec (.wearMeasure [(t, d)]) s = .next (wear 1 1 1 (t + 0xFF00) d s))
      ∧ (600 ≤ d → exec (.wearMeasure [(t, d)]) s = .next (retireTileWear (t / 13) (t % 13) 1 d s)))
    ∧ (∀ c t cause v, c < 12 → t < 13 → (s.tileMap c).retired.contains t = false → (s.tileMap c).spare = some t →
      let u := retireTileWear c t cause v s
      (u.tileMap c).retired = t :: (s.tileMap c).retired ∧ (u.tileMap c).spare = none
      ∧ u.larder.map.nRetired = s.larder.map.nRetired + 1 ∧ u.larder.map.nNoSpare = s.larder.map.nNoSpare
      ∧ u.jobs = s.jobs ∧ u.progs = s.progs)
    ∧ (∀ e : SramErr, s.powered = true → sramHere e s = true →
      (e.unc = true →
        let t := repairLine e 0 3 1 s
        exec (.sramEccError e) s = .next (match e.job with
          | some j => if sramMeets e j t then reloadJob j t else t
          | none => t))
      ∧ (e.unc = false →
        let k := if e.clus then 3 else 2
        let w := e.unit * 256 + e.part
        let r := noteError (lineKey k w 0 e.row) s
        let c := noteError (lineKey k w 1 e.col) r.2
        exec (.sramEccError e) s = .next (if 3 ≤ r.1 then repairLine e 0 2 r.1 c.2
          else if 3 ≤ c.1 then repairLine e 1 2 c.1 c.2 else c.2)))
    ∧ (∀ k,
      let ts := s.time.ns :: (s.pow.sramErr.getD k []).filter (fun t => decide (s.time.ns < t + DAY))
      noteError k s = (ts.length, { s with pow := { s.pow with
        sramErr := if ts.length < 3 then s.pow.sramErr.set k ts else s.pow.sramErr.erase k } }))

/-- Commands that read and change nothing but their port. -/
def Obligations.QueriesReplyAndChangeNothingElse : Prop :=
  ∀ (h : Hdr) (ps : List Byte) (s : State),
    let k := u8 ps 0
    let normal := !(s.port h.port).secure
    (cFusMapStatus.taken h ps s = true → ∀ m, m = s.map k → exec (.fusMapStatus h ps) s = .next (okReply 0x0602 h
      (leBytes 1 m.mst ++ leBytes 1 m.pairs.length ++ zeros 2 ++ leBytes 4 (min 0xFFFFFFFF m.maperr)
        ++ (match m.fit with
            | some f => satBytes 4 f.r16 ++ satBytes 8 f.aNs
            | none => zeros 12)) s))
    ∧ (∀ c, s.fctxs.get? k = some c →
      (cFusStatus.taken h ps s = true → exec (.fusStatus h ps) s = .next (okReply 0x0613 h
        (leBytes 4 c.gen ++ leBytes 2 c.st.tracks.length ++ leBytes 2 c.st.cands.length ++ leBytes 8 c.st.lastTv) s))
      ∧ (cFusSensorStatus.taken h ps s = true → exec (.fusSensorStatus h ps) s = .next
        (okReply 0x0614 h (committedRec c (u8 ps 1)) s)))
    ∧ (∀ c, s.rctxs.get? k = some c → cRasStatus.taken h ps s = true → exec (.rasStatus h ps) s = .next (okReply 0x0703 h
      (leBytes 1 1 ++ leBytes 1 (b2n (c.running.isSome || rasWaits s k)) ++ zeros 2
        ++ leBytes 4 (min 0xFFFFFFFF c.flushes) ++ leBytes 4 ((c.peak + 1023) / 1024)) s))
    ∧ (cDispStatus.taken h ps s = true → ∀ d, d = s.disp k → exec (.dispStatus h ps) s = .next (okReply 0x0713 h
      (leBytes 1 d.st ++ leBytes 1 (u8 d.cfg 3 % 16) ++ leBytes 1 (u8 d.cfg 3 / 16) ++ [0x00]
        ++ leBytes 4 (d.frames % 2 ^ 32) ++ leBytes 4 (min 0xFFFFFFFF d.underruns)) s))
    ∧ (cCtlBankRead.taken h ps s = true → exec (.ctlBankRead h ps) s = .next (okReply 0x0803 h
      (if u8 ps 2 = 0 then ((s.ce k).loop (u8 ps 1)).live else ((s.ce k).loop (u8 ps 1)).standby) s))
    ∧ (cCtlStatus.taken h ps s = true → exec (.ctlStatus h ps) s = .next (okReply 0x0808 h
      ((List.range 64).flatMap (fun i =>
          let l := (s.ce k).loop i
          leBytes 1 (l.st + 4 * b2n l.accsat + 8 * b2n l.feover + 16 * l.cause + 128 * b2n (swapPends (s.ce k) (2 ^ i))))
        ++ (List.range 16).flatMap (fun g => leBytes 1 (winByte (s.ce k) (g + 1)))) s))
    ∧ (∀ p, s.progs.get? (u16 ps 0) = some p → cSkkProgStatus.taken h ps s = true →
      exec (.skkProgStatus h ps) s = .next (okReply 0x0903 h
        (leBytes 1 (b2n p.lapsed + 2 * b2n (goldenRuns s (u16 ps 0))) ++ leBytes 1 (p.frames.filter id).length ++ zeros 2
          ++ leBytes 4 p.gPasses ++ leBytes 8 p.lastPass ++ leBytes 8 p.due ++ leBytes 4 p.mismatch) s))
    ∧ (cSkkBistGet.taken h ps s = true →
      let k := s.skk
      let free := Config.freeNat s.freeCtr
      exec (.skkBistGet h ps) s = .next { okReply 0x0907 h
        (leBytes 4 (bistWord k) ++ leBytes 1 (if k.bistFail = 0 then free else k.bistKind)
          ++ leBytes 1 (if k.bistFail = 0 then free / 256 else k.bistInst) ++ zeros 10) s with freeCtr := s.freeCtr + 1 })
    ∧ (cFwInfo.taken h ps s = true → exec (.fwInfo h ps) s = .next (okReply 0x0A04 h
      (leBytes 4 (fwsInfo s) ++ leBytes 4 (fwsSvn s) ++ [1, 2, 3, 4, 5].flatMap (digestOf s)
        ++ padTo 32 ((s.fws.loaded.map (·.chkDigest)).getD [])) s))
    ∧ (cFwLogRead.taken h ps s = true → exec (.fwLogRead h ps) s = .next (okReply 0x0A05 h
      (((s.fws.log.drop (u32 ps 0)).take (u16 ps 4)).flatMap
        (fun r => if r.1 && normal then patch r.2 16 (zeros 8) else r.2)) s))
    ∧ (cFwAttestCert.taken h ps s = true → exec (.fwAttestCert h ps) s = .next (okReply 0x0A31 h
      (padTo 68 (Config.publicKey (1 - k)) ++ padTo 2820 (Config.certificate (1 - k))) s))
    ∧ (cFwJournalRead.taken h ps s = true → exec (.fwJournalRead h ps) s = .next (okReply 0x0A40 h
      (journalEnds s.larder.journal ++ zeros 8
        ++ ((s.larder.journal.filter (fun e => decide (u32 ps 0 ≤ e.seq % 2 ^ 32))).take (u16 ps 4)).flatMap
          (fun e => e.bytes normal)) s))
    ∧ (cPwrStatus.taken h ps s = true → exec (.pwrStatus h ps) s = .next (okReply 0x0C01 h
      (leBytes 4 (pwrStat s) ++ leBytes 4 (pwrCfg s) ++ leBytes 4 (pwrPin s) ++ leBytes 4 (pwrPower s)
        ++ leBytes 4 (pwrTstat s) ++ leBytes 4 (pwrGstat s)) s))
    ∧ (cPwrWearRead.taken h ps s = true → exec (.pwrWearRead h ps) s = .next (okReply 0x0C03 h
      (wearEnds s.larder.wear ++ zeros 8
        ++ ((s.larder.wear.filter (fun e => decide (u32 ps 0 ≤ e.seq))).take (u16 ps 4)).flatMap WearRec.bytes) s))
    ∧ (cGwRouteGet.taken h ps s = true → exec (.gwRouteGet h ps) s = .next (okReply 0x0B03 h
      (match s.gwy.routes.get? (u16 ps 0) with
        | some r => padTo 32 r.raw ++ leBytes 4 r.hits
        | none => zeros 36) s))
    ∧ (cChnStatus.taken h ps s = true → exec (.chnStatus h ps) s = .next (okReply 0x0B32 h
      (leBytes 1 s.chn.st ++ leBytes 1 s.chn.role ++ leBytes 2 s.chn.devid ++ leBytes 2 s.chn.master
        ++ leBytes 2 s.chn.members.cells.length ++ leBytes 8 s.sch.epoch ++ leBytes 2 s.chn.gen ++ zeros 2
        ++ leBytes 4 s.chn.lat) s))
    ∧ (cChnMembers.taken h ps s = true → exec (.chnMembers h ps) s = .next (okReply 0x0B33 h
      (((s.chn.members.filter (fun k _ => decide (u16 ps 0 ≤ k))).cells.take (u16 ps 2)).flatMap
        (fun c => memberBytes s c.1 c.2)) s))

/-- The form holds at reset. -/
def Obligations.ResetKeepsForm : Prop := State.reset.formOk = true

/-- What every step keeps. -/
def Obligations.EveryStepKeepsForm : Prop :=
  ∀ (s s' : State), s.formOk = true → step s = .next s' → s'.formOk = true

/-- R57, over every command and every state. -/
def Obligations.DeviceMovesOnlyByItsTransitions : Prop :=
  (∀ (i : Instr) (s s' : State), (∀ p ph d, i ≠ .writePacket p ph d) → exec i s = .next s' →
    s'.dev.st = s.dev.st ∨ s.dev.st.mayMove s'.dev.st = true)
  ∧ (∀ (c : Cmd) (h : Hdr) (ps : List Byte) (s : State), c ∈ cmdTable →
    (c.run h ps s).dev.st = s.dev.st ∨ s.dev.st.mayMove (c.run h ps s).dev.st = true)
  ∧ (∀ (s s' : State), s.pending = [] → step s = .next s' → s'.dev.st = s.dev.st)
  ∧ (∀ (i : Instr) (s s' : State), s.safeHeld = true → exec i s = .next s' →
    s'.safeHeld = true
    ∨ (i = .devResetInit ∧ s.dev.resetPend = true ∧ s'.dev.st = .init)
    ∨ (i = .vinLoss ∧ s'.dev.st = .off))
  ∧ (∀ (s : State), s.safeHeld = true → s.safeN = false ∧ s.safeP = true)
end

