-- ==== Sys2Proof/Laws/Command.lean ====
section
/-! SUPPORT. What a packet's command does once it is taken, refused, retransmitted or out of sequence. -/

namespace Sys2Proof.Machine

/-- A command that is taken replies and has its effect. -/
theorem Cmd.exec_of_taken {c : Cmd} {h : Hdr} {ps : List Byte} {s : State} (ht : c.taken h ps s = true) :
    c.exec h ps s = .next (c.perform h ps s) := by
  simp only [Cmd.taken, Bool.and_eq_true, Bool.or_eq_true, beq_iff_eq] at ht
  obtain ⟨⟨⟨up, room⟩, sess⟩, ok⟩ := ht
  simp only [Cmd.exec, Cmd.arrive, up, room, Cmd.run, ok]
  by_cases ho : c.opcode = sessionOpenOp
  · simp [ho]
  · obtain ⟨o, q⟩ := sess.resolve_left ho
    simp [ho, o, seqCheck, q]

/-- A command is carried out only where no check fails (R50, R55). -/
theorem Cmd.verdict_of_outcome {c : Cmd} {h : Hdr} {ps : List Byte} {s : State} (ho : c.outcome h ps s = OK) :
    c.verdict h ps s = OK := by
  unfold Cmd.outcome at ho
  split at ho
  · simp [INTERNAL, OK] at ho
  · exact ho

/-- A command that fails a check of R50, or is abandoned, replies with that status. -/
theorem Cmd.exec_of_refusedBy {c : Cmd} {h : Hdr} {ps : List Byte} {s : State} (hr : c.refusedBy h ps s = true) :
    c.exec h ps s = .next (logInternal c h ps s
      (c.onRefuse (c.outcome h ps s) h ps (replyUse c.opcode h (c.outcome h ps s) [] s))) := by
  simp only [Cmd.refusedBy, Bool.and_eq_true, bne_iff_ne, beq_iff_eq, ne_eq] at hr
  obtain ⟨⟨⟨⟨⟨up, room⟩, ho⟩, o⟩, q⟩, ok⟩ := hr
  simp only [Cmd.exec, Cmd.arrive, up, room, Cmd.run]
  simp [ho, o, seqCheck, q, ok]

/-- A packet that is not admitted changes only the overflow flag and count of its port (R52). -/
theorem Cmd.exec_of_not_admitted {c : Cmd} {h : Hdr} {ps : List Byte} {s : State} (up : s.portsUp = true)
    (hr : (s.port h.port).admits 0 c.maxReply ps.length = false) :
    c.exec h ps s = .next (s.setPort h.port ((s.port h.port).overflow 1)) := by
  simp [Cmd.exec, Cmd.arrive, up, hr]

/-- While the ports are down a packet changes nothing. -/
theorem Cmd.exec_of_down {c : Cmd} {h : Hdr} {ps : List Byte} {s : State} (up : s.portsUp = false) :
    c.exec h ps s = .next s := by
  simp [Cmd.exec, Cmd.arrive, up]

/-- What a command that completes at once does: its reply, then its effect. -/
theorem Cmd.perform_now {c : Cmd} {h : Hdr} {ps : List Byte} {s : State} (hc : c.cpl = none) :
    c.perform h ps s = c.effect 0 h ps (replyUse c.opcode h c.okStatus (c.data h ps (consumed h s)) s) := by
  simp [Cmd.perform, hc]

/-- What a command answered ACCEPTED does: the reply, the reserved completion, then its effect with the token. -/
theorem Cmd.perform_later {c : Cmd} {h : Hdr} {ps : List Byte} {s : State} {n : Nat} (hc : c.cpl = some n) :
    c.perform h ps s = c.effect (acceptedReply c.opcode h n s).1 h ps (acceptedReply c.opcode h n s).2 := by
  simp [Cmd.perform, hc, acceptedReply]

/-- The token of an accepted command is the next one. -/
@[simp] theorem acceptedReply_tok (op : Nat) (h : Hdr) (n : Nat) (s : State) :
    (acceptedReply op h n s).1 = s.sch.nTok := by
  cases h with | mk p _ _ _ _ _ => cases p <;> rfl

end Sys2Proof.Machine
end

