-- ==== Sys2Proof/Laws/Mem.lean ====
section
/-! SUPPORT. Tables and byte memories: reading after writing, and the canonical form that every memory operation
keeps. -/

namespace Sys2Proof.Machine

/-! ## Tables -/

theorem Map.lookup_insert {α : Type} (l : List (Nat × α)) (k j : Nat) (v : α) :
    Map.lookup (Map.insert l k v) j = if j = k then some v else Map.lookup l j := by
  induction l with
  | nil => simp [Map.insert, Map.lookup]
  | cons c t ih =>
    obtain ⟨i, w⟩ := c
    simp only [Map.insert]
    split
    · simp [Map.lookup]
    · split
      · subst_vars; by_cases h : j = i <;> simp [Map.lookup, h]
      · simp only [Map.lookup, ih]; grind

theorem Map.lookup_remove {α : Type} (l : List (Nat × α)) (k j : Nat) :
    Map.lookup (Map.remove l k) j = if j = k then none else Map.lookup l j := by
  induction l with
  | nil => simp [Map.remove, Map.lookup]
  | cons c t ih =>
    obtain ⟨i, w⟩ := c
    simp only [Map.remove]
    split <;> simp only [Map.lookup, ih] <;> grind

@[simp] theorem Map.get?_empty {α : Type} (k : Nat) : (Map.empty : Map α).get? k = none := rfl

theorem Map.get?_set {α : Type} (m : Map α) (k j : Nat) (v : α) :
    (m.set k v).get? j = if j = k then some v else m.get? j := Map.lookup_insert m.cells k j v

@[simp] theorem Map.get?_set_self {α : Type} (m : Map α) (k : Nat) (v : α) : (m.set k v).get? k = some v := by
  simp [Map.get?_set]

theorem Map.get?_set_ne {α : Type} (m : Map α) {k j : Nat} (v : α) (h : j ≠ k) : (m.set k v).get? j = m.get? j := by
  simp [Map.get?_set, h]

theorem Map.get?_erase {α : Type} (m : Map α) (k j : Nat) :
    (m.erase k).get? j = if j = k then none else m.get? j := Map.lookup_remove m.cells k j

@[simp] theorem Map.get?_erase_self {α : Type} (m : Map α) (k : Nat) : (m.erase k).get? k = none := by
  simp [Map.get?_erase]

@[simp] theorem Map.getD_set_self {α : Type} (m : Map α) (k : Nat) (v d : α) : (m.set k v).getD k d = v := by
  simp [Map.getD]

theorem Map.getD_set_ne {α : Type} (m : Map α) {k j : Nat} (v d : α) (h : j ≠ k) :
    (m.set k v).getD j d = m.getD j d := by
  simp [Map.getD, Map.get?_set_ne m v h]

theorem Map.get?_mapV {α β : Type} (m : Map α) (f : α → β) (k : Nat) : (m.mapV f).get? k = (m.get? k).map f := by
  obtain ⟨l⟩ := m
  induction l with
  | nil => rfl
  | cons c t ih =>
    simp only [Map.mapV, Map.get?, List.map_cons, Map.lookup] at ih ⊢
    split <;> simp_all

/-! ## Memory -/

@[simp] theorem Mem.read_empty (a : Nat) : Mem.empty.read a = 0 := rfl

theorem Mem.read_write (m : Mem) (a b : Nat) (v : Byte) :
    (m.write a v).read b = if b = a then v else m.read b := by
  unfold Mem.write Mem.read
  by_cases hv : v = 0
  · simp only [hv, if_true, Map.lookup_remove]; split <;> rfl
  · simp only [hv, if_false, Map.lookup_insert]; split <;> rfl

@[simp] theorem Mem.read_write_self (m : Mem) (a : Nat) (v : Byte) : (m.write a v).read a = v := by
  simp [Mem.read_write]

theorem Mem.read_write_ne (m : Mem) {a b : Nat} (v : Byte) (h : b ≠ a) : (m.write a v).read b = m.read b := by
  simp [Mem.read_write, h]

/-- Below and above what is written every byte reads as before. -/
theorem Mem.read_writeN_out (bs : List Byte) (m : Mem) (a b : Nat) (h : b < a ∨ a + bs.length ≤ b) :
    (m.writeN a bs).read b = m.read b := by
  induction bs generalizing m a with
  | nil => rfl
  | cons x t ih =>
    simp only [List.length_cons] at h
    rw [Mem.writeN, ih _ _ (by omega), Mem.read_write_ne _ _ (by omega)]

/-- What was written reads back. -/
theorem Mem.readN_writeN (bs : List Byte) (m : Mem) (a : Nat) : (m.writeN a bs).readN a bs.length = bs := by
  induction bs generalizing m a with
  | nil => rfl
  | cons x t ih =>
    simp only [Mem.writeN, List.length_cons, Mem.readN, ih]
    rw [Mem.read_writeN_out t _ _ _ (by omega), Mem.read_write_self]

theorem Mem.lookup_filter (l : List (Nat × Byte)) (p : Nat → Bool) (b : Nat) :
    Map.lookup (l.filter (fun c => p c.1)) b = if p b then Map.lookup l b else none := by
  induction l with
  | nil => simp [Map.lookup]
  | cons c t ih =>
    obtain ⟨i, w⟩ := c
    simp only [List.filter_cons]
    split <;> simp only [Map.lookup, ih] <;> grind

/-- Exactly the zeroed range reads 0. -/
theorem Mem.read_zeroRange (m : Mem) (a n b : Nat) :
    (m.zeroRange a n).read b = if a ≤ b ∧ b < a + n then 0 else m.read b := by
  unfold Mem.read Mem.zeroRange
  rw [Mem.lookup_filter m.cells (fun k => !(decide (a ≤ k) && decide (k < a + n))) b]
  by_cases h : a ≤ b ∧ b < a + n
  · simp [h]
  · rw [if_neg h, if_pos (by simp; omega)]

/-! ## The canonical form -/

theorem Mem.rising_insert (l : List (Nat × Byte)) (lo : Option Nat) (a : Nat) (v : Byte) (hv : v ≠ 0)
    (hl : ∀ x, lo = some x → x < a) (h : Mem.rising lo l = true) : Mem.rising lo (Map.insert l a v) = true := by
  induction l generalizing lo with
  | nil => cases lo <;> simp_all [Map.insert, Mem.rising]
  | cons c t ih =>
    obtain ⟨i, w⟩ := c
    simp only [Mem.rising, Bool.and_eq_true] at h
    simp only [Map.insert]
    split
    · cases lo <;> simp_all [Mem.rising]
    · split
      · subst_vars; cases lo <;> simp_all [Mem.rising]
      · simp only [Mem.rising, Bool.and_eq_true]
        exact ⟨h.1, ih _ (by intro x hx; cases hx; omega) h.2⟩

theorem Mem.rising_weaken (l : List (Nat × Byte)) (x : Nat) (lo : Option Nat) (hl : ∀ y, lo = some y → y ≤ x)
    (h : Mem.rising (some x) l = true) : Mem.rising lo l = true := by
  cases l with
  | nil => rfl
  | cons c t =>
    obtain ⟨i, w⟩ := c
    cases lo with
    | none => simp_all [Mem.rising]
    | some y =>
      have := hl y rfl
      simp only [Mem.rising, Bool.and_eq_true, decide_eq_true_eq] at h ⊢
      exact ⟨⟨by omega, h.1.2⟩, h.2⟩

theorem Mem.rising_filter (l : List (Nat × Byte)) (p : Nat × Byte → Bool) (lo : Option Nat)
    (h : Mem.rising lo l = true) : Mem.rising lo (l.filter p) = true := by
  induction l generalizing lo with
  | nil => rfl
  | cons c t ih =>
    obtain ⟨i, w⟩ := c
    simp only [Mem.rising, Bool.and_eq_true] at h
    simp only [List.filter_cons]
    split
    · simp only [Mem.rising, Bool.and_eq_true]; exact ⟨h.1, ih _ h.2⟩
    · refine Mem.rising_weaken _ i lo ?_ (ih _ h.2)
      intro y hy; subst hy; simp at h; omega

theorem Mem.remove_eq_filter (l : List (Nat × Byte)) (a : Nat) :
    Map.remove l a = l.filter (fun c => !(c.1 == a)) := by
  induction l with
  | nil => rfl
  | cons c t ih =>
    obtain ⟨i, w⟩ := c
    simp only [Map.remove, List.filter_cons, ih]
    by_cases h : a = i
    · simp [h]
    · simp [h, Ne.symm h]

@[simp] theorem Mem.wf_empty : Mem.empty.wf = true := rfl

/-- Writing a byte keeps the canonical form. -/
theorem Mem.wf_write (m : Mem) (a : Nat) (v : Byte) (h : m.wf = true) : (m.write a v).wf = true := by
  unfold Mem.write Mem.wf at *
  split
  · rw [Mem.remove_eq_filter]; exact Mem.rising_filter _ _ _ h
  · exact Mem.rising_insert _ _ _ _ ‹_› (by simp) h

/-- Writing bytes keeps the canonical form. -/
theorem Mem.wf_writeN (bs : List Byte) (m : Mem) (a : Nat) (h : m.wf = true) : (m.writeN a bs).wf = true := by
  induction bs generalizing m a with
  | nil => exact h
  | cons x t ih => exact ih _ _ (Mem.wf_write m a x h)

/-- Zeroing keeps the canonical form. -/
theorem Mem.wf_zeroRange (m : Mem) (a n : Nat) (h : m.wf = true) : (m.zeroRange a n).wf = true :=
  Mem.rising_filter _ _ _ h

end Sys2Proof.Machine
end

