-- ==== Sys2Proof/Laws/State.lean ====
section
/-! SUPPORT. What each update of one part of State leaves alone, one lemma per field. -/

namespace Sys2Proof.Machine

/-! ## modMem -/

@[simp] theorem modMem_part (f : MemSt → MemSt) (s : State) : (modMem f s).part = s.part := rfl
@[simp] theorem modMem_larder (f : MemSt → MemSt) (s : State) : (modMem f s).larder = s.larder := rfl
@[simp] theorem modMem_dev (f : MemSt → MemSt) (s : State) : (modMem f s).dev = s.dev := rfl
@[simp] theorem modMem_clk (f : MemSt → MemSt) (s : State) : (modMem f s).clk = s.clk := rfl
@[simp] theorem modMem_time (f : MemSt → MemSt) (s : State) : (modMem f s).time = s.time := rfl
@[simp] theorem modMem_hp0 (f : MemSt → MemSt) (s : State) : (modMem f s).hp0 = s.hp0 := rfl
@[simp] theorem modMem_hp1 (f : MemSt → MemSt) (s : State) : (modMem f s).hp1 = s.hp1 := rfl
@[simp] theorem modMem_tens (f : MemSt → MemSt) (s : State) : (modMem f s).tens = s.tens := rfl
@[simp] theorem modMem_queues (f : MemSt → MemSt) (s : State) : (modMem f s).queues = s.queues := rfl
@[simp] theorem modMem_pcie (f : MemSt → MemSt) (s : State) : (modMem f s).pcie = s.pcie := rfl
@[simp] theorem modMem_jobs (f : MemSt → MemSt) (s : State) : (modMem f s).jobs = s.jobs := rfl
@[simp] theorem modMem_progs (f : MemSt → MemSt) (s : State) : (modMem f s).progs = s.progs := rfl
@[simp] theorem modMem_loads (f : MemSt → MemSt) (s : State) : (modMem f s).loads = s.loads := rfl
@[simp] theorem modMem_sch (f : MemSt → MemSt) (s : State) : (modMem f s).sch = s.sch := rfl
@[simp] theorem modMem_cls (f : MemSt → MemSt) (s : State) : (modMem f s).cls = s.cls := rfl
@[simp] theorem modMem_halos (f : MemSt → MemSt) (s : State) : (modMem f s).halos = s.halos := rfl
@[simp] theorem modMem_cld0 (f : MemSt → MemSt) (s : State) : (modMem f s).cld0 = s.cld0 := rfl
@[simp] theorem modMem_cld1 (f : MemSt → MemSt) (s : State) : (modMem f s).cld1 = s.cld1 := rfl
@[simp] theorem modMem_eth (f : MemSt → MemSt) (s : State) : (modMem f s).eth = s.eth := rfl
@[simp] theorem modMem_ctxs (f : MemSt → MemSt) (s : State) : (modMem f s).ctxs = s.ctxs := rfl
@[simp] theorem modMem_maps (f : MemSt → MemSt) (s : State) : (modMem f s).maps = s.maps := rfl
@[simp] theorem modMem_tpos (f : MemSt → MemSt) (s : State) : (modMem f s).tpos = s.tpos := rfl
@[simp] theorem modMem_tcis (f : MemSt → MemSt) (s : State) : (modMem f s).tcis = s.tcis := rfl
@[simp] theorem modMem_launch (f : MemSt → MemSt) (s : State) : (modMem f s).launch = s.launch := rfl
@[simp] theorem modMem_fctxs (f : MemSt → MemSt) (s : State) : (modMem f s).fctxs = s.fctxs := rfl
@[simp] theorem modMem_fclosed (f : MemSt → MemSt) (s : State) : (modMem f s).fclosed = s.fclosed := rfl
@[simp] theorem modMem_ctxLeft (f : MemSt → MemSt) (s : State) : (modMem f s).ctxLeft = s.ctxLeft := rfl
@[simp] theorem modMem_feng0 (f : MemSt → MemSt) (s : State) : (modMem f s).feng0 = s.feng0 := rfl
@[simp] theorem modMem_feng1 (f : MemSt → MemSt) (s : State) : (modMem f s).feng1 = s.feng1 := rfl
@[simp] theorem modMem_rctxs (f : MemSt → MemSt) (s : State) : (modMem f s).rctxs = s.rctxs := rfl
@[simp] theorem modMem_rwait (f : MemSt → MemSt) (s : State) : (modMem f s).rwait = s.rwait := rfl
@[simp] theorem modMem_disps (f : MemSt → MemSt) (s : State) : (modMem f s).disps = s.disps := rfl
@[simp] theorem modMem_ras (f : MemSt → MemSt) (s : State) : (modMem f s).ras = s.ras := rfl
@[simp] theorem modMem_ces (f : MemSt → MemSt) (s : State) : (modMem f s).ces = s.ces := rfl
@[simp] theorem modMem_pwms (f : MemSt → MemSt) (s : State) : (modMem f s).pwms = s.pwms := rfl
@[simp] theorem modMem_sds (f : MemSt → MemSt) (s : State) : (modMem f s).sds = s.sds := rfl
@[simp] theorem modMem_encs (f : MemSt → MemSt) (s : State) : (modMem f s).encs = s.encs := rfl
@[simp] theorem modMem_ioPend (f : MemSt → MemSt) (s : State) : (modMem f s).ioPend = s.ioPend := rfl
@[simp] theorem modMem_dieTick (f : MemSt → MemSt) (s : State) : (modMem f s).dieTick = s.dieTick := rfl
@[simp] theorem modMem_bwr (f : MemSt → MemSt) (s : State) : (modMem f s).bwr = s.bwr := rfl
@[simp] theorem modMem_skk (f : MemSt → MemSt) (s : State) : (modMem f s).skk = s.skk := rfl
@[simp] theorem modMem_gwy (f : MemSt → MemSt) (s : State) : (modMem f s).gwy = s.gwy := rfl
@[simp] theorem modMem_sls (f : MemSt → MemSt) (s : State) : (modMem f s).sls = s.sls := rfl
@[simp] theorem modMem_chn (f : MemSt → MemSt) (s : State) : (modMem f s).chn = s.chn := rfl
@[simp] theorem modMem_pow (f : MemSt → MemSt) (s : State) : (modMem f s).pow = s.pow := rfl
@[simp] theorem modMem_fws (f : MemSt → MemSt) (s : State) : (modMem f s).fws = s.fws := rfl
@[simp] theorem modMem_heldCpl (f : MemSt → MemSt) (s : State) : (modMem f s).heldCpl = s.heldCpl := rfl
@[simp] theorem modMem_freeCtr (f : MemSt → MemSt) (s : State) : (modMem f s).freeCtr = s.freeCtr := rfl
@[simp] theorem modMem_pending (f : MemSt → MemSt) (s : State) : (modMem f s).pending = s.pending := rfl
@[simp] theorem modMem_mem (f : MemSt → MemSt) (s : State) : (modMem f s).mem = f s.mem := rfl

/-! ## modSkk -/

@[simp] theorem modSkk_part (f : Skk → Skk) (s : State) : (modSkk f s).part = s.part := rfl
@[simp] theorem modSkk_larder (f : Skk → Skk) (s : State) : (modSkk f s).larder = s.larder := rfl
@[simp] theorem modSkk_dev (f : Skk → Skk) (s : State) : (modSkk f s).dev = s.dev := rfl
@[simp] theorem modSkk_clk (f : Skk → Skk) (s : State) : (modSkk f s).clk = s.clk := rfl
@[simp] theorem modSkk_time (f : Skk → Skk) (s : State) : (modSkk f s).time = s.time := rfl
@[simp] theorem modSkk_hp0 (f : Skk → Skk) (s : State) : (modSkk f s).hp0 = s.hp0 := rfl
@[simp] theorem modSkk_hp1 (f : Skk → Skk) (s : State) : (modSkk f s).hp1 = s.hp1 := rfl
@[simp] theorem modSkk_tens (f : Skk → Skk) (s : State) : (modSkk f s).tens = s.tens := rfl
@[simp] theorem modSkk_queues (f : Skk → Skk) (s : State) : (modSkk f s).queues = s.queues := rfl
@[simp] theorem modSkk_pcie (f : Skk → Skk) (s : State) : (modSkk f s).pcie = s.pcie := rfl
@[simp] theorem modSkk_jobs (f : Skk → Skk) (s : State) : (modSkk f s).jobs = s.jobs := rfl
@[simp] theorem modSkk_progs (f : Skk → Skk) (s : State) : (modSkk f s).progs = s.progs := rfl
@[simp] theorem modSkk_loads (f : Skk → Skk) (s : State) : (modSkk f s).loads = s.loads := rfl
@[simp] theorem modSkk_sch (f : Skk → Skk) (s : State) : (modSkk f s).sch = s.sch := rfl
@[simp] theorem modSkk_cls (f : Skk → Skk) (s : State) : (modSkk f s).cls = s.cls := rfl
@[simp] theorem modSkk_halos (f : Skk → Skk) (s : State) : (modSkk f s).halos = s.halos := rfl
@[simp] theorem modSkk_cld0 (f : Skk → Skk) (s : State) : (modSkk f s).cld0 = s.cld0 := rfl
@[simp] theorem modSkk_cld1 (f : Skk → Skk) (s : State) : (modSkk f s).cld1 = s.cld1 := rfl
@[simp] theorem modSkk_eth (f : Skk → Skk) (s : State) : (modSkk f s).eth = s.eth := rfl
@[simp] theorem modSkk_ctxs (f : Skk → Skk) (s : State) : (modSkk f s).ctxs = s.ctxs := rfl
@[simp] theorem modSkk_maps (f : Skk → Skk) (s : State) : (modSkk f s).maps = s.maps := rfl
@[simp] theorem modSkk_tpos (f : Skk → Skk) (s : State) : (modSkk f s).tpos = s.tpos := rfl
@[simp] theorem modSkk_tcis (f : Skk → Skk) (s : State) : (modSkk f s).tcis = s.tcis := rfl
@[simp] theorem modSkk_launch (f : Skk → Skk) (s : State) : (modSkk f s).launch = s.launch := rfl
@[simp] theorem modSkk_fctxs (f : Skk → Skk) (s : State) : (modSkk f s).fctxs = s.fctxs := rfl
@[simp] theorem modSkk_fclosed (f : Skk → Skk) (s : State) : (modSkk f s).fclosed = s.fclosed := rfl
@[simp] theorem modSkk_ctxLeft (f : Skk → Skk) (s : State) : (modSkk f s).ctxLeft = s.ctxLeft := rfl
@[simp] theorem modSkk_feng0 (f : Skk → Skk) (s : State) : (modSkk f s).feng0 = s.feng0 := rfl
@[simp] theorem modSkk_feng1 (f : Skk → Skk) (s : State) : (modSkk f s).feng1 = s.feng1 := rfl
@[simp] theorem modSkk_rctxs (f : Skk → Skk) (s : State) : (modSkk f s).rctxs = s.rctxs := rfl
@[simp] theorem modSkk_rwait (f : Skk → Skk) (s : State) : (modSkk f s).rwait = s.rwait := rfl
@[simp] theorem modSkk_disps (f : Skk → Skk) (s : State) : (modSkk f s).disps = s.disps := rfl
@[simp] theorem modSkk_ras (f : Skk → Skk) (s : State) : (modSkk f s).ras = s.ras := rfl
@[simp] theorem modSkk_ces (f : Skk → Skk) (s : State) : (modSkk f s).ces = s.ces := rfl
@[simp] theorem modSkk_pwms (f : Skk → Skk) (s : State) : (modSkk f s).pwms = s.pwms := rfl
@[simp] theorem modSkk_sds (f : Skk → Skk) (s : State) : (modSkk f s).sds = s.sds := rfl
@[simp] theorem modSkk_encs (f : Skk → Skk) (s : State) : (modSkk f s).encs = s.encs := rfl
@[simp] theorem modSkk_ioPend (f : Skk → Skk) (s : State) : (modSkk f s).ioPend = s.ioPend := rfl
@[simp] theorem modSkk_dieTick (f : Skk → Skk) (s : State) : (modSkk f s).dieTick = s.dieTick := rfl
@[simp] theorem modSkk_mem (f : Skk → Skk) (s : State) : (modSkk f s).mem = s.mem := rfl
@[simp] theorem modSkk_bwr (f : Skk → Skk) (s : State) : (modSkk f s).bwr = s.bwr := rfl
@[simp] theorem modSkk_gwy (f : Skk → Skk) (s : State) : (modSkk f s).gwy = s.gwy := rfl
@[simp] theorem modSkk_sls (f : Skk → Skk) (s : State) : (modSkk f s).sls = s.sls := rfl
@[simp] theorem modSkk_chn (f : Skk → Skk) (s : State) : (modSkk f s).chn = s.chn := rfl
@[simp] theorem modSkk_pow (f : Skk → Skk) (s : State) : (modSkk f s).pow = s.pow := rfl
@[simp] theorem modSkk_fws (f : Skk → Skk) (s : State) : (modSkk f s).fws = s.fws := rfl
@[simp] theorem modSkk_heldCpl (f : Skk → Skk) (s : State) : (modSkk f s).heldCpl = s.heldCpl := rfl
@[simp] theorem modSkk_freeCtr (f : Skk → Skk) (s : State) : (modSkk f s).freeCtr = s.freeCtr := rfl
@[simp] theorem modSkk_pending (f : Skk → Skk) (s : State) : (modSkk f s).pending = s.pending := rfl
@[simp] theorem modSkk_skk (f : Skk → Skk) (s : State) : (modSkk f s).skk = f s.skk := rfl

/-! ## modFws -/

@[simp] theorem modFws_part (f : Fws → Fws) (s : State) : (modFws f s).part = s.part := rfl
@[simp] theorem modFws_larder (f : Fws → Fws) (s : State) : (modFws f s).larder = s.larder := rfl
@[simp] theorem modFws_dev (f : Fws → Fws) (s : State) : (modFws f s).dev = s.dev := rfl
@[simp] theorem modFws_clk (f : Fws → Fws) (s : State) : (modFws f s).clk = s.clk := rfl
@[simp] theorem modFws_time (f : Fws → Fws) (s : State) : (modFws f s).time = s.time := rfl
@[simp] theorem modFws_hp0 (f : Fws → Fws) (s : State) : (modFws f s).hp0 = s.hp0 := rfl
@[simp] theorem modFws_hp1 (f : Fws → Fws) (s : State) : (modFws f s).hp1 = s.hp1 := rfl
@[simp] theorem modFws_tens (f : Fws → Fws) (s : State) : (modFws f s).tens = s.tens := rfl
@[simp] theorem modFws_queues (f : Fws → Fws) (s : State) : (modFws f s).queues = s.queues := rfl
@[simp] theorem modFws_pcie (f : Fws → Fws) (s : State) : (modFws f s).pcie = s.pcie := rfl
@[simp] theorem modFws_jobs (f : Fws → Fws) (s : State) : (modFws f s).jobs = s.jobs := rfl
@[simp] theorem modFws_progs (f : Fws → Fws) (s : State) : (modFws f s).progs = s.progs := rfl
@[simp] theorem modFws_loads (f : Fws → Fws) (s : State) : (modFws f s).loads = s.loads := rfl
@[simp] theorem modFws_sch (f : Fws → Fws) (s : State) : (modFws f s).sch = s.sch := rfl
@[simp] theorem modFws_cls (f : Fws → Fws) (s : State) : (modFws f s).cls = s.cls := rfl
@[simp] theorem modFws_halos (f : Fws → Fws) (s : State) : (modFws f s).halos = s.halos := rfl
@[simp] theorem modFws_cld0 (f : Fws → Fws) (s : State) : (modFws f s).cld0 = s.cld0 := rfl
@[simp] theorem modFws_cld1 (f : Fws → Fws) (s : State) : (modFws f s).cld1 = s.cld1 := rfl
@[simp] theorem modFws_eth (f : Fws → Fws) (s : State) : (modFws f s).eth = s.eth := rfl
@[simp] theorem modFws_ctxs (f : Fws → Fws) (s : State) : (modFws f s).ctxs = s.ctxs := rfl
@[simp] theorem modFws_maps (f : Fws → Fws) (s : State) : (modFws f s).maps = s.maps := rfl
@[simp] theorem modFws_tpos (f : Fws → Fws) (s : State) : (modFws f s).tpos = s.tpos := rfl
@[simp] theorem modFws_tcis (f : Fws → Fws) (s : State) : (modFws f s).tcis = s.tcis := rfl
@[simp] theorem modFws_launch (f : Fws → Fws) (s : State) : (modFws f s).launch = s.launch := rfl
@[simp] theorem modFws_fctxs (f : Fws → Fws) (s : State) : (modFws f s).fctxs = s.fctxs := rfl
@[simp] theorem modFws_fclosed (f : Fws → Fws) (s : State) : (modFws f s).fclosed = s.fclosed := rfl
@[simp] theorem modFws_ctxLeft (f : Fws → Fws) (s : State) : (modFws f s).ctxLeft = s.ctxLeft := rfl
@[simp] theorem modFws_feng0 (f : Fws → Fws) (s : State) : (modFws f s).feng0 = s.feng0 := rfl
@[simp] theorem modFws_feng1 (f : Fws → Fws) (s : State) : (modFws f s).feng1 = s.feng1 := rfl
@[simp] theorem modFws_rctxs (f : Fws → Fws) (s : State) : (modFws f s).rctxs = s.rctxs := rfl
@[simp] theorem modFws_rwait (f : Fws → Fws) (s : State) : (modFws f s).rwait = s.rwait := rfl
@[simp] theorem modFws_disps (f : Fws → Fws) (s : State) : (modFws f s).disps = s.disps := rfl
@[simp] theorem modFws_ras (f : Fws → Fws) (s : State) : (modFws f s).ras = s.ras := rfl
@[simp] theorem modFws_ces (f : Fws → Fws) (s : State) : (modFws f s).ces = s.ces := rfl
@[simp] theorem modFws_pwms (f : Fws → Fws) (s : State) : (modFws f s).pwms = s.pwms := rfl
@[simp] theorem modFws_sds (f : Fws → Fws) (s : State) : (modFws f s).sds = s.sds := rfl
@[simp] theorem modFws_encs (f : Fws → Fws) (s : State) : (modFws f s).encs = s.encs := rfl
@[simp] theorem modFws_ioPend (f : Fws → Fws) (s : State) : (modFws f s).ioPend = s.ioPend := rfl
@[simp] theorem modFws_dieTick (f : Fws → Fws) (s : State) : (modFws f s).dieTick = s.dieTick := rfl
@[simp] theorem modFws_mem (f : Fws → Fws) (s : State) : (modFws f s).mem = s.mem := rfl
@[simp] theorem modFws_bwr (f : Fws → Fws) (s : State) : (modFws f s).bwr = s.bwr := rfl
@[simp] theorem modFws_skk (f : Fws → Fws) (s : State) : (modFws f s).skk = s.skk := rfl
@[simp] theorem modFws_gwy (f : Fws → Fws) (s : State) : (modFws f s).gwy = s.gwy := rfl
@[simp] theorem modFws_sls (f : Fws → Fws) (s : State) : (modFws f s).sls = s.sls := rfl
@[simp] theorem modFws_chn (f : Fws → Fws) (s : State) : (modFws f s).chn = s.chn := rfl
@[simp] theorem modFws_pow (f : Fws → Fws) (s : State) : (modFws f s).pow = s.pow := rfl
@[simp] theorem modFws_freeCtr (f : Fws → Fws) (s : State) : (modFws f s).freeCtr = s.freeCtr := rfl
@[simp] theorem modFws_pending (f : Fws → Fws) (s : State) : (modFws f s).pending = s.pending := rfl
@[simp] theorem modFws_fws (f : Fws → Fws) (s : State) : (modFws f s).fws = f s.fws := rfl
@[simp] theorem modFws_heldCpl (f : Fws → Fws) (s : State) : (modFws f s).heldCpl = s.heldCpl := rfl

/-! ## modLarder -/

@[simp] theorem modLarder_part (f : Larder → Larder) (s : State) : (modLarder f s).part = s.part := rfl
@[simp] theorem modLarder_dev (f : Larder → Larder) (s : State) : (modLarder f s).dev = s.dev := rfl
@[simp] theorem modLarder_clk (f : Larder → Larder) (s : State) : (modLarder f s).clk = s.clk := rfl
@[simp] theorem modLarder_time (f : Larder → Larder) (s : State) : (modLarder f s).time = s.time := rfl
@[simp] theorem modLarder_hp0 (f : Larder → Larder) (s : State) : (modLarder f s).hp0 = s.hp0 := rfl
@[simp] theorem modLarder_hp1 (f : Larder → Larder) (s : State) : (modLarder f s).hp1 = s.hp1 := rfl
@[simp] theorem modLarder_tens (f : Larder → Larder) (s : State) : (modLarder f s).tens = s.tens := rfl
@[simp] theorem modLarder_queues (f : Larder → Larder) (s : State) : (modLarder f s).queues = s.queues := rfl
@[simp] theorem modLarder_pcie (f : Larder → Larder) (s : State) : (modLarder f s).pcie = s.pcie := rfl
@[simp] theorem modLarder_jobs (f : Larder → Larder) (s : State) : (modLarder f s).jobs = s.jobs := rfl
@[simp] theorem modLarder_progs (f : Larder → Larder) (s : State) : (modLarder f s).progs = s.progs := rfl
@[simp] theorem modLarder_loads (f : Larder → Larder) (s : State) : (modLarder f s).loads = s.loads := rfl
@[simp] theorem modLarder_sch (f : Larder → Larder) (s : State) : (modLarder f s).sch = s.sch := rfl
@[simp] theorem modLarder_cls (f : Larder → Larder) (s : State) : (modLarder f s).cls = s.cls := rfl
@[simp] theorem modLarder_halos (f : Larder → Larder) (s : State) : (modLarder f s).halos = s.halos := rfl
@[simp] theorem modLarder_cld0 (f : Larder → Larder) (s : State) : (modLarder f s).cld0 = s.cld0 := rfl
@[simp] theorem modLarder_cld1 (f : Larder → Larder) (s : State) : (modLarder f s).cld1 = s.cld1 := rfl
@[simp] theorem modLarder_eth (f : Larder → Larder) (s : State) : (modLarder f s).eth = s.eth := rfl
@[simp] theorem modLarder_ctxs (f : Larder → Larder) (s : State) : (modLarder f s).ctxs = s.ctxs := rfl
@[simp] theorem modLarder_maps (f : Larder → Larder) (s : State) : (modLarder f s).maps = s.maps := rfl
@[simp] theorem modLarder_tpos (f : Larder → Larder) (s : State) : (modLarder f s).tpos = s.tpos := rfl
@[simp] theorem modLarder_tcis (f : Larder → Larder) (s : State) : (modLarder f s).tcis = s.tcis := rfl
@[simp] theorem modLarder_launch (f : Larder → Larder) (s : State) : (modLarder f s).launch = s.launch := rfl
@[simp] theorem modLarder_fctxs (f : Larder → Larder) (s : State) : (modLarder f s).fctxs = s.fctxs := rfl
@[simp] theorem modLarder_fclosed (f : Larder → Larder) (s : State) : (modLarder f s).fclosed = s.fclosed := rfl
@[simp] theorem modLarder_ctxLeft (f : Larder → Larder) (s : State) : (modLarder f s).ctxLeft = s.ctxLeft := rfl
@[simp] theorem modLarder_feng0 (f : Larder → Larder) (s : State) : (modLarder f s).feng0 = s.feng0 := rfl
@[simp] theorem modLarder_feng1 (f : Larder → Larder) (s : State) : (modLarder f s).feng1 = s.feng1 := rfl
@[simp] theorem modLarder_rctxs (f : Larder → Larder) (s : State) : (modLarder f s).rctxs = s.rctxs := rfl
@[simp] theorem modLarder_rwait (f : Larder → Larder) (s : State) : (modLarder f s).rwait = s.rwait := rfl
@[simp] theorem modLarder_disps (f : Larder → Larder) (s : State) : (modLarder f s).disps = s.disps := rfl
@[simp] theorem modLarder_ras (f : Larder → Larder) (s : State) : (modLarder f s).ras = s.ras := rfl
@[simp] theorem modLarder_ces (f : Larder → Larder) (s : State) : (modLarder f s).ces = s.ces := rfl
@[simp] theorem modLarder_pwms (f : Larder → Larder) (s : State) : (modLarder f s).pwms = s.pwms := rfl
@[simp] theorem modLarder_sds (f : Larder → Larder) (s : State) : (modLarder f s).sds = s.sds := rfl
@[simp] theorem modLarder_encs (f : Larder → Larder) (s : State) : (modLarder f s).encs = s.encs := rfl
@[simp] theorem modLarder_ioPend (f : Larder → Larder) (s : State) : (modLarder f s).ioPend = s.ioPend := rfl
@[simp] theorem modLarder_dieTick (f : Larder → Larder) (s : State) : (modLarder f s).dieTick = s.dieTick := rfl
@[simp] theorem modLarder_mem (f : Larder → Larder) (s : State) : (modLarder f s).mem = s.mem := rfl
@[simp] theorem modLarder_bwr (f : Larder → Larder) (s : State) : (modLarder f s).bwr = s.bwr := rfl
@[simp] theorem modLarder_skk (f : Larder → Larder) (s : State) : (modLarder f s).skk = s.skk := rfl
@[simp] theorem modLarder_gwy (f : Larder → Larder) (s : State) : (modLarder f s).gwy = s.gwy := rfl
@[simp] theorem modLarder_sls (f : Larder → Larder) (s : State) : (modLarder f s).sls = s.sls := rfl
@[simp] theorem modLarder_chn (f : Larder → Larder) (s : State) : (modLarder f s).chn = s.chn := rfl
@[simp] theorem modLarder_pow (f : Larder → Larder) (s : State) : (modLarder f s).pow = s.pow := rfl
@[simp] theorem modLarder_fws (f : Larder → Larder) (s : State) : (modLarder f s).fws = s.fws := rfl
@[simp] theorem modLarder_heldCpl (f : Larder → Larder) (s : State) : (modLarder f s).heldCpl = s.heldCpl := rfl
@[simp] theorem modLarder_freeCtr (f : Larder → Larder) (s : State) : (modLarder f s).freeCtr = s.freeCtr := rfl
@[simp] theorem modLarder_pending (f : Larder → Larder) (s : State) : (modLarder f s).pending = s.pending := rfl
@[simp] theorem modLarder_larder (f : Larder → Larder) (s : State) : (modLarder f s).larder = f s.larder := rfl

/-! ## modPow -/

@[simp] theorem modPow_part (f : Pow → Pow) (s : State) : (modPow f s).part = s.part := rfl
@[simp] theorem modPow_larder (f : Pow → Pow) (s : State) : (modPow f s).larder = s.larder := rfl
@[simp] theorem modPow_dev (f : Pow → Pow) (s : State) : (modPow f s).dev = s.dev := rfl
@[simp] theorem modPow_clk (f : Pow → Pow) (s : State) : (modPow f s).clk = s.clk := rfl
@[simp] theorem modPow_time (f : Pow → Pow) (s : State) : (modPow f s).time = s.time := rfl
@[simp] theorem modPow_hp0 (f : Pow → Pow) (s : State) : (modPow f s).hp0 = s.hp0 := rfl
@[simp] theorem modPow_hp1 (f : Pow → Pow) (s : State) : (modPow f s).hp1 = s.hp1 := rfl
@[simp] theorem modPow_tens (f : Pow → Pow) (s : State) : (modPow f s).tens = s.tens := rfl
@[simp] theorem modPow_queues (f : Pow → Pow) (s : State) : (modPow f s).queues = s.queues := rfl
@[simp] theorem modPow_pcie (f : Pow → Pow) (s : State) : (modPow f s).pcie = s.pcie := rfl
@[simp] theorem modPow_jobs (f : Pow → Pow) (s : State) : (modPow f s).jobs = s.jobs := rfl
@[simp] theorem modPow_progs (f : Pow → Pow) (s : State) : (modPow f s).progs = s.progs := rfl
@[simp] theorem modPow_loads (f : Pow → Pow) (s : State) : (modPow f s).loads = s.loads := rfl
@[simp] theorem modPow_sch (f : Pow → Pow) (s : State) : (modPow f s).sch = s.sch := rfl
@[simp] theorem modPow_cls (f : Pow → Pow) (s : State) : (modPow f s).cls = s.cls := rfl
@[simp] theorem modPow_halos (f : Pow → Pow) (s : State) : (modPow f s).halos = s.halos := rfl
@[simp] theorem modPow_cld0 (f : Pow → Pow) (s : State) : (modPow f s).cld0 = s.cld0 := rfl
@[simp] theorem modPow_cld1 (f : Pow → Pow) (s : State) : (modPow f s).cld1 = s.cld1 := rfl
@[simp] theorem modPow_eth (f : Pow → Pow) (s : State) : (modPow f s).eth = s.eth := rfl
@[simp] theorem modPow_ctxs (f : Pow → Pow) (s : State) : (modPow f s).ctxs = s.ctxs := rfl
@[simp] theorem modPow_maps (f : Pow → Pow) (s : State) : (modPow f s).maps = s.maps := rfl
@[simp] theorem modPow_tpos (f : Pow → Pow) (s : State) : (modPow f s).tpos = s.tpos := rfl
@[simp] theorem modPow_tcis (f : Pow → Pow) (s : State) : (modPow f s).tcis = s.tcis := rfl
@[simp] theorem modPow_launch (f : Pow → Pow) (s : State) : (modPow f s).launch = s.launch := rfl
@[simp] theorem modPow_fctxs (f : Pow → Pow) (s : State) : (modPow f s).fctxs = s.fctxs := rfl
@[simp] theorem modPow_fclosed (f : Pow → Pow) (s : State) : (modPow f s).fclosed = s.fclosed := rfl
@[simp] theorem modPow_ctxLeft (f : Pow → Pow) (s : State) : (modPow f s).ctxLeft = s.ctxLeft := rfl
@[simp] theorem modPow_feng0 (f : Pow → Pow) (s : State) : (modPow f s).feng0 = s.feng0 := rfl
@[simp] theorem modPow_feng1 (f : Pow → Pow) (s : State) : (modPow f s).feng1 = s.feng1 := rfl
@[simp] theorem modPow_rctxs (f : Pow → Pow) (s : State) : (modPow f s).rctxs = s.rctxs := rfl
@[simp] theorem modPow_rwait (f : Pow → Pow) (s : State) : (modPow f s).rwait = s.rwait := rfl
@[simp] theorem modPow_disps (f : Pow → Pow) (s : State) : (modPow f s).disps = s.disps := rfl
@[simp] theorem modPow_ras (f : Pow → Pow) (s : State) : (modPow f s).ras = s.ras := rfl
@[simp] theorem modPow_ces (f : Pow → Pow) (s : State) : (modPow f s).ces = s.ces := rfl
@[simp] theorem modPow_pwms (f : Pow → Pow) (s : State) : (modPow f s).pwms = s.pwms := rfl
@[simp] theorem modPow_sds (f : Pow → Pow) (s : State) : (modPow f s).sds = s.sds := rfl
@[simp] theorem modPow_encs (f : Pow → Pow) (s : State) : (modPow f s).encs = s.encs := rfl
@[simp] theorem modPow_ioPend (f : Pow → Pow) (s : State) : (modPow f s).ioPend = s.ioPend := rfl
@[simp] theorem modPow_dieTick (f : Pow → Pow) (s : State) : (modPow f s).dieTick = s.dieTick := rfl
@[simp] theorem modPow_mem (f : Pow → Pow) (s : State) : (modPow f s).mem = s.mem := rfl
@[simp] theorem modPow_bwr (f : Pow → Pow) (s : State) : (modPow f s).bwr = s.bwr := rfl
@[simp] theorem modPow_skk (f : Pow → Pow) (s : State) : (modPow f s).skk = s.skk := rfl
@[simp] theorem modPow_gwy (f : Pow → Pow) (s : State) : (modPow f s).gwy = s.gwy := rfl
@[simp] theorem modPow_sls (f : Pow → Pow) (s : State) : (modPow f s).sls = s.sls := rfl
@[simp] theorem modPow_chn (f : Pow → Pow) (s : State) : (modPow f s).chn = s.chn := rfl
@[simp] theorem modPow_fws (f : Pow → Pow) (s : State) : (modPow f s).fws = s.fws := rfl
@[simp] theorem modPow_heldCpl (f : Pow → Pow) (s : State) : (modPow f s).heldCpl = s.heldCpl := rfl
@[simp] theorem modPow_freeCtr (f : Pow → Pow) (s : State) : (modPow f s).freeCtr = s.freeCtr := rfl
@[simp] theorem modPow_pending (f : Pow → Pow) (s : State) : (modPow f s).pending = s.pending := rfl
@[simp] theorem modPow_pow (f : Pow → Pow) (s : State) : (modPow f s).pow = f s.pow := rfl

/-! ## modGwy -/

@[simp] theorem modGwy_part (f : Gwy → Gwy) (s : State) : (modGwy f s).part = s.part := rfl
@[simp] theorem modGwy_larder (f : Gwy → Gwy) (s : State) : (modGwy f s).larder = s.larder := rfl
@[simp] theorem modGwy_dev (f : Gwy → Gwy) (s : State) : (modGwy f s).dev = s.dev := rfl
@[simp] theorem modGwy_clk (f : Gwy → Gwy) (s : State) : (modGwy f s).clk = s.clk := rfl
@[simp] theorem modGwy_time (f : Gwy → Gwy) (s : State) : (modGwy f s).time = s.time := rfl
@[simp] theorem modGwy_hp0 (f : Gwy → Gwy) (s : State) : (modGwy f s).hp0 = s.hp0 := rfl
@[simp] theorem modGwy_hp1 (f : Gwy → Gwy) (s : State) : (modGwy f s).hp1 = s.hp1 := rfl
@[simp] theorem modGwy_tens (f : Gwy → Gwy) (s : State) : (modGwy f s).tens = s.tens := rfl
@[simp] theorem modGwy_queues (f : Gwy → Gwy) (s : State) : (modGwy f s).queues = s.queues := rfl
@[simp] theorem modGwy_pcie (f : Gwy → Gwy) (s : State) : (modGwy f s).pcie = s.pcie := rfl
@[simp] theorem modGwy_jobs (f : Gwy → Gwy) (s : State) : (modGwy f s).jobs = s.jobs := rfl
@[simp] theorem modGwy_progs (f : Gwy → Gwy) (s : State) : (modGwy f s).progs = s.progs := rfl
@[simp] theorem modGwy_loads (f : Gwy → Gwy) (s : State) : (modGwy f s).loads = s.loads := rfl
@[simp] theorem modGwy_sch (f : Gwy → Gwy) (s : State) : (modGwy f s).sch = s.sch := rfl
@[simp] theorem modGwy_cls (f : Gwy → Gwy) (s : State) : (modGwy f s).cls = s.cls := rfl
@[simp] theorem modGwy_halos (f : Gwy → Gwy) (s : State) : (modGwy f s).halos = s.halos := rfl
@[simp] theorem modGwy_cld0 (f : Gwy → Gwy) (s : State) : (modGwy f s).cld0 = s.cld0 := rfl
@[simp] theorem modGwy_cld1 (f : Gwy → Gwy) (s : State) : (modGwy f s).cld1 = s.cld1 := rfl
@[simp] theorem modGwy_eth (f : Gwy → Gwy) (s : State) : (modGwy f s).eth = s.eth := rfl
@[simp] theorem modGwy_ctxs (f : Gwy → Gwy) (s : State) : (modGwy f s).ctxs = s.ctxs := rfl
@[simp] theorem modGwy_maps (f : Gwy → Gwy) (s : State) : (modGwy f s).maps = s.maps := rfl
@[simp] theorem modGwy_tpos (f : Gwy → Gwy) (s : State) : (modGwy f s).tpos = s.tpos := rfl
@[simp] theorem modGwy_tcis (f : Gwy → Gwy) (s : State) : (modGwy f s).tcis = s.tcis := rfl
@[simp] theorem modGwy_launch (f : Gwy → Gwy) (s : State) : (modGwy f s).launch = s.launch := rfl
@[simp] theorem modGwy_fctxs (f : Gwy → Gwy) (s : State) : (modGwy f s).fctxs = s.fctxs := rfl
@[simp] theorem modGwy_fclosed (f : Gwy → Gwy) (s : State) : (modGwy f s).fclosed = s.fclosed := rfl
@[simp] theorem modGwy_ctxLeft (f : Gwy → Gwy) (s : State) : (modGwy f s).ctxLeft = s.ctxLeft := rfl
@[simp] theorem modGwy_feng0 (f : Gwy → Gwy) (s : State) : (modGwy f s).feng0 = s.feng0 := rfl
@[simp] theorem modGwy_feng1 (f : Gwy → Gwy) (s : State) : (modGwy f s).feng1 = s.feng1 := rfl
@[simp] theorem modGwy_rctxs (f : Gwy → Gwy) (s : State) : (modGwy f s).rctxs = s.rctxs := rfl
@[simp] theorem modGwy_rwait (f : Gwy → Gwy) (s : State) : (modGwy f s).rwait = s.rwait := rfl
@[simp] theorem modGwy_disps (f : Gwy → Gwy) (s : State) : (modGwy f s).disps = s.disps := rfl
@[simp] theorem modGwy_ras (f : Gwy → Gwy) (s : State) : (modGwy f s).ras = s.ras := rfl
@[simp] theorem modGwy_ces (f : Gwy → Gwy) (s : State) : (modGwy f s).ces = s.ces := rfl
@[simp] theorem modGwy_pwms (f : Gwy → Gwy) (s : State) : (modGwy f s).pwms = s.pwms := rfl
@[simp] theorem modGwy_sds (f : Gwy → Gwy) (s : State) : (modGwy f s).sds = s.sds := rfl
@[simp] theorem modGwy_encs (f : Gwy → Gwy) (s : State) : (modGwy f s).encs = s.encs := rfl
@[simp] theorem modGwy_ioPend (f : Gwy → Gwy) (s : State) : (modGwy f s).ioPend = s.ioPend := rfl
@[simp] theorem modGwy_dieTick (f : Gwy → Gwy) (s : State) : (modGwy f s).dieTick = s.dieTick := rfl
@[simp] theorem modGwy_mem (f : Gwy → Gwy) (s : State) : (modGwy f s).mem = s.mem := rfl
@[simp] theorem modGwy_bwr (f : Gwy → Gwy) (s : State) : (modGwy f s).bwr = s.bwr := rfl
@[simp] theorem modGwy_skk (f : Gwy → Gwy) (s : State) : (modGwy f s).skk = s.skk := rfl
@[simp] theorem modGwy_sls (f : Gwy → Gwy) (s : State) : (modGwy f s).sls = s.sls := rfl
@[simp] theorem modGwy_chn (f : Gwy → Gwy) (s : State) : (modGwy f s).chn = s.chn := rfl
@[simp] theorem modGwy_pow (f : Gwy → Gwy) (s : State) : (modGwy f s).pow = s.pow := rfl
@[simp] theorem modGwy_fws (f : Gwy → Gwy) (s : State) : (modGwy f s).fws = s.fws := rfl
@[simp] theorem modGwy_heldCpl (f : Gwy → Gwy) (s : State) : (modGwy f s).heldCpl = s.heldCpl := rfl
@[simp] theorem modGwy_freeCtr (f : Gwy → Gwy) (s : State) : (modGwy f s).freeCtr = s.freeCtr := rfl
@[simp] theorem modGwy_pending (f : Gwy → Gwy) (s : State) : (modGwy f s).pending = s.pending := rfl
@[simp] theorem modGwy_gwy (f : Gwy → Gwy) (s : State) : (modGwy f s).gwy = f s.gwy := rfl

/-! ## modChn -/

@[simp] theorem modChn_part (f : Chn → Chn) (s : State) : (modChn f s).part = s.part := rfl
@[simp] theorem modChn_larder (f : Chn → Chn) (s : State) : (modChn f s).larder = s.larder := rfl
@[simp] theorem modChn_dev (f : Chn → Chn) (s : State) : (modChn f s).dev = s.dev := rfl
@[simp] theorem modChn_clk (f : Chn → Chn) (s : State) : (modChn f s).clk = s.clk := rfl
@[simp] theorem modChn_time (f : Chn → Chn) (s : State) : (modChn f s).time = s.time := rfl
@[simp] theorem modChn_hp0 (f : Chn → Chn) (s : State) : (modChn f s).hp0 = s.hp0 := rfl
@[simp] theorem modChn_hp1 (f : Chn → Chn) (s : State) : (modChn f s).hp1 = s.hp1 := rfl
@[simp] theorem modChn_tens (f : Chn → Chn) (s : State) : (modChn f s).tens = s.tens := rfl
@[simp] theorem modChn_queues (f : Chn → Chn) (s : State) : (modChn f s).queues = s.queues := rfl
@[simp] theorem modChn_pcie (f : Chn → Chn) (s : State) : (modChn f s).pcie = s.pcie := rfl
@[simp] theorem modChn_jobs (f : Chn → Chn) (s : State) : (modChn f s).jobs = s.jobs := rfl
@[simp] theorem modChn_progs (f : Chn → Chn) (s : State) : (modChn f s).progs = s.progs := rfl
@[simp] theorem modChn_loads (f : Chn → Chn) (s : State) : (modChn f s).loads = s.loads := rfl
@[simp] theorem modChn_sch (f : Chn → Chn) (s : State) : (modChn f s).sch = s.sch := rfl
@[simp] theorem modChn_cls (f : Chn → Chn) (s : State) : (modChn f s).cls = s.cls := rfl
@[simp] theorem modChn_halos (f : Chn → Chn) (s : State) : (modChn f s).halos = s.halos := rfl
@[simp] theorem modChn_cld0 (f : Chn → Chn) (s : State) : (modChn f s).cld0 = s.cld0 := rfl
@[simp] theorem modChn_cld1 (f : Chn → Chn) (s : State) : (modChn f s).cld1 = s.cld1 := rfl
@[simp] theorem modChn_eth (f : Chn → Chn) (s : State) : (modChn f s).eth = s.eth := rfl
@[simp] theorem modChn_ctxs (f : Chn → Chn) (s : State) : (modChn f s).ctxs = s.ctxs := rfl
@[simp] theorem modChn_maps (f : Chn → Chn) (s : State) : (modChn f s).maps = s.maps := rfl
@[simp] theorem modChn_tpos (f : Chn → Chn) (s : State) : (modChn f s).tpos = s.tpos := rfl
@[simp] theorem modChn_tcis (f : Chn → Chn) (s : State) : (modChn f s).tcis = s.tcis := rfl
@[simp] theorem modChn_launch (f : Chn → Chn) (s : State) : (modChn f s).launch = s.launch := rfl
@[simp] theorem modChn_fctxs (f : Chn → Chn) (s : State) : (modChn f s).fctxs = s.fctxs := rfl
@[simp] theorem modChn_fclosed (f : Chn → Chn) (s : State) : (modChn f s).fclosed = s.fclosed := rfl
@[simp] theorem modChn_ctxLeft (f : Chn → Chn) (s : State) : (modChn f s).ctxLeft = s.ctxLeft := rfl
@[simp] theorem modChn_feng0 (f : Chn → Chn) (s : State) : (modChn f s).feng0 = s.feng0 := rfl
@[simp] theorem modChn_feng1 (f : Chn → Chn) (s : State) : (modChn f s).feng1 = s.feng1 := rfl
@[simp] theorem modChn_rctxs (f : Chn → Chn) (s : State) : (modChn f s).rctxs = s.rctxs := rfl
@[simp] theorem modChn_rwait (f : Chn → Chn) (s : State) : (modChn f s).rwait = s.rwait := rfl
@[simp] theorem modChn_disps (f : Chn → Chn) (s : State) : (modChn f s).disps = s.disps := rfl
@[simp] theorem modChn_ras (f : Chn → Chn) (s : State) : (modChn f s).ras = s.ras := rfl
@[simp] theorem modChn_ces (f : Chn → Chn) (s : State) : (modChn f s).ces = s.ces := rfl
@[simp] theorem modChn_pwms (f : Chn → Chn) (s : State) : (modChn f s).pwms = s.pwms := rfl
@[simp] theorem modChn_sds (f : Chn → Chn) (s : State) : (modChn f s).sds = s.sds := rfl
@[simp] theorem modChn_encs (f : Chn → Chn) (s : State) : (modChn f s).encs = s.encs := rfl
@[simp] theorem modChn_ioPend (f : Chn → Chn) (s : State) : (modChn f s).ioPend = s.ioPend := rfl
@[simp] theorem modChn_dieTick (f : Chn → Chn) (s : State) : (modChn f s).dieTick = s.dieTick := rfl
@[simp] theorem modChn_mem (f : Chn → Chn) (s : State) : (modChn f s).mem = s.mem := rfl
@[simp] theorem modChn_bwr (f : Chn → Chn) (s : State) : (modChn f s).bwr = s.bwr := rfl
@[simp] theorem modChn_skk (f : Chn → Chn) (s : State) : (modChn f s).skk = s.skk := rfl
@[simp] theorem modChn_gwy (f : Chn → Chn) (s : State) : (modChn f s).gwy = s.gwy := rfl
@[simp] theorem modChn_sls (f : Chn → Chn) (s : State) : (modChn f s).sls = s.sls := rfl
@[simp] theorem modChn_pow (f : Chn → Chn) (s : State) : (modChn f s).pow = s.pow := rfl
@[simp] theorem modChn_fws (f : Chn → Chn) (s : State) : (modChn f s).fws = s.fws := rfl
@[simp] theorem modChn_heldCpl (f : Chn → Chn) (s : State) : (modChn f s).heldCpl = s.heldCpl := rfl
@[simp] theorem modChn_freeCtr (f : Chn → Chn) (s : State) : (modChn f s).freeCtr = s.freeCtr := rfl
@[simp] theorem modChn_pending (f : Chn → Chn) (s : State) : (modChn f s).pending = s.pending := rfl
@[simp] theorem modChn_chn (f : Chn → Chn) (s : State) : (modChn f s).chn = f s.chn := rfl

/-! ## modClk -/

@[simp] theorem modClk_part (f : Clk → Clk) (s : State) : (modClk f s).part = s.part := rfl
@[simp] theorem modClk_larder (f : Clk → Clk) (s : State) : (modClk f s).larder = s.larder := rfl
@[simp] theorem modClk_dev (f : Clk → Clk) (s : State) : (modClk f s).dev = s.dev := rfl
@[simp] theorem modClk_time (f : Clk → Clk) (s : State) : (modClk f s).time = s.time := rfl
@[simp] theorem modClk_hp0 (f : Clk → Clk) (s : State) : (modClk f s).hp0 = s.hp0 := rfl
@[simp] theorem modClk_hp1 (f : Clk → Clk) (s : State) : (modClk f s).hp1 = s.hp1 := rfl
@[simp] theorem modClk_tens (f : Clk → Clk) (s : State) : (modClk f s).tens = s.tens := rfl
@[simp] theorem modClk_queues (f : Clk → Clk) (s : State) : (modClk f s).queues = s.queues := rfl
@[simp] theorem modClk_pcie (f : Clk → Clk) (s : State) : (modClk f s).pcie = s.pcie := rfl
@[simp] theorem modClk_jobs (f : Clk → Clk) (s : State) : (modClk f s).jobs = s.jobs := rfl
@[simp] theorem modClk_progs (f : Clk → Clk) (s : State) : (modClk f s).progs = s.progs := rfl
@[simp] theorem modClk_loads (f : Clk → Clk) (s : State) : (modClk f s).loads = s.loads := rfl
@[simp] theorem modClk_sch (f : Clk → Clk) (s : State) : (modClk f s).sch = s.sch := rfl
@[simp] theorem modClk_cls (f : Clk → Clk) (s : State) : (modClk f s).cls = s.cls := rfl
@[simp] theorem modClk_halos (f : Clk → Clk) (s : State) : (modClk f s).halos = s.halos := rfl
@[simp] theorem modClk_cld0 (f : Clk → Clk) (s : State) : (modClk f s).cld0 = s.cld0 := rfl
@[simp] theorem modClk_cld1 (f : Clk → Clk) (s : State) : (modClk f s).cld1 = s.cld1 := rfl
@[simp] theorem modClk_eth (f : Clk → Clk) (s : State) : (modClk f s).eth = s.eth := rfl
@[simp] theorem modClk_ctxs (f : Clk → Clk) (s : State) : (modClk f s).ctxs = s.ctxs := rfl
@[simp] theorem modClk_maps (f : Clk → Clk) (s : State) : (modClk f s).maps = s.maps := rfl
@[simp] theorem modClk_tpos (f : Clk → Clk) (s : State) : (modClk f s).tpos = s.tpos := rfl
@[simp] theorem modClk_tcis (f : Clk → Clk) (s : State) : (modClk f s).tcis = s.tcis := rfl
@[simp] theorem modClk_launch (f : Clk → Clk) (s : State) : (modClk f s).launch = s.launch := rfl
@[simp] theorem modClk_fctxs (f : Clk → Clk) (s : State) : (modClk f s).fctxs = s.fctxs := rfl
@[simp] theorem modClk_fclosed (f : Clk → Clk) (s : State) : (modClk f s).fclosed = s.fclosed := rfl
@[simp] theorem modClk_ctxLeft (f : Clk → Clk) (s : State) : (modClk f s).ctxLeft = s.ctxLeft := rfl
@[simp] theorem modClk_feng0 (f : Clk → Clk) (s : State) : (modClk f s).feng0 = s.feng0 := rfl
@[simp] theorem modClk_feng1 (f : Clk → Clk) (s : State) : (modClk f s).feng1 = s.feng1 := rfl
@[simp] theorem modClk_rctxs (f : Clk → Clk) (s : State) : (modClk f s).rctxs = s.rctxs := rfl
@[simp] theorem modClk_rwait (f : Clk → Clk) (s : State) : (modClk f s).rwait = s.rwait := rfl
@[simp] theorem modClk_disps (f : Clk → Clk) (s : State) : (modClk f s).disps = s.disps := rfl
@[simp] theorem modClk_ras (f : Clk → Clk) (s : State) : (modClk f s).ras = s.ras := rfl
@[simp] theorem modClk_ces (f : Clk → Clk) (s : State) : (modClk f s).ces = s.ces := rfl
@[simp] theorem modClk_pwms (f : Clk → Clk) (s : State) : (modClk f s).pwms = s.pwms := rfl
@[simp] theorem modClk_sds (f : Clk → Clk) (s : State) : (modClk f s).sds = s.sds := rfl
@[simp] theorem modClk_encs (f : Clk → Clk) (s : State) : (modClk f s).encs = s.encs := rfl
@[simp] theorem modClk_ioPend (f : Clk → Clk) (s : State) : (modClk f s).ioPend = s.ioPend := rfl
@[simp] theorem modClk_dieTick (f : Clk → Clk) (s : State) : (modClk f s).dieTick = s.dieTick := rfl
@[simp] theorem modClk_mem (f : Clk → Clk) (s : State) : (modClk f s).mem = s.mem := rfl
@[simp] theorem modClk_bwr (f : Clk → Clk) (s : State) : (modClk f s).bwr = s.bwr := rfl
@[simp] theorem modClk_skk (f : Clk → Clk) (s : State) : (modClk f s).skk = s.skk := rfl
@[simp] theorem modClk_gwy (f : Clk → Clk) (s : State) : (modClk f s).gwy = s.gwy := rfl
@[simp] theorem modClk_sls (f : Clk → Clk) (s : State) : (modClk f s).sls = s.sls := rfl
@[simp] theorem modClk_chn (f : Clk → Clk) (s : State) : (modClk f s).chn = s.chn := rfl
@[simp] theorem modClk_pow (f : Clk → Clk) (s : State) : (modClk f s).pow = s.pow := rfl
@[simp] theorem modClk_fws (f : Clk → Clk) (s : State) : (modClk f s).fws = s.fws := rfl
@[simp] theorem modClk_heldCpl (f : Clk → Clk) (s : State) : (modClk f s).heldCpl = s.heldCpl := rfl
@[simp] theorem modClk_freeCtr (f : Clk → Clk) (s : State) : (modClk f s).freeCtr = s.freeCtr := rfl
@[simp] theorem modClk_pending (f : Clk → Clk) (s : State) : (modClk f s).pending = s.pending := rfl
@[simp] theorem modClk_clk (f : Clk → Clk) (s : State) : (modClk f s).clk = f s.clk := rfl

/-! ## modSch -/

@[simp] theorem modSch_part (f : Sch → Sch) (s : State) : (modSch f s).part = s.part := rfl
@[simp] theorem modSch_larder (f : Sch → Sch) (s : State) : (modSch f s).larder = s.larder := rfl
@[simp] theorem modSch_dev (f : Sch → Sch) (s : State) : (modSch f s).dev = s.dev := rfl
@[simp] theorem modSch_clk (f : Sch → Sch) (s : State) : (modSch f s).clk = s.clk := rfl
@[simp] theorem modSch_time (f : Sch → Sch) (s : State) : (modSch f s).time = s.time := rfl
@[simp] theorem modSch_hp0 (f : Sch → Sch) (s : State) : (modSch f s).hp0 = s.hp0 := rfl
@[simp] theorem modSch_hp1 (f : Sch → Sch) (s : State) : (modSch f s).hp1 = s.hp1 := rfl
@[simp] theorem modSch_tens (f : Sch → Sch) (s : State) : (modSch f s).tens = s.tens := rfl
@[simp] theorem modSch_queues (f : Sch → Sch) (s : State) : (modSch f s).queues = s.queues := rfl
@[simp] theorem modSch_pcie (f : Sch → Sch) (s : State) : (modSch f s).pcie = s.pcie := rfl
@[simp] theorem modSch_jobs (f : Sch → Sch) (s : State) : (modSch f s).jobs = s.jobs := rfl
@[simp] theorem modSch_progs (f : Sch → Sch) (s : State) : (modSch f s).progs = s.progs := rfl
@[simp] theorem modSch_loads (f : Sch → Sch) (s : State) : (modSch f s).loads = s.loads := rfl
@[simp] theorem modSch_cls (f : Sch → Sch) (s : State) : (modSch f s).cls = s.cls := rfl
@[simp] theorem modSch_halos (f : Sch → Sch) (s : State) : (modSch f s).halos = s.halos := rfl
@[simp] theorem modSch_cld0 (f : Sch → Sch) (s : State) : (modSch f s).cld0 = s.cld0 := rfl
@[simp] theorem modSch_cld1 (f : Sch → Sch) (s : State) : (modSch f s).cld1 = s.cld1 := rfl
@[simp] theorem modSch_eth (f : Sch → Sch) (s : State) : (modSch f s).eth = s.eth := rfl
@[simp] theorem modSch_ctxs (f : Sch → Sch) (s : State) : (modSch f s).ctxs = s.ctxs := rfl
@[simp] theorem modSch_maps (f : Sch → Sch) (s : State) : (modSch f s).maps = s.maps := rfl
@[simp] theorem modSch_tpos (f : Sch → Sch) (s : State) : (modSch f s).tpos = s.tpos := rfl
@[simp] theorem modSch_tcis (f : Sch → Sch) (s : State) : (modSch f s).tcis = s.tcis := rfl
@[simp] theorem modSch_launch (f : Sch → Sch) (s : State) : (modSch f s).launch = s.launch := rfl
@[simp] theorem modSch_fctxs (f : Sch → Sch) (s : State) : (modSch f s).fctxs = s.fctxs := rfl
@[simp] theorem modSch_fclosed (f : Sch → Sch) (s : State) : (modSch f s).fclosed = s.fclosed := rfl
@[simp] theorem modSch_ctxLeft (f : Sch → Sch) (s : State) : (modSch f s).ctxLeft = s.ctxLeft := rfl
@[simp] theorem modSch_feng0 (f : Sch → Sch) (s : State) : (modSch f s).feng0 = s.feng0 := rfl
@[simp] theorem modSch_feng1 (f : Sch → Sch) (s : State) : (modSch f s).feng1 = s.feng1 := rfl
@[simp] theorem modSch_rctxs (f : Sch → Sch) (s : State) : (modSch f s).rctxs = s.rctxs := rfl
@[simp] theorem modSch_rwait (f : Sch → Sch) (s : State) : (modSch f s).rwait = s.rwait := rfl
@[simp] theorem modSch_disps (f : Sch → Sch) (s : State) : (modSch f s).disps = s.disps := rfl
@[simp] theorem modSch_ras (f : Sch → Sch) (s : State) : (modSch f s).ras = s.ras := rfl
@[simp] theorem modSch_ces (f : Sch → Sch) (s : State) : (modSch f s).ces = s.ces := rfl
@[simp] theorem modSch_pwms (f : Sch → Sch) (s : State) : (modSch f s).pwms = s.pwms := rfl
@[simp] theorem modSch_sds (f : Sch → Sch) (s : State) : (modSch f s).sds = s.sds := rfl
@[simp] theorem modSch_encs (f : Sch → Sch) (s : State) : (modSch f s).encs = s.encs := rfl
@[simp] theorem modSch_ioPend (f : Sch → Sch) (s : State) : (modSch f s).ioPend = s.ioPend := rfl
@[simp] theorem modSch_dieTick (f : Sch → Sch) (s : State) : (modSch f s).dieTick = s.dieTick := rfl
@[simp] theorem modSch_mem (f : Sch → Sch) (s : State) : (modSch f s).mem = s.mem := rfl
@[simp] theorem modSch_bwr (f : Sch → Sch) (s : State) : (modSch f s).bwr = s.bwr := rfl
@[simp] theorem modSch_skk (f : Sch → Sch) (s : State) : (modSch f s).skk = s.skk := rfl
@[simp] theorem modSch_gwy (f : Sch → Sch) (s : State) : (modSch f s).gwy = s.gwy := rfl
@[simp] theorem modSch_sls (f : Sch → Sch) (s : State) : (modSch f s).sls = s.sls := rfl
@[simp] theorem modSch_chn (f : Sch → Sch) (s : State) : (modSch f s).chn = s.chn := rfl
@[simp] theorem modSch_pow (f : Sch → Sch) (s : State) : (modSch f s).pow = s.pow := rfl
@[simp] theorem modSch_fws (f : Sch → Sch) (s : State) : (modSch f s).fws = s.fws := rfl
@[simp] theorem modSch_heldCpl (f : Sch → Sch) (s : State) : (modSch f s).heldCpl = s.heldCpl := rfl
@[simp] theorem modSch_freeCtr (f : Sch → Sch) (s : State) : (modSch f s).freeCtr = s.freeCtr := rfl
@[simp] theorem modSch_pending (f : Sch → Sch) (s : State) : (modSch f s).pending = s.pending := rfl
@[simp] theorem modSch_sch (f : Sch → Sch) (s : State) : (modSch f s).sch = f s.sch := rfl

/-! ## modBwr -/

@[simp] theorem modBwr_part (f : Bwr → Bwr) (s : State) : (modBwr f s).part = s.part := rfl
@[simp] theorem modBwr_larder (f : Bwr → Bwr) (s : State) : (modBwr f s).larder = s.larder := rfl
@[simp] theorem modBwr_dev (f : Bwr → Bwr) (s : State) : (modBwr f s).dev = s.dev := rfl
@[simp] theorem modBwr_clk (f : Bwr → Bwr) (s : State) : (modBwr f s).clk = s.clk := rfl
@[simp] theorem modBwr_time (f : Bwr → Bwr) (s : State) : (modBwr f s).time = s.time := rfl
@[simp] theorem modBwr_hp0 (f : Bwr → Bwr) (s : State) : (modBwr f s).hp0 = s.hp0 := rfl
@[simp] theorem modBwr_hp1 (f : Bwr → Bwr) (s : State) : (modBwr f s).hp1 = s.hp1 := rfl
@[simp] theorem modBwr_tens (f : Bwr → Bwr) (s : State) : (modBwr f s).tens = s.tens := rfl
@[simp] theorem modBwr_queues (f : Bwr → Bwr) (s : State) : (modBwr f s).queues = s.queues := rfl
@[simp] theorem modBwr_pcie (f : Bwr → Bwr) (s : State) : (modBwr f s).pcie = s.pcie := rfl
@[simp] theorem modBwr_jobs (f : Bwr → Bwr) (s : State) : (modBwr f s).jobs = s.jobs := rfl
@[simp] theorem modBwr_progs (f : Bwr → Bwr) (s : State) : (modBwr f s).progs = s.progs := rfl
@[simp] theorem modBwr_loads (f : Bwr → Bwr) (s : State) : (modBwr f s).loads = s.loads := rfl
@[simp] theorem modBwr_sch (f : Bwr → Bwr) (s : State) : (modBwr f s).sch = s.sch := rfl
@[simp] theorem modBwr_cls (f : Bwr → Bwr) (s : State) : (modBwr f s).cls = s.cls := rfl
@[simp] theorem modBwr_halos (f : Bwr → Bwr) (s : State) : (modBwr f s).halos = s.halos := rfl
@[simp] theorem modBwr_cld0 (f : Bwr → Bwr) (s : State) : (modBwr f s).cld0 = s.cld0 := rfl
@[simp] theorem modBwr_cld1 (f : Bwr → Bwr) (s : State) : (modBwr f s).cld1 = s.cld1 := rfl
@[simp] theorem modBwr_eth (f : Bwr → Bwr) (s : State) : (modBwr f s).eth = s.eth := rfl
@[simp] theorem modBwr_ctxs (f : Bwr → Bwr) (s : State) : (modBwr f s).ctxs = s.ctxs := rfl
@[simp] theorem modBwr_maps (f : Bwr → Bwr) (s : State) : (modBwr f s).maps = s.maps := rfl
@[simp] theorem modBwr_tpos (f : Bwr → Bwr) (s : State) : (modBwr f s).tpos = s.tpos := rfl
@[simp] theorem modBwr_tcis (f : Bwr → Bwr) (s : State) : (modBwr f s).tcis = s.tcis := rfl
@[simp] theorem modBwr_launch (f : Bwr → Bwr) (s : State) : (modBwr f s).launch = s.launch := rfl
@[simp] theorem modBwr_fctxs (f : Bwr → Bwr) (s : State) : (modBwr f s).fctxs = s.fctxs := rfl
@[simp] theorem modBwr_fclosed (f : Bwr → Bwr) (s : State) : (modBwr f s).fclosed = s.fclosed := rfl
@[simp] theorem modBwr_ctxLeft (f : Bwr → Bwr) (s : State) : (modBwr f s).ctxLeft = s.ctxLeft := rfl
@[simp] theorem modBwr_feng0 (f : Bwr → Bwr) (s : State) : (modBwr f s).feng0 = s.feng0 := rfl
@[simp] theorem modBwr_feng1 (f : Bwr → Bwr) (s : State) : (modBwr f s).feng1 = s.feng1 := rfl
@[simp] theorem modBwr_rctxs (f : Bwr → Bwr) (s : State) : (modBwr f s).rctxs = s.rctxs := rfl
@[simp] theorem modBwr_rwait (f : Bwr → Bwr) (s : State) : (modBwr f s).rwait = s.rwait := rfl
@[simp] theorem modBwr_disps (f : Bwr → Bwr) (s : State) : (modBwr f s).disps = s.disps := rfl
@[simp] theorem modBwr_ras (f : Bwr → Bwr) (s : State) : (modBwr f s).ras = s.ras := rfl
@[simp] theorem modBwr_ces (f : Bwr → Bwr) (s : State) : (modBwr f s).ces = s.ces := rfl
@[simp] theorem modBwr_pwms (f : Bwr → Bwr) (s : State) : (modBwr f s).pwms = s.pwms := rfl
@[simp] theorem modBwr_sds (f : Bwr → Bwr) (s : State) : (modBwr f s).sds = s.sds := rfl
@[simp] theorem modBwr_encs (f : Bwr → Bwr) (s : State) : (modBwr f s).encs = s.encs := rfl
@[simp] theorem modBwr_ioPend (f : Bwr → Bwr) (s : State) : (modBwr f s).ioPend = s.ioPend := rfl
@[simp] theorem modBwr_dieTick (f : Bwr → Bwr) (s : State) : (modBwr f s).dieTick = s.dieTick := rfl
@[simp] theorem modBwr_mem (f : Bwr → Bwr) (s : State) : (modBwr f s).mem = s.mem := rfl
@[simp] theorem modBwr_skk (f : Bwr → Bwr) (s : State) : (modBwr f s).skk = s.skk := rfl
@[simp] theorem modBwr_gwy (f : Bwr → Bwr) (s : State) : (modBwr f s).gwy = s.gwy := rfl
@[simp] theorem modBwr_sls (f : Bwr → Bwr) (s : State) : (modBwr f s).sls = s.sls := rfl
@[simp] theorem modBwr_chn (f : Bwr → Bwr) (s : State) : (modBwr f s).chn = s.chn := rfl
@[simp] theorem modBwr_pow (f : Bwr → Bwr) (s : State) : (modBwr f s).pow = s.pow := rfl
@[simp] theorem modBwr_fws (f : Bwr → Bwr) (s : State) : (modBwr f s).fws = s.fws := rfl
@[simp] theorem modBwr_heldCpl (f : Bwr → Bwr) (s : State) : (modBwr f s).heldCpl = s.heldCpl := rfl
@[simp] theorem modBwr_freeCtr (f : Bwr → Bwr) (s : State) : (modBwr f s).freeCtr = s.freeCtr := rfl
@[simp] theorem modBwr_pending (f : Bwr → Bwr) (s : State) : (modBwr f s).pending = s.pending := rfl
@[simp] theorem modBwr_bwr (f : Bwr → Bwr) (s : State) : (modBwr f s).bwr = f s.bwr := rfl

/-! ## modRas -/

@[simp] theorem modRas_part (f : RasSt → RasSt) (s : State) : (modRas f s).part = s.part := rfl
@[simp] theorem modRas_larder (f : RasSt → RasSt) (s : State) : (modRas f s).larder = s.larder := rfl
@[simp] theorem modRas_dev (f : RasSt → RasSt) (s : State) : (modRas f s).dev = s.dev := rfl
@[simp] theorem modRas_clk (f : RasSt → RasSt) (s : State) : (modRas f s).clk = s.clk := rfl
@[simp] theorem modRas_time (f : RasSt → RasSt) (s : State) : (modRas f s).time = s.time := rfl
@[simp] theorem modRas_hp0 (f : RasSt → RasSt) (s : State) : (modRas f s).hp0 = s.hp0 := rfl
@[simp] theorem modRas_hp1 (f : RasSt → RasSt) (s : State) : (modRas f s).hp1 = s.hp1 := rfl
@[simp] theorem modRas_tens (f : RasSt → RasSt) (s : State) : (modRas f s).tens = s.tens := rfl
@[simp] theorem modRas_queues (f : RasSt → RasSt) (s : State) : (modRas f s).queues = s.queues := rfl
@[simp] theorem modRas_pcie (f : RasSt → RasSt) (s : State) : (modRas f s).pcie = s.pcie := rfl
@[simp] theorem modRas_jobs (f : RasSt → RasSt) (s : State) : (modRas f s).jobs = s.jobs := rfl
@[simp] theorem modRas_progs (f : RasSt → RasSt) (s : State) : (modRas f s).progs = s.progs := rfl
@[simp] theorem modRas_loads (f : RasSt → RasSt) (s : State) : (modRas f s).loads = s.loads := rfl
@[simp] theorem modRas_sch (f : RasSt → RasSt) (s : State) : (modRas f s).sch = s.sch := rfl
@[simp] theorem modRas_cls (f : RasSt → RasSt) (s : State) : (modRas f s).cls = s.cls := rfl
@[simp] theorem modRas_halos (f : RasSt → RasSt) (s : State) : (modRas f s).halos = s.halos := rfl
@[simp] theorem modRas_cld0 (f : RasSt → RasSt) (s : State) : (modRas f s).cld0 = s.cld0 := rfl
@[simp] theorem modRas_cld1 (f : RasSt → RasSt) (s : State) : (modRas f s).cld1 = s.cld1 := rfl
@[simp] theorem modRas_eth (f : RasSt → RasSt) (s : State) : (modRas f s).eth = s.eth := rfl
@[simp] theorem modRas_ctxs (f : RasSt → RasSt) (s : State) : (modRas f s).ctxs = s.ctxs := rfl
@[simp] theorem modRas_maps (f : RasSt → RasSt) (s : State) : (modRas f s).maps = s.maps := rfl
@[simp] theorem modRas_tpos (f : RasSt → RasSt) (s : State) : (modRas f s).tpos = s.tpos := rfl
@[simp] theorem modRas_tcis (f : RasSt → RasSt) (s : State) : (modRas f s).tcis = s.tcis := rfl
@[simp] theorem modRas_launch (f : RasSt → RasSt) (s : State) : (modRas f s).launch = s.launch := rfl
@[simp] theorem modRas_fctxs (f : RasSt → RasSt) (s : State) : (modRas f s).fctxs = s.fctxs := rfl
@[simp] theorem modRas_fclosed (f : RasSt → RasSt) (s : State) : (modRas f s).fclosed = s.fclosed := rfl
@[simp] theorem modRas_ctxLeft (f : RasSt → RasSt) (s : State) : (modRas f s).ctxLeft = s.ctxLeft := rfl
@[simp] theorem modRas_feng0 (f : RasSt → RasSt) (s : State) : (modRas f s).feng0 = s.feng0 := rfl
@[simp] theorem modRas_feng1 (f : RasSt → RasSt) (s : State) : (modRas f s).feng1 = s.feng1 := rfl
@[simp] theorem modRas_rctxs (f : RasSt → RasSt) (s : State) : (modRas f s).rctxs = s.rctxs := rfl
@[simp] theorem modRas_rwait (f : RasSt → RasSt) (s : State) : (modRas f s).rwait = s.rwait := rfl
@[simp] theorem modRas_disps (f : RasSt → RasSt) (s : State) : (modRas f s).disps = s.disps := rfl
@[simp] theorem modRas_ces (f : RasSt → RasSt) (s : State) : (modRas f s).ces = s.ces := rfl
@[simp] theorem modRas_pwms (f : RasSt → RasSt) (s : State) : (modRas f s).pwms = s.pwms := rfl
@[simp] theorem modRas_sds (f : RasSt → RasSt) (s : State) : (modRas f s).sds = s.sds := rfl
@[simp] theorem modRas_encs (f : RasSt → RasSt) (s : State) : (modRas f s).encs = s.encs := rfl
@[simp] theorem modRas_ioPend (f : RasSt → RasSt) (s : State) : (modRas f s).ioPend = s.ioPend := rfl
@[simp] theorem modRas_dieTick (f : RasSt → RasSt) (s : State) : (modRas f s).dieTick = s.dieTick := rfl
@[simp] theorem modRas_mem (f : RasSt → RasSt) (s : State) : (modRas f s).mem = s.mem := rfl
@[simp] theorem modRas_bwr (f : RasSt → RasSt) (s : State) : (modRas f s).bwr = s.bwr := rfl
@[simp] theorem modRas_skk (f : RasSt → RasSt) (s : State) : (modRas f s).skk = s.skk := rfl
@[simp] theorem modRas_gwy (f : RasSt → RasSt) (s : State) : (modRas f s).gwy = s.gwy := rfl
@[simp] theorem modRas_sls (f : RasSt → RasSt) (s : State) : (modRas f s).sls = s.sls := rfl
@[simp] theorem modRas_chn (f : RasSt → RasSt) (s : State) : (modRas f s).chn = s.chn := rfl
@[simp] theorem modRas_pow (f : RasSt → RasSt) (s : State) : (modRas f s).pow = s.pow := rfl
@[simp] theorem modRas_fws (f : RasSt → RasSt) (s : State) : (modRas f s).fws = s.fws := rfl
@[simp] theorem modRas_heldCpl (f : RasSt → RasSt) (s : State) : (modRas f s).heldCpl = s.heldCpl := rfl
@[simp] theorem modRas_freeCtr (f : RasSt → RasSt) (s : State) : (modRas f s).freeCtr = s.freeCtr := rfl
@[simp] theorem modRas_pending (f : RasSt → RasSt) (s : State) : (modRas f s).pending = s.pending := rfl
@[simp] theorem modRas_ras (f : RasSt → RasSt) (s : State) : (modRas f s).ras = f s.ras := rfl

/-! ## State.setTen -/

@[simp] theorem State.setTen_part (s : State) (t : Nat) (v : Tenant) : (s.setTen t v).part = s.part := rfl
@[simp] theorem State.setTen_larder (s : State) (t : Nat) (v : Tenant) : (s.setTen t v).larder = s.larder := rfl
@[simp] theorem State.setTen_dev (s : State) (t : Nat) (v : Tenant) : (s.setTen t v).dev = s.dev := rfl
@[simp] theorem State.setTen_clk (s : State) (t : Nat) (v : Tenant) : (s.setTen t v).clk = s.clk := rfl
@[simp] theorem State.setTen_time (s : State) (t : Nat) (v : Tenant) : (s.setTen t v).time = s.time := rfl
@[simp] theorem State.setTen_hp0 (s : State) (t : Nat) (v : Tenant) : (s.setTen t v).hp0 = s.hp0 := rfl
@[simp] theorem State.setTen_hp1 (s : State) (t : Nat) (v : Tenant) : (s.setTen t v).hp1 = s.hp1 := rfl
@[simp] theorem State.setTen_queues (s : State) (t : Nat) (v : Tenant) : (s.setTen t v).queues = s.queues := rfl
@[simp] theorem State.setTen_pcie (s : State) (t : Nat) (v : Tenant) : (s.setTen t v).pcie = s.pcie := rfl
@[simp] theorem State.setTen_jobs (s : State) (t : Nat) (v : Tenant) : (s.setTen t v).jobs = s.jobs := rfl
@[simp] theorem State.setTen_progs (s : State) (t : Nat) (v : Tenant) : (s.setTen t v).progs = s.progs := rfl
@[simp] theorem State.setTen_loads (s : State) (t : Nat) (v : Tenant) : (s.setTen t v).loads = s.loads := rfl
@[simp] theorem State.setTen_sch (s : State) (t : Nat) (v : Tenant) : (s.setTen t v).sch = s.sch := rfl
@[simp] theorem State.setTen_cls (s : State) (t : Nat) (v : Tenant) : (s.setTen t v).cls = s.cls := rfl
@[simp] theorem State.setTen_halos (s : State) (t : Nat) (v : Tenant) : (s.setTen t v).halos = s.halos := rfl
@[simp] theorem State.setTen_cld0 (s : State) (t : Nat) (v : Tenant) : (s.setTen t v).cld0 = s.cld0 := rfl
@[simp] theorem State.setTen_cld1 (s : State) (t : Nat) (v : Tenant) : (s.setTen t v).cld1 = s.cld1 := rfl
@[simp] theorem State.setTen_eth (s : State) (t : Nat) (v : Tenant) : (s.setTen t v).eth = s.eth := rfl
@[simp] theorem State.setTen_ctxs (s : State) (t : Nat) (v : Tenant) : (s.setTen t v).ctxs = s.ctxs := rfl
@[simp] theorem State.setTen_maps (s : State) (t : Nat) (v : Tenant) : (s.setTen t v).maps = s.maps := rfl
@[simp] theorem State.setTen_tpos (s : State) (t : Nat) (v : Tenant) : (s.setTen t v).tpos = s.tpos := rfl
@[simp] theorem State.setTen_tcis (s : State) (t : Nat) (v : Tenant) : (s.setTen t v).tcis = s.tcis := rfl
@[simp] theorem State.setTen_launch (s : State) (t : Nat) (v : Tenant) : (s.setTen t v).launch = s.launch := rfl
@[simp] theorem State.setTen_fctxs (s : State) (t : Nat) (v : Tenant) : (s.setTen t v).fctxs = s.fctxs := rfl
@[simp] theorem State.setTen_fclosed (s : State) (t : Nat) (v : Tenant) : (s.setTen t v).fclosed = s.fclosed := rfl
@[simp] theorem State.setTen_ctxLeft (s : State) (t : Nat) (v : Tenant) : (s.setTen t v).ctxLeft = s.ctxLeft := rfl
@[simp] theorem State.setTen_feng0 (s : State) (t : Nat) (v : Tenant) : (s.setTen t v).feng0 = s.feng0 := rfl
@[simp] theorem State.setTen_feng1 (s : State) (t : Nat) (v : Tenant) : (s.setTen t v).feng1 = s.feng1 := rfl
@[simp] theorem State.setTen_rctxs (s : State) (t : Nat) (v : Tenant) : (s.setTen t v).rctxs = s.rctxs := rfl
@[simp] theorem State.setTen_rwait (s : State) (t : Nat) (v : Tenant) : (s.setTen t v).rwait = s.rwait := rfl
@[simp] theorem State.setTen_disps (s : State) (t : Nat) (v : Tenant) : (s.setTen t v).disps = s.disps := rfl
@[simp] theorem State.setTen_ras (s : State) (t : Nat) (v : Tenant) : (s.setTen t v).ras = s.ras := rfl
@[simp] theorem State.setTen_ces (s : State) (t : Nat) (v : Tenant) : (s.setTen t v).ces = s.ces := rfl
@[simp] theorem State.setTen_pwms (s : State) (t : Nat) (v : Tenant) : (s.setTen t v).pwms = s.pwms := rfl
@[simp] theorem State.setTen_sds (s : State) (t : Nat) (v : Tenant) : (s.setTen t v).sds = s.sds := rfl
@[simp] theorem State.setTen_encs (s : State) (t : Nat) (v : Tenant) : (s.setTen t v).encs = s.encs := rfl
@[simp] theorem State.setTen_ioPend (s : State) (t : Nat) (v : Tenant) : (s.setTen t v).ioPend = s.ioPend := rfl
@[simp] theorem State.setTen_dieTick (s : State) (t : Nat) (v : Tenant) : (s.setTen t v).dieTick = s.dieTick := rfl
@[simp] theorem State.setTen_mem (s : State) (t : Nat) (v : Tenant) : (s.setTen t v).mem = s.mem := rfl
@[simp] theorem State.setTen_bwr (s : State) (t : Nat) (v : Tenant) : (s.setTen t v).bwr = s.bwr := rfl
@[simp] theorem State.setTen_skk (s : State) (t : Nat) (v : Tenant) : (s.setTen t v).skk = s.skk := rfl
@[simp] theorem State.setTen_gwy (s : State) (t : Nat) (v : Tenant) : (s.setTen t v).gwy = s.gwy := rfl
@[simp] theorem State.setTen_sls (s : State) (t : Nat) (v : Tenant) : (s.setTen t v).sls = s.sls := rfl
@[simp] theorem State.setTen_chn (s : State) (t : Nat) (v : Tenant) : (s.setTen t v).chn = s.chn := rfl
@[simp] theorem State.setTen_pow (s : State) (t : Nat) (v : Tenant) : (s.setTen t v).pow = s.pow := rfl
@[simp] theorem State.setTen_fws (s : State) (t : Nat) (v : Tenant) : (s.setTen t v).fws = s.fws := rfl
@[simp] theorem State.setTen_heldCpl (s : State) (t : Nat) (v : Tenant) : (s.setTen t v).heldCpl = s.heldCpl := rfl
@[simp] theorem State.setTen_freeCtr (s : State) (t : Nat) (v : Tenant) : (s.setTen t v).freeCtr = s.freeCtr := rfl
@[simp] theorem State.setTen_pending (s : State) (t : Nat) (v : Tenant) : (s.setTen t v).pending = s.pending := rfl

/-! ## State.setCl -/

@[simp] theorem State.setCl_part (s : State) (n : Nat) (c : Cluster) : (s.setCl n c).part = s.part := rfl
@[simp] theorem State.setCl_larder (s : State) (n : Nat) (c : Cluster) : (s.setCl n c).larder = s.larder := rfl
@[simp] theorem State.setCl_dev (s : State) (n : Nat) (c : Cluster) : (s.setCl n c).dev = s.dev := rfl
@[simp] theorem State.setCl_clk (s : State) (n : Nat) (c : Cluster) : (s.setCl n c).clk = s.clk := rfl
@[simp] theorem State.setCl_time (s : State) (n : Nat) (c : Cluster) : (s.setCl n c).time = s.time := rfl
@[simp] theorem State.setCl_hp0 (s : State) (n : Nat) (c : Cluster) : (s.setCl n c).hp0 = s.hp0 := rfl
@[simp] theorem State.setCl_hp1 (s : State) (n : Nat) (c : Cluster) : (s.setCl n c).hp1 = s.hp1 := rfl
@[simp] theorem State.setCl_tens (s : State) (n : Nat) (c : Cluster) : (s.setCl n c).tens = s.tens := rfl
@[simp] theorem State.setCl_queues (s : State) (n : Nat) (c : Cluster) : (s.setCl n c).queues = s.queues := rfl
@[simp] theorem State.setCl_pcie (s : State) (n : Nat) (c : Cluster) : (s.setCl n c).pcie = s.pcie := rfl
@[simp] theorem State.setCl_jobs (s : State) (n : Nat) (c : Cluster) : (s.setCl n c).jobs = s.jobs := rfl
@[simp] theorem State.setCl_progs (s : State) (n : Nat) (c : Cluster) : (s.setCl n c).progs = s.progs := rfl
@[simp] theorem State.setCl_loads (s : State) (n : Nat) (c : Cluster) : (s.setCl n c).loads = s.loads := rfl
@[simp] theorem State.setCl_sch (s : State) (n : Nat) (c : Cluster) : (s.setCl n c).sch = s.sch := rfl
@[simp] theorem State.setCl_halos (s : State) (n : Nat) (c : Cluster) : (s.setCl n c).halos = s.halos := rfl
@[simp] theorem State.setCl_cld0 (s : State) (n : Nat) (c : Cluster) : (s.setCl n c).cld0 = s.cld0 := rfl
@[simp] theorem State.setCl_cld1 (s : State) (n : Nat) (c : Cluster) : (s.setCl n c).cld1 = s.cld1 := rfl
@[simp] theorem State.setCl_eth (s : State) (n : Nat) (c : Cluster) : (s.setCl n c).eth = s.eth := rfl
@[simp] theorem State.setCl_ctxs (s : State) (n : Nat) (c : Cluster) : (s.setCl n c).ctxs = s.ctxs := rfl
@[simp] theorem State.setCl_maps (s : State) (n : Nat) (c : Cluster) : (s.setCl n c).maps = s.maps := rfl
@[simp] theorem State.setCl_tpos (s : State) (n : Nat) (c : Cluster) : (s.setCl n c).tpos = s.tpos := rfl
@[simp] theorem State.setCl_tcis (s : State) (n : Nat) (c : Cluster) : (s.setCl n c).tcis = s.tcis := rfl
@[simp] theorem State.setCl_launch (s : State) (n : Nat) (c : Cluster) : (s.setCl n c).launch = s.launch := rfl
@[simp] theorem State.setCl_fctxs (s : State) (n : Nat) (c : Cluster) : (s.setCl n c).fctxs = s.fctxs := rfl
@[simp] theorem State.setCl_fclosed (s : State) (n : Nat) (c : Cluster) : (s.setCl n c).fclosed = s.fclosed := rfl
@[simp] theorem State.setCl_ctxLeft (s : State) (n : Nat) (c : Cluster) : (s.setCl n c).ctxLeft = s.ctxLeft := rfl
@[simp] theorem State.setCl_feng0 (s : State) (n : Nat) (c : Cluster) : (s.setCl n c).feng0 = s.feng0 := rfl
@[simp] theorem State.setCl_feng1 (s : State) (n : Nat) (c : Cluster) : (s.setCl n c).feng1 = s.feng1 := rfl
@[simp] theorem State.setCl_rctxs (s : State) (n : Nat) (c : Cluster) : (s.setCl n c).rctxs = s.rctxs := rfl
@[simp] theorem State.setCl_rwait (s : State) (n : Nat) (c : Cluster) : (s.setCl n c).rwait = s.rwait := rfl
@[simp] theorem State.setCl_disps (s : State) (n : Nat) (c : Cluster) : (s.setCl n c).disps = s.disps := rfl
@[simp] theorem State.setCl_ras (s : State) (n : Nat) (c : Cluster) : (s.setCl n c).ras = s.ras := rfl
@[simp] theorem State.setCl_ces (s : State) (n : Nat) (c : Cluster) : (s.setCl n c).ces = s.ces := rfl
@[simp] theorem State.setCl_pwms (s : State) (n : Nat) (c : Cluster) : (s.setCl n c).pwms = s.pwms := rfl
@[simp] theorem State.setCl_sds (s : State) (n : Nat) (c : Cluster) : (s.setCl n c).sds = s.sds := rfl
@[simp] theorem State.setCl_encs (s : State) (n : Nat) (c : Cluster) : (s.setCl n c).encs = s.encs := rfl
@[simp] theorem State.setCl_ioPend (s : State) (n : Nat) (c : Cluster) : (s.setCl n c).ioPend = s.ioPend := rfl
@[simp] theorem State.setCl_dieTick (s : State) (n : Nat) (c : Cluster) : (s.setCl n c).dieTick = s.dieTick := rfl
@[simp] theorem State.setCl_mem (s : State) (n : Nat) (c : Cluster) : (s.setCl n c).mem = s.mem := rfl
@[simp] theorem State.setCl_bwr (s : State) (n : Nat) (c : Cluster) : (s.setCl n c).bwr = s.bwr := rfl
@[simp] theorem State.setCl_skk (s : State) (n : Nat) (c : Cluster) : (s.setCl n c).skk = s.skk := rfl
@[simp] theorem State.setCl_gwy (s : State) (n : Nat) (c : Cluster) : (s.setCl n c).gwy = s.gwy := rfl
@[simp] theorem State.setCl_sls (s : State) (n : Nat) (c : Cluster) : (s.setCl n c).sls = s.sls := rfl
@[simp] theorem State.setCl_chn (s : State) (n : Nat) (c : Cluster) : (s.setCl n c).chn = s.chn := rfl
@[simp] theorem State.setCl_pow (s : State) (n : Nat) (c : Cluster) : (s.setCl n c).pow = s.pow := rfl
@[simp] theorem State.setCl_fws (s : State) (n : Nat) (c : Cluster) : (s.setCl n c).fws = s.fws := rfl
@[simp] theorem State.setCl_heldCpl (s : State) (n : Nat) (c : Cluster) : (s.setCl n c).heldCpl = s.heldCpl := rfl
@[simp] theorem State.setCl_freeCtr (s : State) (n : Nat) (c : Cluster) : (s.setCl n c).freeCtr = s.freeCtr := rfl
@[simp] theorem State.setCl_pending (s : State) (n : Nat) (c : Cluster) : (s.setCl n c).pending = s.pending := rfl

/-! ## State.setCe -/

@[simp] theorem State.setCe_part (s : State) (n : Nat) (e : Engine) : (s.setCe n e).part = s.part := rfl
@[simp] theorem State.setCe_larder (s : State) (n : Nat) (e : Engine) : (s.setCe n e).larder = s.larder := rfl
@[simp] theorem State.setCe_dev (s : State) (n : Nat) (e : Engine) : (s.setCe n e).dev = s.dev := rfl
@[simp] theorem State.setCe_clk (s : State) (n : Nat) (e : Engine) : (s.setCe n e).clk = s.clk := rfl
@[simp] theorem State.setCe_time (s : State) (n : Nat) (e : Engine) : (s.setCe n e).time = s.time := rfl
@[simp] theorem State.setCe_hp0 (s : State) (n : Nat) (e : Engine) : (s.setCe n e).hp0 = s.hp0 := rfl
@[simp] theorem State.setCe_hp1 (s : State) (n : Nat) (e : Engine) : (s.setCe n e).hp1 = s.hp1 := rfl
@[simp] theorem State.setCe_tens (s : State) (n : Nat) (e : Engine) : (s.setCe n e).tens = s.tens := rfl
@[simp] theorem State.setCe_queues (s : State) (n : Nat) (e : Engine) : (s.setCe n e).queues = s.queues := rfl
@[simp] theorem State.setCe_pcie (s : State) (n : Nat) (e : Engine) : (s.setCe n e).pcie = s.pcie := rfl
@[simp] theorem State.setCe_jobs (s : State) (n : Nat) (e : Engine) : (s.setCe n e).jobs = s.jobs := rfl
@[simp] theorem State.setCe_progs (s : State) (n : Nat) (e : Engine) : (s.setCe n e).progs = s.progs := rfl
@[simp] theorem State.setCe_loads (s : State) (n : Nat) (e : Engine) : (s.setCe n e).loads = s.loads := rfl
@[simp] theorem State.setCe_sch (s : State) (n : Nat) (e : Engine) : (s.setCe n e).sch = s.sch := rfl
@[simp] theorem State.setCe_cls (s : State) (n : Nat) (e : Engine) : (s.setCe n e).cls = s.cls := rfl
@[simp] theorem State.setCe_halos (s : State) (n : Nat) (e : Engine) : (s.setCe n e).halos = s.halos := rfl
@[simp] theorem State.setCe_cld0 (s : State) (n : Nat) (e : Engine) : (s.setCe n e).cld0 = s.cld0 := rfl
@[simp] theorem State.setCe_cld1 (s : State) (n : Nat) (e : Engine) : (s.setCe n e).cld1 = s.cld1 := rfl
@[simp] theorem State.setCe_eth (s : State) (n : Nat) (e : Engine) : (s.setCe n e).eth = s.eth := rfl
@[simp] theorem State.setCe_ctxs (s : State) (n : Nat) (e : Engine) : (s.setCe n e).ctxs = s.ctxs := rfl
@[simp] theorem State.setCe_maps (s : State) (n : Nat) (e : Engine) : (s.setCe n e).maps = s.maps := rfl
@[simp] theorem State.setCe_tpos (s : State) (n : Nat) (e : Engine) : (s.setCe n e).tpos = s.tpos := rfl
@[simp] theorem State.setCe_tcis (s : State) (n : Nat) (e : Engine) : (s.setCe n e).tcis = s.tcis := rfl
@[simp] theorem State.setCe_launch (s : State) (n : Nat) (e : Engine) : (s.setCe n e).launch = s.launch := rfl
@[simp] theorem State.setCe_fctxs (s : State) (n : Nat) (e : Engine) : (s.setCe n e).fctxs = s.fctxs := rfl
@[simp] theorem State.setCe_fclosed (s : State) (n : Nat) (e : Engine) : (s.setCe n e).fclosed = s.fclosed := rfl
@[simp] theorem State.setCe_ctxLeft (s : State) (n : Nat) (e : Engine) : (s.setCe n e).ctxLeft = s.ctxLeft := rfl
@[simp] theorem State.setCe_feng0 (s : State) (n : Nat) (e : Engine) : (s.setCe n e).feng0 = s.feng0 := rfl
@[simp] theorem State.setCe_feng1 (s : State) (n : Nat) (e : Engine) : (s.setCe n e).feng1 = s.feng1 := rfl
@[simp] theorem State.setCe_rctxs (s : State) (n : Nat) (e : Engine) : (s.setCe n e).rctxs = s.rctxs := rfl
@[simp] theorem State.setCe_rwait (s : State) (n : Nat) (e : Engine) : (s.setCe n e).rwait = s.rwait := rfl
@[simp] theorem State.setCe_disps (s : State) (n : Nat) (e : Engine) : (s.setCe n e).disps = s.disps := rfl
@[simp] theorem State.setCe_ras (s : State) (n : Nat) (e : Engine) : (s.setCe n e).ras = s.ras := rfl
@[simp] theorem State.setCe_pwms (s : State) (n : Nat) (e : Engine) : (s.setCe n e).pwms = s.pwms := rfl
@[simp] theorem State.setCe_sds (s : State) (n : Nat) (e : Engine) : (s.setCe n e).sds = s.sds := rfl
@[simp] theorem State.setCe_encs (s : State) (n : Nat) (e : Engine) : (s.setCe n e).encs = s.encs := rfl
@[simp] theorem State.setCe_ioPend (s : State) (n : Nat) (e : Engine) : (s.setCe n e).ioPend = s.ioPend := rfl
@[simp] theorem State.setCe_dieTick (s : State) (n : Nat) (e : Engine) : (s.setCe n e).dieTick = s.dieTick := rfl
@[simp] theorem State.setCe_mem (s : State) (n : Nat) (e : Engine) : (s.setCe n e).mem = s.mem := rfl
@[simp] theorem State.setCe_bwr (s : State) (n : Nat) (e : Engine) : (s.setCe n e).bwr = s.bwr := rfl
@[simp] theorem State.setCe_skk (s : State) (n : Nat) (e : Engine) : (s.setCe n e).skk = s.skk := rfl
@[simp] theorem State.setCe_gwy (s : State) (n : Nat) (e : Engine) : (s.setCe n e).gwy = s.gwy := rfl
@[simp] theorem State.setCe_sls (s : State) (n : Nat) (e : Engine) : (s.setCe n e).sls = s.sls := rfl
@[simp] theorem State.setCe_chn (s : State) (n : Nat) (e : Engine) : (s.setCe n e).chn = s.chn := rfl
@[simp] theorem State.setCe_pow (s : State) (n : Nat) (e : Engine) : (s.setCe n e).pow = s.pow := rfl
@[simp] theorem State.setCe_fws (s : State) (n : Nat) (e : Engine) : (s.setCe n e).fws = s.fws := rfl
@[simp] theorem State.setCe_heldCpl (s : State) (n : Nat) (e : Engine) : (s.setCe n e).heldCpl = s.heldCpl := rfl
@[simp] theorem State.setCe_freeCtr (s : State) (n : Nat) (e : Engine) : (s.setCe n e).freeCtr = s.freeCtr := rfl
@[simp] theorem State.setCe_pending (s : State) (n : Nat) (e : Engine) : (s.setCe n e).pending = s.pending := rfl

/-! ## modTen -/

@[simp] theorem modTen_part (t : Nat) (f : Tenant → Tenant) (s : State) : (modTen t f s).part = s.part := rfl
@[simp] theorem modTen_larder (t : Nat) (f : Tenant → Tenant) (s : State) : (modTen t f s).larder = s.larder := rfl
@[simp] theorem modTen_dev (t : Nat) (f : Tenant → Tenant) (s : State) : (modTen t f s).dev = s.dev := rfl
@[simp] theorem modTen_clk (t : Nat) (f : Tenant → Tenant) (s : State) : (modTen t f s).clk = s.clk := rfl
@[simp] theorem modTen_time (t : Nat) (f : Tenant → Tenant) (s : State) : (modTen t f s).time = s.time := rfl
@[simp] theorem modTen_hp0 (t : Nat) (f : Tenant → Tenant) (s : State) : (modTen t f s).hp0 = s.hp0 := rfl
@[simp] theorem modTen_hp1 (t : Nat) (f : Tenant → Tenant) (s : State) : (modTen t f s).hp1 = s.hp1 := rfl
@[simp] theorem modTen_queues (t : Nat) (f : Tenant → Tenant) (s : State) : (modTen t f s).queues = s.queues := rfl
@[simp] theorem modTen_pcie (t : Nat) (f : Tenant → Tenant) (s : State) : (modTen t f s).pcie = s.pcie := rfl
@[simp] theorem modTen_jobs (t : Nat) (f : Tenant → Tenant) (s : State) : (modTen t f s).jobs = s.jobs := rfl
@[simp] theorem modTen_progs (t : Nat) (f : Tenant → Tenant) (s : State) : (modTen t f s).progs = s.progs := rfl
@[simp] theorem modTen_loads (t : Nat) (f : Tenant → Tenant) (s : State) : (modTen t f s).loads = s.loads := rfl
@[simp] theorem modTen_sch (t : Nat) (f : Tenant → Tenant) (s : State) : (modTen t f s).sch = s.sch := rfl
@[simp] theorem modTen_cls (t : Nat) (f : Tenant → Tenant) (s : State) : (modTen t f s).cls = s.cls := rfl
@[simp] theorem modTen_halos (t : Nat) (f : Tenant → Tenant) (s : State) : (modTen t f s).halos = s.halos := rfl
@[simp] theorem modTen_cld0 (t : Nat) (f : Tenant → Tenant) (s : State) : (modTen t f s).cld0 = s.cld0 := rfl
@[simp] theorem modTen_cld1 (t : Nat) (f : Tenant → Tenant) (s : State) : (modTen t f s).cld1 = s.cld1 := rfl
@[simp] theorem modTen_eth (t : Nat) (f : Tenant → Tenant) (s : State) : (modTen t f s).eth = s.eth := rfl
@[simp] theorem modTen_ctxs (t : Nat) (f : Tenant → Tenant) (s : State) : (modTen t f s).ctxs = s.ctxs := rfl
@[simp] theorem modTen_maps (t : Nat) (f : Tenant → Tenant) (s : State) : (modTen t f s).maps = s.maps := rfl
@[simp] theorem modTen_tpos (t : Nat) (f : Tenant → Tenant) (s : State) : (modTen t f s).tpos = s.tpos := rfl
@[simp] theorem modTen_tcis (t : Nat) (f : Tenant → Tenant) (s : State) : (modTen t f s).tcis = s.tcis := rfl
@[simp] theorem modTen_launch (t : Nat) (f : Tenant → Tenant) (s : State) : (modTen t f s).launch = s.launch := rfl
@[simp] theorem modTen_fctxs (t : Nat) (f : Tenant → Tenant) (s : State) : (modTen t f s).fctxs = s.fctxs := rfl
@[simp] theorem modTen_fclosed (t : Nat) (f : Tenant → Tenant) (s : State) : (modTen t f s).fclosed = s.fclosed := rfl
@[simp] theorem modTen_ctxLeft (t : Nat) (f : Tenant → Tenant) (s : State) : (modTen t f s).ctxLeft = s.ctxLeft := rfl
@[simp] theorem modTen_feng0 (t : Nat) (f : Tenant → Tenant) (s : State) : (modTen t f s).feng0 = s.feng0 := rfl
@[simp] theorem modTen_feng1 (t : Nat) (f : Tenant → Tenant) (s : State) : (modTen t f s).feng1 = s.feng1 := rfl
@[simp] theorem modTen_rctxs (t : Nat) (f : Tenant → Tenant) (s : State) : (modTen t f s).rctxs = s.rctxs := rfl
@[simp] theorem modTen_rwait (t : Nat) (f : Tenant → Tenant) (s : State) : (modTen t f s).rwait = s.rwait := rfl
@[simp] theorem modTen_disps (t : Nat) (f : Tenant → Tenant) (s : State) : (modTen t f s).disps = s.disps := rfl
@[simp] theorem modTen_ras (t : Nat) (f : Tenant → Tenant) (s : State) : (modTen t f s).ras = s.ras := rfl
@[simp] theorem modTen_ces (t : Nat) (f : Tenant → Tenant) (s : State) : (modTen t f s).ces = s.ces := rfl
@[simp] theorem modTen_pwms (t : Nat) (f : Tenant → Tenant) (s : State) : (modTen t f s).pwms = s.pwms := rfl
@[simp] theorem modTen_sds (t : Nat) (f : Tenant → Tenant) (s : State) : (modTen t f s).sds = s.sds := rfl
@[simp] theorem modTen_encs (t : Nat) (f : Tenant → Tenant) (s : State) : (modTen t f s).encs = s.encs := rfl
@[simp] theorem modTen_ioPend (t : Nat) (f : Tenant → Tenant) (s : State) : (modTen t f s).ioPend = s.ioPend := rfl
@[simp] theorem modTen_dieTick (t : Nat) (f : Tenant → Tenant) (s : State) : (modTen t f s).dieTick = s.dieTick := rfl
@[simp] theorem modTen_mem (t : Nat) (f : Tenant → Tenant) (s : State) : (modTen t f s).mem = s.mem := rfl
@[simp] theorem modTen_bwr (t : Nat) (f : Tenant → Tenant) (s : State) : (modTen t f s).bwr = s.bwr := rfl
@[simp] theorem modTen_skk (t : Nat) (f : Tenant → Tenant) (s : State) : (modTen t f s).skk = s.skk := rfl
@[simp] theorem modTen_gwy (t : Nat) (f : Tenant → Tenant) (s : State) : (modTen t f s).gwy = s.gwy := rfl
@[simp] theorem modTen_sls (t : Nat) (f : Tenant → Tenant) (s : State) : (modTen t f s).sls = s.sls := rfl
@[simp] theorem modTen_chn (t : Nat) (f : Tenant → Tenant) (s : State) : (modTen t f s).chn = s.chn := rfl
@[simp] theorem modTen_pow (t : Nat) (f : Tenant → Tenant) (s : State) : (modTen t f s).pow = s.pow := rfl
@[simp] theorem modTen_fws (t : Nat) (f : Tenant → Tenant) (s : State) : (modTen t f s).fws = s.fws := rfl
@[simp] theorem modTen_heldCpl (t : Nat) (f : Tenant → Tenant) (s : State) : (modTen t f s).heldCpl = s.heldCpl := rfl
@[simp] theorem modTen_freeCtr (t : Nat) (f : Tenant → Tenant) (s : State) : (modTen t f s).freeCtr = s.freeCtr := rfl
@[simp] theorem modTen_pending (t : Nat) (f : Tenant → Tenant) (s : State) : (modTen t f s).pending = s.pending := rfl

/-! ## modCl -/

@[simp] theorem modCl_part (n : Nat) (f : Cluster → Cluster) (s : State) : (modCl n f s).part = s.part := rfl
@[simp] theorem modCl_larder (n : Nat) (f : Cluster → Cluster) (s : State) : (modCl n f s).larder = s.larder := rfl
@[simp] theorem modCl_dev (n : Nat) (f : Cluster → Cluster) (s : State) : (modCl n f s).dev = s.dev := rfl
@[simp] theorem modCl_clk (n : Nat) (f : Cluster → Cluster) (s : State) : (modCl n f s).clk = s.clk := rfl
@[simp] theorem modCl_time (n : Nat) (f : Cluster → Cluster) (s : State) : (modCl n f s).time = s.time := rfl
@[simp] theorem modCl_hp0 (n : Nat) (f : Cluster → Cluster) (s : State) : (modCl n f s).hp0 = s.hp0 := rfl
@[simp] theorem modCl_hp1 (n : Nat) (f : Cluster → Cluster) (s : State) : (modCl n f s).hp1 = s.hp1 := rfl
@[simp] theorem modCl_tens (n : Nat) (f : Cluster → Cluster) (s : State) : (modCl n f s).tens = s.tens := rfl
@[simp] theorem modCl_queues (n : Nat) (f : Cluster → Cluster) (s : State) : (modCl n f s).queues = s.queues := rfl
@[simp] theorem modCl_pcie (n : Nat) (f : Cluster → Cluster) (s : State) : (modCl n f s).pcie = s.pcie := rfl
@[simp] theorem modCl_jobs (n : Nat) (f : Cluster → Cluster) (s : State) : (modCl n f s).jobs = s.jobs := rfl
@[simp] theorem modCl_progs (n : Nat) (f : Cluster → Cluster) (s : State) : (modCl n f s).progs = s.progs := rfl
@[simp] theorem modCl_loads (n : Nat) (f : Cluster → Cluster) (s : State) : (modCl n f s).loads = s.loads := rfl
@[simp] theorem modCl_sch (n : Nat) (f : Cluster → Cluster) (s : State) : (modCl n f s).sch = s.sch := rfl
@[simp] theorem modCl_halos (n : Nat) (f : Cluster → Cluster) (s : State) : (modCl n f s).halos = s.halos := rfl
@[simp] theorem modCl_cld0 (n : Nat) (f : Cluster → Cluster) (s : State) : (modCl n f s).cld0 = s.cld0 := rfl
@[simp] theorem modCl_cld1 (n : Nat) (f : Cluster → Cluster) (s : State) : (modCl n f s).cld1 = s.cld1 := rfl
@[simp] theorem modCl_eth (n : Nat) (f : Cluster → Cluster) (s : State) : (modCl n f s).eth = s.eth := rfl
@[simp] theorem modCl_ctxs (n : Nat) (f : Cluster → Cluster) (s : State) : (modCl n f s).ctxs = s.ctxs := rfl
@[simp] theorem modCl_maps (n : Nat) (f : Cluster → Cluster) (s : State) : (modCl n f s).maps = s.maps := rfl
@[simp] theorem modCl_tpos (n : Nat) (f : Cluster → Cluster) (s : State) : (modCl n f s).tpos = s.tpos := rfl
@[simp] theorem modCl_tcis (n : Nat) (f : Cluster → Cluster) (s : State) : (modCl n f s).tcis = s.tcis := rfl
@[simp] theorem modCl_launch (n : Nat) (f : Cluster → Cluster) (s : State) : (modCl n f s).launch = s.launch := rfl
@[simp] theorem modCl_fctxs (n : Nat) (f : Cluster → Cluster) (s : State) : (modCl n f s).fctxs = s.fctxs := rfl
@[simp] theorem modCl_fclosed (n : Nat) (f : Cluster → Cluster) (s : State) : (modCl n f s).fclosed = s.fclosed := rfl
@[simp] theorem modCl_ctxLeft (n : Nat) (f : Cluster → Cluster) (s : State) : (modCl n f s).ctxLeft = s.ctxLeft := rfl
@[simp] theorem modCl_feng0 (n : Nat) (f : Cluster → Cluster) (s : State) : (modCl n f s).feng0 = s.feng0 := rfl
@[simp] theorem modCl_feng1 (n : Nat) (f : Cluster → Cluster) (s : State) : (modCl n f s).feng1 = s.feng1 := rfl
@[simp] theorem modCl_rctxs (n : Nat) (f : Cluster → Cluster) (s : State) : (modCl n f s).rctxs = s.rctxs := rfl
@[simp] theorem modCl_rwait (n : Nat) (f : Cluster → Cluster) (s : State) : (modCl n f s).rwait = s.rwait := rfl
@[simp] theorem modCl_disps (n : Nat) (f : Cluster → Cluster) (s : State) : (modCl n f s).disps = s.disps := rfl
@[simp] theorem modCl_ras (n : Nat) (f : Cluster → Cluster) (s : State) : (modCl n f s).ras = s.ras := rfl
@[simp] theorem modCl_ces (n : Nat) (f : Cluster → Cluster) (s : State) : (modCl n f s).ces = s.ces := rfl
@[simp] theorem modCl_pwms (n : Nat) (f : Cluster → Cluster) (s : State) : (modCl n f s).pwms = s.pwms := rfl
@[simp] theorem modCl_sds (n : Nat) (f : Cluster → Cluster) (s : State) : (modCl n f s).sds = s.sds := rfl
@[simp] theorem modCl_encs (n : Nat) (f : Cluster → Cluster) (s : State) : (modCl n f s).encs = s.encs := rfl
@[simp] theorem modCl_ioPend (n : Nat) (f : Cluster → Cluster) (s : State) : (modCl n f s).ioPend = s.ioPend := rfl
@[simp] theorem modCl_dieTick (n : Nat) (f : Cluster → Cluster) (s : State) : (modCl n f s).dieTick = s.dieTick := rfl
@[simp] theorem modCl_mem (n : Nat) (f : Cluster → Cluster) (s : State) : (modCl n f s).mem = s.mem := rfl
@[simp] theorem modCl_bwr (n : Nat) (f : Cluster → Cluster) (s : State) : (modCl n f s).bwr = s.bwr := rfl
@[simp] theorem modCl_skk (n : Nat) (f : Cluster → Cluster) (s : State) : (modCl n f s).skk = s.skk := rfl
@[simp] theorem modCl_gwy (n : Nat) (f : Cluster → Cluster) (s : State) : (modCl n f s).gwy = s.gwy := rfl
@[simp] theorem modCl_sls (n : Nat) (f : Cluster → Cluster) (s : State) : (modCl n f s).sls = s.sls := rfl
@[simp] theorem modCl_chn (n : Nat) (f : Cluster → Cluster) (s : State) : (modCl n f s).chn = s.chn := rfl
@[simp] theorem modCl_pow (n : Nat) (f : Cluster → Cluster) (s : State) : (modCl n f s).pow = s.pow := rfl
@[simp] theorem modCl_fws (n : Nat) (f : Cluster → Cluster) (s : State) : (modCl n f s).fws = s.fws := rfl
@[simp] theorem modCl_heldCpl (n : Nat) (f : Cluster → Cluster) (s : State) : (modCl n f s).heldCpl = s.heldCpl := rfl
@[simp] theorem modCl_freeCtr (n : Nat) (f : Cluster → Cluster) (s : State) : (modCl n f s).freeCtr = s.freeCtr := rfl
@[simp] theorem modCl_pending (n : Nat) (f : Cluster → Cluster) (s : State) : (modCl n f s).pending = s.pending := rfl

/-! ## modJob -/

@[simp] theorem modJob_part (k : Nat) (f : Job → Job) (s : State) : (modJob k f s).part = s.part := by unfold modJob; split <;> rfl
@[simp] theorem modJob_larder (k : Nat) (f : Job → Job) (s : State) : (modJob k f s).larder = s.larder := by unfold modJob; split <;> rfl
@[simp] theorem modJob_dev (k : Nat) (f : Job → Job) (s : State) : (modJob k f s).dev = s.dev := by unfold modJob; split <;> rfl
@[simp] theorem modJob_clk (k : Nat) (f : Job → Job) (s : State) : (modJob k f s).clk = s.clk := by unfold modJob; split <;> rfl
@[simp] theorem modJob_time (k : Nat) (f : Job → Job) (s : State) : (modJob k f s).time = s.time := by unfold modJob; split <;> rfl
@[simp] theorem modJob_hp0 (k : Nat) (f : Job → Job) (s : State) : (modJob k f s).hp0 = s.hp0 := by unfold modJob; split <;> rfl
@[simp] theorem modJob_hp1 (k : Nat) (f : Job → Job) (s : State) : (modJob k f s).hp1 = s.hp1 := by unfold modJob; split <;> rfl
@[simp] theorem modJob_tens (k : Nat) (f : Job → Job) (s : State) : (modJob k f s).tens = s.tens := by unfold modJob; split <;> rfl
@[simp] theorem modJob_queues (k : Nat) (f : Job → Job) (s : State) : (modJob k f s).queues = s.queues := by unfold modJob; split <;> rfl
@[simp] theorem modJob_pcie (k : Nat) (f : Job → Job) (s : State) : (modJob k f s).pcie = s.pcie := by unfold modJob; split <;> rfl
@[simp] theorem modJob_progs (k : Nat) (f : Job → Job) (s : State) : (modJob k f s).progs = s.progs := by unfold modJob; split <;> rfl
@[simp] theorem modJob_loads (k : Nat) (f : Job → Job) (s : State) : (modJob k f s).loads = s.loads := by unfold modJob; split <;> rfl
@[simp] theorem modJob_sch (k : Nat) (f : Job → Job) (s : State) : (modJob k f s).sch = s.sch := by unfold modJob; split <;> rfl
@[simp] theorem modJob_cls (k : Nat) (f : Job → Job) (s : State) : (modJob k f s).cls = s.cls := by unfold modJob; split <;> rfl
@[simp] theorem modJob_halos (k : Nat) (f : Job → Job) (s : State) : (modJob k f s).halos = s.halos := by unfold modJob; split <;> rfl
@[simp] theorem modJob_cld0 (k : Nat) (f : Job → Job) (s : State) : (modJob k f s).cld0 = s.cld0 := by unfold modJob; split <;> rfl
@[simp] theorem modJob_cld1 (k : Nat) (f : Job → Job) (s : State) : (modJob k f s).cld1 = s.cld1 := by unfold modJob; split <;> rfl
@[simp] theorem modJob_eth (k : Nat) (f : Job → Job) (s : State) : (modJob k f s).eth = s.eth := by unfold modJob; split <;> rfl
@[simp] theorem modJob_ctxs (k : Nat) (f : Job → Job) (s : State) : (modJob k f s).ctxs = s.ctxs := by unfold modJob; split <;> rfl
@[simp] theorem modJob_maps (k : Nat) (f : Job → Job) (s : State) : (modJob k f s).maps = s.maps := by unfold modJob; split <;> rfl
@[simp] theorem modJob_tpos (k : Nat) (f : Job → Job) (s : State) : (modJob k f s).tpos = s.tpos := by unfold modJob; split <;> rfl
@[simp] theorem modJob_tcis (k : Nat) (f : Job → Job) (s : State) : (modJob k f s).tcis = s.tcis := by unfold modJob; split <;> rfl
@[simp] theorem modJob_launch (k : Nat) (f : Job → Job) (s : State) : (modJob k f s).launch = s.launch := by unfold modJob; split <;> rfl
@[simp] theorem modJob_fctxs (k : Nat) (f : Job → Job) (s : State) : (modJob k f s).fctxs = s.fctxs := by unfold modJob; split <;> rfl
@[simp] theorem modJob_fclosed (k : Nat) (f : Job → Job) (s : State) : (modJob k f s).fclosed = s.fclosed := by unfold modJob; split <;> rfl
@[simp] theorem modJob_ctxLeft (k : Nat) (f : Job → Job) (s : State) : (modJob k f s).ctxLeft = s.ctxLeft := by unfold modJob; split <;> rfl
@[simp] theorem modJob_feng0 (k : Nat) (f : Job → Job) (s : State) : (modJob k f s).feng0 = s.feng0 := by unfold modJob; split <;> rfl
@[simp] theorem modJob_feng1 (k : Nat) (f : Job → Job) (s : State) : (modJob k f s).feng1 = s.feng1 := by unfold modJob; split <;> rfl
@[simp] theorem modJob_rctxs (k : Nat) (f : Job → Job) (s : State) : (modJob k f s).rctxs = s.rctxs := by unfold modJob; split <;> rfl
@[simp] theorem modJob_rwait (k : Nat) (f : Job → Job) (s : State) : (modJob k f s).rwait = s.rwait := by unfold modJob; split <;> rfl
@[simp] theorem modJob_disps (k : Nat) (f : Job → Job) (s : State) : (modJob k f s).disps = s.disps := by unfold modJob; split <;> rfl
@[simp] theorem modJob_ras (k : Nat) (f : Job → Job) (s : State) : (modJob k f s).ras = s.ras := by unfold modJob; split <;> rfl
@[simp] theorem modJob_ces (k : Nat) (f : Job → Job) (s : State) : (modJob k f s).ces = s.ces := by unfold modJob; split <;> rfl
@[simp] theorem modJob_pwms (k : Nat) (f : Job → Job) (s : State) : (modJob k f s).pwms = s.pwms := by unfold modJob; split <;> rfl
@[simp] theorem modJob_sds (k : Nat) (f : Job → Job) (s : State) : (modJob k f s).sds = s.sds := by unfold modJob; split <;> rfl
@[simp] theorem modJob_encs (k : Nat) (f : Job → Job) (s : State) : (modJob k f s).encs = s.encs := by unfold modJob; split <;> rfl
@[simp] theorem modJob_ioPend (k : Nat) (f : Job → Job) (s : State) : (modJob k f s).ioPend = s.ioPend := by unfold modJob; split <;> rfl
@[simp] theorem modJob_dieTick (k : Nat) (f : Job → Job) (s : State) : (modJob k f s).dieTick = s.dieTick := by unfold modJob; split <;> rfl
@[simp] theorem modJob_mem (k : Nat) (f : Job → Job) (s : State) : (modJob k f s).mem = s.mem := by unfold modJob; split <;> rfl
@[simp] theorem modJob_bwr (k : Nat) (f : Job → Job) (s : State) : (modJob k f s).bwr = s.bwr := by unfold modJob; split <;> rfl
@[simp] theorem modJob_skk (k : Nat) (f : Job → Job) (s : State) : (modJob k f s).skk = s.skk := by unfold modJob; split <;> rfl
@[simp] theorem modJob_gwy (k : Nat) (f : Job → Job) (s : State) : (modJob k f s).gwy = s.gwy := by unfold modJob; split <;> rfl
@[simp] theorem modJob_sls (k : Nat) (f : Job → Job) (s : State) : (modJob k f s).sls = s.sls := by unfold modJob; split <;> rfl
@[simp] theorem modJob_chn (k : Nat) (f : Job → Job) (s : State) : (modJob k f s).chn = s.chn := by unfold modJob; split <;> rfl
@[simp] theorem modJob_pow (k : Nat) (f : Job → Job) (s : State) : (modJob k f s).pow = s.pow := by unfold modJob; split <;> rfl
@[simp] theorem modJob_fws (k : Nat) (f : Job → Job) (s : State) : (modJob k f s).fws = s.fws := by unfold modJob; split <;> rfl
@[simp] theorem modJob_heldCpl (k : Nat) (f : Job → Job) (s : State) : (modJob k f s).heldCpl = s.heldCpl := by unfold modJob; split <;> rfl
@[simp] theorem modJob_freeCtr (k : Nat) (f : Job → Job) (s : State) : (modJob k f s).freeCtr = s.freeCtr := by unfold modJob; split <;> rfl
@[simp] theorem modJob_pending (k : Nat) (f : Job → Job) (s : State) : (modJob k f s).pending = s.pending := by unfold modJob; split <;> rfl

/-! ## modProg -/

@[simp] theorem modProg_part (k : Nat) (f : Prog → Prog) (s : State) : (modProg k f s).part = s.part := by unfold modProg; split <;> rfl
@[simp] theorem modProg_larder (k : Nat) (f : Prog → Prog) (s : State) : (modProg k f s).larder = s.larder := by unfold modProg; split <;> rfl
@[simp] theorem modProg_dev (k : Nat) (f : Prog → Prog) (s : State) : (modProg k f s).dev = s.dev := by unfold modProg; split <;> rfl
@[simp] theorem modProg_clk (k : Nat) (f : Prog → Prog) (s : State) : (modProg k f s).clk = s.clk := by unfold modProg; split <;> rfl
@[simp] theorem modProg_time (k : Nat) (f : Prog → Prog) (s : State) : (modProg k f s).time = s.time := by unfold modProg; split <;> rfl
@[simp] theorem modProg_hp0 (k : Nat) (f : Prog → Prog) (s : State) : (modProg k f s).hp0 = s.hp0 := by unfold modProg; split <;> rfl
@[simp] theorem modProg_hp1 (k : Nat) (f : Prog → Prog) (s : State) : (modProg k f s).hp1 = s.hp1 := by unfold modProg; split <;> rfl
@[simp] theorem modProg_tens (k : Nat) (f : Prog → Prog) (s : State) : (modProg k f s).tens = s.tens := by unfold modProg; split <;> rfl
@[simp] theorem modProg_queues (k : Nat) (f : Prog → Prog) (s : State) : (modProg k f s).queues = s.queues := by unfold modProg; split <;> rfl
@[simp] theorem modProg_pcie (k : Nat) (f : Prog → Prog) (s : State) : (modProg k f s).pcie = s.pcie := by unfold modProg; split <;> rfl
@[simp] theorem modProg_jobs (k : Nat) (f : Prog → Prog) (s : State) : (modProg k f s).jobs = s.jobs := by unfold modProg; split <;> rfl
@[simp] theorem modProg_loads (k : Nat) (f : Prog → Prog) (s : State) : (modProg k f s).loads = s.loads := by unfold modProg; split <;> rfl
@[simp] theorem modProg_sch (k : Nat) (f : Prog → Prog) (s : State) : (modProg k f s).sch = s.sch := by unfold modProg; split <;> rfl
@[simp] theorem modProg_cls (k : Nat) (f : Prog → Prog) (s : State) : (modProg k f s).cls = s.cls := by unfold modProg; split <;> rfl
@[simp] theorem modProg_halos (k : Nat) (f : Prog → Prog) (s : State) : (modProg k f s).halos = s.halos := by unfold modProg; split <;> rfl
@[simp] theorem modProg_cld0 (k : Nat) (f : Prog → Prog) (s : State) : (modProg k f s).cld0 = s.cld0 := by unfold modProg; split <;> rfl
@[simp] theorem modProg_cld1 (k : Nat) (f : Prog → Prog) (s : State) : (modProg k f s).cld1 = s.cld1 := by unfold modProg; split <;> rfl
@[simp] theorem modProg_eth (k : Nat) (f : Prog → Prog) (s : State) : (modProg k f s).eth = s.eth := by unfold modProg; split <;> rfl
@[simp] theorem modProg_ctxs (k : Nat) (f : Prog → Prog) (s : State) : (modProg k f s).ctxs = s.ctxs := by unfold modProg; split <;> rfl
@[simp] theorem modProg_maps (k : Nat) (f : Prog → Prog) (s : State) : (modProg k f s).maps = s.maps := by unfold modProg; split <;> rfl
@[simp] theorem modProg_tpos (k : Nat) (f : Prog → Prog) (s : State) : (modProg k f s).tpos = s.tpos := by unfold modProg; split <;> rfl
@[simp] theorem modProg_tcis (k : Nat) (f : Prog → Prog) (s : State) : (modProg k f s).tcis = s.tcis := by unfold modProg; split <;> rfl
@[simp] theorem modProg_launch (k : Nat) (f : Prog → Prog) (s : State) : (modProg k f s).launch = s.launch := by unfold modProg; split <;> rfl
@[simp] theorem modProg_fctxs (k : Nat) (f : Prog → Prog) (s : State) : (modProg k f s).fctxs = s.fctxs := by unfold modProg; split <;> rfl
@[simp] theorem modProg_fclosed (k : Nat) (f : Prog → Prog) (s : State) : (modProg k f s).fclosed = s.fclosed := by unfold modProg; split <;> rfl
@[simp] theorem modProg_ctxLeft (k : Nat) (f : Prog → Prog) (s : State) : (modProg k f s).ctxLeft = s.ctxLeft := by unfold modProg; split <;> rfl
@[simp] theorem modProg_feng0 (k : Nat) (f : Prog → Prog) (s : State) : (modProg k f s).feng0 = s.feng0 := by unfold modProg; split <;> rfl
@[simp] theorem modProg_feng1 (k : Nat) (f : Prog → Prog) (s : State) : (modProg k f s).feng1 = s.feng1 := by unfold modProg; split <;> rfl
@[simp] theorem modProg_rctxs (k : Nat) (f : Prog → Prog) (s : State) : (modProg k f s).rctxs = s.rctxs := by unfold modProg; split <;> rfl
@[simp] theorem modProg_rwait (k : Nat) (f : Prog → Prog) (s : State) : (modProg k f s).rwait = s.rwait := by unfold modProg; split <;> rfl
@[simp] theorem modProg_disps (k : Nat) (f : Prog → Prog) (s : State) : (modProg k f s).disps = s.disps := by unfold modProg; split <;> rfl
@[simp] theorem modProg_ras (k : Nat) (f : Prog → Prog) (s : State) : (modProg k f s).ras = s.ras := by unfold modProg; split <;> rfl
@[simp] theorem modProg_ces (k : Nat) (f : Prog → Prog) (s : State) : (modProg k f s).ces = s.ces := by unfold modProg; split <;> rfl
@[simp] theorem modProg_pwms (k : Nat) (f : Prog → Prog) (s : State) : (modProg k f s).pwms = s.pwms := by unfold modProg; split <;> rfl
@[simp] theorem modProg_sds (k : Nat) (f : Prog → Prog) (s : State) : (modProg k f s).sds = s.sds := by unfold modProg; split <;> rfl
@[simp] theorem modProg_encs (k : Nat) (f : Prog → Prog) (s : State) : (modProg k f s).encs = s.encs := by unfold modProg; split <;> rfl
@[simp] theorem modProg_ioPend (k : Nat) (f : Prog → Prog) (s : State) : (modProg k f s).ioPend = s.ioPend := by unfold modProg; split <;> rfl
@[simp] theorem modProg_dieTick (k : Nat) (f : Prog → Prog) (s : State) : (modProg k f s).dieTick = s.dieTick := by unfold modProg; split <;> rfl
@[simp] theorem modProg_mem (k : Nat) (f : Prog → Prog) (s : State) : (modProg k f s).mem = s.mem := by unfold modProg; split <;> rfl
@[simp] theorem modProg_bwr (k : Nat) (f : Prog → Prog) (s : State) : (modProg k f s).bwr = s.bwr := by unfold modProg; split <;> rfl
@[simp] theorem modProg_skk (k : Nat) (f : Prog → Prog) (s : State) : (modProg k f s).skk = s.skk := by unfold modProg; split <;> rfl
@[simp] theorem modProg_gwy (k : Nat) (f : Prog → Prog) (s : State) : (modProg k f s).gwy = s.gwy := by unfold modProg; split <;> rfl
@[simp] theorem modProg_sls (k : Nat) (f : Prog → Prog) (s : State) : (modProg k f s).sls = s.sls := by unfold modProg; split <;> rfl
@[simp] theorem modProg_chn (k : Nat) (f : Prog → Prog) (s : State) : (modProg k f s).chn = s.chn := by unfold modProg; split <;> rfl
@[simp] theorem modProg_pow (k : Nat) (f : Prog → Prog) (s : State) : (modProg k f s).pow = s.pow := by unfold modProg; split <;> rfl
@[simp] theorem modProg_fws (k : Nat) (f : Prog → Prog) (s : State) : (modProg k f s).fws = s.fws := by unfold modProg; split <;> rfl
@[simp] theorem modProg_heldCpl (k : Nat) (f : Prog → Prog) (s : State) : (modProg k f s).heldCpl = s.heldCpl := by unfold modProg; split <;> rfl
@[simp] theorem modProg_freeCtr (k : Nat) (f : Prog → Prog) (s : State) : (modProg k f s).freeCtr = s.freeCtr := by unfold modProg; split <;> rfl
@[simp] theorem modProg_pending (k : Nat) (f : Prog → Prog) (s : State) : (modProg k f s).pending = s.pending := by unfold modProg; split <;> rfl

/-! ## State.setPort -/

@[simp] theorem State.setPort_part (s : State) (p : Port) (v : PortSt) : (s.setPort p v).part = s.part := by cases p <;> rfl
@[simp] theorem State.setPort_larder (s : State) (p : Port) (v : PortSt) : (s.setPort p v).larder = s.larder := by cases p <;> rfl
@[simp] theorem State.setPort_dev (s : State) (p : Port) (v : PortSt) : (s.setPort p v).dev = s.dev := by cases p <;> rfl
@[simp] theorem State.setPort_clk (s : State) (p : Port) (v : PortSt) : (s.setPort p v).clk = s.clk := by cases p <;> rfl
@[simp] theorem State.setPort_time (s : State) (p : Port) (v : PortSt) : (s.setPort p v).time = s.time := by cases p <;> rfl
@[simp] theorem State.setPort_tens (s : State) (p : Port) (v : PortSt) : (s.setPort p v).tens = s.tens := by cases p <;> rfl
@[simp] theorem State.setPort_queues (s : State) (p : Port) (v : PortSt) : (s.setPort p v).queues = s.queues := by cases p <;> rfl
@[simp] theorem State.setPort_pcie (s : State) (p : Port) (v : PortSt) : (s.setPort p v).pcie = s.pcie := by cases p <;> rfl
@[simp] theorem State.setPort_jobs (s : State) (p : Port) (v : PortSt) : (s.setPort p v).jobs = s.jobs := by cases p <;> rfl
@[simp] theorem State.setPort_progs (s : State) (p : Port) (v : PortSt) : (s.setPort p v).progs = s.progs := by cases p <;> rfl
@[simp] theorem State.setPort_loads (s : State) (p : Port) (v : PortSt) : (s.setPort p v).loads = s.loads := by cases p <;> rfl
@[simp] theorem State.setPort_sch (s : State) (p : Port) (v : PortSt) : (s.setPort p v).sch = s.sch := by cases p <;> rfl
@[simp] theorem State.setPort_cls (s : State) (p : Port) (v : PortSt) : (s.setPort p v).cls = s.cls := by cases p <;> rfl
@[simp] theorem State.setPort_halos (s : State) (p : Port) (v : PortSt) : (s.setPort p v).halos = s.halos := by cases p <;> rfl
@[simp] theorem State.setPort_cld0 (s : State) (p : Port) (v : PortSt) : (s.setPort p v).cld0 = s.cld0 := by cases p <;> rfl
@[simp] theorem State.setPort_cld1 (s : State) (p : Port) (v : PortSt) : (s.setPort p v).cld1 = s.cld1 := by cases p <;> rfl
@[simp] theorem State.setPort_eth (s : State) (p : Port) (v : PortSt) : (s.setPort p v).eth = s.eth := by cases p <;> rfl
@[simp] theorem State.setPort_ctxs (s : State) (p : Port) (v : PortSt) : (s.setPort p v).ctxs = s.ctxs := by cases p <;> rfl
@[simp] theorem State.setPort_maps (s : State) (p : Port) (v : PortSt) : (s.setPort p v).maps = s.maps := by cases p <;> rfl
@[simp] theorem State.setPort_tpos (s : State) (p : Port) (v : PortSt) : (s.setPort p v).tpos = s.tpos := by cases p <;> rfl
@[simp] theorem State.setPort_tcis (s : State) (p : Port) (v : PortSt) : (s.setPort p v).tcis = s.tcis := by cases p <;> rfl
@[simp] theorem State.setPort_launch (s : State) (p : Port) (v : PortSt) : (s.setPort p v).launch = s.launch := by cases p <;> rfl
@[simp] theorem State.setPort_fctxs (s : State) (p : Port) (v : PortSt) : (s.setPort p v).fctxs = s.fctxs := by cases p <;> rfl
@[simp] theorem State.setPort_fclosed (s : State) (p : Port) (v : PortSt) : (s.setPort p v).fclosed = s.fclosed := by cases p <;> rfl
@[simp] theorem State.setPort_ctxLeft (s : State) (p : Port) (v : PortSt) : (s.setPort p v).ctxLeft = s.ctxLeft := by cases p <;> rfl
@[simp] theorem State.setPort_feng0 (s : State) (p : Port) (v : PortSt) : (s.setPort p v).feng0 = s.feng0 := by cases p <;> rfl
@[simp] theorem State.setPort_feng1 (s : State) (p : Port) (v : PortSt) : (s.setPort p v).feng1 = s.feng1 := by cases p <;> rfl
@[simp] theorem State.setPort_rctxs (s : State) (p : Port) (v : PortSt) : (s.setPort p v).rctxs = s.rctxs := by cases p <;> rfl
@[simp] theorem State.setPort_rwait (s : State) (p : Port) (v : PortSt) : (s.setPort p v).rwait = s.rwait := by cases p <;> rfl
@[simp] theorem State.setPort_disps (s : State) (p : Port) (v : PortSt) : (s.setPort p v).disps = s.disps := by cases p <;> rfl
@[simp] theorem State.setPort_ras (s : State) (p : Port) (v : PortSt) : (s.setPort p v).ras = s.ras := by cases p <;> rfl
@[simp] theorem State.setPort_ces (s : State) (p : Port) (v : PortSt) : (s.setPort p v).ces = s.ces := by cases p <;> rfl
@[simp] theorem State.setPort_pwms (s : State) (p : Port) (v : PortSt) : (s.setPort p v).pwms = s.pwms := by cases p <;> rfl
@[simp] theorem State.setPort_sds (s : State) (p : Port) (v : PortSt) : (s.setPort p v).sds = s.sds := by cases p <;> rfl
@[simp] theorem State.setPort_encs (s : State) (p : Port) (v : PortSt) : (s.setPort p v).encs = s.encs := by cases p <;> rfl
@[simp] theorem State.setPort_ioPend (s : State) (p : Port) (v : PortSt) : (s.setPort p v).ioPend = s.ioPend := by cases p <;> rfl
@[simp] theorem State.setPort_dieTick (s : State) (p : Port) (v : PortSt) : (s.setPort p v).dieTick = s.dieTick := by cases p <;> rfl
@[simp] theorem State.setPort_mem (s : State) (p : Port) (v : PortSt) : (s.setPort p v).mem = s.mem := by cases p <;> rfl
@[simp] theorem State.setPort_bwr (s : State) (p : Port) (v : PortSt) : (s.setPort p v).bwr = s.bwr := by cases p <;> rfl
@[simp] theorem State.setPort_skk (s : State) (p : Port) (v : PortSt) : (s.setPort p v).skk = s.skk := by cases p <;> rfl
@[simp] theorem State.setPort_gwy (s : State) (p : Port) (v : PortSt) : (s.setPort p v).gwy = s.gwy := by cases p <;> rfl
@[simp] theorem State.setPort_sls (s : State) (p : Port) (v : PortSt) : (s.setPort p v).sls = s.sls := by cases p <;> rfl
@[simp] theorem State.setPort_chn (s : State) (p : Port) (v : PortSt) : (s.setPort p v).chn = s.chn := by cases p <;> rfl
@[simp] theorem State.setPort_pow (s : State) (p : Port) (v : PortSt) : (s.setPort p v).pow = s.pow := by cases p <;> rfl
@[simp] theorem State.setPort_fws (s : State) (p : Port) (v : PortSt) : (s.setPort p v).fws = s.fws := by cases p <;> rfl
@[simp] theorem State.setPort_heldCpl (s : State) (p : Port) (v : PortSt) : (s.setPort p v).heldCpl = s.heldCpl := by cases p <;> rfl
@[simp] theorem State.setPort_freeCtr (s : State) (p : Port) (v : PortSt) : (s.setPort p v).freeCtr = s.freeCtr := by cases p <;> rfl
@[simp] theorem State.setPort_pending (s : State) (p : Port) (v : PortSt) : (s.setPort p v).pending = s.pending := by cases p <;> rfl
@[simp] theorem State.setPort_port (s : State) (p : Port) (v : PortSt) : (s.setPort p v).port p = v := by cases p <;> rfl
theorem State.setPort_port_ne (s : State) {p q : Port} (v : PortSt) (h : q ≠ p) : (s.setPort p v).port q = s.port q := by
  cases p <;> cases q <;> first | rfl | exact absurd rfl h

end Sys2Proof.Machine
end

