-- ==== Sys2Proof/Laws/Ops.lean ====
section
/-! SUPPORT. What the shared operations on ports, events, replies, completions and the device state do. -/

namespace Sys2Proof.Machine

/-! ## offer -/

@[simp] theorem offer_part (p : Port) (op : Nat) (d : List Byte) (s : State) : (offer p op d s).part = s.part := by cases p <;> rfl
@[simp] theorem offer_larder (p : Port) (op : Nat) (d : List Byte) (s : State) : (offer p op d s).larder = s.larder := by cases p <;> rfl
@[simp] theorem offer_dev (p : Port) (op : Nat) (d : List Byte) (s : State) : (offer p op d s).dev = s.dev := by cases p <;> rfl
@[simp] theorem offer_clk (p : Port) (op : Nat) (d : List Byte) (s : State) : (offer p op d s).clk = s.clk := by cases p <;> rfl
@[simp] theorem offer_time (p : Port) (op : Nat) (d : List Byte) (s : State) : (offer p op d s).time = s.time := by cases p <;> rfl
@[simp] theorem offer_tens (p : Port) (op : Nat) (d : List Byte) (s : State) : (offer p op d s).tens = s.tens := by cases p <;> rfl
@[simp] theorem offer_queues (p : Port) (op : Nat) (d : List Byte) (s : State) : (offer p op d s).queues = s.queues := by cases p <;> rfl
@[simp] theorem offer_pcie (p : Port) (op : Nat) (d : List Byte) (s : State) : (offer p op d s).pcie = s.pcie := by cases p <;> rfl
@[simp] theorem offer_jobs (p : Port) (op : Nat) (d : List Byte) (s : State) : (offer p op d s).jobs = s.jobs := by cases p <;> rfl
@[simp] theorem offer_progs (p : Port) (op : Nat) (d : List Byte) (s : State) : (offer p op d s).progs = s.progs := by cases p <;> rfl
@[simp] theorem offer_loads (p : Port) (op : Nat) (d : List Byte) (s : State) : (offer p op d s).loads = s.loads := by cases p <;> rfl
@[simp] theorem offer_sch (p : Port) (op : Nat) (d : List Byte) (s : State) : (offer p op d s).sch = s.sch := by cases p <;> rfl
@[simp] theorem offer_cls (p : Port) (op : Nat) (d : List Byte) (s : State) : (offer p op d s).cls = s.cls := by cases p <;> rfl
@[simp] theorem offer_halos (p : Port) (op : Nat) (d : List Byte) (s : State) : (offer p op d s).halos = s.halos := by cases p <;> rfl
@[simp] theorem offer_cld0 (p : Port) (op : Nat) (d : List Byte) (s : State) : (offer p op d s).cld0 = s.cld0 := by cases p <;> rfl
@[simp] theorem offer_cld1 (p : Port) (op : Nat) (d : List Byte) (s : State) : (offer p op d s).cld1 = s.cld1 := by cases p <;> rfl
@[simp] theorem offer_eth (p : Port) (op : Nat) (d : List Byte) (s : State) : (offer p op d s).eth = s.eth := by cases p <;> rfl
@[simp] theorem offer_ctxs (p : Port) (op : Nat) (d : List Byte) (s : State) : (offer p op d s).ctxs = s.ctxs := by cases p <;> rfl
@[simp] theorem offer_maps (p : Port) (op : Nat) (d : List Byte) (s : State) : (offer p op d s).maps = s.maps := by cases p <;> rfl
@[simp] theorem offer_tpos (p : Port) (op : Nat) (d : List Byte) (s : State) : (offer p op d s).tpos = s.tpos := by cases p <;> rfl
@[simp] theorem offer_tcis (p : Port) (op : Nat) (d : List Byte) (s : State) : (offer p op d s).tcis = s.tcis := by cases p <;> rfl
@[simp] theorem offer_launch (p : Port) (op : Nat) (d : List Byte) (s : State) : (offer p op d s).launch = s.launch := by cases p <;> rfl
@[simp] theorem offer_fctxs (p : Port) (op : Nat) (d : List Byte) (s : State) : (offer p op d s).fctxs = s.fctxs := by cases p <;> rfl
@[simp] theorem offer_fclosed (p : Port) (op : Nat) (d : List Byte) (s : State) : (offer p op d s).fclosed = s.fclosed := by cases p <;> rfl
@[simp] theorem offer_ctxLeft (p : Port) (op : Nat) (d : List Byte) (s : State) : (offer p op d s).ctxLeft = s.ctxLeft := by cases p <;> rfl
@[simp] theorem offer_feng0 (p : Port) (op : Nat) (d : List Byte) (s : State) : (offer p op d s).feng0 = s.feng0 := by cases p <;> rfl
@[simp] theorem offer_feng1 (p : Port) (op : Nat) (d : List Byte) (s : State) : (offer p op d s).feng1 = s.feng1 := by cases p <;> rfl
@[simp] theorem offer_rctxs (p : Port) (op : Nat) (d : List Byte) (s : State) : (offer p op d s).rctxs = s.rctxs := by cases p <;> rfl
@[simp] theorem offer_rwait (p : Port) (op : Nat) (d : List Byte) (s : State) : (offer p op d s).rwait = s.rwait := by cases p <;> rfl
@[simp] theorem offer_disps (p : Port) (op : Nat) (d : List Byte) (s : State) : (offer p op d s).disps = s.disps := by cases p <;> rfl
@[simp] theorem offer_ras (p : Port) (op : Nat) (d : List Byte) (s : State) : (offer p op d s).ras = s.ras := by cases p <;> rfl
@[simp] theorem offer_ces (p : Port) (op : Nat) (d : List Byte) (s : State) : (offer p op d s).ces = s.ces := by cases p <;> rfl
@[simp] theorem offer_pwms (p : Port) (op : Nat) (d : List Byte) (s : State) : (offer p op d s).pwms = s.pwms := by cases p <;> rfl
@[simp] theorem offer_sds (p : Port) (op : Nat) (d : List Byte) (s : State) : (offer p op d s).sds = s.sds := by cases p <;> rfl
@[simp] theorem offer_encs (p : Port) (op : Nat) (d : List Byte) (s : State) : (offer p op d s).encs = s.encs := by cases p <;> rfl
@[simp] theorem offer_ioPend (p : Port) (op : Nat) (d : List Byte) (s : State) : (offer p op d s).ioPend = s.ioPend := by cases p <;> rfl
@[simp] theorem offer_dieTick (p : Port) (op : Nat) (d : List Byte) (s : State) : (offer p op d s).dieTick = s.dieTick := by cases p <;> rfl
@[simp] theorem offer_mem (p : Port) (op : Nat) (d : List Byte) (s : State) : (offer p op d s).mem = s.mem := by cases p <;> rfl
@[simp] theorem offer_bwr (p : Port) (op : Nat) (d : List Byte) (s : State) : (offer p op d s).bwr = s.bwr := by cases p <;> rfl
@[simp] theorem offer_skk (p : Port) (op : Nat) (d : List Byte) (s : State) : (offer p op d s).skk = s.skk := by cases p <;> rfl
@[simp] theorem offer_gwy (p : Port) (op : Nat) (d : List Byte) (s : State) : (offer p op d s).gwy = s.gwy := by cases p <;> rfl
@[simp] theorem offer_sls (p : Port) (op : Nat) (d : List Byte) (s : State) : (offer p op d s).sls = s.sls := by cases p <;> rfl
@[simp] theorem offer_chn (p : Port) (op : Nat) (d : List Byte) (s : State) : (offer p op d s).chn = s.chn := by cases p <;> rfl
@[simp] theorem offer_pow (p : Port) (op : Nat) (d : List Byte) (s : State) : (offer p op d s).pow = s.pow := by cases p <;> rfl
@[simp] theorem offer_fws (p : Port) (op : Nat) (d : List Byte) (s : State) : (offer p op d s).fws = s.fws := by cases p <;> rfl
@[simp] theorem offer_heldCpl (p : Port) (op : Nat) (d : List Byte) (s : State) : (offer p op d s).heldCpl = s.heldCpl := by cases p <;> rfl
@[simp] theorem offer_freeCtr (p : Port) (op : Nat) (d : List Byte) (s : State) : (offer p op d s).freeCtr = s.freeCtr := by cases p <;> rfl
@[simp] theorem offer_pending (p : Port) (op : Nat) (d : List Byte) (s : State) : (offer p op d s).pending = s.pending := by cases p <;> rfl

/-! ## offer0 -/

@[simp] theorem offer0_part (op : Nat) (d : List Byte) (s : State) : (offer0 op d s).part = s.part := rfl
@[simp] theorem offer0_larder (op : Nat) (d : List Byte) (s : State) : (offer0 op d s).larder = s.larder := rfl
@[simp] theorem offer0_dev (op : Nat) (d : List Byte) (s : State) : (offer0 op d s).dev = s.dev := rfl
@[simp] theorem offer0_clk (op : Nat) (d : List Byte) (s : State) : (offer0 op d s).clk = s.clk := rfl
@[simp] theorem offer0_time (op : Nat) (d : List Byte) (s : State) : (offer0 op d s).time = s.time := rfl
@[simp] theorem offer0_tens (op : Nat) (d : List Byte) (s : State) : (offer0 op d s).tens = s.tens := rfl
@[simp] theorem offer0_queues (op : Nat) (d : List Byte) (s : State) : (offer0 op d s).queues = s.queues := rfl
@[simp] theorem offer0_pcie (op : Nat) (d : List Byte) (s : State) : (offer0 op d s).pcie = s.pcie := rfl
@[simp] theorem offer0_jobs (op : Nat) (d : List Byte) (s : State) : (offer0 op d s).jobs = s.jobs := rfl
@[simp] theorem offer0_progs (op : Nat) (d : List Byte) (s : State) : (offer0 op d s).progs = s.progs := rfl
@[simp] theorem offer0_loads (op : Nat) (d : List Byte) (s : State) : (offer0 op d s).loads = s.loads := rfl
@[simp] theorem offer0_sch (op : Nat) (d : List Byte) (s : State) : (offer0 op d s).sch = s.sch := rfl
@[simp] theorem offer0_cls (op : Nat) (d : List Byte) (s : State) : (offer0 op d s).cls = s.cls := rfl
@[simp] theorem offer0_halos (op : Nat) (d : List Byte) (s : State) : (offer0 op d s).halos = s.halos := rfl
@[simp] theorem offer0_cld0 (op : Nat) (d : List Byte) (s : State) : (offer0 op d s).cld0 = s.cld0 := rfl
@[simp] theorem offer0_cld1 (op : Nat) (d : List Byte) (s : State) : (offer0 op d s).cld1 = s.cld1 := rfl
@[simp] theorem offer0_eth (op : Nat) (d : List Byte) (s : State) : (offer0 op d s).eth = s.eth := rfl
@[simp] theorem offer0_ctxs (op : Nat) (d : List Byte) (s : State) : (offer0 op d s).ctxs = s.ctxs := rfl
@[simp] theorem offer0_maps (op : Nat) (d : List Byte) (s : State) : (offer0 op d s).maps = s.maps := rfl
@[simp] theorem offer0_tpos (op : Nat) (d : List Byte) (s : State) : (offer0 op d s).tpos = s.tpos := rfl
@[simp] theorem offer0_tcis (op : Nat) (d : List Byte) (s : State) : (offer0 op d s).tcis = s.tcis := rfl
@[simp] theorem offer0_launch (op : Nat) (d : List Byte) (s : State) : (offer0 op d s).launch = s.launch := rfl
@[simp] theorem offer0_fctxs (op : Nat) (d : List Byte) (s : State) : (offer0 op d s).fctxs = s.fctxs := rfl
@[simp] theorem offer0_fclosed (op : Nat) (d : List Byte) (s : State) : (offer0 op d s).fclosed = s.fclosed := rfl
@[simp] theorem offer0_ctxLeft (op : Nat) (d : List Byte) (s : State) : (offer0 op d s).ctxLeft = s.ctxLeft := rfl
@[simp] theorem offer0_feng0 (op : Nat) (d : List Byte) (s : State) : (offer0 op d s).feng0 = s.feng0 := rfl
@[simp] theorem offer0_feng1 (op : Nat) (d : List Byte) (s : State) : (offer0 op d s).feng1 = s.feng1 := rfl
@[simp] theorem offer0_rctxs (op : Nat) (d : List Byte) (s : State) : (offer0 op d s).rctxs = s.rctxs := rfl
@[simp] theorem offer0_rwait (op : Nat) (d : List Byte) (s : State) : (offer0 op d s).rwait = s.rwait := rfl
@[simp] theorem offer0_disps (op : Nat) (d : List Byte) (s : State) : (offer0 op d s).disps = s.disps := rfl
@[simp] theorem offer0_ras (op : Nat) (d : List Byte) (s : State) : (offer0 op d s).ras = s.ras := rfl
@[simp] theorem offer0_ces (op : Nat) (d : List Byte) (s : State) : (offer0 op d s).ces = s.ces := rfl
@[simp] theorem offer0_pwms (op : Nat) (d : List Byte) (s : State) : (offer0 op d s).pwms = s.pwms := rfl
@[simp] theorem offer0_sds (op : Nat) (d : List Byte) (s : State) : (offer0 op d s).sds = s.sds := rfl
@[simp] theorem offer0_encs (op : Nat) (d : List Byte) (s : State) : (offer0 op d s).encs = s.encs := rfl
@[simp] theorem offer0_ioPend (op : Nat) (d : List Byte) (s : State) : (offer0 op d s).ioPend = s.ioPend := rfl
@[simp] theorem offer0_dieTick (op : Nat) (d : List Byte) (s : State) : (offer0 op d s).dieTick = s.dieTick := rfl
@[simp] theorem offer0_mem (op : Nat) (d : List Byte) (s : State) : (offer0 op d s).mem = s.mem := rfl
@[simp] theorem offer0_bwr (op : Nat) (d : List Byte) (s : State) : (offer0 op d s).bwr = s.bwr := rfl
@[simp] theorem offer0_skk (op : Nat) (d : List Byte) (s : State) : (offer0 op d s).skk = s.skk := rfl
@[simp] theorem offer0_gwy (op : Nat) (d : List Byte) (s : State) : (offer0 op d s).gwy = s.gwy := rfl
@[simp] theorem offer0_sls (op : Nat) (d : List Byte) (s : State) : (offer0 op d s).sls = s.sls := rfl
@[simp] theorem offer0_chn (op : Nat) (d : List Byte) (s : State) : (offer0 op d s).chn = s.chn := rfl
@[simp] theorem offer0_pow (op : Nat) (d : List Byte) (s : State) : (offer0 op d s).pow = s.pow := rfl
@[simp] theorem offer0_fws (op : Nat) (d : List Byte) (s : State) : (offer0 op d s).fws = s.fws := rfl
@[simp] theorem offer0_heldCpl (op : Nat) (d : List Byte) (s : State) : (offer0 op d s).heldCpl = s.heldCpl := rfl
@[simp] theorem offer0_freeCtr (op : Nat) (d : List Byte) (s : State) : (offer0 op d s).freeCtr = s.freeCtr := rfl
@[simp] theorem offer0_pending (op : Nat) (d : List Byte) (s : State) : (offer0 op d s).pending = s.pending := rfl

/-! ## offerBoth -/

@[simp] theorem offerBoth_part (op : Nat) (d : List Byte) (s : State) : (offerBoth op d s).part = s.part := rfl
@[simp] theorem offerBoth_larder (op : Nat) (d : List Byte) (s : State) : (offerBoth op d s).larder = s.larder := rfl
@[simp] theorem offerBoth_dev (op : Nat) (d : List Byte) (s : State) : (offerBoth op d s).dev = s.dev := rfl
@[simp] theorem offerBoth_clk (op : Nat) (d : List Byte) (s : State) : (offerBoth op d s).clk = s.clk := rfl
@[simp] theorem offerBoth_time (op : Nat) (d : List Byte) (s : State) : (offerBoth op d s).time = s.time := rfl
@[simp] theorem offerBoth_tens (op : Nat) (d : List Byte) (s : State) : (offerBoth op d s).tens = s.tens := rfl
@[simp] theorem offerBoth_queues (op : Nat) (d : List Byte) (s : State) : (offerBoth op d s).queues = s.queues := rfl
@[simp] theorem offerBoth_pcie (op : Nat) (d : List Byte) (s : State) : (offerBoth op d s).pcie = s.pcie := rfl
@[simp] theorem offerBoth_jobs (op : Nat) (d : List Byte) (s : State) : (offerBoth op d s).jobs = s.jobs := rfl
@[simp] theorem offerBoth_progs (op : Nat) (d : List Byte) (s : State) : (offerBoth op d s).progs = s.progs := rfl
@[simp] theorem offerBoth_loads (op : Nat) (d : List Byte) (s : State) : (offerBoth op d s).loads = s.loads := rfl
@[simp] theorem offerBoth_sch (op : Nat) (d : List Byte) (s : State) : (offerBoth op d s).sch = s.sch := rfl
@[simp] theorem offerBoth_cls (op : Nat) (d : List Byte) (s : State) : (offerBoth op d s).cls = s.cls := rfl
@[simp] theorem offerBoth_halos (op : Nat) (d : List Byte) (s : State) : (offerBoth op d s).halos = s.halos := rfl
@[simp] theorem offerBoth_cld0 (op : Nat) (d : List Byte) (s : State) : (offerBoth op d s).cld0 = s.cld0 := rfl
@[simp] theorem offerBoth_cld1 (op : Nat) (d : List Byte) (s : State) : (offerBoth op d s).cld1 = s.cld1 := rfl
@[simp] theorem offerBoth_eth (op : Nat) (d : List Byte) (s : State) : (offerBoth op d s).eth = s.eth := rfl
@[simp] theorem offerBoth_ctxs (op : Nat) (d : List Byte) (s : State) : (offerBoth op d s).ctxs = s.ctxs := rfl
@[simp] theorem offerBoth_maps (op : Nat) (d : List Byte) (s : State) : (offerBoth op d s).maps = s.maps := rfl
@[simp] theorem offerBoth_tpos (op : Nat) (d : List Byte) (s : State) : (offerBoth op d s).tpos = s.tpos := rfl
@[simp] theorem offerBoth_tcis (op : Nat) (d : List Byte) (s : State) : (offerBoth op d s).tcis = s.tcis := rfl
@[simp] theorem offerBoth_launch (op : Nat) (d : List Byte) (s : State) : (offerBoth op d s).launch = s.launch := rfl
@[simp] theorem offerBoth_fctxs (op : Nat) (d : List Byte) (s : State) : (offerBoth op d s).fctxs = s.fctxs := rfl
@[simp] theorem offerBoth_fclosed (op : Nat) (d : List Byte) (s : State) : (offerBoth op d s).fclosed = s.fclosed := rfl
@[simp] theorem offerBoth_ctxLeft (op : Nat) (d : List Byte) (s : State) : (offerBoth op d s).ctxLeft = s.ctxLeft := rfl
@[simp] theorem offerBoth_feng0 (op : Nat) (d : List Byte) (s : State) : (offerBoth op d s).feng0 = s.feng0 := rfl
@[simp] theorem offerBoth_feng1 (op : Nat) (d : List Byte) (s : State) : (offerBoth op d s).feng1 = s.feng1 := rfl
@[simp] theorem offerBoth_rctxs (op : Nat) (d : List Byte) (s : State) : (offerBoth op d s).rctxs = s.rctxs := rfl
@[simp] theorem offerBoth_rwait (op : Nat) (d : List Byte) (s : State) : (offerBoth op d s).rwait = s.rwait := rfl
@[simp] theorem offerBoth_disps (op : Nat) (d : List Byte) (s : State) : (offerBoth op d s).disps = s.disps := rfl
@[simp] theorem offerBoth_ras (op : Nat) (d : List Byte) (s : State) : (offerBoth op d s).ras = s.ras := rfl
@[simp] theorem offerBoth_ces (op : Nat) (d : List Byte) (s : State) : (offerBoth op d s).ces = s.ces := rfl
@[simp] theorem offerBoth_pwms (op : Nat) (d : List Byte) (s : State) : (offerBoth op d s).pwms = s.pwms := rfl
@[simp] theorem offerBoth_sds (op : Nat) (d : List Byte) (s : State) : (offerBoth op d s).sds = s.sds := rfl
@[simp] theorem offerBoth_encs (op : Nat) (d : List Byte) (s : State) : (offerBoth op d s).encs = s.encs := rfl
@[simp] theorem offerBoth_ioPend (op : Nat) (d : List Byte) (s : State) : (offerBoth op d s).ioPend = s.ioPend := rfl
@[simp] theorem offerBoth_dieTick (op : Nat) (d : List Byte) (s : State) : (offerBoth op d s).dieTick = s.dieTick := rfl
@[simp] theorem offerBoth_mem (op : Nat) (d : List Byte) (s : State) : (offerBoth op d s).mem = s.mem := rfl
@[simp] theorem offerBoth_bwr (op : Nat) (d : List Byte) (s : State) : (offerBoth op d s).bwr = s.bwr := rfl
@[simp] theorem offerBoth_skk (op : Nat) (d : List Byte) (s : State) : (offerBoth op d s).skk = s.skk := rfl
@[simp] theorem offerBoth_gwy (op : Nat) (d : List Byte) (s : State) : (offerBoth op d s).gwy = s.gwy := rfl
@[simp] theorem offerBoth_sls (op : Nat) (d : List Byte) (s : State) : (offerBoth op d s).sls = s.sls := rfl
@[simp] theorem offerBoth_chn (op : Nat) (d : List Byte) (s : State) : (offerBoth op d s).chn = s.chn := rfl
@[simp] theorem offerBoth_pow (op : Nat) (d : List Byte) (s : State) : (offerBoth op d s).pow = s.pow := rfl
@[simp] theorem offerBoth_fws (op : Nat) (d : List Byte) (s : State) : (offerBoth op d s).fws = s.fws := rfl
@[simp] theorem offerBoth_heldCpl (op : Nat) (d : List Byte) (s : State) : (offerBoth op d s).heldCpl = s.heldCpl := rfl
@[simp] theorem offerBoth_freeCtr (op : Nat) (d : List Byte) (s : State) : (offerBoth op d s).freeCtr = s.freeCtr := rfl
@[simp] theorem offerBoth_pending (op : Nat) (d : List Byte) (s : State) : (offerBoth op d s).pending = s.pending := rfl

/-! ## complete -/

@[simp] theorem complete_part (t st : Nat) (d : List Byte) (s : State) : (complete t st d s).part = s.part := by unfold complete; split <;> rfl
@[simp] theorem complete_larder (t st : Nat) (d : List Byte) (s : State) : (complete t st d s).larder = s.larder := by unfold complete; split <;> rfl
@[simp] theorem complete_dev (t st : Nat) (d : List Byte) (s : State) : (complete t st d s).dev = s.dev := by unfold complete; split <;> rfl
@[simp] theorem complete_clk (t st : Nat) (d : List Byte) (s : State) : (complete t st d s).clk = s.clk := by unfold complete; split <;> rfl
@[simp] theorem complete_time (t st : Nat) (d : List Byte) (s : State) : (complete t st d s).time = s.time := by unfold complete; split <;> rfl
@[simp] theorem complete_tens (t st : Nat) (d : List Byte) (s : State) : (complete t st d s).tens = s.tens := by unfold complete; split <;> rfl
@[simp] theorem complete_queues (t st : Nat) (d : List Byte) (s : State) : (complete t st d s).queues = s.queues := by unfold complete; split <;> rfl
@[simp] theorem complete_pcie (t st : Nat) (d : List Byte) (s : State) : (complete t st d s).pcie = s.pcie := by unfold complete; split <;> rfl
@[simp] theorem complete_jobs (t st : Nat) (d : List Byte) (s : State) : (complete t st d s).jobs = s.jobs := by unfold complete; split <;> rfl
@[simp] theorem complete_progs (t st : Nat) (d : List Byte) (s : State) : (complete t st d s).progs = s.progs := by unfold complete; split <;> rfl
@[simp] theorem complete_loads (t st : Nat) (d : List Byte) (s : State) : (complete t st d s).loads = s.loads := by unfold complete; split <;> rfl
@[simp] theorem complete_sch (t st : Nat) (d : List Byte) (s : State) : (complete t st d s).sch = s.sch := by unfold complete; split <;> rfl
@[simp] theorem complete_cls (t st : Nat) (d : List Byte) (s : State) : (complete t st d s).cls = s.cls := by unfold complete; split <;> rfl
@[simp] theorem complete_halos (t st : Nat) (d : List Byte) (s : State) : (complete t st d s).halos = s.halos := by unfold complete; split <;> rfl
@[simp] theorem complete_cld0 (t st : Nat) (d : List Byte) (s : State) : (complete t st d s).cld0 = s.cld0 := by unfold complete; split <;> rfl
@[simp] theorem complete_cld1 (t st : Nat) (d : List Byte) (s : State) : (complete t st d s).cld1 = s.cld1 := by unfold complete; split <;> rfl
@[simp] theorem complete_eth (t st : Nat) (d : List Byte) (s : State) : (complete t st d s).eth = s.eth := by unfold complete; split <;> rfl
@[simp] theorem complete_ctxs (t st : Nat) (d : List Byte) (s : State) : (complete t st d s).ctxs = s.ctxs := by unfold complete; split <;> rfl
@[simp] theorem complete_maps (t st : Nat) (d : List Byte) (s : State) : (complete t st d s).maps = s.maps := by unfold complete; split <;> rfl
@[simp] theorem complete_tpos (t st : Nat) (d : List Byte) (s : State) : (complete t st d s).tpos = s.tpos := by unfold complete; split <;> rfl
@[simp] theorem complete_tcis (t st : Nat) (d : List Byte) (s : State) : (complete t st d s).tcis = s.tcis := by unfold complete; split <;> rfl
@[simp] theorem complete_launch (t st : Nat) (d : List Byte) (s : State) : (complete t st d s).launch = s.launch := by unfold complete; split <;> rfl
@[simp] theorem complete_fctxs (t st : Nat) (d : List Byte) (s : State) : (complete t st d s).fctxs = s.fctxs := by unfold complete; split <;> rfl
@[simp] theorem complete_fclosed (t st : Nat) (d : List Byte) (s : State) : (complete t st d s).fclosed = s.fclosed := by unfold complete; split <;> rfl
@[simp] theorem complete_ctxLeft (t st : Nat) (d : List Byte) (s : State) : (complete t st d s).ctxLeft = s.ctxLeft := by unfold complete; split <;> rfl
@[simp] theorem complete_feng0 (t st : Nat) (d : List Byte) (s : State) : (complete t st d s).feng0 = s.feng0 := by unfold complete; split <;> rfl
@[simp] theorem complete_feng1 (t st : Nat) (d : List Byte) (s : State) : (complete t st d s).feng1 = s.feng1 := by unfold complete; split <;> rfl
@[simp] theorem complete_rctxs (t st : Nat) (d : List Byte) (s : State) : (complete t st d s).rctxs = s.rctxs := by unfold complete; split <;> rfl
@[simp] theorem complete_rwait (t st : Nat) (d : List Byte) (s : State) : (complete t st d s).rwait = s.rwait := by unfold complete; split <;> rfl
@[simp] theorem complete_disps (t st : Nat) (d : List Byte) (s : State) : (complete t st d s).disps = s.disps := by unfold complete; split <;> rfl
@[simp] theorem complete_ras (t st : Nat) (d : List Byte) (s : State) : (complete t st d s).ras = s.ras := by unfold complete; split <;> rfl
@[simp] theorem complete_ces (t st : Nat) (d : List Byte) (s : State) : (complete t st d s).ces = s.ces := by unfold complete; split <;> rfl
@[simp] theorem complete_pwms (t st : Nat) (d : List Byte) (s : State) : (complete t st d s).pwms = s.pwms := by unfold complete; split <;> rfl
@[simp] theorem complete_sds (t st : Nat) (d : List Byte) (s : State) : (complete t st d s).sds = s.sds := by unfold complete; split <;> rfl
@[simp] theorem complete_encs (t st : Nat) (d : List Byte) (s : State) : (complete t st d s).encs = s.encs := by unfold complete; split <;> rfl
@[simp] theorem complete_ioPend (t st : Nat) (d : List Byte) (s : State) : (complete t st d s).ioPend = s.ioPend := by unfold complete; split <;> rfl
@[simp] theorem complete_dieTick (t st : Nat) (d : List Byte) (s : State) : (complete t st d s).dieTick = s.dieTick := by unfold complete; split <;> rfl
@[simp] theorem complete_mem (t st : Nat) (d : List Byte) (s : State) : (complete t st d s).mem = s.mem := by unfold complete; split <;> rfl
@[simp] theorem complete_bwr (t st : Nat) (d : List Byte) (s : State) : (complete t st d s).bwr = s.bwr := by unfold complete; split <;> rfl
@[simp] theorem complete_skk (t st : Nat) (d : List Byte) (s : State) : (complete t st d s).skk = s.skk := by unfold complete; split <;> rfl
@[simp] theorem complete_gwy (t st : Nat) (d : List Byte) (s : State) : (complete t st d s).gwy = s.gwy := by unfold complete; split <;> rfl
@[simp] theorem complete_sls (t st : Nat) (d : List Byte) (s : State) : (complete t st d s).sls = s.sls := by unfold complete; split <;> rfl
@[simp] theorem complete_chn (t st : Nat) (d : List Byte) (s : State) : (complete t st d s).chn = s.chn := by unfold complete; split <;> rfl
@[simp] theorem complete_pow (t st : Nat) (d : List Byte) (s : State) : (complete t st d s).pow = s.pow := by unfold complete; split <;> rfl
@[simp] theorem complete_fws (t st : Nat) (d : List Byte) (s : State) : (complete t st d s).fws = s.fws := by unfold complete; split <;> rfl
@[simp] theorem complete_freeCtr (t st : Nat) (d : List Byte) (s : State) : (complete t st d s).freeCtr = s.freeCtr := by unfold complete; split <;> rfl
@[simp] theorem complete_pending (t st : Nat) (d : List Byte) (s : State) : (complete t st d s).pending = s.pending := by unfold complete; split <;> rfl

/-! ## completeOpt -/

@[simp] theorem completeOpt_part (t : Option Nat) (st : Nat) (d : List Byte) (s : State) : (completeOpt t st d s).part = s.part := by cases t <;> simp [completeOpt]
@[simp] theorem completeOpt_larder (t : Option Nat) (st : Nat) (d : List Byte) (s : State) : (completeOpt t st d s).larder = s.larder := by cases t <;> simp [completeOpt]
@[simp] theorem completeOpt_dev (t : Option Nat) (st : Nat) (d : List Byte) (s : State) : (completeOpt t st d s).dev = s.dev := by cases t <;> simp [completeOpt]
@[simp] theorem completeOpt_clk (t : Option Nat) (st : Nat) (d : List Byte) (s : State) : (completeOpt t st d s).clk = s.clk := by cases t <;> simp [completeOpt]
@[simp] theorem completeOpt_time (t : Option Nat) (st : Nat) (d : List Byte) (s : State) : (completeOpt t st d s).time = s.time := by cases t <;> simp [completeOpt]
@[simp] theorem completeOpt_tens (t : Option Nat) (st : Nat) (d : List Byte) (s : State) : (completeOpt t st d s).tens = s.tens := by cases t <;> simp [completeOpt]
@[simp] theorem completeOpt_queues (t : Option Nat) (st : Nat) (d : List Byte) (s : State) : (completeOpt t st d s).queues = s.queues := by cases t <;> simp [completeOpt]
@[simp] theorem completeOpt_pcie (t : Option Nat) (st : Nat) (d : List Byte) (s : State) : (completeOpt t st d s).pcie = s.pcie := by cases t <;> simp [completeOpt]
@[simp] theorem completeOpt_jobs (t : Option Nat) (st : Nat) (d : List Byte) (s : State) : (completeOpt t st d s).jobs = s.jobs := by cases t <;> simp [completeOpt]
@[simp] theorem completeOpt_progs (t : Option Nat) (st : Nat) (d : List Byte) (s : State) : (completeOpt t st d s).progs = s.progs := by cases t <;> simp [completeOpt]
@[simp] theorem completeOpt_loads (t : Option Nat) (st : Nat) (d : List Byte) (s : State) : (completeOpt t st d s).loads = s.loads := by cases t <;> simp [completeOpt]
@[simp] theorem completeOpt_sch (t : Option Nat) (st : Nat) (d : List Byte) (s : State) : (completeOpt t st d s).sch = s.sch := by cases t <;> simp [completeOpt]
@[simp] theorem completeOpt_cls (t : Option Nat) (st : Nat) (d : List Byte) (s : State) : (completeOpt t st d s).cls = s.cls := by cases t <;> simp [completeOpt]
@[simp] theorem completeOpt_halos (t : Option Nat) (st : Nat) (d : List Byte) (s : State) : (completeOpt t st d s).halos = s.halos := by cases t <;> simp [completeOpt]
@[simp] theorem completeOpt_cld0 (t : Option Nat) (st : Nat) (d : List Byte) (s : State) : (completeOpt t st d s).cld0 = s.cld0 := by cases t <;> simp [completeOpt]
@[simp] theorem completeOpt_cld1 (t : Option Nat) (st : Nat) (d : List Byte) (s : State) : (completeOpt t st d s).cld1 = s.cld1 := by cases t <;> simp [completeOpt]
@[simp] theorem completeOpt_eth (t : Option Nat) (st : Nat) (d : List Byte) (s : State) : (completeOpt t st d s).eth = s.eth := by cases t <;> simp [completeOpt]
@[simp] theorem completeOpt_ctxs (t : Option Nat) (st : Nat) (d : List Byte) (s : State) : (completeOpt t st d s).ctxs = s.ctxs := by cases t <;> simp [completeOpt]
@[simp] theorem completeOpt_maps (t : Option Nat) (st : Nat) (d : List Byte) (s : State) : (completeOpt t st d s).maps = s.maps := by cases t <;> simp [completeOpt]
@[simp] theorem completeOpt_tpos (t : Option Nat) (st : Nat) (d : List Byte) (s : State) : (completeOpt t st d s).tpos = s.tpos := by cases t <;> simp [completeOpt]
@[simp] theorem completeOpt_tcis (t : Option Nat) (st : Nat) (d : List Byte) (s : State) : (completeOpt t st d s).tcis = s.tcis := by cases t <;> simp [completeOpt]
@[simp] theorem completeOpt_launch (t : Option Nat) (st : Nat) (d : List Byte) (s : State) : (completeOpt t st d s).launch = s.launch := by cases t <;> simp [completeOpt]
@[simp] theorem completeOpt_fctxs (t : Option Nat) (st : Nat) (d : List Byte) (s : State) : (completeOpt t st d s).fctxs = s.fctxs := by cases t <;> simp [completeOpt]
@[simp] theorem completeOpt_fclosed (t : Option Nat) (st : Nat) (d : List Byte) (s : State) : (completeOpt t st d s).fclosed = s.fclosed := by cases t <;> simp [completeOpt]
@[simp] theorem completeOpt_ctxLeft (t : Option Nat) (st : Nat) (d : List Byte) (s : State) : (completeOpt t st d s).ctxLeft = s.ctxLeft := by cases t <;> simp [completeOpt]
@[simp] theorem completeOpt_feng0 (t : Option Nat) (st : Nat) (d : List Byte) (s : State) : (completeOpt t st d s).feng0 = s.feng0 := by cases t <;> simp [completeOpt]
@[simp] theorem completeOpt_feng1 (t : Option Nat) (st : Nat) (d : List Byte) (s : State) : (completeOpt t st d s).feng1 = s.feng1 := by cases t <;> simp [completeOpt]
@[simp] theorem completeOpt_rctxs (t : Option Nat) (st : Nat) (d : List Byte) (s : State) : (completeOpt t st d s).rctxs = s.rctxs := by cases t <;> simp [completeOpt]
@[simp] theorem completeOpt_rwait (t : Option Nat) (st : Nat) (d : List Byte) (s : State) : (completeOpt t st d s).rwait = s.rwait := by cases t <;> simp [completeOpt]
@[simp] theorem completeOpt_disps (t : Option Nat) (st : Nat) (d : List Byte) (s : State) : (completeOpt t st d s).disps = s.disps := by cases t <;> simp [completeOpt]
@[simp] theorem completeOpt_ras (t : Option Nat) (st : Nat) (d : List Byte) (s : State) : (completeOpt t st d s).ras = s.ras := by cases t <;> simp [completeOpt]
@[simp] theorem completeOpt_ces (t : Option Nat) (st : Nat) (d : List Byte) (s : State) : (completeOpt t st d s).ces = s.ces := by cases t <;> simp [completeOpt]
@[simp] theorem completeOpt_pwms (t : Option Nat) (st : Nat) (d : List Byte) (s : State) : (completeOpt t st d s).pwms = s.pwms := by cases t <;> simp [completeOpt]
@[simp] theorem completeOpt_sds (t : Option Nat) (st : Nat) (d : List Byte) (s : State) : (completeOpt t st d s).sds = s.sds := by cases t <;> simp [completeOpt]
@[simp] theorem completeOpt_encs (t : Option Nat) (st : Nat) (d : List Byte) (s : State) : (completeOpt t st d s).encs = s.encs := by cases t <;> simp [completeOpt]
@[simp] theorem completeOpt_ioPend (t : Option Nat) (st : Nat) (d : List Byte) (s : State) : (completeOpt t st d s).ioPend = s.ioPend := by cases t <;> simp [completeOpt]
@[simp] theorem completeOpt_dieTick (t : Option Nat) (st : Nat) (d : List Byte) (s : State) : (completeOpt t st d s).dieTick = s.dieTick := by cases t <;> simp [completeOpt]
@[simp] theorem completeOpt_mem (t : Option Nat) (st : Nat) (d : List Byte) (s : State) : (completeOpt t st d s).mem = s.mem := by cases t <;> simp [completeOpt]
@[simp] theorem completeOpt_bwr (t : Option Nat) (st : Nat) (d : List Byte) (s : State) : (completeOpt t st d s).bwr = s.bwr := by cases t <;> simp [completeOpt]
@[simp] theorem completeOpt_skk (t : Option Nat) (st : Nat) (d : List Byte) (s : State) : (completeOpt t st d s).skk = s.skk := by cases t <;> simp [completeOpt]
@[simp] theorem completeOpt_gwy (t : Option Nat) (st : Nat) (d : List Byte) (s : State) : (completeOpt t st d s).gwy = s.gwy := by cases t <;> simp [completeOpt]
@[simp] theorem completeOpt_sls (t : Option Nat) (st : Nat) (d : List Byte) (s : State) : (completeOpt t st d s).sls = s.sls := by cases t <;> simp [completeOpt]
@[simp] theorem completeOpt_chn (t : Option Nat) (st : Nat) (d : List Byte) (s : State) : (completeOpt t st d s).chn = s.chn := by cases t <;> simp [completeOpt]
@[simp] theorem completeOpt_pow (t : Option Nat) (st : Nat) (d : List Byte) (s : State) : (completeOpt t st d s).pow = s.pow := by cases t <;> simp [completeOpt]
@[simp] theorem completeOpt_fws (t : Option Nat) (st : Nat) (d : List Byte) (s : State) : (completeOpt t st d s).fws = s.fws := by cases t <;> simp [completeOpt]
@[simp] theorem completeOpt_freeCtr (t : Option Nat) (st : Nat) (d : List Byte) (s : State) : (completeOpt t st d s).freeCtr = s.freeCtr := by cases t <;> simp [completeOpt]
@[simp] theorem completeOpt_pending (t : Option Nat) (st : Nat) (d : List Byte) (s : State) : (completeOpt t st d s).pending = s.pending := by cases t <;> simp [completeOpt]

/-! ## replyUse -/

@[simp] theorem replyUse_part (op : Nat) (h : Hdr) (st : Nat) (d : List Byte) (s : State) : (replyUse op h st d s).part = s.part := by cases h with | mk p _ _ _ _ _ => cases p <;> rfl
@[simp] theorem replyUse_larder (op : Nat) (h : Hdr) (st : Nat) (d : List Byte) (s : State) : (replyUse op h st d s).larder = s.larder := by cases h with | mk p _ _ _ _ _ => cases p <;> rfl
@[simp] theorem replyUse_dev (op : Nat) (h : Hdr) (st : Nat) (d : List Byte) (s : State) : (replyUse op h st d s).dev = s.dev := by cases h with | mk p _ _ _ _ _ => cases p <;> rfl
@[simp] theorem replyUse_clk (op : Nat) (h : Hdr) (st : Nat) (d : List Byte) (s : State) : (replyUse op h st d s).clk = s.clk := by cases h with | mk p _ _ _ _ _ => cases p <;> rfl
@[simp] theorem replyUse_time (op : Nat) (h : Hdr) (st : Nat) (d : List Byte) (s : State) : (replyUse op h st d s).time = s.time := by cases h with | mk p _ _ _ _ _ => cases p <;> rfl
@[simp] theorem replyUse_tens (op : Nat) (h : Hdr) (st : Nat) (d : List Byte) (s : State) : (replyUse op h st d s).tens = s.tens := by cases h with | mk p _ _ _ _ _ => cases p <;> rfl
@[simp] theorem replyUse_queues (op : Nat) (h : Hdr) (st : Nat) (d : List Byte) (s : State) : (replyUse op h st d s).queues = s.queues := by cases h with | mk p _ _ _ _ _ => cases p <;> rfl
@[simp] theorem replyUse_pcie (op : Nat) (h : Hdr) (st : Nat) (d : List Byte) (s : State) : (replyUse op h st d s).pcie = s.pcie := by cases h with | mk p _ _ _ _ _ => cases p <;> rfl
@[simp] theorem replyUse_jobs (op : Nat) (h : Hdr) (st : Nat) (d : List Byte) (s : State) : (replyUse op h st d s).jobs = s.jobs := by cases h with | mk p _ _ _ _ _ => cases p <;> rfl
@[simp] theorem replyUse_progs (op : Nat) (h : Hdr) (st : Nat) (d : List Byte) (s : State) : (replyUse op h st d s).progs = s.progs := by cases h with | mk p _ _ _ _ _ => cases p <;> rfl
@[simp] theorem replyUse_loads (op : Nat) (h : Hdr) (st : Nat) (d : List Byte) (s : State) : (replyUse op h st d s).loads = s.loads := by cases h with | mk p _ _ _ _ _ => cases p <;> rfl
@[simp] theorem replyUse_sch (op : Nat) (h : Hdr) (st : Nat) (d : List Byte) (s : State) : (replyUse op h st d s).sch = s.sch := by cases h with | mk p _ _ _ _ _ => cases p <;> rfl
@[simp] theorem replyUse_cls (op : Nat) (h : Hdr) (st : Nat) (d : List Byte) (s : State) : (replyUse op h st d s).cls = s.cls := by cases h with | mk p _ _ _ _ _ => cases p <;> rfl
@[simp] theorem replyUse_halos (op : Nat) (h : Hdr) (st : Nat) (d : List Byte) (s : State) : (replyUse op h st d s).halos = s.halos := by cases h with | mk p _ _ _ _ _ => cases p <;> rfl
@[simp] theorem replyUse_cld0 (op : Nat) (h : Hdr) (st : Nat) (d : List Byte) (s : State) : (replyUse op h st d s).cld0 = s.cld0 := by cases h with | mk p _ _ _ _ _ => cases p <;> rfl
@[simp] theorem replyUse_cld1 (op : Nat) (h : Hdr) (st : Nat) (d : List Byte) (s : State) : (replyUse op h st d s).cld1 = s.cld1 := by cases h with | mk p _ _ _ _ _ => cases p <;> rfl
@[simp] theorem replyUse_eth (op : Nat) (h : Hdr) (st : Nat) (d : List Byte) (s : State) : (replyUse op h st d s).eth = s.eth := by cases h with | mk p _ _ _ _ _ => cases p <;> rfl
@[simp] theorem replyUse_ctxs (op : Nat) (h : Hdr) (st : Nat) (d : List Byte) (s : State) : (replyUse op h st d s).ctxs = s.ctxs := by cases h with | mk p _ _ _ _ _ => cases p <;> rfl
@[simp] theorem replyUse_maps (op : Nat) (h : Hdr) (st : Nat) (d : List Byte) (s : State) : (replyUse op h st d s).maps = s.maps := by cases h with | mk p _ _ _ _ _ => cases p <;> rfl
@[simp] theorem replyUse_tpos (op : Nat) (h : Hdr) (st : Nat) (d : List Byte) (s : State) : (replyUse op h st d s).tpos = s.tpos := by cases h with | mk p _ _ _ _ _ => cases p <;> rfl
@[simp] theorem replyUse_tcis (op : Nat) (h : Hdr) (st : Nat) (d : List Byte) (s : State) : (replyUse op h st d s).tcis = s.tcis := by cases h with | mk p _ _ _ _ _ => cases p <;> rfl
@[simp] theorem replyUse_launch (op : Nat) (h : Hdr) (st : Nat) (d : List Byte) (s : State) : (replyUse op h st d s).launch = s.launch := by cases h with | mk p _ _ _ _ _ => cases p <;> rfl
@[simp] theorem replyUse_fctxs (op : Nat) (h : Hdr) (st : Nat) (d : List Byte) (s : State) : (replyUse op h st d s).fctxs = s.fctxs := by cases h with | mk p _ _ _ _ _ => cases p <;> rfl
@[simp] theorem replyUse_fclosed (op : Nat) (h : Hdr) (st : Nat) (d : List Byte) (s : State) : (replyUse op h st d s).fclosed = s.fclosed := by cases h with | mk p _ _ _ _ _ => cases p <;> rfl
@[simp] theorem replyUse_ctxLeft (op : Nat) (h : Hdr) (st : Nat) (d : List Byte) (s : State) : (replyUse op h st d s).ctxLeft = s.ctxLeft := by cases h with | mk p _ _ _ _ _ => cases p <;> rfl
@[simp] theorem replyUse_feng0 (op : Nat) (h : Hdr) (st : Nat) (d : List Byte) (s : State) : (replyUse op h st d s).feng0 = s.feng0 := by cases h with | mk p _ _ _ _ _ => cases p <;> rfl
@[simp] theorem replyUse_feng1 (op : Nat) (h : Hdr) (st : Nat) (d : List Byte) (s : State) : (replyUse op h st d s).feng1 = s.feng1 := by cases h with | mk p _ _ _ _ _ => cases p <;> rfl
@[simp] theorem replyUse_rctxs (op : Nat) (h : Hdr) (st : Nat) (d : List Byte) (s : State) : (replyUse op h st d s).rctxs = s.rctxs := by cases h with | mk p _ _ _ _ _ => cases p <;> rfl
@[simp] theorem replyUse_rwait (op : Nat) (h : Hdr) (st : Nat) (d : List Byte) (s : State) : (replyUse op h st d s).rwait = s.rwait := by cases h with | mk p _ _ _ _ _ => cases p <;> rfl
@[simp] theorem replyUse_disps (op : Nat) (h : Hdr) (st : Nat) (d : List Byte) (s : State) : (replyUse op h st d s).disps = s.disps := by cases h with | mk p _ _ _ _ _ => cases p <;> rfl
@[simp] theorem replyUse_ras (op : Nat) (h : Hdr) (st : Nat) (d : List Byte) (s : State) : (replyUse op h st d s).ras = s.ras := by cases h with | mk p _ _ _ _ _ => cases p <;> rfl
@[simp] theorem replyUse_ces (op : Nat) (h : Hdr) (st : Nat) (d : List Byte) (s : State) : (replyUse op h st d s).ces = s.ces := by cases h with | mk p _ _ _ _ _ => cases p <;> rfl
@[simp] theorem replyUse_pwms (op : Nat) (h : Hdr) (st : Nat) (d : List Byte) (s : State) : (replyUse op h st d s).pwms = s.pwms := by cases h with | mk p _ _ _ _ _ => cases p <;> rfl
@[simp] theorem replyUse_sds (op : Nat) (h : Hdr) (st : Nat) (d : List Byte) (s : State) : (replyUse op h st d s).sds = s.sds := by cases h with | mk p _ _ _ _ _ => cases p <;> rfl
@[simp] theorem replyUse_encs (op : Nat) (h : Hdr) (st : Nat) (d : List Byte) (s : State) : (replyUse op h st d s).encs = s.encs := by cases h with | mk p _ _ _ _ _ => cases p <;> rfl
@[simp] theorem replyUse_ioPend (op : Nat) (h : Hdr) (st : Nat) (d : List Byte) (s : State) : (replyUse op h st d s).ioPend = s.ioPend := by cases h with | mk p _ _ _ _ _ => cases p <;> rfl
@[simp] theorem replyUse_dieTick (op : Nat) (h : Hdr) (st : Nat) (d : List Byte) (s : State) : (replyUse op h st d s).dieTick = s.dieTick := by cases h with | mk p _ _ _ _ _ => cases p <;> rfl
@[simp] theorem replyUse_mem (op : Nat) (h : Hdr) (st : Nat) (d : List Byte) (s : State) : (replyUse op h st d s).mem = s.mem := by cases h with | mk p _ _ _ _ _ => cases p <;> rfl
@[simp] theorem replyUse_bwr (op : Nat) (h : Hdr) (st : Nat) (d : List Byte) (s : State) : (replyUse op h st d s).bwr = s.bwr := by cases h with | mk p _ _ _ _ _ => cases p <;> rfl
@[simp] theorem replyUse_skk (op : Nat) (h : Hdr) (st : Nat) (d : List Byte) (s : State) : (replyUse op h st d s).skk = s.skk := by cases h with | mk p _ _ _ _ _ => cases p <;> rfl
@[simp] theorem replyUse_gwy (op : Nat) (h : Hdr) (st : Nat) (d : List Byte) (s : State) : (replyUse op h st d s).gwy = s.gwy := by cases h with | mk p _ _ _ _ _ => cases p <;> rfl
@[simp] theorem replyUse_sls (op : Nat) (h : Hdr) (st : Nat) (d : List Byte) (s : State) : (replyUse op h st d s).sls = s.sls := by cases h with | mk p _ _ _ _ _ => cases p <;> rfl
@[simp] theorem replyUse_chn (op : Nat) (h : Hdr) (st : Nat) (d : List Byte) (s : State) : (replyUse op h st d s).chn = s.chn := by cases h with | mk p _ _ _ _ _ => cases p <;> rfl
@[simp] theorem replyUse_pow (op : Nat) (h : Hdr) (st : Nat) (d : List Byte) (s : State) : (replyUse op h st d s).pow = s.pow := by cases h with | mk p _ _ _ _ _ => cases p <;> rfl
@[simp] theorem replyUse_fws (op : Nat) (h : Hdr) (st : Nat) (d : List Byte) (s : State) : (replyUse op h st d s).fws = s.fws := by cases h with | mk p _ _ _ _ _ => cases p <;> rfl
@[simp] theorem replyUse_heldCpl (op : Nat) (h : Hdr) (st : Nat) (d : List Byte) (s : State) : (replyUse op h st d s).heldCpl = s.heldCpl := by cases h with | mk p _ _ _ _ _ => cases p <;> rfl
@[simp] theorem replyUse_freeCtr (op : Nat) (h : Hdr) (st : Nat) (d : List Byte) (s : State) : (replyUse op h st d s).freeCtr = s.freeCtr := by cases h with | mk p _ _ _ _ _ => cases p <;> rfl
@[simp] theorem replyUse_pending (op : Nat) (h : Hdr) (st : Nat) (d : List Byte) (s : State) : (replyUse op h st d s).pending = s.pending := by cases h with | mk p _ _ _ _ _ => cases p <;> rfl

/-! ## okReply -/

@[simp] theorem okReply_part (op : Nat) (h : Hdr) (d : List Byte) (s : State) : (okReply op h d s).part = s.part := replyUse_part op h OK d s
@[simp] theorem okReply_larder (op : Nat) (h : Hdr) (d : List Byte) (s : State) : (okReply op h d s).larder = s.larder := replyUse_larder op h OK d s
@[simp] theorem okReply_dev (op : Nat) (h : Hdr) (d : List Byte) (s : State) : (okReply op h d s).dev = s.dev := replyUse_dev op h OK d s
@[simp] theorem okReply_clk (op : Nat) (h : Hdr) (d : List Byte) (s : State) : (okReply op h d s).clk = s.clk := replyUse_clk op h OK d s
@[simp] theorem okReply_time (op : Nat) (h : Hdr) (d : List Byte) (s : State) : (okReply op h d s).time = s.time := replyUse_time op h OK d s
@[simp] theorem okReply_tens (op : Nat) (h : Hdr) (d : List Byte) (s : State) : (okReply op h d s).tens = s.tens := replyUse_tens op h OK d s
@[simp] theorem okReply_queues (op : Nat) (h : Hdr) (d : List Byte) (s : State) : (okReply op h d s).queues = s.queues := replyUse_queues op h OK d s
@[simp] theorem okReply_pcie (op : Nat) (h : Hdr) (d : List Byte) (s : State) : (okReply op h d s).pcie = s.pcie := replyUse_pcie op h OK d s
@[simp] theorem okReply_jobs (op : Nat) (h : Hdr) (d : List Byte) (s : State) : (okReply op h d s).jobs = s.jobs := replyUse_jobs op h OK d s
@[simp] theorem okReply_progs (op : Nat) (h : Hdr) (d : List Byte) (s : State) : (okReply op h d s).progs = s.progs := replyUse_progs op h OK d s
@[simp] theorem okReply_loads (op : Nat) (h : Hdr) (d : List Byte) (s : State) : (okReply op h d s).loads = s.loads := replyUse_loads op h OK d s
@[simp] theorem okReply_sch (op : Nat) (h : Hdr) (d : List Byte) (s : State) : (okReply op h d s).sch = s.sch := replyUse_sch op h OK d s
@[simp] theorem okReply_cls (op : Nat) (h : Hdr) (d : List Byte) (s : State) : (okReply op h d s).cls = s.cls := replyUse_cls op h OK d s
@[simp] theorem okReply_halos (op : Nat) (h : Hdr) (d : List Byte) (s : State) : (okReply op h d s).halos = s.halos := replyUse_halos op h OK d s
@[simp] theorem okReply_cld0 (op : Nat) (h : Hdr) (d : List Byte) (s : State) : (okReply op h d s).cld0 = s.cld0 := replyUse_cld0 op h OK d s
@[simp] theorem okReply_cld1 (op : Nat) (h : Hdr) (d : List Byte) (s : State) : (okReply op h d s).cld1 = s.cld1 := replyUse_cld1 op h OK d s
@[simp] theorem okReply_eth (op : Nat) (h : Hdr) (d : List Byte) (s : State) : (okReply op h d s).eth = s.eth := replyUse_eth op h OK d s
@[simp] theorem okReply_ctxs (op : Nat) (h : Hdr) (d : List Byte) (s : State) : (okReply op h d s).ctxs = s.ctxs := replyUse_ctxs op h OK d s
@[simp] theorem okReply_maps (op : Nat) (h : Hdr) (d : List Byte) (s : State) : (okReply op h d s).maps = s.maps := replyUse_maps op h OK d s
@[simp] theorem okReply_tpos (op : Nat) (h : Hdr) (d : List Byte) (s : State) : (okReply op h d s).tpos = s.tpos := replyUse_tpos op h OK d s
@[simp] theorem okReply_tcis (op : Nat) (h : Hdr) (d : List Byte) (s : State) : (okReply op h d s).tcis = s.tcis := replyUse_tcis op h OK d s
@[simp] theorem okReply_launch (op : Nat) (h : Hdr) (d : List Byte) (s : State) : (okReply op h d s).launch = s.launch := replyUse_launch op h OK d s
@[simp] theorem okReply_fctxs (op : Nat) (h : Hdr) (d : List Byte) (s : State) : (okReply op h d s).fctxs = s.fctxs := replyUse_fctxs op h OK d s
@[simp] theorem okReply_fclosed (op : Nat) (h : Hdr) (d : List Byte) (s : State) : (okReply op h d s).fclosed = s.fclosed := replyUse_fclosed op h OK d s
@[simp] theorem okReply_ctxLeft (op : Nat) (h : Hdr) (d : List Byte) (s : State) : (okReply op h d s).ctxLeft = s.ctxLeft := replyUse_ctxLeft op h OK d s
@[simp] theorem okReply_feng0 (op : Nat) (h : Hdr) (d : List Byte) (s : State) : (okReply op h d s).feng0 = s.feng0 := replyUse_feng0 op h OK d s
@[simp] theorem okReply_feng1 (op : Nat) (h : Hdr) (d : List Byte) (s : State) : (okReply op h d s).feng1 = s.feng1 := replyUse_feng1 op h OK d s
@[simp] theorem okReply_rctxs (op : Nat) (h : Hdr) (d : List Byte) (s : State) : (okReply op h d s).rctxs = s.rctxs := replyUse_rctxs op h OK d s
@[simp] theorem okReply_rwait (op : Nat) (h : Hdr) (d : List Byte) (s : State) : (okReply op h d s).rwait = s.rwait := replyUse_rwait op h OK d s
@[simp] theorem okReply_disps (op : Nat) (h : Hdr) (d : List Byte) (s : State) : (okReply op h d s).disps = s.disps := replyUse_disps op h OK d s
@[simp] theorem okReply_ras (op : Nat) (h : Hdr) (d : List Byte) (s : State) : (okReply op h d s).ras = s.ras := replyUse_ras op h OK d s
@[simp] theorem okReply_ces (op : Nat) (h : Hdr) (d : List Byte) (s : State) : (okReply op h d s).ces = s.ces := replyUse_ces op h OK d s
@[simp] theorem okReply_pwms (op : Nat) (h : Hdr) (d : List Byte) (s : State) : (okReply op h d s).pwms = s.pwms := replyUse_pwms op h OK d s
@[simp] theorem okReply_sds (op : Nat) (h : Hdr) (d : List Byte) (s : State) : (okReply op h d s).sds = s.sds := replyUse_sds op h OK d s
@[simp] theorem okReply_encs (op : Nat) (h : Hdr) (d : List Byte) (s : State) : (okReply op h d s).encs = s.encs := replyUse_encs op h OK d s
@[simp] theorem okReply_ioPend (op : Nat) (h : Hdr) (d : List Byte) (s : State) : (okReply op h d s).ioPend = s.ioPend := replyUse_ioPend op h OK d s
@[simp] theorem okReply_dieTick (op : Nat) (h : Hdr) (d : List Byte) (s : State) : (okReply op h d s).dieTick = s.dieTick := replyUse_dieTick op h OK d s
@[simp] theorem okReply_mem (op : Nat) (h : Hdr) (d : List Byte) (s : State) : (okReply op h d s).mem = s.mem := replyUse_mem op h OK d s
@[simp] theorem okReply_bwr (op : Nat) (h : Hdr) (d : List Byte) (s : State) : (okReply op h d s).bwr = s.bwr := replyUse_bwr op h OK d s
@[simp] theorem okReply_skk (op : Nat) (h : Hdr) (d : List Byte) (s : State) : (okReply op h d s).skk = s.skk := replyUse_skk op h OK d s
@[simp] theorem okReply_gwy (op : Nat) (h : Hdr) (d : List Byte) (s : State) : (okReply op h d s).gwy = s.gwy := replyUse_gwy op h OK d s
@[simp] theorem okReply_sls (op : Nat) (h : Hdr) (d : List Byte) (s : State) : (okReply op h d s).sls = s.sls := replyUse_sls op h OK d s
@[simp] theorem okReply_chn (op : Nat) (h : Hdr) (d : List Byte) (s : State) : (okReply op h d s).chn = s.chn := replyUse_chn op h OK d s
@[simp] theorem okReply_pow (op : Nat) (h : Hdr) (d : List Byte) (s : State) : (okReply op h d s).pow = s.pow := replyUse_pow op h OK d s
@[simp] theorem okReply_fws (op : Nat) (h : Hdr) (d : List Byte) (s : State) : (okReply op h d s).fws = s.fws := replyUse_fws op h OK d s
@[simp] theorem okReply_heldCpl (op : Nat) (h : Hdr) (d : List Byte) (s : State) : (okReply op h d s).heldCpl = s.heldCpl := replyUse_heldCpl op h OK d s
@[simp] theorem okReply_freeCtr (op : Nat) (h : Hdr) (d : List Byte) (s : State) : (okReply op h d s).freeCtr = s.freeCtr := replyUse_freeCtr op h OK d s
@[simp] theorem okReply_pending (op : Nat) (h : Hdr) (d : List Byte) (s : State) : (okReply op h d s).pending = s.pending := replyUse_pending op h OK d s

/-! ## acceptedReply -/

@[simp] theorem acceptedReply_part (op : Nat) (h : Hdr) (n : Nat) (s : State) : ((acceptedReply op h n s).2).part = s.part := by cases h with | mk p _ _ _ _ _ => cases p <;> rfl
@[simp] theorem acceptedReply_larder (op : Nat) (h : Hdr) (n : Nat) (s : State) : ((acceptedReply op h n s).2).larder = s.larder := by cases h with | mk p _ _ _ _ _ => cases p <;> rfl
@[simp] theorem acceptedReply_dev (op : Nat) (h : Hdr) (n : Nat) (s : State) : ((acceptedReply op h n s).2).dev = s.dev := by cases h with | mk p _ _ _ _ _ => cases p <;> rfl
@[simp] theorem acceptedReply_clk (op : Nat) (h : Hdr) (n : Nat) (s : State) : ((acceptedReply op h n s).2).clk = s.clk := by cases h with | mk p _ _ _ _ _ => cases p <;> rfl
@[simp] theorem acceptedReply_time (op : Nat) (h : Hdr) (n : Nat) (s : State) : ((acceptedReply op h n s).2).time = s.time := by cases h with | mk p _ _ _ _ _ => cases p <;> rfl
@[simp] theorem acceptedReply_tens (op : Nat) (h : Hdr) (n : Nat) (s : State) : ((acceptedReply op h n s).2).tens = s.tens := by cases h with | mk p _ _ _ _ _ => cases p <;> rfl
@[simp] theorem acceptedReply_queues (op : Nat) (h : Hdr) (n : Nat) (s : State) : ((acceptedReply op h n s).2).queues = s.queues := by cases h with | mk p _ _ _ _ _ => cases p <;> rfl
@[simp] theorem acceptedReply_pcie (op : Nat) (h : Hdr) (n : Nat) (s : State) : ((acceptedReply op h n s).2).pcie = s.pcie := by cases h with | mk p _ _ _ _ _ => cases p <;> rfl
@[simp] theorem acceptedReply_jobs (op : Nat) (h : Hdr) (n : Nat) (s : State) : ((acceptedReply op h n s).2).jobs = s.jobs := by cases h with | mk p _ _ _ _ _ => cases p <;> rfl
@[simp] theorem acceptedReply_progs (op : Nat) (h : Hdr) (n : Nat) (s : State) : ((acceptedReply op h n s).2).progs = s.progs := by cases h with | mk p _ _ _ _ _ => cases p <;> rfl
@[simp] theorem acceptedReply_loads (op : Nat) (h : Hdr) (n : Nat) (s : State) : ((acceptedReply op h n s).2).loads = s.loads := by cases h with | mk p _ _ _ _ _ => cases p <;> rfl
@[simp] theorem acceptedReply_cls (op : Nat) (h : Hdr) (n : Nat) (s : State) : ((acceptedReply op h n s).2).cls = s.cls := by cases h with | mk p _ _ _ _ _ => cases p <;> rfl
@[simp] theorem acceptedReply_halos (op : Nat) (h : Hdr) (n : Nat) (s : State) : ((acceptedReply op h n s).2).halos = s.halos := by cases h with | mk p _ _ _ _ _ => cases p <;> rfl
@[simp] theorem acceptedReply_cld0 (op : Nat) (h : Hdr) (n : Nat) (s : State) : ((acceptedReply op h n s).2).cld0 = s.cld0 := by cases h with | mk p _ _ _ _ _ => cases p <;> rfl
@[simp] theorem acceptedReply_cld1 (op : Nat) (h : Hdr) (n : Nat) (s : State) : ((acceptedReply op h n s).2).cld1 = s.cld1 := by cases h with | mk p _ _ _ _ _ => cases p <;> rfl
@[simp] theorem acceptedReply_eth (op : Nat) (h : Hdr) (n : Nat) (s : State) : ((acceptedReply op h n s).2).eth = s.eth := by cases h with | mk p _ _ _ _ _ => cases p <;> rfl
@[simp] theorem acceptedReply_ctxs (op : Nat) (h : Hdr) (n : Nat) (s : State) : ((acceptedReply op h n s).2).ctxs = s.ctxs := by cases h with | mk p _ _ _ _ _ => cases p <;> rfl
@[simp] theorem acceptedReply_maps (op : Nat) (h : Hdr) (n : Nat) (s : State) : ((acceptedReply op h n s).2).maps = s.maps := by cases h with | mk p _ _ _ _ _ => cases p <;> rfl
@[simp] theorem acceptedReply_tpos (op : Nat) (h : Hdr) (n : Nat) (s : State) : ((acceptedReply op h n s).2).tpos = s.tpos := by cases h with | mk p _ _ _ _ _ => cases p <;> rfl
@[simp] theorem acceptedReply_tcis (op : Nat) (h : Hdr) (n : Nat) (s : State) : ((acceptedReply op h n s).2).tcis = s.tcis := by cases h with | mk p _ _ _ _ _ => cases p <;> rfl
@[simp] theorem acceptedReply_launch (op : Nat) (h : Hdr) (n : Nat) (s : State) : ((acceptedReply op h n s).2).launch = s.launch := by cases h with | mk p _ _ _ _ _ => cases p <;> rfl
@[simp] theorem acceptedReply_fctxs (op : Nat) (h : Hdr) (n : Nat) (s : State) : ((acceptedReply op h n s).2).fctxs = s.fctxs := by cases h with | mk p _ _ _ _ _ => cases p <;> rfl
@[simp] theorem acceptedReply_fclosed (op : Nat) (h : Hdr) (n : Nat) (s : State) : ((acceptedReply op h n s).2).fclosed = s.fclosed := by cases h with | mk p _ _ _ _ _ => cases p <;> rfl
@[simp] theorem acceptedReply_ctxLeft (op : Nat) (h : Hdr) (n : Nat) (s : State) : ((acceptedReply op h n s).2).ctxLeft = s.ctxLeft := by cases h with | mk p _ _ _ _ _ => cases p <;> rfl
@[simp] theorem acceptedReply_feng0 (op : Nat) (h : Hdr) (n : Nat) (s : State) : ((acceptedReply op h n s).2).feng0 = s.feng0 := by cases h with | mk p _ _ _ _ _ => cases p <;> rfl
@[simp] theorem acceptedReply_feng1 (op : Nat) (h : Hdr) (n : Nat) (s : State) : ((acceptedReply op h n s).2).feng1 = s.feng1 := by cases h with | mk p _ _ _ _ _ => cases p <;> rfl
@[simp] theorem acceptedReply_rctxs (op : Nat) (h : Hdr) (n : Nat) (s : State) : ((acceptedReply op h n s).2).rctxs = s.rctxs := by cases h with | mk p _ _ _ _ _ => cases p <;> rfl
@[simp] theorem acceptedReply_rwait (op : Nat) (h : Hdr) (n : Nat) (s : State) : ((acceptedReply op h n s).2).rwait = s.rwait := by cases h with | mk p _ _ _ _ _ => cases p <;> rfl
@[simp] theorem acceptedReply_disps (op : Nat) (h : Hdr) (n : Nat) (s : State) : ((acceptedReply op h n s).2).disps = s.disps := by cases h with | mk p _ _ _ _ _ => cases p <;> rfl
@[simp] theorem acceptedReply_ras (op : Nat) (h : Hdr) (n : Nat) (s : State) : ((acceptedReply op h n s).2).ras = s.ras := by cases h with | mk p _ _ _ _ _ => cases p <;> rfl
@[simp] theorem acceptedReply_ces (op : Nat) (h : Hdr) (n : Nat) (s : State) : ((acceptedReply op h n s).2).ces = s.ces := by cases h with | mk p _ _ _ _ _ => cases p <;> rfl
@[simp] theorem acceptedReply_pwms (op : Nat) (h : Hdr) (n : Nat) (s : State) : ((acceptedReply op h n s).2).pwms = s.pwms := by cases h with | mk p _ _ _ _ _ => cases p <;> rfl
@[simp] theorem acceptedReply_sds (op : Nat) (h : Hdr) (n : Nat) (s : State) : ((acceptedReply op h n s).2).sds = s.sds := by cases h with | mk p _ _ _ _ _ => cases p <;> rfl
@[simp] theorem acceptedReply_encs (op : Nat) (h : Hdr) (n : Nat) (s : State) : ((acceptedReply op h n s).2).encs = s.encs := by cases h with | mk p _ _ _ _ _ => cases p <;> rfl
@[simp] theorem acceptedReply_ioPend (op : Nat) (h : Hdr) (n : Nat) (s : State) : ((acceptedReply op h n s).2).ioPend = s.ioPend := by cases h with | mk p _ _ _ _ _ => cases p <;> rfl
@[simp] theorem acceptedReply_dieTick (op : Nat) (h : Hdr) (n : Nat) (s : State) : ((acceptedReply op h n s).2).dieTick = s.dieTick := by cases h with | mk p _ _ _ _ _ => cases p <;> rfl
@[simp] theorem acceptedReply_mem (op : Nat) (h : Hdr) (n : Nat) (s : State) : ((acceptedReply op h n s).2).mem = s.mem := by cases h with | mk p _ _ _ _ _ => cases p <;> rfl
@[simp] theorem acceptedReply_bwr (op : Nat) (h : Hdr) (n : Nat) (s : State) : ((acceptedReply op h n s).2).bwr = s.bwr := by cases h with | mk p _ _ _ _ _ => cases p <;> rfl
@[simp] theorem acceptedReply_skk (op : Nat) (h : Hdr) (n : Nat) (s : State) : ((acceptedReply op h n s).2).skk = s.skk := by cases h with | mk p _ _ _ _ _ => cases p <;> rfl
@[simp] theorem acceptedReply_gwy (op : Nat) (h : Hdr) (n : Nat) (s : State) : ((acceptedReply op h n s).2).gwy = s.gwy := by cases h with | mk p _ _ _ _ _ => cases p <;> rfl
@[simp] theorem acceptedReply_sls (op : Nat) (h : Hdr) (n : Nat) (s : State) : ((acceptedReply op h n s).2).sls = s.sls := by cases h with | mk p _ _ _ _ _ => cases p <;> rfl
@[simp] theorem acceptedReply_chn (op : Nat) (h : Hdr) (n : Nat) (s : State) : ((acceptedReply op h n s).2).chn = s.chn := by cases h with | mk p _ _ _ _ _ => cases p <;> rfl
@[simp] theorem acceptedReply_pow (op : Nat) (h : Hdr) (n : Nat) (s : State) : ((acceptedReply op h n s).2).pow = s.pow := by cases h with | mk p _ _ _ _ _ => cases p <;> rfl
@[simp] theorem acceptedReply_fws (op : Nat) (h : Hdr) (n : Nat) (s : State) : ((acceptedReply op h n s).2).fws = s.fws := by cases h with | mk p _ _ _ _ _ => cases p <;> rfl
@[simp] theorem acceptedReply_heldCpl (op : Nat) (h : Hdr) (n : Nat) (s : State) : ((acceptedReply op h n s).2).heldCpl = s.heldCpl := by cases h with | mk p _ _ _ _ _ => cases p <;> rfl
@[simp] theorem acceptedReply_freeCtr (op : Nat) (h : Hdr) (n : Nat) (s : State) : ((acceptedReply op h n s).2).freeCtr = s.freeCtr := by cases h with | mk p _ _ _ _ _ => cases p <;> rfl
@[simp] theorem acceptedReply_pending (op : Nat) (h : Hdr) (n : Nat) (s : State) : ((acceptedReply op h n s).2).pending = s.pending := by cases h with | mk p _ _ _ _ _ => cases p <;> rfl

/-! ## setDevSt -/

@[simp] theorem setDevSt_part (n : DevSt) (s : State) : (setDevSt n s).part = s.part := rfl
@[simp] theorem setDevSt_larder (n : DevSt) (s : State) : (setDevSt n s).larder = s.larder := rfl
@[simp] theorem setDevSt_clk (n : DevSt) (s : State) : (setDevSt n s).clk = s.clk := rfl
@[simp] theorem setDevSt_time (n : DevSt) (s : State) : (setDevSt n s).time = s.time := rfl
@[simp] theorem setDevSt_tens (n : DevSt) (s : State) : (setDevSt n s).tens = s.tens := rfl
@[simp] theorem setDevSt_queues (n : DevSt) (s : State) : (setDevSt n s).queues = s.queues := rfl
@[simp] theorem setDevSt_pcie (n : DevSt) (s : State) : (setDevSt n s).pcie = s.pcie := rfl
@[simp] theorem setDevSt_jobs (n : DevSt) (s : State) : (setDevSt n s).jobs = s.jobs := rfl
@[simp] theorem setDevSt_progs (n : DevSt) (s : State) : (setDevSt n s).progs = s.progs := rfl
@[simp] theorem setDevSt_loads (n : DevSt) (s : State) : (setDevSt n s).loads = s.loads := rfl
@[simp] theorem setDevSt_sch (n : DevSt) (s : State) : (setDevSt n s).sch = s.sch := rfl
@[simp] theorem setDevSt_cls (n : DevSt) (s : State) : (setDevSt n s).cls = s.cls := rfl
@[simp] theorem setDevSt_halos (n : DevSt) (s : State) : (setDevSt n s).halos = s.halos := rfl
@[simp] theorem setDevSt_cld0 (n : DevSt) (s : State) : (setDevSt n s).cld0 = s.cld0 := rfl
@[simp] theorem setDevSt_cld1 (n : DevSt) (s : State) : (setDevSt n s).cld1 = s.cld1 := rfl
@[simp] theorem setDevSt_eth (n : DevSt) (s : State) : (setDevSt n s).eth = s.eth := rfl
@[simp] theorem setDevSt_ctxs (n : DevSt) (s : State) : (setDevSt n s).ctxs = s.ctxs := rfl
@[simp] theorem setDevSt_maps (n : DevSt) (s : State) : (setDevSt n s).maps = s.maps := rfl
@[simp] theorem setDevSt_tpos (n : DevSt) (s : State) : (setDevSt n s).tpos = s.tpos := rfl
@[simp] theorem setDevSt_tcis (n : DevSt) (s : State) : (setDevSt n s).tcis = s.tcis := rfl
@[simp] theorem setDevSt_launch (n : DevSt) (s : State) : (setDevSt n s).launch = s.launch := rfl
@[simp] theorem setDevSt_fctxs (n : DevSt) (s : State) : (setDevSt n s).fctxs = s.fctxs := rfl
@[simp] theorem setDevSt_fclosed (n : DevSt) (s : State) : (setDevSt n s).fclosed = s.fclosed := rfl
@[simp] theorem setDevSt_ctxLeft (n : DevSt) (s : State) : (setDevSt n s).ctxLeft = s.ctxLeft := rfl
@[simp] theorem setDevSt_feng0 (n : DevSt) (s : State) : (setDevSt n s).feng0 = s.feng0 := rfl
@[simp] theorem setDevSt_feng1 (n : DevSt) (s : State) : (setDevSt n s).feng1 = s.feng1 := rfl
@[simp] theorem setDevSt_rctxs (n : DevSt) (s : State) : (setDevSt n s).rctxs = s.rctxs := rfl
@[simp] theorem setDevSt_rwait (n : DevSt) (s : State) : (setDevSt n s).rwait = s.rwait := rfl
@[simp] theorem setDevSt_disps (n : DevSt) (s : State) : (setDevSt n s).disps = s.disps := rfl
@[simp] theorem setDevSt_ras (n : DevSt) (s : State) : (setDevSt n s).ras = s.ras := rfl
@[simp] theorem setDevSt_ces (n : DevSt) (s : State) : (setDevSt n s).ces = s.ces := rfl
@[simp] theorem setDevSt_pwms (n : DevSt) (s : State) : (setDevSt n s).pwms = s.pwms := rfl
@[simp] theorem setDevSt_sds (n : DevSt) (s : State) : (setDevSt n s).sds = s.sds := rfl
@[simp] theorem setDevSt_encs (n : DevSt) (s : State) : (setDevSt n s).encs = s.encs := rfl
@[simp] theorem setDevSt_ioPend (n : DevSt) (s : State) : (setDevSt n s).ioPend = s.ioPend := rfl
@[simp] theorem setDevSt_dieTick (n : DevSt) (s : State) : (setDevSt n s).dieTick = s.dieTick := rfl
@[simp] theorem setDevSt_mem (n : DevSt) (s : State) : (setDevSt n s).mem = s.mem := rfl
@[simp] theorem setDevSt_bwr (n : DevSt) (s : State) : (setDevSt n s).bwr = s.bwr := rfl
@[simp] theorem setDevSt_skk (n : DevSt) (s : State) : (setDevSt n s).skk = s.skk := rfl
@[simp] theorem setDevSt_gwy (n : DevSt) (s : State) : (setDevSt n s).gwy = s.gwy := rfl
@[simp] theorem setDevSt_sls (n : DevSt) (s : State) : (setDevSt n s).sls = s.sls := rfl
@[simp] theorem setDevSt_chn (n : DevSt) (s : State) : (setDevSt n s).chn = s.chn := rfl
@[simp] theorem setDevSt_pow (n : DevSt) (s : State) : (setDevSt n s).pow = s.pow := rfl
@[simp] theorem setDevSt_fws (n : DevSt) (s : State) : (setDevSt n s).fws = s.fws := rfl
@[simp] theorem setDevSt_heldCpl (n : DevSt) (s : State) : (setDevSt n s).heldCpl = s.heldCpl := rfl
@[simp] theorem setDevSt_freeCtr (n : DevSt) (s : State) : (setDevSt n s).freeCtr = s.freeCtr := rfl
@[simp] theorem setDevSt_pending (n : DevSt) (s : State) : (setDevSt n s).pending = s.pending := rfl
@[simp] theorem setDevSt_dev (n : DevSt) (s : State) : (setDevSt n s).dev = { s.dev with st := n, prev := s.dev.st } := rfl

/-! ## modPort -/

@[simp] theorem modPort_part (p : Port) (f : PortSt → PortSt) (s : State) : (modPort p f s).part = s.part := by cases p <;> rfl
@[simp] theorem modPort_larder (p : Port) (f : PortSt → PortSt) (s : State) : (modPort p f s).larder = s.larder := by cases p <;> rfl
@[simp] theorem modPort_dev (p : Port) (f : PortSt → PortSt) (s : State) : (modPort p f s).dev = s.dev := by cases p <;> rfl
@[simp] theorem modPort_clk (p : Port) (f : PortSt → PortSt) (s : State) : (modPort p f s).clk = s.clk := by cases p <;> rfl
@[simp] theorem modPort_time (p : Port) (f : PortSt → PortSt) (s : State) : (modPort p f s).time = s.time := by cases p <;> rfl
@[simp] theorem modPort_tens (p : Port) (f : PortSt → PortSt) (s : State) : (modPort p f s).tens = s.tens := by cases p <;> rfl
@[simp] theorem modPort_queues (p : Port) (f : PortSt → PortSt) (s : State) : (modPort p f s).queues = s.queues := by cases p <;> rfl
@[simp] theorem modPort_pcie (p : Port) (f : PortSt → PortSt) (s : State) : (modPort p f s).pcie = s.pcie := by cases p <;> rfl
@[simp] theorem modPort_jobs (p : Port) (f : PortSt → PortSt) (s : State) : (modPort p f s).jobs = s.jobs := by cases p <;> rfl
@[simp] theorem modPort_progs (p : Port) (f : PortSt → PortSt) (s : State) : (modPort p f s).progs = s.progs := by cases p <;> rfl
@[simp] theorem modPort_loads (p : Port) (f : PortSt → PortSt) (s : State) : (modPort p f s).loads = s.loads := by cases p <;> rfl
@[simp] theorem modPort_sch (p : Port) (f : PortSt → PortSt) (s : State) : (modPort p f s).sch = s.sch := by cases p <;> rfl
@[simp] theorem modPort_cls (p : Port) (f : PortSt → PortSt) (s : State) : (modPort p f s).cls = s.cls := by cases p <;> rfl
@[simp] theorem modPort_halos (p : Port) (f : PortSt → PortSt) (s : State) : (modPort p f s).halos = s.halos := by cases p <;> rfl
@[simp] theorem modPort_cld0 (p : Port) (f : PortSt → PortSt) (s : State) : (modPort p f s).cld0 = s.cld0 := by cases p <;> rfl
@[simp] theorem modPort_cld1 (p : Port) (f : PortSt → PortSt) (s : State) : (modPort p f s).cld1 = s.cld1 := by cases p <;> rfl
@[simp] theorem modPort_eth (p : Port) (f : PortSt → PortSt) (s : State) : (modPort p f s).eth = s.eth := by cases p <;> rfl
@[simp] theorem modPort_ctxs (p : Port) (f : PortSt → PortSt) (s : State) : (modPort p f s).ctxs = s.ctxs := by cases p <;> rfl
@[simp] theorem modPort_maps (p : Port) (f : PortSt → PortSt) (s : State) : (modPort p f s).maps = s.maps := by cases p <;> rfl
@[simp] theorem modPort_tpos (p : Port) (f : PortSt → PortSt) (s : State) : (modPort p f s).tpos = s.tpos := by cases p <;> rfl
@[simp] theorem modPort_tcis (p : Port) (f : PortSt → PortSt) (s : State) : (modPort p f s).tcis = s.tcis := by cases p <;> rfl
@[simp] theorem modPort_launch (p : Port) (f : PortSt → PortSt) (s : State) : (modPort p f s).launch = s.launch := by cases p <;> rfl
@[simp] theorem modPort_fctxs (p : Port) (f : PortSt → PortSt) (s : State) : (modPort p f s).fctxs = s.fctxs := by cases p <;> rfl
@[simp] theorem modPort_fclosed (p : Port) (f : PortSt → PortSt) (s : State) : (modPort p f s).fclosed = s.fclosed := by cases p <;> rfl
@[simp] theorem modPort_ctxLeft (p : Port) (f : PortSt → PortSt) (s : State) : (modPort p f s).ctxLeft = s.ctxLeft := by cases p <;> rfl
@[simp] theorem modPort_feng0 (p : Port) (f : PortSt → PortSt) (s : State) : (modPort p f s).feng0 = s.feng0 := by cases p <;> rfl
@[simp] theorem modPort_feng1 (p : Port) (f : PortSt → PortSt) (s : State) : (modPort p f s).feng1 = s.feng1 := by cases p <;> rfl
@[simp] theorem modPort_rctxs (p : Port) (f : PortSt → PortSt) (s : State) : (modPort p f s).rctxs = s.rctxs := by cases p <;> rfl
@[simp] theorem modPort_rwait (p : Port) (f : PortSt → PortSt) (s : State) : (modPort p f s).rwait = s.rwait := by cases p <;> rfl
@[simp] theorem modPort_disps (p : Port) (f : PortSt → PortSt) (s : State) : (modPort p f s).disps = s.disps := by cases p <;> rfl
@[simp] theorem modPort_ras (p : Port) (f : PortSt → PortSt) (s : State) : (modPort p f s).ras = s.ras := by cases p <;> rfl
@[simp] theorem modPort_ces (p : Port) (f : PortSt → PortSt) (s : State) : (modPort p f s).ces = s.ces := by cases p <;> rfl
@[simp] theorem modPort_pwms (p : Port) (f : PortSt → PortSt) (s : State) : (modPort p f s).pwms = s.pwms := by cases p <;> rfl
@[simp] theorem modPort_sds (p : Port) (f : PortSt → PortSt) (s : State) : (modPort p f s).sds = s.sds := by cases p <;> rfl
@[simp] theorem modPort_encs (p : Port) (f : PortSt → PortSt) (s : State) : (modPort p f s).encs = s.encs := by cases p <;> rfl
@[simp] theorem modPort_ioPend (p : Port) (f : PortSt → PortSt) (s : State) : (modPort p f s).ioPend = s.ioPend := by cases p <;> rfl
@[simp] theorem modPort_dieTick (p : Port) (f : PortSt → PortSt) (s : State) : (modPort p f s).dieTick = s.dieTick := by cases p <;> rfl
@[simp] theorem modPort_mem (p : Port) (f : PortSt → PortSt) (s : State) : (modPort p f s).mem = s.mem := by cases p <;> rfl
@[simp] theorem modPort_bwr (p : Port) (f : PortSt → PortSt) (s : State) : (modPort p f s).bwr = s.bwr := by cases p <;> rfl
@[simp] theorem modPort_skk (p : Port) (f : PortSt → PortSt) (s : State) : (modPort p f s).skk = s.skk := by cases p <;> rfl
@[simp] theorem modPort_gwy (p : Port) (f : PortSt → PortSt) (s : State) : (modPort p f s).gwy = s.gwy := by cases p <;> rfl
@[simp] theorem modPort_sls (p : Port) (f : PortSt → PortSt) (s : State) : (modPort p f s).sls = s.sls := by cases p <;> rfl
@[simp] theorem modPort_chn (p : Port) (f : PortSt → PortSt) (s : State) : (modPort p f s).chn = s.chn := by cases p <;> rfl
@[simp] theorem modPort_pow (p : Port) (f : PortSt → PortSt) (s : State) : (modPort p f s).pow = s.pow := by cases p <;> rfl
@[simp] theorem modPort_fws (p : Port) (f : PortSt → PortSt) (s : State) : (modPort p f s).fws = s.fws := by cases p <;> rfl
@[simp] theorem modPort_heldCpl (p : Port) (f : PortSt → PortSt) (s : State) : (modPort p f s).heldCpl = s.heldCpl := by cases p <;> rfl
@[simp] theorem modPort_freeCtr (p : Port) (f : PortSt → PortSt) (s : State) : (modPort p f s).freeCtr = s.freeCtr := by cases p <;> rfl
@[simp] theorem modPort_pending (p : Port) (f : PortSt → PortSt) (s : State) : (modPort p f s).pending = s.pending := by cases p <;> rfl

/-! ## takeFree -/

@[simp] theorem takeFree_part (s : State) : ((takeFree s).2).part = s.part := rfl
@[simp] theorem takeFree_larder (s : State) : ((takeFree s).2).larder = s.larder := rfl
@[simp] theorem takeFree_dev (s : State) : ((takeFree s).2).dev = s.dev := rfl
@[simp] theorem takeFree_clk (s : State) : ((takeFree s).2).clk = s.clk := rfl
@[simp] theorem takeFree_time (s : State) : ((takeFree s).2).time = s.time := rfl
@[simp] theorem takeFree_hp0 (s : State) : ((takeFree s).2).hp0 = s.hp0 := rfl
@[simp] theorem takeFree_hp1 (s : State) : ((takeFree s).2).hp1 = s.hp1 := rfl
@[simp] theorem takeFree_tens (s : State) : ((takeFree s).2).tens = s.tens := rfl
@[simp] theorem takeFree_queues (s : State) : ((takeFree s).2).queues = s.queues := rfl
@[simp] theorem takeFree_pcie (s : State) : ((takeFree s).2).pcie = s.pcie := rfl
@[simp] theorem takeFree_jobs (s : State) : ((takeFree s).2).jobs = s.jobs := rfl
@[simp] theorem takeFree_progs (s : State) : ((takeFree s).2).progs = s.progs := rfl
@[simp] theorem takeFree_loads (s : State) : ((takeFree s).2).loads = s.loads := rfl
@[simp] theorem takeFree_sch (s : State) : ((takeFree s).2).sch = s.sch := rfl
@[simp] theorem takeFree_cls (s : State) : ((takeFree s).2).cls = s.cls := rfl
@[simp] theorem takeFree_halos (s : State) : ((takeFree s).2).halos = s.halos := rfl
@[simp] theorem takeFree_cld0 (s : State) : ((takeFree s).2).cld0 = s.cld0 := rfl
@[simp] theorem takeFree_cld1 (s : State) : ((takeFree s).2).cld1 = s.cld1 := rfl
@[simp] theorem takeFree_eth (s : State) : ((takeFree s).2).eth = s.eth := rfl
@[simp] theorem takeFree_ctxs (s : State) : ((takeFree s).2).ctxs = s.ctxs := rfl
@[simp] theorem takeFree_maps (s : State) : ((takeFree s).2).maps = s.maps := rfl
@[simp] theorem takeFree_tpos (s : State) : ((takeFree s).2).tpos = s.tpos := rfl
@[simp] theorem takeFree_tcis (s : State) : ((takeFree s).2).tcis = s.tcis := rfl
@[simp] theorem takeFree_launch (s : State) : ((takeFree s).2).launch = s.launch := rfl
@[simp] theorem takeFree_fctxs (s : State) : ((takeFree s).2).fctxs = s.fctxs := rfl
@[simp] theorem takeFree_fclosed (s : State) : ((takeFree s).2).fclosed = s.fclosed := rfl
@[simp] theorem takeFree_ctxLeft (s : State) : ((takeFree s).2).ctxLeft = s.ctxLeft := rfl
@[simp] theorem takeFree_feng0 (s : State) : ((takeFree s).2).feng0 = s.feng0 := rfl
@[simp] theorem takeFree_feng1 (s : State) : ((takeFree s).2).feng1 = s.feng1 := rfl
@[simp] theorem takeFree_rctxs (s : State) : ((takeFree s).2).rctxs = s.rctxs := rfl
@[simp] theorem takeFree_rwait (s : State) : ((takeFree s).2).rwait = s.rwait := rfl
@[simp] theorem takeFree_disps (s : State) : ((takeFree s).2).disps = s.disps := rfl
@[simp] theorem takeFree_ras (s : State) : ((takeFree s).2).ras = s.ras := rfl
@[simp] theorem takeFree_ces (s : State) : ((takeFree s).2).ces = s.ces := rfl
@[simp] theorem takeFree_pwms (s : State) : ((takeFree s).2).pwms = s.pwms := rfl
@[simp] theorem takeFree_sds (s : State) : ((takeFree s).2).sds = s.sds := rfl
@[simp] theorem takeFree_encs (s : State) : ((takeFree s).2).encs = s.encs := rfl
@[simp] theorem takeFree_ioPend (s : State) : ((takeFree s).2).ioPend = s.ioPend := rfl
@[simp] theorem takeFree_dieTick (s : State) : ((takeFree s).2).dieTick = s.dieTick := rfl
@[simp] theorem takeFree_mem (s : State) : ((takeFree s).2).mem = s.mem := rfl
@[simp] theorem takeFree_bwr (s : State) : ((takeFree s).2).bwr = s.bwr := rfl
@[simp] theorem takeFree_skk (s : State) : ((takeFree s).2).skk = s.skk := rfl
@[simp] theorem takeFree_gwy (s : State) : ((takeFree s).2).gwy = s.gwy := rfl
@[simp] theorem takeFree_sls (s : State) : ((takeFree s).2).sls = s.sls := rfl
@[simp] theorem takeFree_chn (s : State) : ((takeFree s).2).chn = s.chn := rfl
@[simp] theorem takeFree_pow (s : State) : ((takeFree s).2).pow = s.pow := rfl
@[simp] theorem takeFree_fws (s : State) : ((takeFree s).2).fws = s.fws := rfl
@[simp] theorem takeFree_heldCpl (s : State) : ((takeFree s).2).heldCpl = s.heldCpl := rfl
@[simp] theorem takeFree_pending (s : State) : ((takeFree s).2).pending = s.pending := rfl
@[simp] theorem takeFree_fst (s : State) : (takeFree s).1 = s.freeCtr := rfl
@[simp] theorem takeFree_freeCtr (s : State) : (takeFree s).2.freeCtr = s.freeCtr + 1 := rfl

/-! ## Ports -/

theorem replyUse_port (op : Nat) (h : Hdr) (st : Nat) (d : List Byte) (s : State) :
    (replyUse op h st d s).port h.port = { s.port h.port with
      out := (s.port h.port).out ++ [mkReply op h st d], kept := some (h.tag.toNat, mkReply op h st d),
      expSeq := (h.seq.toNat + 1) % 65536 } := by
  cases h with | mk p _ _ _ _ _ => cases p <;> rfl

theorem okReply_port (op : Nat) (h : Hdr) (d : List Byte) (s : State) :
    (okReply op h d s).port h.port = { s.port h.port with
      out := (s.port h.port).out ++ [mkReply op h OK d], kept := some (h.tag.toNat, mkReply op h OK d),
      expSeq := (h.seq.toNat + 1) % 65536 } := replyUse_port op h OK d s

theorem replyUse_port_ne (op : Nat) (h : Hdr) (st : Nat) (d : List Byte) (s : State) {q : Port} (hq : q ≠ h.port) :
    (replyUse op h st d s).port q = s.port q := by
  cases h with | mk p _ _ _ _ _ => cases p <;> cases q <;> first | rfl | exact absurd rfl hq

theorem offer_port (p : Port) (op : Nat) (d : List Byte) (s : State) :
    (offer p op d s).port p = (s.port p).offer op d := by cases p <;> rfl

theorem PortSt.offer_closed {v : PortSt} (op : Nat) (d : List Byte) (h : v.openS = false) : v.offer op d = v := by
  simp [PortSt.offer, h]

/-- Making room only discards events: what a port's session holds stays. -/
theorem makeRoom_frame (k n : Nat) (v : PortSt) :
    (makeRoom k n v).openS = v.openS ∧ (makeRoom k n v).secure = v.secure ∧ (makeRoom k n v).kept = v.kept
    ∧ (makeRoom k n v).expSeq = v.expSeq ∧ (makeRoom k n v).inb = v.inb ∧ (makeRoom k n v).awaiting = v.awaiting
    ∧ (makeRoom k n v).begun = v.begun ∧ (makeRoom k n v).evCount = v.evCount := by
  induction k generalizing v with
  | zero => simp [makeRoom]
  | succ k ih =>
    simp only [makeRoom]
    split
    · simp
    · split
      · simpa [PortSt.discard] using ih _
      · simp

/-- An event leaves a port's session, sequence number, kept reply, input and awaited completions alone. -/
theorem PortSt.offer_frame (v : PortSt) (op : Nat) (d : List Byte) :
    (v.offer op d).openS = v.openS ∧ (v.offer op d).secure = v.secure ∧ (v.offer op d).kept = v.kept
    ∧ (v.offer op d).expSeq = v.expSeq ∧ (v.offer op d).inb = v.inb ∧ (v.offer op d).awaiting = v.awaiting
    ∧ (v.offer op d).begun = v.begun := by
  unfold PortSt.offer
  split
  · dsimp only
    split
    · simp [PortSt.putAhead]
    · split
      · split <;> (split <;> simp [PortSt.putAhead, PortSt.discard, makeRoom_frame])
      · split <;> simp [PortSt.discard]
  · simp

/-- A completion leaves a port's session, sequence number and kept reply alone. -/
theorem PortSt.complete_frame (v : PortSt) (t st : Nat) (d : List Byte) :
    (v.complete t st d).openS = v.openS ∧ (v.complete t st d).secure = v.secure ∧ (v.complete t st d).kept = v.kept
    ∧ (v.complete t st d).expSeq = v.expSeq ∧ (v.complete t st d).inb = v.inb
    ∧ (v.complete t st d).evCount = v.evCount := by
  unfold PortSt.complete
  split
  · simp
  · split <;> simp

/-- A port that does not await a command is left alone by its completion. -/
theorem PortSt.complete_of_not_awaiting {v : PortSt} {t : Nat} (st : Nat) (d : List Byte)
    (h : v.awaiting.find? (fun w => w.tok == t) = none) : v.complete t st d = v := by
  simp [PortSt.complete, h]

/-- No processor restarts: no completion waits. -/
theorem cplHeld_of_none_restarting {s : State} (t : Nat) (h : ∀ p, s.fwDown p = false) : cplHeld t s = false := by
  simp only [cplHeld, List.any_eq_false, Bool.and_eq_true, not_and]
  intro w _ _
  cases cplProc w.opcode <;> simp [h]

/-- A completion is placed at once on the port that awaits it, unless its processor restarts (R350). -/
theorem complete_of_not_held {t : Nat} {s : State} (st : Nat) (d : List Byte) (h : cplHeld t s = false) :
    complete t st d s = completeNow t st d s := by
  simp [complete, h]

theorem completeNow_port (t st : Nat) (d : List Byte) (s : State) (p : Port) :
    (completeNow t st d s).port p = (s.port p).complete t st d := by cases p <;> rfl

/-! ## Tables -/

theorem State.ten_setTen (s : State) (t u : Nat) (v : Tenant) :
    (s.setTen t v).ten u = if u = t then v else s.ten u := by
  simp only [State.ten, State.setTen, Map.getD, Map.get?_set]; split <;> simp_all

theorem State.cl_setCl (s : State) (n k : Nat) (c : Cluster) : (s.setCl n c).cl k = if k = n then c else s.cl k := by
  simp only [State.cl, State.setCl, Map.getD, Map.get?_set]; split <;> simp_all

theorem State.ce_setCe (s : State) (n k : Nat) (e : Engine) : (s.setCe n e).ce k = if k = n then e else s.ce k := by
  simp only [State.ce, State.setCe, Map.getD, Map.get?_set]; split <;> simp_all

theorem modJob_get? (id k : Nat) (f : Job → Job) (s : State) :
    (modJob id f s).jobs.get? k = if k = id then (s.jobs.get? k).map f else s.jobs.get? k := by
  unfold modJob
  split
  · split <;> simp_all
  · simp only [Map.get?_set]; split <;> simp_all

theorem modProg_get? (g k : Nat) (f : Prog → Prog) (s : State) :
    (modProg g f s).progs.get? k = if k = g then (s.progs.get? k).map f else s.progs.get? k := by
  unfold modProg
  split
  · split <;> simp_all
  · simp only [Map.get?_set]; split <;> simp_all

/-! ## DRAM -/

/-- A write stores its bytes and drops cache lines: every field but memory and the clusters stays. -/
theorem dramWrite_dram (a : Nat) (bs : List Byte) (s : State) :
    (dramWrite a bs s).mem.dram = s.mem.dram.writeN a bs := by
  unfold dramWrite
  cases bs <;> simp [dropLines, Mem.writeN]

theorem dramRead_dramWrite (a : Nat) (bs : List Byte) (s : State) : dramRead (dramWrite a bs s) a bs.length = bs := by
  rw [dramRead, dramWrite_dram, Mem.readN_writeN]

theorem dramWrite_frame (a : Nat) (bs : List Byte) (s : State) :
    { dramWrite a bs s with mem := s.mem, cls := s.cls } = s := by
  unfold dramWrite; split <;> simp [dropLines]

@[simp] theorem zeroPages_dram (p n : Nat) (s : State) :
    (zeroPages p n s).mem.dram = s.mem.dram.zeroRange (p * 2 ^ 20) (n * 2 ^ 20) := rfl

theorem zeroPages_frame (p n : Nat) (s : State) : { zeroPages p n s with mem := s.mem, cls := s.cls } = s := rfl

/-! ## Entry to SAFE -/

/-- A cause detected after the latch changes nothing (R333). -/
theorem latchSafe_of_latched {s : State} (cause prog detail : Nat) (h : s.skk.latched = true) :
    latchSafe cause prog detail s = s := by
  simp [latchSafe, h]

/-- States that SAFE is not entered from ignore a cause (R333). -/
theorem latchSafe_of_not_safeFrom {s : State} (cause prog detail : Nat) (h : safeFrom s cause = false) :
    latchSafe cause prog detail s = s := by
  simp [latchSafe, h]


end Sys2Proof.Machine
end

