-- ==== Sys2Proof/WellFormed.lean ====
section
/-! DEFINITION. Well-formed commands: every operand that names an instance, a field or a word lies in the range the
manual gives it (R16, R46, Table 7 of chapter 00). The meanings are total: a command that is not well formed has the
effect of naming what does not exist. -/

namespace Sys2Proof

/-- PARAMS of a packet (R46). -/
def psOk (ps : List Byte) : Bool := decide (ps.length ≤ 4096)
/-- A tenant, a queue, a cluster (R16, R70). -/
def tenantOk (n : Nat) : Bool := decide (n < 64)
def queueOk (n : Nat) : Bool := decide (n < 16)
def clusterOk (n : Nat) : Bool := decide (n < 12)
/-- A 32-bit word that a host writes. -/
def wordOk (n : Nat) : Bool := decide (n < 2 ^ 32)
/-- A host write to the doorbell BAR (R174), with a value that a write of its size can carry. -/
def doorOk (w : DoorWrite) : Bool := decide (w.val < 256 ^ w.size)
/-- A Skink core, a display, a display CRC region, a render context, a fusion context. -/
def coreOk (n : Nat) : Bool := decide (n < 3)
def dispOk (n : Nat) : Bool := decide (n < 4)
def regionOk (n : Nat) : Bool := decide (n < 4)
def rctxOk (n : Nat) : Bool := decide (n < 16)
def fctxOk (n : Nat) : Bool := decide (n < 4)
/-- A control engine, a loop, a sigma-delta or encoder channel. -/
def engineOk (n : Nat) : Bool := decide (n < 16)
def loopOk (n : Nat) : Bool := decide (n < 64)
def chanOk (n : Nat) : Bool := decide (n < 64)
/-- A MAC, a stream context, a Svajor port and its lane. -/
def macOk (n : Nat) : Bool := decide (n < 8)
def streamOk (n : Nat) : Bool := decide (n < 96)
def slOk (n : Nat) : Bool := decide (n < 8)
def laneOk (n : Nat) : Bool := decide (n < 5)
/-- A compute die, an edge die. -/
def cdieOk (n : Nat) : Bool := decide (n < 2)
def edieOk (n : Nat) : Bool := decide (n < 4)

/-- The operands of a command lie in their ranges. -/
def Instr.wf : Instr → Bool
  | .writePacket _ _ _ => true
  | .readReply _ _ _ => true
  | .readPortStatus _ _ => true
  | .portReset _ _ => true
  | .sessionOpen _ ps => psOk ps
  | .sessionClose _ ps => psOk ps
  | .nop _ ps => psOk ps
  | .devStart _ ps => psOk ps
  | .devStop _ ps => psOk ps
  | .devStopComplete => true
  | .devReset _ ps => psOk ps
  | .devResetInit => true
  | .serviceEnter _ ps => psOk ps
  | .serviceExit _ ps => psOk ps
  | .regRead _ ps => psOk ps
  | .regWrite _ ps => psOk ps
  | .regModify _ ps => psOk ps
  | .evLost _ => true
  | .vinValid => true
  | .vinLoss => true
  | .awaitFwEntry => true
  | .selfTestEnd _ => true
  | .refInvalid _ _ => true
  | .refRestored => true
  | .holdLimitExpiry => true
  | .tenantOpen _ ps => psOk ps
  | .tenantQuiesce _ ps => psOk ps
  | .tenantQuiesceDrained _ => true
  | .tenantResume _ ps => psOk ps
  | .tenantReset _ ps => psOk ps
  | .tenantClose _ ps => psOk ps
  | .tenantCloseDrained _ => true
  | .tenantStatus _ ps => psOk ps
  | .queueCreate _ ps => psOk ps
  | .queueDestroy _ ps => psOk ps
  | .queueStatus _ ps => psOk ps
  | .wbankStatus _ ps => psOk ps
  | .wbankOpen _ ps => psOk ps
  | .wbankSubmit _ ps => psOk ps
  | .wbankAbandon _ ps => psOk ps
  | .evalMsExpiry _ => true
  | .writeback _ cl _ _ _ _ => clusterOk cl
  | .blockPairFetch cl _ => clusterOk cl
  | .progLoad _ ps => psOk ps
  | .progLoadComplete _ => true
  | .progFitcheck _ ps => psOk ps
  | .progUnload _ ps => psOk ps
  | .progUnloadDrained _ => true
  | .progReplace _ ps => psOk ps
  | .progReplaceDrained _ => true
  | .progReplaceSwitch _ => true
  | .progInfo _ ps => psOk ps
  | .haloEntryWrite _ _ _ _ _ _ => true
  | .haloEntryRead _ _ _ _ _ _ _ => true
  | .colanderCall _ cl _ => clusterOk cl
  | .colanderCallDone die => cdieOk die
  | .queueRings _ ps => psOk ps
  | .sqTailWrite w => doorOk w
  | .cqHeadWrite w => doorOk w
  | .sqEntryTake tenant queue => tenantOk tenant && queueOk queue
  | .jobSubmit _ ps => psOk ps
  | .jobCancel _ ps => psOk ps
  | .jobStatus _ ps => psOk ps
  | .partitionSet _ ps => psOk ps
  | .partitionGet _ ps => psOk ps
  | .batchJoin _ ps => psOk ps
  | .batchLeave _ ps => psOk ps
  | .batchStatus _ ps => psOk ps
  | .jobDispatch => true
  | .yieldPointStop _ _ _ _ => true
  | .contextSaveDone _ _ => true
  | .jobResume => true
  | .remoteReply _ _ _ _ _ => true
  | .remoteWriteDone _ _ _ => true
  | .parkTimeout _ _ => true
  | .tlimitExpiry _ => true
  | .jobSlotsFinished _ => true
  | .loWordRead _ tenant _ => tenantOk tenant
  | .schTnnActlClr _ tenant => tenantOk tenant
  | .schEpochLoRead _ => true
  | .dramTransaction _ _ _ _ _ _ _ => true
  | .hostBar4Access _ _ _ _ => true
  | .patrolScrub _ => true
  | .memAssign _ ps => psOk ps
  | .memRelease _ ps => psOk ps
  | .memFlags _ ps => psOk ps
  | .memQuery _ ps => psOk ps
  | .memCommandDone _ => true
  | .bwrPeriod _ _ _ _ => true
  | .bwrTnnBloRead _ tenant => tenantOk tenant
  | .streamOpen _ ps => psOk ps
  | .streamClose _ ps => psOk ps
  | .streamStart _ ps => psOk ps
  | .streamStop _ ps => psOk ps
  | .streamStatus _ ps => psOk ps
  | .unitStart _ _ => true
  | .streamPacket _ _ => true
  | .unitEnd _ _ => true
  | .streamHoldExpiry ctx => streamOk ctx
  | .streamDoneWrite w => doorOk w
  | .snsTnowLoRead _ => true
  | .timeCfg _ ps => psOk ps
  | .timeStatus _ ps => psOk ps
  | .timeStep _ ps => psOk ps
  | .syncReceived mac _ _ _ _ => macOk mac
  | .syncTimeout _ => true
  | .ethLinkLoss mac => macOk mac
  | .domainRevert => true
  | .pulseArm _ ps => psOk ps
  | .pulseCancel _ ps => psOk ps
  | .pulseEdge _ => true
  | .captureCfg _ ps => psOk ps
  | .tciEdge _ _ _ => true
  | .launchCfg _ ps => psOk ps
  | .ltailWrite w => doorOk w
  | .launchEntry mac _ _ => macOk mac
  | .fusMapCfg _ ps => psOk ps
  | .fusMapStatus _ ps => psOk ps
  | .fusOpen _ ps => psOk ps
  | .fusClose _ ps => psOk ps
  | .fusCloseDone ctx => fctxOk ctx
  | .fusSensorSet _ ps => psOk ps
  | .fusStatus _ ps => psOk ps
  | .fusSensorStatus _ ps => psOk ps
  | .fusCalibReset _ ps => psOk ps
  | .fusionCall _ cl _ _ => clusterOk cl
  | .fusionCallStart die => cdieOk die
  | .fusionCallDone die => cdieOk die
  | .rasOpen _ ps => psOk ps
  | .rasClose _ ps => psOk ps
  | .rasCloseDone rctx => rctxOk rctx
  | .rasStatus _ ps => psOk ps
  | .renderPassIssue _ cl _ => clusterOk cl
  | .renderPassStart rctx => rctxOk rctx
  | .renderPassDone rctx => rctxOk rctx
  | .dispCfg _ ps => psOk ps
  | .dispTrainingDone disp _ => dispOk disp
  | .dispOff _ ps => psOk ps
  | .dispFlip _ ps => psOk ps
  | .dispStatus _ ps => psOk ps
  | .vblank disp => dispOk disp
  | .underrun disp _ => dispOk disp
  | .hpdChange disp _ => dispOk disp
  | .dispLinkLoss disp => dispOk disp
  | .ctlAssign _ ps => psOk ps
  | .ctlBankWrite _ ps => psOk ps
  | .ctlBankRead _ ps => psOk ps
  | .ctlSwap _ ps => psOk ps
  | .ctlEnable _ ps => psOk ps
  | .ctlDisable _ ps => psOk ps
  | .ctlSetpt _ ps => psOk ps
  | .setpointPageWrite w => doorOk w
  | .ctlStatus _ ps => psOk ps
  | .ctlIoCfg _ ps => psOk ps
  | .ctlTraceCfg _ ps => psOk ps
  | .ctlTraceDump _ ps => psOk ps
  | .ctlTraceDumpDone ce => engineOk ce
  | .engineTick ce _ => engineOk ce
  | .followingErrorTimeout ce loop => engineOk ce && loopOk loop
  | .traceDone ce => engineOk ce
  | .pwmPeriod _ => true
  | .sigmaDeltaOutput _ _ => true
  | .sdClockLoss _ => true
  | .encIllegalTransition _ => true
  | .encIndex _ => true
  | .sentMessage _ _ _ => true
  | .sentTimeout _ => true
  | .channelFaultClear _ _ ch => chanOk ch
  | .skkArm _ ps => psOk ps
  | .skkProgCfg _ ps => psOk ps
  | .skkProgStatus _ ps => psOk ps
  | .skkSafeReq _ ps => psOk ps
  | .sweepDone => true
  | .skkMbox _ ps => psOk ps
  | .skkGoldenNow _ ps => psOk ps
  | .skkBistGet _ ps => psOk ps
  | .skkLtimeLoRead _ => true
  | .skKick => true
  | .skNext => true
  | .skVerdict _ _ _ => true
  | .skRead _ _ _ => true
  | .skPath _ _ _ => true
  | .skDispreg disp region _ _ _ _ => dispOk disp && regionOk region
  | .skDispcrc disp region => dispOk disp && regionOk region
  | .skMbox => true
  | .skTime => true
  | .skSafe _ => true
  | .verdictTimeout _ => true
  | .windowClose _ _ _ _ _ _ _ => true
  | .goldenEligible _ => true
  | .coverageDue _ => true
  | .placementDeadline _ => true
  | .coreDissent core _ => coreOk core
  | .skinkSramError _ => true
  | .skwdtExpiry => true
  | .pinFeedbackMismatch => true
  | .debuggerAttach _ _ _ => true
  | .debugAction _ _ _ => true
  | .heartbeat => true
  | .fwBegin _ ps => psOk ps
  | .fwChunk _ ps => psOk ps
  | .fwEnd _ ps => psOk ps
  | .fwVerifyDone => true
  | .fwInfo _ ps => psOk ps
  | .fwLogRead _ ps => psOk ps
  | .fwRestart _ ps => psOk ps
  | .fwWatchdogExpiry _ => true
  | .fwException _ _ => true
  | .fwRestartDone _ => true
  | .fwSvnCommit _ ps => psOk ps
  | .fwSecChallenge _ ps => psOk ps
  | .fwSecProve _ ps => psOk ps
  | .nonceExpiry _ _ => true
  | .proveLockoutEnd _ => true
  | .fwSskSet _ ps => psOk ps
  | .fwAttest _ ps => psOk ps
  | .fwAttestCert _ ps => psOk ps
  | .fwJournalRead _ ps => psOk ps
  | .fwMcounter _ ps => psOk ps
  | .fwIntkeyBurn _ ps => psOk ps
  | .journalDrain => true
  | .fwsDbgenWrite _ v => wordOk v
  | .gatewayFrame _ _ => true
  | .postedWrite _ => true
  | .errorReport _ _ _ _ _ _ => true
  | .canTxTimeout _ => true
  | .txtailWrite w => doorOk w
  | .rxdoneWrite w => doorOk w
  | .addressClaim _ _ => true
  | .c3Timeout port => slOk port
  | .chainPacketForward _ _ _ _ => true
  | .flitReceived port _ _ _ => slOk port
  | .linkUp port _ _ _ => slOk port
  | .linkTrainingTimeout port => slOk port
  | .linkRetry port => slOk port
  | .linkdlyMeasure port _ _ => slOk port
  | .linkDown port => slOk port
  | .laneSpare port lane _ => slOk port && laneOk lane
  | .joinReq _ => true
  | .portDownReport _ _ => true
  | .epochAdvance _ => true
  | .advance _ _ _ => true
  | .masterLost _ _ => true
  | .remoteTimeout _ _ _ _ _ => true
  | .prepareTimeout _ => true
  | .gwRouteSet _ ps => psOk ps
  | .gwRouteClear _ ps => psOk ps
  | .gwRouteGet _ ps => psOk ps
  | .gwRingCfg _ ps => psOk ps
  | .gwPortCfg _ ps => psOk ps
  | .gwIsoCfg _ ps => psOk ps
  | .chnCfg _ ps => psOk ps
  | .chnLeave _ ps => psOk ps
  | .chnStatus _ ps => psOk ps
  | .chnMembers _ ps => psOk ps
  | .chnEvict _ ps => psOk ps
  | .vinDroop _ => true
  | .railDroop _ _ _ => true
  | .droopRelease _ => true
  | .pmcInterval _ => true
  | .fastLimit _ _ => true
  | .phaseFault die _ => edieOk die
  | .thermalSample _ => true
  | .clusterTrip cl _ => clusterOk cl
  | .wearMeasure _ => true
  | .sramEccError _ => true
  | .pwrStatus _ ps => psOk ps
  | .pwrGate _ ps => psOk ps
  | .pwrGateDone _ _ => true
  | .pwrWearRead _ ps => psOk ps
  | .pwrRetire _ ps => psOk ps
  | .pwrCfgCap _ v => wordOk v
  | .pwrCfgCapmax _ v => wordOk v
  | .pwrCfgDramrate _ v => wordOk v
  | .pwrFselWrite _ v => wordOk v
  | .fmeasWindow _ => true
  | .pwrPowerRead _ => true
  | .clrcntWrite _ cl => clusterOk cl
  | .halostatClrwait _ cl => clusterOk cl
  | .quadratureEdge _ _ => true
  | .remoteRequest _ tenant _ _ _ => tenantOk tenant
  | .chainJobPrepare _ _ => true
  | .chainJobCommit _ _ => true
  | .signalDetected port => slOk port
  | .ethLinkUp mac mbps => macOk mac && [10000, 5000, 2500, 1000, 100].contains mbps
  | .peerDelayMessage mac _ _ => macOk mac
  | .inputMonitorSample _ _ => true

end Sys2Proof
end

