-- ==== Sys2Proof/Tests/Slice0.lean ====
section
/-! SUPPORT. Small tests of single steps, ill-formed commands that WellFormed refuses, and for the statements with
hypotheses concrete states and operands that meet them (theorems wit_…, one conjunct for each clause). -/

namespace Sys2Proof.Tests

open Sys2Proof Sys2Proof.Machine

set_option maxRecDepth 20000
set_option Elab.async false

/-! ## Small states -/

/-- A port with a normal session that expects sequence number 0. -/
def sess : PortSt := { PortSt.init with openS := true }
/-- The reset state moved to a device state, with a normal session on each port. -/
def inSt (d : DevSt) : State :=
  { State.reset with dev := { State.reset.dev with st := d }, hp0 := sess, hp1 := sess }
def rdy : State := inSt .ready
def run : State := inSt .run
/-- The same with a secure session on HP0. -/
def secS (s : State) : State := { s with hp0 := { s.hp0 with secure := true } }
/-- Headers: TAG 7, SEQUENCE 0. -/
def h0 : Hdr := ⟨.hp0, 0xFF, 0xFF, 7, 0, false⟩
def h1 : Hdr := ⟨.hp1, 0xFF, 0xFF, 7, 0, false⟩
def ht (t : Byte) : Hdr := ⟨.hp0, t, 0xFF, 7, 0, false⟩
def hq (t q : Byte) : Hdr := ⟨.hp0, t, q, 7, 0, false⟩
/-- A tenant that is OPEN. -/
def open0 : Tenant := { Tenant.fresh with st := .opened }
def withTen (t : Nat) (s : State) : State := s.setTen t open0
/-- The next state of an outcome. -/
def nxt (o : Host.Outcome State Fault Refusal) (d : State) : State :=
  match o with
  | .next s => s
  | _ => d

/-! ## The queue, ports and events -/

theorem wit_IdleStepAddsInc : rdy.pending = [] ∧ (rdy.dev.st ≠ .off ∧ rdy.dev.st ≠ .init) ∧ rdy.time.rate = 0
    ∧ rdy.clk.hold = false ∧ { rdy.clk with hold := true }.hold = true ∧ (inSt .off).pending = [] ∧ (inSt .off).dev.st = .off ∧ (inSt .init).pending = [] ∧ (inSt .init).dev.st = .init := by
  decide

/-- A kept reply: the packet before the expected one. -/
def keptS : State := { rdy with hp0 := { sess with expSeq := 1, kept := some (7, mkReply 0x0103 h0 OK []) } }

theorem wit_RetransmissionAndBadSequence :
    cNop ∈ cmdTable ∧ cNop.opcode ≠ sessionOpenOp ∧ (rdy.port h0.port).openS = true
    ∧ h0.seq.toNat = (rdy.port h0.port).expSeq
    ∧ (keptS.port h0.port).openS = true ∧ h0.seq.toNat ≠ (keptS.port h0.port).expSeq
    ∧ (h0.seq.toNat + 1) % 65536 = (keptS.port h0.port).expSeq
    ∧ (keptS.port h0.port).kept = some (h0.tag.toNat, mkReply 0x0103 h0 OK [])
    ∧ (65535 : BitVec 16).toNat ≠ (rdy.port .hp0).expSeq ∧ (rdy.port .hp0).kept = none := by
  refine ⟨by simp [cmdTable], ?_⟩; decide

theorem wit_RefusedCommandHasNoEffect : cNop ∈ cmdTable ∧ cNop.opcode ≠ 0x0A21
    ∧ cDevStop ∈ cmdTable ∧ cDevStop.opcode ≠ 0x0A21 ∧ cDevStop.refusedBy h0 [] rdy = true
    ∧ cDevStart.refusedBy h0 [0] rdy = true ∧ cDevStart.refusedBy h1 [] rdy = true
    ∧ cRegRead.refusedBy h0 (readPs 3) rdy = true ∧ cDevStart.verdict h0 [0] rdy ≠ OK
    ∧ cDevStart.refusedBy { h0 with inconsistent := true } [] rdy = true
    ∧ cDevStart.verdict { h0 with inconsistent := true } [] rdy = OK := by
  refine ⟨by simp [cmdTable], by decide, by simp [cmdTable], ?_⟩; decide

/-- One reply of 16 bytes waits. -/
def waits : State := { rdy with hp0 := { sess with out := [mkReply 0x0103 h0 OK [1, 2]] } }

/-- Command phases of the four transactions (Table 2 of chapter 02), and one with a wrong second byte. -/
def phW : CmdPhase := ⟨0x12, 0xED⟩
def phR : CmdPhase := ⟨0x13, 0xEC⟩
def phBad : CmdPhase := ⟨0x05, 0x05⟩

theorem wit_ReadReply : waits.portsUp = true ∧ phaseOk 0x13 phR = true := by decide
theorem wit_PortStatusAndPortReset : rdy.portsUp = true ∧ phaseOk 0x05 ⟨0x05, 0xFA⟩ = true ∧ phaseOk 0xF0 ⟨0xF0, 0x0F⟩ = true
    ∧ phaseOk 0x12 phBad = false ∧ phaseOk 0x13 phBad = false ∧ phaseOk 0x05 phBad = false ∧ phaseOk 0xF0 phBad = false := by
  decide
/-- A packet read short stays; read whole it leaves (R44). -/
theorem test_read_short : ((PortSt.readReply 15 waits.hp0).out.length = 1) ∧ (PortSt.readReply 16 waits.hp0).out = [] := by
  decide

theorem wit_WirePacket : rdy.portsUp = true ∧ phaseOk 0x12 phW = true ∧ (rdy.port .hp0).openS = true ∧ (rdy.port .hp0).inb = []
    ∧ (rdy.port .hp0).expSeq = (0 : BitVec 16).toNat ∧ (rdy.port .hp0).admits 0 4096 4096 = true := by decide

/-- The published check value of CRC-32C: nine digits (R47). -/
theorem test_crc32c : crc32c [0x31, 0x32, 0x33, 0x34, 0x35, 0x36, 0x37, 0x38, 0x39] = 0xE3069283 := by decide

/-- Events wait and 12 KiB are full. -/
def lostS : State := { rdy with hp0 := { sess with lostEv := 0xFFFF, lostSafety := 1 } }

theorem wit_EventsNeverDisplaceReplies : sess.openS = true ∧ PortSt.init.openS = false
    ∧ ({ sess with begun := true } : PortSt).begun = true
    ∧ (lostS.port .hp0).openS = true ∧ (lostS.port .hp0).lostEv ≠ 0 ∧ (lostS.port .hp0).plainRoom 18 = true
    ∧ (lostS.port .hp0).lostEv ≤ 0xFFFF ∧ (lostS.port .hp0).lostSafety ≤ 0xFFFF := by decide
/-- A newer EV_SKSTAT takes the older one's place, and a reply of that opcode stays (R68). -/
theorem test_skstat_once : (((sess.offer evSkstatOp [1]).offer evSkstatOp [2]).out.map (·.data) = [[2]])
    ∧ (({ sess with out := [mkReply evSkstatOp h0 BAD_OPCODE []] } : PortSt).offer evSkstatOp [2]).out.length = 2 := by
  decide

theorem wit_SessionCommands : cNop.taken h0 [5] rdy = true ∧ cSessionClose.taken h1 [] rdy = true
    ∧ cSessionOpen.taken h1 [0, 0, 0, 0] (inSt .safe) = true ∧ u32 [0, 0, 0, 0] 0 = 0
    ∧ cSessionOpen.taken h0 [1, 0, 0, 0] { rdy with hp0 := { sess with proveOk := true } } = true
    ∧ u32 [1, 0, 0, 0] 0 = 1
    ∧ (let w : Await := ⟨3, 0x0104, 7, 0, 0, false⟩; w.live = false
        ∧ ({ sess with awaiting := [w] } : PortSt).awaiting.find? (fun x => x.tok == w.tok) = some w) := by decide

/-- SERVICE entered from SAFE, and from READY. -/
def svcSafe : State := { inSt .service with dev := { (inSt .service).dev with svcFromSafe := true } }

theorem wit_DeviceStateCommands : cDevStart.taken h0 [] rdy = true ∧ cDevStop.taken h0 [] run = true
    ∧ cDevReset.taken h0 (leBytes 4 0xA55A) rdy = true ∧ cDevReset.taken h1 (leBytes 4 0xA55A) svcSafe = true
    ∧ cServiceEnter.taken h0 [] (inSt .awaitFw) = true ∧ (inSt .awaitFw).dev.st = .awaitFw
    ∧ cServiceEnter.taken h1 [] (inSt .safe) = true ∧ (inSt .safe).dev.st ≠ .awaitFw
    ∧ cServiceEnter.taken h0 [] rdy = true ∧ cServiceExit.taken h0 [] (inSt .service) = true := by decide
/-- From SAFE, DEV_RESET on HP0 and SERVICE_EXIT from such a SERVICE are refused (R57, R62). -/
theorem test_safe_held : cDevReset.verdict h0 (leBytes 4 0xA55A) (inSt .safe) = DENIED
    ∧ cServiceExit.verdict h0 [] svcSafe = STATE := by decide

/-- DEV_STOP waits and no job runs. -/
def stopS : State := { run with dev := { run.dev with stopTok := some 3 } }
def resetS : State := { rdy with dev := { rdy.dev with resetPend := true } }

theorem wit_SupplyAndStartEvents : stopS.dev.stopTok = some 3 ∧ stopS.running = true ∧ stopS.inFlight = 0
    ∧ stopS.fwDown fwSch = false ∧ resetS.dev.resetPend = true ∧ (inSt .off).dev.st = .off ∧ rdy.dev.st ≠ .off ∧ (inSt .init).dev.st = .init
    ∧ (inSt .init).clk.refOk = true ∧ ({ (inSt .init) with clk := { rdy.clk with refOk := false } } : State).dev.st = .init
    ∧ (inSt .selfTest).dev.st = .selfTest ∧ (inSt .selfTest).dev.svcArmed = false
    ∧ { (inSt .selfTest).dev with svcArmed := true }.st = .selfTest
    ∧ (inSt .selfTest).skk.bistFail = 0 ∧ (inSt .selfTest).larder.seclive = false := by decide
/-- BOOT counts the start (R360), RESETS the reset (R62). -/
theorem test_start : (nxt (exec .awaitFwEntry (inSt .init)) rdy).larder.boot = 2
    ∧ (nxt (exec .devResetInit resetS) rdy).dev.resets = 1 := by decide

def holdS : State := { run with clk := { run.clk with hold := true, holdMs := 100, holdRunT := 12500001 } }
def pmcDown : State := { run with fws := { run.fws with restarting := run.fws.restarting.set fwPmc 1 } }

theorem wit_ReferenceEvents : (true || false) = true ∧ (inSt .off).dev.st = .off ∧ (inSt .init).dev.st = .init
    ∧ holdS.dev.st ≠ .off ∧ holdS.dev.st ≠ .init ∧ holdS.clk.hold = true ∧ run.dev.st ≠ .off ∧ run.dev.st ≠ .init
    ∧ run.clk.hold = false ∧ holdS.running = true ∧ holdS.clk.holdMs * 125000 < holdS.clk.holdRunT
    ∧ run.fwDown fwPmc = false ∧ pmcDown.fwDown fwPmc = true := by decide
/-- At HOLD_MS exactly nothing latches; one tick more does (R35). -/
theorem test_hold_limit : { holdS.clk with holdRunT := 12500000 }.holdOver = false ∧ holdS.clk.holdOver = true := by decide

/-! ## Registers -/

theorem wit_Hp1RefusesOtherGroups : cDevStart ∈ cmdTable ∧ cTenantOpen ∈ cmdTable ∧ cRegWrite ∈ cmdTable
    ∧ h1.port = .hp1 ∧ rdy.portsUp = true ∧ rdy.hp1.openS = true ∧ h1.seq.toNat = rdy.hp1.expSeq
    ∧ rdy.hp1.admits 0 cTenantOpen.maxReply 0 = true ∧ cTenantOpen.lenOk [] = true
    ∧ cTenantOpen.opcode / 256 ≠ 0x01 ∧ cTenantOpen.opcode / 256 ≠ 0x09 ∧ cTenantOpen.opcode ≠ 0x0A21
    ∧ cRegWrite.lenOk (writePs 0x00900000 0) = true ∧ rdy.hp1.admits 0 cRegWrite.maxReply 12 = true
    ∧ cRegWrite.opcode = 0x0111 ∧ ¬ (0x00800000 ≤ u32 (writePs 0x00900000 0) 0 ∧ u32 (writePs 0x00900000 0) 0 < 0x00900000)
    ∧ ¬ (0x00800000 ≤ u32 (writePs 0x007FFFFC 0) 0) := by
  refine ⟨by simp [cmdTable], by simp [cmdTable], by simp [cmdTable], ?_⟩; decide

theorem wit_RegisterCommandsAndMask : (regAt ⟨.hp0, false⟩ 0x00000000 rdy).isSome = true
    ∧ cRegRead.taken h0 (readPs 0x00000008) (inSt .awaitFw) = true
    ∧ cRegWrite.taken h0 (writePs 0x00C00110 0) rdy = true
    ∧ cRegModify.taken h0 (modPs 0x00C00004 0x300 0x100) rdy = true
    ∧ (let f : RField := rw 4 2 3 (fun _ s => s); f.acc = .rw ∧ f.val < 2 ^ f.w)
    ∧ (ro 0 1 1).acc = .ro ∧ (w1c 0 true (fun s => s)).acc = .w1c ∧ (w1c 0 true (fun s => s)).w = 1 := by decide
/-- The magic word of a part and the state of AWAIT_FW (Table 12 of chapter 02). -/
theorem test_ids_state : wordAt ⟨.hp0, false⟩ 0x00000008 State.reset % 16 = 2 := by decide

theorem wit_RegisterRowsReadAndWrite :
    cRegRead.taken h0 (readPs 0x00104000) rdy = true ∧ hides (viewer h0 rdy) 0 rdy = false
    ∧ cRegRead.taken h0 (readPs (0x00104000 + 63 * 0x100 + 8)) rdy = true ∧ hides (viewer h0 rdy) 63 rdy = false
    ∧ cRegRead.taken h0 (readPs 0x00100030) rdy = true ∧ cRegRead.taken h0 (readPs (0x00301004 + 63 * 0x10)) rdy = true
    ∧ cRegRead.taken h0 (readPs 0x00400000) rdy = true ∧ cRegRead.taken h1 (readPs 0x00800014) rdy = true
    ∧ cRegRead.taken h0 (readPs 0x00C0000C) rdy = true
    ∧ cRegWrite.taken h0 (writePs (0x0010401C + 63 * 0x100) 1) rdy = true
    ∧ cRegWrite.taken h0 (writePs 0x00C00110 0x102) rdy = true
    ∧ cRegModify.taken h0 (modPs (0x01000400 + 11 * 0x100000) 0x80000000 0x80000000) rdy = true
    ∧ cRegModify.taken h0 (modPs (0x01000420 + 11 * 0x100000) 0x80000000 0x80000000) rdy = true := by decide
/-- Channels of a secure tenant: hidden from the normal session. -/
def hidS : State :=
  { rdy.setTen 0 { open0 with secure := true } with
    sds := ⟨[(63, { SdCh.fresh with owner := some 0 })]⟩, encs := ⟨[(31, { EncCh.fresh with owner := some 0 })]⟩ }
theorem wit_RegisterRowsHidden : (hidS.sd 63).owner = some 0 ∧ (hidS.enc 31).owner = some 0
    ∧ hides (viewer h0 hidS) 0 hidS = true
    ∧ cRegModify.taken h0 (modPs (0x00702000 + 63 * 0x10) 2 2) hidS = true
    ∧ cRegModify.taken h0 (modPs (0x00703000 + 31 * 0x10) 2 2) hidS = true := by decide
theorem wit_RegisterRowsWrite :
    cRegModify.taken h0 (modPs 0x00702000 2 2) rdy = true ∧ (rdy.sd 0).owner = none
    ∧ cRegModify.taken h0 (modPs 0x00703000 2 2) rdy = true ∧ (rdy.enc 0).owner = none
    ∧ rdy.pow.inFields = true ∧ cRegModify.taken h0 (modPs 0x00C00004 0xFF000000 (6 * 2 ^ 24)) rdy = true
    ∧ cRegModify.taken h0 (modPs 0x00C00004 0x00FF0000 (7 * 2 ^ 16)) rdy = true
    ∧ cRegModify.taken h0 (modPs 0x00C00004 0x00000300 (2 * 2 ^ 8)) rdy = true
    ∧ cRegWrite.taken h0 (writePs 0x00900020 0x3010F) (secS rdy) = true ∧ ((secS rdy).port h0.port).secure = true
    ∧ (secS rdy).part.fdisSid = false ∧ (secS rdy).part.fdisNsid = false
    ∧ (secS rdy).fws.lockS = false ∧ (secS rdy).fws.lockNs = false := by decide


/-! ## Ill-formed commands are refused by the check of their operands -/

theorem wf_ps : (Instr.nop h0 (zeros 4097)).wf = false ∧ (Instr.nop h0 (zeros 4096)).wf = true := by decide +kernel
theorem wf_door : (Instr.sqTailWrite ⟨0, 4, 2 ^ 32⟩).wf = false ∧ (Instr.sqTailWrite ⟨0x3F3C0, 4, 2 ^ 32 - 1⟩).wf = true
    ∧ (Instr.cqHeadWrite ⟨4, 1, 256⟩).wf = false := by decide
theorem wf_cluster : (Instr.clusterTrip 12 0).wf = false ∧ (Instr.clusterTrip 11 0).wf = true := by decide
theorem wf_core : (Instr.coreDissent 3 true).wf = false ∧ (Instr.coreDissent 2 true).wf = true := by decide
theorem wf_display_region : (Instr.skDispcrc 4 0).wf = false ∧ (Instr.skDispcrc 0 4).wf = false ∧ (Instr.skDispcrc 3 3).wf = true := by
  decide
theorem wf_contexts : (Instr.rasCloseDone 16).wf = false ∧ (Instr.fusCloseDone 4).wf = false
    ∧ (Instr.rasCloseDone 15).wf = true ∧ (Instr.fusCloseDone 3).wf = true := by decide
theorem wf_engine_loop : (Instr.followingErrorTimeout 16 0).wf = false ∧ (Instr.followingErrorTimeout 0 64).wf = false
    ∧ (Instr.followingErrorTimeout 15 63).wf = true := by decide
theorem wf_channel : (Instr.channelFaultClear h0 true 64).wf = false ∧ (Instr.channelFaultClear h0 true 63).wf = true := by decide
theorem wf_mac_stream : (Instr.ethLinkLoss 8).wf = false ∧ (Instr.streamHoldExpiry 96).wf = false
    ∧ (Instr.ethLinkLoss 7).wf = true ∧ (Instr.streamHoldExpiry 95).wf = true := by decide
theorem wf_svajor_lane : (Instr.laneSpare 8 0 0).wf = false ∧ (Instr.laneSpare 0 5 0).wf = false ∧ (Instr.laneSpare 7 4 0).wf = true := by
  decide
theorem wf_dies : (Instr.fusionCallStart 2).wf = false ∧ (Instr.phaseFault 4 0).wf = false
    ∧ (Instr.fusionCallStart 1).wf = true ∧ (Instr.phaseFault 3 0).wf = true := by decide
/-- The table gives no row any bits: no word spells a command. -/
theorem test_words : decodeTableWord 8 0 = none ∧ rdy.withFetchWord 8 0 = rdy := by decide
/-! ## Tenants, queues and jobs -/

/-- A frame program with no tensors, slots on tile T0 of cluster 0, of tenant 0. -/
def img0 : Image :=
  { kind := 0, flags := 0, nlc := 1, nfmode := 0, slotBytes := 0, dramBytes := 0, bankStride := 0, bankBytes := 0,
    fmtver := 1, iface := [], tensors := [], halos := [], golden := [], trains := 0, trainMs := 0, fctxs := [],
    halosD := [], lcs := [], resAt := [], weights := [], parts := [], sched := [], storeBytes := 0 }
def bind0 : LcBind := ⟨0, false, 1, false, 0, none, [0], [], [], [], 1, 1⟩
def prog0 : Prog :=
  { tenant := 0, img := img0, imageNo := 0, regBase := 0, regSize := 0, batch := 0, binds := [bind0], old := [],
    live := 0, gen := 0, sb := .free, sbHost := false, sbJob := none, reason := 0, cand := none, candSigs := [],
    evalTok := none, evalMs := 0, evalLeft := 0, stopped := false, unloadTok := none, replacing := false, gwin := 0, gwinOn := 0,
    verdictUs := 0, retries := 0, gelig := 0, chkId := 0, expected := [], covered := false, eligible := false,
    gNext := 0, gPasses := 0, lastPass := 0, due := 0, lapsed := false, frames := [], mismatch := 0, recent := [],
    members := [], changes := [], steps := 0 }
/-- A sequence program, batch 4 of 64 KiB slots. -/
def seq0 : Prog := { prog0 with img := { img0 with kind := 1, slotBytes := 65536 }, batch := 4 }
def withProg (p : Prog) (s : State) : State := { s with progs := s.progs.set 1 p }
def withJob (j : Job) (s : State) : State := { s with jobs := s.jobs.set 5 j }
def withQueue (t q : Nat) (v : Queue) (s : State) : State := { s with queues := s.queues.set (qkey t q) v }
/-- A job of program 1 on queue 0 of tenant 0. -/
def job0 : Job := { Job.blank with queue := 0, prog := 1, tiles := [0] }
/-- It runs on its tile. -/
def job1 : Job := { job0 with st := .running, hold := ⟨[(0, 0)]⟩ }
def workS : State := withJob job0 (withProg prog0 (withQueue 0 0 (Queue.fresh 1 16) (withTen 0 run)))
def runS : State := withJob job1 workS

theorem wit_TenantLifeCycle : cTenantOpen.taken (ht 63) [] rdy = true ∧ cTenantQuiesce.taken (ht 63) [] (withTen 63 rdy) = true
    ∧ cTenantClose.taken (ht 63) [] (withTen 63 rdy) = true ∧ cTenantStatus.taken (ht 0) [] (withTen 0 rdy) = true
    ∧ cTenantResume.taken (ht 0) [] (rdy.setTen 0 { open0 with st := .quiesced }) = true
    ∧ cTenantReset.taken (ht 0) [] (rdy.setTen 0 { open0 with st := .faulted }) = true
    ∧ ((rdy.setTen 0 { open0 with draining := true }).ten 0).draining = true
    ∧ tenBusy (rdy.setTen 0 { open0 with draining := true }) 0 = false
    ∧ ((rdy.setTen 0 { open0 with closing := true }).ten 0).closing = true
    ∧ tenBusy (rdy.setTen 0 { open0 with closing := true }) 0 = false := by decide
/-- A tenant number of 64 is no tenant (R70); a tenant with a running job is busy. -/
theorem test_tenants : cTenantOpen.verdict (ht 64) [] rdy = BAD_PARAM ∧ tenBusy runS 0 = true
    ∧ cTenantResume.verdict (ht 0) [] (withTen 0 rdy) = STATE := by decide

/-- A ring-fed queue of 16 entries at the foot of the tenant's page 3. -/
def ring0 : Queue := { Queue.fresh 1 16 with rings := some (3 * 2 ^ 20, 3 * 2 ^ 20 + 4096), sqTail := 1 }
def owned (pg t : Nat) (s : State) : State :=
  { s with mem := { s.mem with own := s.mem.own.set pg ⟨t, false, false, false, false⟩ } }
def ringS : State := owned 3 0 (withQueue 0 15 ring0 (withTen 0 run))
def ringPs : List Byte := leBytes 8 (3 * 2 ^ 20) ++ leBytes 8 (3 * 2 ^ 20 + 4096)

theorem wit_QueuesDoorbellsAndRings :
    cQueueCreate.taken (hq 0 15) [1, 0, 16, 0] (withTen 0 rdy) = true
    ∧ cQueueDestroy.taken (hq 0 15) [] (withQueue 0 15 (Queue.fresh 1 16) (withTen 0 rdy)) = true
    ∧ cQueueStatus.taken (hq 0 15) [] (withQueue 0 15 (Queue.fresh 1 16) (withTen 0 rdy)) = true
    ∧ (withQueue 0 15 (Queue.fresh 1 16) (withTen 0 rdy)).queues.get? 15 = some (Queue.fresh 1 16)
    ∧ cQueueRings.taken (hq 0 15) ringPs (owned 3 0 (withQueue 0 15 (Queue.fresh 1 16) (withTen 0 rdy))) = true
    ∧ ringS.queues.get? (qkey 0 15) = some ring0 ∧ ring0.rings.isSome = true ∧ (ringS.ten 0).st = .opened
    ∧ sqAhead ring0 16 ≤ ring0.depth ∧ ring0.depth < sqAhead ring0 17
    ∧ rdy.queues.get? (qkey 63 15) = none ∧ (workS.queues.get? (qkey 0 0)).map (·.rings) = some none
    ∧ ringS.fwDown fwSch = false ∧ ringS.dev.st ∈ [DevSt.ready, .run, .degraded, .service] ∧ ring0.overrun = false
    ∧ queueDoor ⟨0x3F3C0, 4, 0⟩ = some (63, 15, 0) ∧ queueDoor ⟨0x3F3C4, 4, 0⟩ = some (63, 15, 4)
    ∧ queueDoor ⟨2, 4, 0⟩ = none ∧ queueDoor ⟨0, 8, 0⟩ = none ∧ queueDoor ⟨0x40000, 4, 0⟩ = none
    ∧ accessCheck ringS (accSch 0) (3 * 2 ^ 20) 64 = 0 ∧ rtLocked ringS (3 * 2 ^ 20) 64 = false
    ∧ sqAhead ring0 ring0.sqTail ≠ 0 ∧ queueJobs ringS 0 15 < ring0.depth ∧ cqOwed ring0 + queueJobs ringS 0 15 < ring0.depth := by
  decide

def desc0 : List Byte := [1, 0, 0, 0] ++ zeros 60

theorem wit_JobCommands : workS.queues.get? (qkey 0 0) = some (Queue.fresh 1 16)
    ∧ cJobSubmit.taken (hq 0 0) desc0 workS = true
    ∧ findJob workS 0 0 0 = some (5, job0)
    ∧ cJobCancel.taken (hq 0 0) [0, 0, 0, 0] (withQueue 0 0 { Queue.fresh 1 16 with nextSeq := 1 } workS) = true
    ∧ cJobStatus.taken (hq 0 0) [0, 0, 0, 0] (withQueue 0 0 { Queue.fresh 1 16 with nextSeq := 1 } workS) = true
    ∧ findJob workS 0 0 1 = none
    ∧ cJobCancel.taken (hq 0 0) [1, 0, 0, 0] (withQueue 0 0 { Queue.fresh 1 16 with nextSeq := 2 } workS) = true
    ∧ cJobStatus.taken (hq 0 0) [1, 0, 0, 0] (withQueue 0 0 { Queue.fresh 1 16 with nextSeq := 2 } workS) = true := by
  decide

def part40 : List Byte := leBytes 2 0x1FFF ++ zeros 22 ++ [188] ++ zeros 11 ++ leBytes 2 1024 ++ leBytes 2 1
def seqS : State := withProg seq0 (withTen 0 run)

theorem wit_PartitionAndBatchCommands : cPartitionSet.taken (ht 0) part40 (withTen 0 rdy) = true
    ∧ cPartitionGet.taken (ht 0) [] (withTen 0 rdy) = true ∧ ((withTen 0 rdy).ten 0).st ≠ .closed
    ∧ cPartitionGet.taken (ht 63) [] rdy = true ∧ (rdy.ten 63).st = .closed
    ∧ seqS.progs.get? 1 = some seq0 ∧ cBatchJoin.taken (ht 0) ([1, 0, 4, 0] ++ leBytes 4 9) seqS = true
    ∧ cBatchLeave.taken (ht 0) ([1, 0, 0, 0] ++ leBytes 4 9)
        (withProg { seq0 with members := [⟨9, 1, [0]⟩] } seqS) = true
    ∧ cBatchStatus.taken (ht 0) [1, 0, 0, 0] seqS = true := by decide

/-- A latency-critical job waits; a golden test is due; a pre-empted job waits. -/
def lcS : State := withJob { job0 with lc := true } workS
def goldS : State := withProg { prog0 with
  img := { img0 with flags := 1 }, expected := [0], covered := true, eligible := true } (withTen 0 run)
def preS : State := withJob { job0 with st := .preempted } workS

theorem wit_DispatchOrder : mayDispatch lcS = true ∧ pickLc lcS = some 5
    ∧ mayDispatch goldS = true ∧ pickLc goldS = none ∧ pickGolden goldS = some 1
    ∧ pickLc workS = none ∧ pickGolden workS = none ∧ pickResume workS = none ∧ pickBe workS = some 5
    ∧ workS.jobs.get? 5 = some job0 ∧ workS.progs.get? job0.prog = some prog0 ∧ job0.kind = 0 ∧ job0.role = .user
    ∧ job0.isEval = false
    ∧ (preS.running || preS.dev.st == .service) = true ∧ pickResume preS = some 5
    ∧ preS.jobs.get? 5 = some { job0 with st := .preempted } ∧ job0.pendMis = false
    ∧ olderWork preS 5 = false ∧ olderWork (withJob { job0 with st := .preempted, pendMis := true } workS) 5 = false := by decide
/-- No latency-critical job starts on a tile that another holds; a best-effort one waits for a pre-empted one (R182). -/
theorem test_dispatch : pickBe runS = none ∧ pickLc (withJob { job1 with lc := true } workS) = none := by decide

def stopJ : Job := { job1 with stopReq := true }
def preJ (a : Bool) : Job := { job0 with st := .preempted, reads := [⟨0, 3, 0, true, none, false, a⟩] }

theorem wit_PreemptionEvents : (withJob stopJ workS).jobs.get? 5 = some stopJ ∧ stopJ.st = .running ∧ stopJ.stopReq = true
    ∧ stopJ.endAt = none ∧ (stopJ.hold.get? 0).isSome = true ∧ 0 ∉ stopJ.stopped
    ∧ 0 ∈ { stopJ with stopped := [0] }.stopped ∧ stopJ.writes = [] ∧ stopJ.hold = ⟨[(0, 0)]⟩ ∧ stopJ.waitTiles = []
    ∧ (withJob stopJ workS).progs.get? stopJ.prog = some prog0 ∧ prog0.img.paired = false
    ∧ (preJ false).st = .preempted ∧ (preJ false).inFlight = true
    ∧ (preJ false).reads.any (fun r => r.token == 3 && r.parked) = true
    ∧ stopJ.inFlight = true ∧ stopJ.reads.any (fun r => r.token == 3 && (r.parked || r.again)) = false
    ∧ { stopJ with reads := [⟨0, 3, 0, false, none, false, true⟩] }.reads.any (fun r => r.token == 3 && r.parked) = false
    ∧ { stopJ with reads := [⟨0, 3, 0, false, none, false, true⟩] }.reads.any (fun r => r.token == 3 && r.again) = true
    ∧ { stopJ with writes := [⟨3, true⟩] }.writes.any (fun w => w.token == 3 && w.again) = true
    ∧ { stopJ with reads := [⟨0, 3, 0, false, none, true, false⟩] }.reads.any (fun r => r.token == 3 && (r.parked || r.reissue)) = true
    ∧ { stopJ with endAt := some (FAULT, 3) }.endAt = some (FAULT, 3)
    ∧ { stopJ with tlimit := 1 }.tlimit ≠ 0 ∧ { stopJ with st := .committing, tlimit := 1 }.st = .committing := by decide

theorem wit_JobsFinish : runS.jobs.get? 5 = some job1 ∧ job1.st = .running ∧ job1.waitTiles = [] ∧ job1.role = .user
    ∧ (isFrame runS job1 && runS.skk.chkrun && !runS.skk.debug) = false
    ∧ (let s := withProg { prog0 with img := { img0 with flags := 1 } } { runS with skk := { runS.skk with chkrun := true } }
       (isFrame s job1 && s.skk.chkrun && !s.skk.debug) = true)
    ∧ runS.chn.st ≠ 3 ∧ { runS.chn with role := 1, st := 3 }.role = 1 ∧ { job1 with prepared := true }.prepared = true
    ∧ [1, 2].all (fun p => p == 2 || (2 :: [1]).contains p) = true ∧ runS.sch.epoch ≤ 0
    ∧ job1.inFlight = true ∧ { job1 with parts := [1] }.parts ≠ [] ∧ job1.parts = [] ∧ job1.endAt = none
    ∧ { job1 with role := .golden 0 }.role = .golden 0 ∧ { job1 with role := .eval 0 }.role = .eval 0
    ∧ runS.skk.debug = false ∧ { runS.skk with debug := true }.debug = true := by decide

/-! ## Programs -/

/-- A program image at page 3, laid out by Tables 1 to 4 of chapter 04: one logical cluster of one slot with one
granule, empty schedule and interface sections; its two CRCs were computed by hand from the polynomial of R47. -/
def image3 : List (Nat × Byte) :=
  let base := 3 * 2 ^ 20
  [(base + 0, 70), (base + 1, 80), (base + 2, 67), (base + 3, 78), (base + 5, 1), (base + 6, 64),
   (base + 7, 150), (base + 11, 1), (base + 26, 32), (base + 34, 16), (base + 48, 64), (base + 49, 32),
   (base + 60, 215), (base + 61, 40), (base + 62, 87), (base + 63, 36), (base + 128, 1), (base + 130, 1),
   (base + 132, 1), (base + 136, 64), (base + 140, 190), (base + 141, 121), (base + 142, 130),
   (base + 143, 218), (base + 144, 2), (base + 148, 2), (base + 160, 4), (base + 164, 2), (base + 4097, 15),
   (base + 4098, 1), (base + 4100, 1)]
/-- Tenant 0 has tile T0 of cluster 0 and pages 3 to 5. -/
def loadS : State :=
  let s := rdy.setTen 0 { open0 with part := ⟨⟨[(0, 1)]⟩, Map.empty, 0, 1⟩ }
  owned 5 0 (owned 4 0 (owned 3 0 { s with mem := { s.mem with dram := ⟨image3⟩ } }))
/-- PARAMS of PROG_LOAD: the image at page 3, a region of two pages from page 4. -/
def loadPs : List Byte := leBytes 8 (3 * 2 ^ 20) ++ leBytes 8 (4 * 2 ^ 20) ++ leBytes 8 (2 ^ 21) ++ zeros 16
def isFit : LoadRes → Bool
  | .fit _ b _ => b.map (fun x => (x.clA, x.tilesA)) == [(0, [0])]
  | .fail _ _ => false
def isFail : LoadRes → Bool
  | .fit _ _ _ => false
  | .fail _ _ => true
/-- What is being copied beside, or waits to replace, program 1. -/
def load0 : Load := ⟨4, 0, .copying, img0, 0, 0, 0, 0, 0, [bind0], [], none, []⟩
def progS : State := withProg { prog0 with sb := .free } loadS
def replPs : List Byte := loadPs ++ [1, 0, 0, 0]

theorem wit_ProgramLoad : loadsWait loadS = false ∧ cProgLoad.taken (ht 0) loadPs loadS = true ∧ cProgFitcheck.taken (ht 0) loadPs loadS = true
    ∧ isFit (fitCheck (acceptedReply 0x0201 (ht 0) 28 loadS).2 0 loadPs false) = true
    ∧ isFit (fitCheck (acceptedReply 0x0202 (ht 0) 28 loadS).2 0 loadPs false) = true := by decide +kernel
/-- One wrong byte in the image fails its CRC (R114, R119). -/
theorem wit_ProgramLoadFails :
    loadsWait (withTen 0 rdy) = false ∧ cProgLoad.taken (ht 0) loadPs (withTen 0 rdy) = true ∧ cProgFitcheck.taken (ht 0) loadPs (withTen 0 rdy) = true
    ∧ fitCheck (acceptedReply 0x0201 (ht 0) 28 (withTen 0 rdy)).2 0 loadPs false = .fail DENIED []
    ∧ fitCheck (acceptedReply 0x0202 (ht 0) 28 (withTen 0 rdy)).2 0 loadPs false = .fail DENIED []
    ∧ fitCheck { loadS with mem := { loadS.mem with dram := loadS.mem.dram.write (3 * 2 ^ 20 + 4100) 2 } } 0 loadPs false
        = .fail BAD_PARAM [] := by decide +kernel
theorem wit_ProgramLoadAndInfo : ({ loadS with loads := [load0] }.loads[0]? = some load0) ∧ load0.st = .copying
    ∧ load0.replace = none ∧ progS.progs.get? 1 = some prog0
    ∧ cProgUnload.taken (ht 0) [1, 0, 1, 0] progS = true
    ∧ { prog0 with unloadTok := some 4 }.unloadTok.isSome = true ∧ progBusy progS 1 = false
    ∧ cProgInfo.taken (ht 0) [1, 0, 0, 0] progS = true ∧ (ht 0).tenant ≠ 0xFF
    ∧ cProgInfo.taken h0 [0, 0, 0, 0] rdy = true ∧ h0.tenant = 0xFF := by decide

/-- A MODE 1 replacement whose program drains, and a load behind it. -/
def drain0 : Load := { load0 with st := .draining, replace := some (1, 1), params := replPs, binds := [] }
theorem wit_ProgramLoadWaits : cProgLoad.taken (ht 0) loadPs { loadS with loads := [drain0] } = true
    ∧ loadsWait { loadS with loads := [drain0] } = true
    ∧ step1Ok (acceptedReply 0x0201 (ht 0) 28 { loadS with loads := [drain0] }).2 0 loadPs = true := by decide +kernel

def progFit : Prog := { prog0 with img := mkImage loadS (3 * 2 ^ 20) (dramRead loadS (3 * 2 ^ 20) 256),
                                   regBase := 4 * 2 ^ 20, regSize := 2 ^ 21, binds := [] }
theorem wit_ProgramReplacement : cProgReplace.taken (ht 0) (loadPs ++ [1, 0, 1, 0]) progS = true
    ∧ u8 (loadPs ++ [1, 0, 1, 0]) 42 = 1 ∧ cProgReplace.taken (ht 0) replPs progS = true ∧ u8 replPs 42 = 0
    ∧ step1Ok (acceptedReply 0x0204 (ht 0) 28 progS).2 0 (loadPs ++ [1, 0, 1, 0]) = true
    ∧ step1Ok (acceptedReply 0x0204 (ht 0) 28 (withProg prog0 (withTen 0 rdy))).2 0 (loadPs ++ [1, 0, 1, 0]) = false
    ∧ cProgReplace.taken (ht 0) (loadPs ++ [1, 0, 1, 0]) (withProg prog0 (withTen 0 rdy)) = true
    ∧ loadsWait progS = false ∧ progS.progs.get? (u16 replPs 40) = some prog0
    ∧ isFail (replaceCheck (acceptedReply 0x0204 (ht 0) 28 progS).2 0 prog0 (loadPs ++ [1, 0, 0, 0])) = true
    ∧ isFit (replaceCheck (acceptedReply 0x0204 (ht 0) 28 (withProg progFit loadS)).2 0 progFit replPs) = true
    ∧ loadsWait (withProg progFit loadS) = false := by decide +kernel
theorem wit_ProgramReplacementDrains :
    let s := { withProg progFit loadS with loads := [drain0] }
    loadOf s 1 .draining = some drain0 ∧ progBusy s 1 = false ∧ drain0.replace = some (1, 1)
    ∧ s.loads.filter (fun x => x.tok == drain0.tok) = [drain0]
    ∧ s.loads.all (fun x => x.tok == drain0.tok || x.st == .copying) = true
    ∧ isFit (replaceCheck (asFree 1 progFit (endDrain drain0 s)) 0 progFit replPs) = true
    ∧ loadOf { progS with loads := [{ load0 with replace := some (1, 0) }] } 1 .copying
        = some { load0 with replace := some (1, 0) }
    ∧ prog0.sb = .free := by decide +kernel

theorem wit_WeightBankCommands : progS.progs.get? 1 = some prog0 ∧ cWbankStatus.taken (ht 0) [1, 0, 0, 0] progS = true
    ∧ cWbankOpen.taken (ht 0) [1, 0, 0, 0] progS = true
    ∧ cWbankSubmit.taken (ht 0) ([1, 0] ++ leBytes 2 10000) (withProg { prog0 with sb := .writing, sbHost := true } loadS) = true
    ∧ cWbankAbandon.taken (ht 0) [1, 0, 0, 0] (withProg { prog0 with sb := .accepted } loadS) = true
    ∧ { prog0 with sb := .evaluating }.sb = .evaluating := by decide

/-! ## Arithmetic, windows and the Colander -/

theorem wit_QuantiserPicksSmallestScale : 2 ≤ 4 ∧ (0x3F800000 : Nat) ≠ 0
    ∧ fdecode fp32 0x3F800000 = .fin false 8388608 (-23) ∧ (1 : Nat) ≤ 2 ∧ 2 < scaleByte 4 0x3F800000
    ∧ scaleByte 4 0x3F800000 < 0xFF := by decide +kernel
/-- Round to nearest, ties to even (R77, R79): 1 + 2 is 3, and 1 + 2^-24 is 1. -/
theorem test_fadd : fadd 0x3F800000 0x40000000 = 0x40400000 ∧ fadd 0x3F800000 0x33800000 = 0x3F800000 := by decide +kernel

theorem wit_IntegerAccumulationSaturates : -(2 ^ 31 : Int) ≤ 2 ^ 31 - 1 ∧ ([1] : List Int).foldl addInt (2 ^ 31 - 1, false) = (2 ^ 31 - 1, true)
    ∧ ([-1] : List Int).foldl addInt (-(2 ^ 31), false) = (-(2 ^ 31), true)
    ∧ ([5] : List Int).foldl addInt (-2, false) = (3, false) := by decide

/-- One sum, and a sum with a NaN, written as FP32 at the foot of the tile's SRAM. -/
def src1 : WbSrc := .vec (.add false (.const [[0x3F800000]]) (.const [[0x40000000]]))
def srcN : WbSrc := .vec (.add false (.const [[0x7FC00000]]) (.const [[0x40000000]]))
def dest0 : WbDest := ⟨some 0, 0, 4, 0, 0, 0, .other⟩
/-- One block of one ZQ4 group in tile SRAM, with data at 0 and scales at 1,024: an empty SRAM holds FMT 0, which is
not that of the format; with both headers in place the comparison passes. -/
def zq0 : Streams := ⟨.zq 4 64, some 0, 0, 1024, 3, 145⟩
def pair0 (t : Streams) : PairFetch := ⟨5, [0], none, 0, t, 3, some (0, 4096, 8192)⟩
def hdr0 : List Byte := [3, 0, BitVec.ofNat 8 (fmtOf (.zq 4 64)), 1]
def pairS : State := sramWrite 5 0 0 1024 hdr0 (sramWrite 5 0 0 0 hdr0 runS)
def acc0 : AccBlk := ⟨15, none, []⟩

theorem wit_TileResultsAndSkew : runS.jobs.get? 5 = some job1 ∧ job1.st = .running ∧ wbFits src1 .f32 dest0 = true
    ∧ wbFits srcN .f32 dest0 = true ∧ roleOk runS job1 dest0 = true ∧ jobNfmode runS job1 = 0
    ∧ wbRows 5 0 0 src1 runS = (some [[0x40400000]], runS) ∧ convTakesFloat .f32 = true
    ∧ ([0x40400000].filter fnonfin).length = 0
    ∧ ((wbRows 5 0 0 srcN runS).1.map (fun r => (r.flatten.filter fnonfin).length)) = some 1
    ∧ (wbRows 5 0 0 (.vec (.load false ⟨zq0, 144, 1, 64, 1, none⟩)) runS).1 = none
    ∧ (loadBlks 5 0 0 (.int 4 4) [acc0] runS).1.isSome = true
    ∧ ([pair0 zq0].foldl (fetchPair 0) ([], pairS)).1 = []
    ∧ ([pair0 zq0].foldl (fetchPair 0) ([], runS)).1 ≠ [] := by decide +kernel
/-- The sum lands in the tile's SRAM, least significant byte first (R10). -/
theorem test_writeback : ((nxt (exec (.writeback 5 0 0 src1 .f32 dest0) runS) runS).cl 0).sram.readN (sramBase 0 0) 4
    = [0, 0, 0x40, 0x40] := by decide +kernel
/-- Two pairs fail at once: the address generator of the lower tile is recorded, both jobs' ends follow (R100). -/
theorem test_pair : ((nxt (exec (.blockPairFetch 0 [{ pair0 zq0 with gen := 3 }, pair0 zq0]) runS) runS).jobs.get? 5) = none := by
  decide +kernel

/-- A program whose slots 0 and 1 share a halo buffer two deep. -/
def haloP : Prog := { prog0 with img := { img0 with halos := [⟨2, 0, 1, 1⟩] }, binds := [{ bind0 with nslot := 2, tilesA := [0, 1] }] }
def haloS (b : List HaloBuf) : State := { withProg haloP runS with halos := b }

theorem wit_HaloCreditsAndStaleRows : (haloS []).jobs.get? 5 = some job1 ∧ (haloDecl (haloS []) job1 0).isSome = true
    ∧ job1.st = .running ∧ (haloBuf (haloS []) 5 0 0 2).space ≠ 0
    ∧ (haloBuf (haloS [⟨5, 0, 0, [(3, 0, [1])], 1⟩]) 5 0 0 2).entries = [(65539 % 65536, job1.dispNo % 256, [1])]
    ∧ sramSpan runS 5 0 0 = (sramBase 0 0, 16384) ∧ sramSpan runS 5 0 13 = (sramBase 0 13, 65536)
    ∧ (sramSpan runS 5 0 1).2 = 0 ∧ (2 ≠ 65539 % 65536 ∨ 0 ≠ job1.dispNo % 256) ∧ (65539 % 65536 ≠ 65539 % 65536 ∨ 1 ≠ job1.dispNo % 256) := by decide

def call0 (lc : Bool) : ClCall := ⟨5, 0, lc, leBytes 4 0x00000000 ++ leBytes 4 0x00010001 ++ zeros 48
  ++ leBytes 8 (2 ^ 48) ++ zeros 8 ++ leBytes 8 (2 ^ 48 + 16) ++ zeros 8 ++ leBytes 8 (2 ^ 48 + 32) ++ zeros 32⟩
def cldS (r : Option ClCall) : State := { runS with cld0 := ⟨r, none, [], false, 0, 0⟩ }

theorem wit_ColanderCallsAndRecords : runS.jobs.get? 5 = some job1 ∧ job1.st = .running ∧ (cldS none |>.cld 0).running = none
    ∧ ((cldS (some (call0 false))).cld 0).running = some (call0 false)
    ∧ (job1.lc && !(call0 false).lc) = false ∧ ({ job1 with lc := true }.lc && !(call0 false).lc) = true
    ∧ cdMode (call0 false).desc 0 = false ∧ cdMode (call0 false).desc 4 = false
    ∧ 2 ^ 48 ≤ u64 (call0 false).desc 56 ∧ 2 ^ 48 ≤ u64 (call0 false).desc 72 ∧ jobNfmode runS job1 = 0
    ∧ u64 (call0 false).desc 56 - 2 ^ 48 + cdN (call0 false).desc * 4 * cdElem (call0 false).desc ≤ (sramSpan runS 5 0 13).2
    ∧ u64 (call0 false).desc 72 - 2 ^ 48 + cdN (call0 false).desc * cdC (call0 false).desc * cdElem (call0 false).desc
        ≤ (sramSpan runS 5 0 13).2
    ∧ (cdRun (call0 false).desc (zeros 16) [] (zeros 4) []).2 = 0
    ∧ (cdRun (call0 false).desc ([0, 0, 0xC0, 0x7F] ++ zeros 12) [] (zeros 4) []).2 ≠ 0 := by decide +kernel

/-! ## Memory -/

/-- Page 3 belongs to tenant 0, and its last byte is the last below page 4. -/
def memS : State := owned 3 0 workS
def lastByte : Nat := 4 * 2 ^ 20 - 1
def runM : State := owned 3 0 runS
/-- Copy B on cluster 1 writes an output at the foot of page 3. -/
def copyM : State :=
  withJob { job1 with outs := [(3 * 2 ^ 20, 64)] } (withProg { prog0 with binds := [{ bind0 with clB := some 1, tilesB := [0] }] } runM)

theorem wit_DramReadsBackWhatWasWritten : ([1] : List Byte) ≠ [] ∧ memS.mem.dram.wf = true := by decide
/-- A write of zeros lists nothing: equal memories are equal data (log 5). -/
theorem test_canonical : (Mem.empty.write 5 1).write 5 0 = Mem.empty ∧ ((Mem.empty.write 7 1).write 5 2).wf = true := by decide

theorem wit_DramAccessesAreChecked : memS.portsUp = true ∧ 1 < memS.nEp ∧ lastByte + 1 ≤ memS.bar4
    ∧ accessCheck memS accHost lastByte 1 = 0 ∧ accessCheck memS accHost lastByte 2 ≠ 0
    ∧ runM.jobs.get? 5 = some job1 ∧ job1.st = .running ∧ copyBOutput runM job1 0 lastByte = false
    ∧ accessCheck runM ⟨0, (runM.ten 0).secure, 0, 0⟩ lastByte 1 = 0
    ∧ copyBOutput copyM { job1 with outs := [(3 * 2 ^ 20, 64)] } 1 (3 * 2 ^ 20) = true
    ∧ accessCheck memS (accBlock memS .sec none) (memS.nAssignable * 2 ^ 20) 64 = 0
    ∧ accessCheck memS (accBlock memS .scrub none) (3 * 2 ^ 20) 64 ≠ 0
    ∧ aheadStop memS lastByte 1 = 1
    ∧ aheadStop { memS with mem := { memS.mem with own := ⟨[(3, ⟨0, false, false, false, true⟩)]⟩ } } lastByte 1 ≠ 0 := by
  decide +kernel
theorem wit_NoPoisonNoLock : (∀ n, poisoned memS lastByte n = false) ∧ (∀ n, rtLocked memS lastByte n = false)
    ∧ (∀ n, poisoned runM lastByte n = false) ∧ (∀ n, rtLocked runM lastByte n = false)
    ∧ (∀ n, poisoned copyM (3 * 2 ^ 20) n = false) ∧ (∀ n, rtLocked copyM (3 * 2 ^ 20) n = false) :=
  ⟨fun _ => rfl, fun _ => rfl, fun _ => rfl, fun _ => rfl, fun _ => rfl, fun _ => rfl⟩
/-- The device blocks alone reach the program store; a page of another tenant fails with reason 2, an unowned one
with reason 1 (R206). -/
theorem test_access : accessCheck memS (accTenant memS 0) (memS.nAssignable * 2 ^ 20) 4 = 4
    ∧ accessCheck memS (accTenant memS 1) lastByte 1 = 2 ∧ accessCheck memS (accTenant memS 0) lastByte 2 = 1 := by decide +kernel

def assignPs : List Byte := leBytes 4 3 ++ leBytes 4 2 ++ [1, 0, 0, 0]
def memQ : State := { rdy with mem := { rdy.mem with cmds := [⟨4, [(3, 1)]⟩] } }
def err1 : DramErr := ⟨0, false, 0, 0, [0]⟩

theorem wit_OwnershipBandwidthAndScrub : cMemAssign.taken (ht 0) assignPs (withTen 0 rdy) = true
    ∧ cMemRelease.taken (ht 0) (leBytes 4 3 ++ leBytes 4 1) (owned 3 0 (withTen 0 rdy)) = true
    ∧ ((owned 3 0 (withTen 0 rdy)).pageOf 3).secure = false
    ∧ cMemFlags.taken (ht 0) (leBytes 4 3 ++ leBytes 4 1 ++ [9, 0, 0, 0]) (owned 3 0 (withTen 0 rdy)) = true
    ∧ cMemQuery.taken h0 (leBytes 4 0 ++ leBytes 2 1024 ++ [0, 0]) rdy = true
    ∧ memQ.mem.cmds[0]? = some ⟨4, [(3, 1)]⟩ ∧ err1.unc = false ∧ err1.blk * 64 < rdy.nPages * 2 ^ 20
    ∧ (rdy.mem.rowErr.getD (rowKey (stackOf rdy (err1.blk * 64)) err1) []).length < 3 := by decide +kernel

/-! ## Streams and time -/

/-- STREAM_OPEN of context 0 on MAC 0: two buffers of 4 KiB at page 6, ring at page 7. -/
def openPs : List Byte := [0, 1, 0, 0] ++ zeros 16 ++ leBytes 4 1000 ++ leBytes 4 1 ++ leBytes 4 0
  ++ leBytes 8 (6 * 2 ^ 20) ++ leBytes 4 4096 ++ leBytes 2 2 ++ zeros 2 ++ leBytes 8 (7 * 2 ^ 20) ++ zeros 8
def strS : State := owned 7 0 (owned 6 0 (withTen 0 run))
def ctx1 : StreamCtx := { openCtx 0 openPs with st := .live, started := true }
def unit0 : UnitSt := ⟨1, 0, false, false, false, 0xFF, 0, 0, 0, 0, 0, 0, 0, false, none⟩
def ctxS (c : StreamCtx) : State := { strS with ctxs := ⟨[(0, c)]⟩ }

theorem wit_StreamCommands : cStreamOpen.taken (ht 0) openPs strS = true ∧ (ctxS ctx1).ctxs.get? 0 = some ctx1
    ∧ cStreamStart.taken (ht 0) [0, 0, 0, 0] (ctxS { ctx1 with st := .idle, started := false }) = true
    ∧ cStreamStop.taken (ht 0) [0, 0, 0, 0] (ctxS ctx1) = true ∧ cStreamClose.taken (ht 0) [0, 0, 0, 0] (ctxS ctx1) = true
    ∧ cStreamStatus.taken (ht 0) [0, 0, 0, 0] (ctxS ctx1) = true := by decide +kernel

/-- A frame of 14 bytes on MAC 0. -/
def frm : Ingress := .eth 0 (zeros 14)

theorem wit_UnitsAreStampedAndDescribed : (ctxS ctx1).ctxs.get? 0 = some ctx1 ∧ ctx1.st ≠ .closed ∧ ctx1.st ≠ .idle
    ∧ ctxTakers (ctxS ctx1) frm = [0] ∧ ctx1.unit = none ∧ startsUnit ctx1 frm = true
    ∧ ({ ctx1 with tail := 1 }.tail + 65536 - ctx1.done_) % 65536 < ctx1.nbuf
    ∧ ctx1.nbuf ≤ ({ ctx1 with tail := 2 }.tail + 65536 - ctx1.done_) % 65536
    ∧ { ctx1 with unit := some unit0 }.unit = some unit0 ∧ packetOf ctx1 frm = some (0, 0, 0, zeros 14)
    ∧ unit0.bad = 0 ∧ unit0.bytes + 32 ≤ ctx1.bufBytes ∧ rtLocked (ctxS ctx1) ctx1.bufBase 32 = false
    ∧ accessCheck (ctxS ctx1) (accTenant (ctxS ctx1) 0) (ctx1.bufBase + 4096 - 32) 32 = 0
    ∧ endsUnit ctx1 unit0 frm = some 0 ∧ accessCheck (ctxS ctx1) (accTenant (ctxS ctx1) 0) (ctx1.ring + 64) 64 = 0
    ∧ ctx1.st = .live ∧ ctx1.period ≠ 0 ∧ (match frm with | .bad _ _ => False | _ => True) := by
  refine ⟨by decide +kernel, by decide, by decide, by decide +kernel, by decide, by decide, by decide +kernel, by decide +kernel,
    by decide, by decide +kernel, by decide, by decide +kernel, by decide +kernel, by decide +kernel, by decide,
    by decide +kernel, by decide, by decide +kernel, trivial⟩

def timePs : List Byte := [1, 0, 0, 0xFD] ++ zeros 12 ++ [0, 1, 0, 0, 0] ++ zeros 11
/-- Domain 0 is enabled on MAC 0, whose link is up. -/
def domS (v : Bool) (a : Nat) : State :=
  { run with time := { run.time with d0 := { Dom.off with enabled := true, valid := v, run := 3 }, active := a, revertS := 1 },
             eth := ⟨[(0, ⟨true, true, 1000⟩)]⟩ }

theorem wit_TimeCommands : cTimeCfg.taken h0 timePs rdy = true ∧ cTimeStatus.taken h0 [] rdy = true
    ∧ cTimeStep.taken h0 ([0, 0, 0, 0] ++ leBytes 8 1) rdy = true
    ∧ cTimeStep.verdict h0 ([0, 0, 0, 0] ++ leBytes 8 0) rdy = BAD_PARAM := by decide +kernel

theorem wit_TimeEventsSelectTheDomain : ((domS false 3).dom 0).enabled = true ∧ ((domS false 3).dom 0).mac = 0
    ∧ ((domS false 3).dom 0).domNum = 0 ∧ (domS false 3).fwDown fwPmc = false ∧ macUp (domS false 3) 0 = true
    ∧ (let s := { domS false 3 with time := { (domS false 3).time with d1 := { Dom.off with enabled := true, mac := 1 } },
                                    eth := ⟨[(0, ⟨true, true, 1000⟩), (1, ⟨true, true, 1000⟩)]⟩ }
       (s.dom 1).enabled = true ∧ s.time.d0.mac ≠ 1 ∧ macUp s 1 = true)
    ∧ 1 < run.nMacs ∧ macUp run 1 = false ∧ ((domS true 1).dom (domS true 1).time.pref).valid = true
    ∧ (domS true 1).time.active = 1 - (domS true 1).time.pref ∧ (domS true 1).time.revertS ≠ 0 := by decide

def pulsePs : List Byte := [7, 0, 0, 0] ++ leBytes 8 10000 ++ zeros 4 ++ leBytes 4 0 ++ leBytes 4 8 ++ zeros 8
def pg0 : PulseProg := ⟨0, 16 * 65536, 8 * 65536, 1, false⟩
def tpoS (b : Bool) (t : Nat) : State :=
  { rdy with tpos := ⟨[(7, ⟨some pg0, none, 0, 0, b, false, true, false⟩)]⟩, time := { rdy.time with ns := t } }
def tciS (l : List (Nat × Nat)) (e : Nat) : State := { rdy with tcis := ⟨[(3, ⟨e, l, 0⟩)]⟩ }
def pmcOut (s : State) : State := { s with fws := { s.fws with restarting := ⟨[(fwPmc, 1)]⟩ } }
def launchPs : List Byte := [0, 1] ++ leBytes 2 16 ++ leBytes 4 1 ++ leBytes 8 (3 * 2 ^ 20) ++ zeros 8
/-- A launch ring of 16 entries at page 3 with one entry for time 0, of 0 bytes at page 3. -/
def launchS : State :=
  let s := owned 3 0 (withTen 0 run)
  { s with launch := ⟨[(0, ⟨0, 16, 1, 3 * 2 ^ 20, 1, 0⟩)]⟩,
           mem := { s.mem with dram := (Mem.empty.write (3 * 2 ^ 20 + 10) 0x30).write (3 * 2 ^ 20 + 16) 60 } }

theorem wit_PulsesCapturesAndLaunch : cPulseArm.taken h0 pulsePs rdy = true ∧ cPulseCancel.taken h0 [7, 0, 0, 0] rdy = true
    ∧ ((tpoS false 0).tpo 7).prog = some pg0 ∧ ((tpoS false 0).tpo 7).inPulse = false
    ∧ pg0.start + ((tpoS false 0).tpo 7).n * pg0.period ≤ (tpoS false 0).now ∧ ((tpoS true 8).tpo 7).inPulse = true
    ∧ ((tpoS true 8).tpo 7).edgeAt + pg0.width ≤ (tpoS true 8).now
    ∧ cCaptureCfg.taken h0 [3, 3, 0, 0] rdy = true ∧ 3 < 4 * rdy.edies ∧ ((tciS [] 1).tci 3).edge = 1
    ∧ ((tciS [] 2).tci 3).edge = 2 ∧ ((tciS [] 3).tci 3).edge = 3
    ∧ (pmcOut (tciS [] 3)).fwDown fwPmc = true ∧ ((tciS (List.replicate 15 (1, 0)) 3).tci 3).fifo.length < 16
    ∧ 16 ≤ ((tciS (List.replicate 16 (1, 0)) 3).tci 3).fifo.length ∧ (tciS [] 3).fwDown fwPmc = false
    ∧ ((tciS [] 3).tci 3).fifo = [] ∧ cLaunchCfg.taken (ht 0) launchPs (owned 3 0 (withTen 0 rdy)) = true := by decide +kernel
theorem wit_LaunchEntry : (launchS.launch.get? 0) = some ⟨0, 16, 1, 3 * 2 ^ 20, 1, 0⟩
    ∧ ownedBy launchS 0 (3 * 2 ^ 20) 32 = true ∧ accessCheck launchS (accTenant launchS 0) (3 * 2 ^ 20) 32 = 0
    ∧ u64 (dramRead launchS (3 * 2 ^ 20) 32) 0 ≤ launchS.time.ns
    ∧ launchS.time.ns ≤ u64 (dramRead launchS (3 * 2 ^ 20) 32) 0 + 1000
    ∧ rtLocked launchS (3 * 2 ^ 20) 32 = false
    ∧ accessCheck launchS (accTenant launchS 0) (u64 (dramRead launchS (3 * 2 ^ 20) 32) 8)
        (u16 (dramRead launchS (3 * 2 ^ 20) 32) 16) = 0 := by
  decide +kernel

/-! ## Fusion, render passes and displays -/

/-- FUS_OPEN of context 0: a grid of 64 by 64 cells of 50 mm. -/
def fusPs : List Byte := [0, 0] ++ leBytes 2 64 ++ leBytes 2 64 ++ leBytes 2 50 ++ [0, 1, 1, 1, 1, 0] ++ leBytes 2 100
  ++ zeros 8 ++ leBytes 4 0x3F800000 ++ zeros 8 ++ leBytes 4 1 ++ zeros 8
def fus0 : FusCtx := openFus 0 fusPs
/-- The context is open, and stream context 0 is the tenant's. -/
def fusS (c : FusCtx) (s : State) : State := { s with fctxs := ⟨[(0, c)]⟩, ctxs := ⟨[(0, ctx1)]⟩ }
def fusR : State := fusS fus0 (withTen 0 rdy)
def mapPs : List Byte := [0, 0, 0, 0xFF] ++ leBytes 4 0 ++ leBytes 4 1 ++ leBytes 4 10 ++ leBytes 4 0 ++ [4, 0] ++ leBytes 2 1
def sensPs : List Byte := [0, 31, 0, 1] ++ zeros 4 ++ leBytes 4 1 ++ zeros 82 ++ leBytes 2 1 ++ leBytes 4 10 ++ leBytes 2 1
  ++ zeros 2 ++ leBytes 4 10 ++ zeros 4
/-- A call on context 0 with its frame block at the foot of cluster SRAM: one input of one point, of a sensor not configured. -/
def fcall (lc : Bool) : FusCall := ⟨5, 0, 0, lc, zeros 14 ++ [1] ++ zeros 49⟩
def busy (s : State) : State := { s with feng0 := ⟨some (fcall false), none, []⟩ }

theorem wit_FusionContexts : cFusMapCfg.taken (ht 0) mapPs fusR = true ∧ cFusOpen.taken (ht 0) fusPs (withTen 0 rdy) = true
    ∧ fusR.fctxs.get? 0 = some fus0 ∧ cFusClose.taken (ht 0) [0, 0, 0, 0] fusR = true
    ∧ cFusSensorSet.taken (ht 0) sensPs fusR = true ∧ fusHeld fusR 0 = false ∧ fus0.pend = []
    ∧ cFusSensorSet.taken (ht 0) sensPs (busy fusR) = true ∧ fusHeld (busy fusR) 0 = true
    ∧ cFusCalibReset.taken (ht 0) [0, 0xFF, 0, 0] fusR = true ∧ cFusCalibReset.taken (ht 0) [0, 31, 0, 0] (busy fusR) = true
    ∧ { fus0 with closing := some 3 }.closing.isSome = true ∧ fusRunning fusR 0 = false := by decide +kernel

/-- The job's program takes non-finite values as they come (NFMODE 1). -/
def fusJ : State :=
  let s := withProg { prog0 with img := { img0 with nfmode := 1 } } (fusS fus0 runS)
  s.setCl 0 { s.cl 0 with sram := (Mem.empty.write (sramBase 0 13 + 20) 1).write (sramBase 0 13 + 88) 1 }
def engS (r v : Option FusCall) (q : List FusCall) : State := { fusJ with feng0 := ⟨r, v, q⟩ }

theorem wit_FusionCalls : fusJ.jobs.get? 5 = some job1 ∧ job1.st = .running ∧ fusCtxFor fusJ job1 1 = none
    ∧ (fusCtxFor fusJ job1 0).isSome = true
    ∧ pickCall (engS none none [fcall false]) ((engS none none [fcall false]).feng 0) = some (fcall false, ⟨some (fcall false), none, []⟩)
    ∧ pickCall (engS (some (fcall false)) none [fcall true]) ((engS (some (fcall false)) none [fcall true]).feng 0)
        = some (fcall true, ⟨some (fcall true), some (fcall false), []⟩)
    ∧ pickCall (engS none (some (fcall false)) []) ((engS none (some (fcall false)) []).feng 0)
        = some (fcall false, ⟨some (fcall false), none, []⟩)
    ∧ ((engS none none [fcall false]).feng 0).saved ≠ some (fcall false)
    ∧ fusCtxFor fusJ job1 (u8 (fcall false).desc 0) = some fus0 := by decide +kernel
theorem wit_FusionCallDone :
    let s := engS (some (fcall false)) none []
    let r := fcall false
    (s.feng 0).running = some r ∧ s.jobs.get? r.job = some job1 ∧ s.fctxs.get? (u8 r.desc 0) = some fus0
    ∧ (let s0 := s.setFeng 0 { s.feng 0 with running := none }
       let hd := cdRead r.job r.cl (u64 r.desc 8) 64 s0
       let rs := cdRead r.job r.cl (u64 r.desc 8 + 64) (32 * min 32 (fbNin hd.1)) hd.2
       let fb := hd.1 ++ rs.1
       let tv := callTv rs.2 fus0 r.desc fb
       let bufs := readInputs r.job r.cl (fusInputs tv.2 fus0 fb tv.1) tv.2
       let ds := readDets r.job r.cl r.desc bufs.1 bufs.2
       (rs.2.jobs.get? r.job).isSome = true ∧ fbOk fus0 (zeros 96) = false ∧ fbOk fus0 fb = true ∧ (ds.2.jobs.get? r.job).isSome = true
       ∧ (bufs.1.flatMap (fun b => [b.feat, b.depth])).findSome? (zqFails r.job) = none ∧ jobNfmode ds.2 job1 ≠ 0) := by
  decide +kernel

/-- Pass block at page 3: a render area of one pixel, one colour attachment at page 4. -/
def blkAt (flip : Nat) : Mem :=
  let b := 3 * 2 ^ 20
  ⟨[(b, 1), (b + 2, 1), (b + 16, BitVec.ofNat 8 flip), (b + 66, 0x40), (b + 73, 1), (b + 76, 1)]⟩
def pass0 : RPass := ⟨5, 0, false, [0, 0, 0, 0, 1, 1, 0, 0] ++ leBytes 8 (3 * 2 ^ 20) ++ zeros 48⟩
def rctx0 : RasCtx := ⟨0, 8, 8 * 2 ^ 20, none, 0, 0, 0, none⟩
def rasS (c : RasCtx) (flip : Nat) : State :=
  let s := owned 4 0 (owned 3 0 runS)
  { s with rctxs := ⟨[(0, c)]⟩, rwait := [pass0], mem := { s.mem with dram := blkAt flip } }
def rasPs : List Byte := [0, 0, 0, 0] ++ leBytes 4 8 ++ leBytes 8 (8 * 2 ^ 20)
def poolS : State := (List.range 8).foldl (fun s i => owned (8 + i) 0 s) (withTen 0 rdy)
def causeIn (s : State) : Nat := passCause s job1 pass0.desc (passBlk s pass0)

theorem wit_RenderContextsAndPasses : cRasOpen.taken (ht 0) rasPs poolS = true
    ∧ cRasClose.taken (ht 0) [0, 0, 0, 0] { poolS with rctxs := ⟨[(0, rctx0)]⟩ } = true
    ∧ { rctx0 with closing := some 3 }.closing = some 3 ∧ rctx0.running = none
    ∧ runS.jobs.get? 5 = some job1 ∧ job1.st = .running ∧ nextPass (rasS rctx0 0xFF) 0 = some pass0
    ∧ passWaits (rasS rctx0 0xFF) 0 pass0 (passRanges pass0.desc (passBlk (rasS rctx0 0xFF) pass0)) = false
    ∧ accessCheck (rasS rctx0 0xFF) (accTenant (rasS rctx0 0xFF) 0) (u64 pass0.desc 8) 192 = 0
    ∧ (passBlk (rasS rctx0 0xFF) pass0).length = 192 ∧ u32 (passBlk (rasS rctx0 0xFF) pass0) 4 = 0
    ∧ causeIn (rasS rctx0 0xFF) = 0 ∧ causeIn (rasS rctx0 4) = 0x0701 ∧ causeIn (rasS { rctx0 with tenant := 1 } 0xFF) = 0x0702
    ∧ causeIn (rasS rctx0 0) = 0x0703 := by decide +kernel
/-- The run of a pass of no tiles, without and with a flip. -/
def run0 (flip : Byte) : RRun := ⟨pass0, zeros 16 ++ [flip] ++ zeros 175, [], []⟩
def doneS (flip : Byte) : State := rasS { rctx0 with running := some (run0 flip) } 0xFF
theorem wit_RenderPassDone : (doneS 0xFF).rctxs.get? 0 = some { rctx0 with running := some (run0 0xFF) }
    ∧ passHeld (doneS 0xFF) pass0 = false ∧ u8 (run0 0xFF).blk 16 = 0xFF ∧ u8 (run0 0).blk 16 ≠ 0xFF
    ∧ (let e := passEnv (doneS 0) 0 pass0 job1 (run0 0).blk
       let a := finishTiles e [] (renderPhases e (passClusters (doneS 0) pass0) [] [] (doneS 0))
       (a.jobs.get? 5).isSome = true ∧ a.rctxs.get? 0 = some { rctx0 with running := some (run0 0) }) := by decide +kernel

/-- DISP_CFG of display 0: 1920 by 1080 at 148.5 MHz on four lanes. -/
def dispPs : List Byte := [0, 0, 8, 0x24] ++ leBytes 4 148500 ++ leBytes 2 1920 ++ zeros 6 ++ leBytes 2 1080 ++ zeros 30
def dispOn (st : Nat) : Disp := { Disp.off with owner := some 0, cfg := dispPs, st := st }
def dispS (d : Disp) : State := { owned 3 0 (withTen 0 rdy) with disps := ⟨[(0, d)]⟩, time := { rdy.time with ns := 10000 } }
def flipPs : List Byte := [0, 1, 0, 0, 0, 0, 0, 0] ++ leBytes 8 (3 * 2 ^ 20) ++ leBytes 4 256 ++ [1, 0, 0, 0]
def dispOv : Disp := { dispOn 2 with cfg := sub dispPs 0 32 ++ leBytes 2 1 ++ leBytes 2 1 ++ zeros 12 }

theorem wit_DisplayCommandsAndEvents : cDispCfg.taken (ht 0) dispPs (withTen 0 rdy) = true
    ∧ cDispFlip.taken (ht 0) flipPs (dispS dispOv) = true ∧ cDispOff.taken (ht 0) [0, 0, 0, 0] (dispS (dispOn 2)) = true
    ∧ ((dispS { dispOn 1 with train := some ⟨3, 0, dispPs, 3⟩ }).disp 0).train = some ⟨3, 0, dispPs, 3⟩
    ∧ ((dispS (dispOn 3)).disp 0).train = none ∧ ((dispS (dispOn 3)).disp 0).st = 3 ∧ ((dispS (dispOn 2)).disp 0).st = 2
    ∧ (let d := { dispOn 2 with nbase := some (⟨0, 256, 1, none⟩, 0) }
       (dispS d |>.disp 0).nbase = some (⟨0, 256, 1, none⟩, 0) ∧ 0 + 10000 ≤ (dispS d).time.ns)
    ∧ (dispS (dispOn 2)).time.ns < 1 + 10000 ∧ ((dispS (dispOn 2)).disp 0).nbase = none
    ∧ ((dispS { dispOn 2 with underrun := true }).disp 0).underrun = true
    ∧ 0 < (dispS (dispOn 2)).nDisp ∧ ((dispS (dispOn 2)).disp 0).hpd ≠ true
    ∧ ((dispS { dispOn 2 with hpd := true }).disp 0).hpd ≠ false := by decide +kernel


/-! ## Control -/

/-- A bank entry: KI full scale, output limits −5 and 5, following-error limit 1 with 1 tick, group. -/
def entryWith (feact group : Byte) : List Byte :=
  leBytes 2 0x160 ++ leBytes 2 0x160 ++ leBytes 2 0x160 ++ [0, 0] ++ zeros 2 ++ leBytes 2 32767 ++ zeros 6
    ++ leBytes 2 (2 ^ 16 - 5) ++ leBytes 2 5 ++ zeros 2 ++ leBytes 2 1 ++ leBytes 2 1 ++ [feact, 0, group, 0]
    ++ leBytes 2 1 ++ zeros 30
def loopL (feact group : Byte) : Loop := { Loop.fresh with live := entryWith feact group, standby := entryWith feact group, st := 1 }
def ceS (e : Engine) (s : State) : State := s.setCe 0 e
def eng0 : Engine := { Engine.fresh with owner := some 0 }
def ctlS : State := owned 3 0 (withTen 0 run)
def bankPs : List Byte := [0, 63, 1, 0] ++ entryWith 0 0
def maskPs (m : Nat) : List Byte := [0, 0, 0, 0] ++ leBytes 8 m
def pwmPs : List Byte := [0, 0, 0, 0, 0x60, 1, 0, 0] ++ leBytes 4 1000 ++ zeros 4
def trcPs (trig : Byte) : List Byte := [0, 1, trig, 0] ++ zeros 16 ++ leBytes 2 1 ++ leBytes 2 8191 ++ zeros 4
def trc3 : Engine := { eng0 with trace := { Trace.idle with st := 3, nn := 0 } }

theorem wit_ControlCommands :
    cCtlAssign.taken (ht 0) [0, 1, 0, 0] (ceS eng0 ctlS) = true ∧ cCtlAssign.taken (ht 0) [0, 0, 0, 0] (ceS eng0 ctlS) = true
    ∧ cCtlAssign.taken (ht 0) [0, 0, 0, 0] ctlS = true ∧ (ctlS.ce 0).owner = none
    ∧ cCtlBankWrite.taken (ht 0) bankPs (ceS eng0 ctlS) = true
    ∧ cCtlSwap.taken (ht 0) (maskPs 1) (ceS { eng0 with loops := ⟨[(0, loopL 0 0)]⟩ } ctlS) = true
    ∧ cCtlEnable.taken (ht 0) (maskPs 1) (ceS eng0 ctlS) = true
    ∧ cCtlDisable.taken (ht 0) (maskPs 1) (ceS eng0 ctlS) = true
    ∧ cCtlSetpt.taken (ht 0) ([0, 63, 1, 0] ++ leBytes 2 5) (ceS eng0 ctlS) = true
    ∧ cCtlIoCfg.taken (ht 0) pwmPs ctlS = true ∧ cCtlTraceCfg.taken (ht 0) (trcPs 0) (ceS eng0 ctlS) = true
    ∧ cCtlTraceDump.taken (ht 0) (zeros 8 ++ leBytes 8 (3 * 2 ^ 20)) (ceS trc3 ctlS) = true
    ∧ ((ceS { eng0 with dumps := [⟨1, 0, 0, []⟩] } ctlS).ce 0).dumps = ⟨1, 0, 0, []⟩ :: []
    ∧ ((ceS eng0 ctlS).ce 0).owner.isSome = true ∧ ((ctlS.setCe 15 eng0).ce 15).owner = some 0
    ∧ (ctlS.sd 0).owner ≠ some 0 ∧ (ctlS.enc 0).owner ≠ some 0 ∧ (ctlS.sd 0).owner = none := by decide +kernel

def engG : Engine := { eng0 with loops := ⟨[(0, { loopL 0 1 with u := 3 }), (2, { loopL 0 1 with u := 3 })]⟩ }
theorem wit_ControlLawAndSelectors :
    let l := loopL 0 0
    bUmin l.live ≤ bUmax l.live ∧ -(2 ^ 39 : Int) ≤ l.ist ∧ l.ist < 2 ^ 39
    ∧ (let m := sampleLoop l 1000 0 0 false
       bit m.flags 0 = true ∧ bUmax l.live ≤ m.v ∧ 0 < i16 l.live 10 * m.e)
    ∧ (let m := sampleLoop l (-1000) 0 0 false
       bit m.flags 0 = true ∧ m.v ≤ bUmin l.live ∧ i16 l.live 10 * m.e < 0)
    ∧ (let m := sampleLoop l 3 0 0 false
       bUmin l.live ≤ m.v ∧ m.v ≤ bUmax l.live)
    ∧ winner engG 1 = some 0 ∧ 2 ∈ engG.members 1 ∧ (engG.loop 2).st = 1 := by decide +kernel

def swpE : Engine := { eng0 with swaps := [⟨1, 1, false, 0⟩] }
def feE (a : Byte) : Engine := { eng0 with loops := ⟨[(0, { loopL a 0 with timer := 1000 })]⟩ }
def sdPs : List Byte := [1, 0, 8, 0, 4, 40] ++ zeros 10
def quadPs : List Byte := [2, 0, 10, 0, 0, 0, 1, 0, 1, 0] ++ zeros 6
def sentPs : List Byte := [2, 0, 9, 0, 0, 1, 0, 0, 1, 0, 0, 0] ++ leBytes 2 30 ++ zeros 2
def encS (c : List Byte) : State := { ctlS with encs := ⟨[(0, { EncCh.fresh with cfg := c })]⟩ }

/-- PWM channel 0 is configured: paired, enabled. -/
def pwmCfg : List Byte := [0, 0, 10, 0, 0x60, 1, 0, 0] ++ leBytes 4 1000 ++ zeros 4
def s0 : State := { ctlS with pwms := ⟨[(0, { ctlS.pwm 0 with owner := some 0, cfg := some pwmCfg })]⟩ }

theorem wit_EngineTicksAndChannels :
    0 < ctlS.nCe ∧ (ctlS.ce 0).tick = none ∧ ((ceS swpE ctlS).ce 0).swaps = [⟨1, 1, false, 0⟩] ∧ (ctlS.ce 0).swaps = []
    ∧ feDue (((ceS (feE 1) ctlS).ce 0).loop 0) = true ∧ u8 (((ceS (feE 1) ctlS).ce 0).loop 0).live 28 = 1
    ∧ feDue (((ceS (feE 0) ctlS).ce 0).loop 0) = true ∧ u8 (((ceS (feE 0) ctlS).ce 0).loop 0).live 28 ≠ 1
    ∧ ((ceS { eng0 with trace := { Trace.idle with st := 2 } } ctlS).ce 0).trace.left = 0
    ∧ bit (u8 [0, 0, 8] 2) 3 = true
    ∧ sdPs ≠ [] ∧ bit (u8 sdPs 2) 3 = true
    ∧ isQuad ((encS quadPs).enc 0) = true ∧ bit (u8 quadPs 2) 1 = true ∧ ((encS quadPs).enc 0).homed = false
    ∧ isSent ((encS sentPs).enc 0) = true
    ∧ ((168000 : Int) - (5600 * u16 sentPs 12 : Nat)).natAbs * 4 ≤ 5600 * u16 sentPs 12
    ∧ ((210000 : Int) - (5600 * u16 sentPs 12 : Nat)).natAbs * 4 ≤ 5600 * u16 sentPs 12
    ∧ bGroup (((ceS (feE 0) ctlS).ce 0).loop 0).live = 0
    ∧ (let s := ceS { eng0 with loops := ⟨[(0, { loopL 0 1 with timer := 1000 })]⟩ } ctlS
       bGroup ((s.ce 0).loop 0).live = 1 ∧ winner (feAct 0 0 (s.ce 0, s)).1 1 = some 0)
    ∧ (let s := ceS { eng0 with loops := ⟨[(0, { loopL 1 1 with timer := 1000 })]⟩ } ctlS
       winner (feAct 0 0 (s.ce 0, s)).1 1 = none)
    ∧ (let s := { ctlS with pwms := s0.pwms }
       (s.pwm 0).cfg = some pwmCfg ∧ bit (u8 pwmCfg 2) 3 = true ∧ pwmPaired s 0 = false)
    ∧ (loopL 0 0).st = 1 ∧ samples (loopL 0 0) 0 = true ∧ { loopL 0 0 with inFault := true }.inFault = true
    ∧ bit (swpE.swaps.head?.elim 0 (·.mask)) 0 = true ∧ bit (swpE.swaps.head?.elim 0 (·.mask)) 63 = false
    ∧ ioOk ctlS quadPs = true ∧ ioOk ctlS sentPs = true ∧ ioOk ctlS sdPs = true := by decide +kernel
/-- A message of one data nibble whose CRC nibble agrees. -/
theorem wit_SentMessage : ((encS sentPs).enc 0).sync = none ∧ [12, 20, 12 + Config.sentCrc false [8] % 16].length = u8 sentPs 5 + 2
    ∧ (∀ t ∈ [12, 20, 12 + Config.sentCrc false [8] % 16], 12 ≤ t ∧ t ≤ 27)
    ∧ Config.sentCrc false [8] % 16 = (([12, 20, 12 + Config.sentCrc false [8] % 16].map (· - 12))[2]?).getD 0 := by
  refine ⟨by decide, by rw [show u8 sentPs 5 = 1 by decide]; rfl, ?_, by simp⟩
  have := Nat.mod_lt (Config.sentCrc false [8]) (show 16 > 0 by omega)
  simp only [List.mem_cons, List.not_mem_nil, or_false]
  omega

/-! ## Skink -/

/-- A safety program of tenant 0, loaded with handle 1. -/
def safetyP : Prog := { prog0 with img := { img0 with flags := 1 } }
def safS : State := withProg safetyP runS
def skSafe (s : State) : State := { s with skk := { s.skk with latched := true } }

theorem wit_SafeLatchesOnceWithItsCause : run.skk.latched = false ∧ safeFrom run 6 = true
    ∧ (skSafe run).skk.latched = true ∧ safeFrom (inSt .selfTest) 9 = false
    ∧ cSkkSafeReq.taken h1 (leBytes 4 0x5AFE) run = true
    ∧ (let s := { run with skk := { run.skk with chkrun := true }, time := { run.time with ns := run.skk.skwdt * 1000000 + 1 } }
       s.skk.chkrun = true ∧ s.skk.kickAt + s.skk.skwdt * 1000000 < s.time.ns)
    ∧ { run with skk := { run.skk with chkrun := true, armed := true } }.deasserted = true := by decide

/-- One FP32 element at the foot of the tile's SRAM. -/
def win0 : WinPart := ⟨0, ⟨⟨.fp32, some 0, 0, 0, 0, 0⟩, 0, 1, 1, 1, none⟩⟩
def progCfgPs : List Byte := leBytes 2 1 ++ leBytes 2 10000 ++ leBytes 2 10 ++ [4, 90, 0] ++ zeros 3
theorem wit_SafetyCommandsAndEvents : cSkkArm.taken h1 [1, 0, 0, 0] run = true ∧ safS.progs.get? 1 = some safetyP
    ∧ cSkkProgCfg.taken (ht 0) progCfgPs safS = true ∧ cSkkGoldenNow.taken h0 [1, 0, 0, 0] safS = true
    ∧ cSkkMbox.taken h1 (zeros 64) run = true ∧ safS.jobs.get? 5 = some job1 ∧ job1.st = .running
    ∧ winCount [win0] ≤ 4096 ∧ winCount ([] : List WinPart) ≤ 4096
    ∧ [win0].any (fun p => onCopyB safS job1 p.cl) = false
    ∧ ([] : List WinPart).all (fun p => onCopyB safS job1 p.cl) = true ∧ { job1 with st := .preempted }.st = .preempted
    ∧ windowSig 1 0 (winBytes safS 5 [win0]) ≠ windowSig 1 0 (flipBytes [] (winBytes safS 5 [])) ∧ safS.skk.debug = false
    ∧ (let j := { job1 with st := .committing, chk := .taken }
       (withJob j safS).jobs.get? 5 = some j ∧ isFrame (withJob j safS) j = true ∧ j.chk ≠ .none)
    ∧ safetyP.img.paired = true ∧ safS.running = true ∧ { safetyP with covered := true }.lapsed = false
    ∧ safS.skk.lapseLatch = false ∧ (⟨0, [], 1, 0⟩ : LostRec).prog = 1
    ∧ bit run.larder.map.skink 2 = false ∧ run.portsUp = true ∧ run.duplex = false
    ∧ (let s := { run with larder := { run.larder with map := { run.larder.map with skink := 1 } } }
       s.duplex = true ∧ bit s.larder.map.skink 2 = false)
    ∧ (skSafe run).skk.sweepDone = false ∧ run.dev.st ≠ .awaitFw ∧ run.hp1.openS = true := by decide +kernel

/-- A checker runs, and job 5 is a frame of the safety program that it checks. -/
def chkJ (st : ChkSt) : Job := { job1 with st := .committing, chk := st, outs := [(3 * 2 ^ 20, 64)], grids := [⟨0, 0, 0, 1, 1, 1, 1⟩] }
def chkS (st : ChkSt) : State :=
  let s := owned 3 0 (withJob (chkJ st) safS)
  { s with
    fws := { s.fws with loaded := some ⟨0, 0, [], [], true, [], []⟩, nsid := true, sid := true },
    skk := { s.skk with chkq := [5], crcs := ⟨[(3, 9)]⟩ } }
def svcS : State := { chkS .taken with dev := { run.dev with st := .service } }

theorem wit_SkinkServicesAndDebug : (chkS .queued).checkerOn = true ∧ (chkS .queued).skk.chkq = [5]
    ∧ (chkS .queued).jobs.get? 5 = some (chkJ .queued) ∧ (chkS .queued).skk.chkWait = []
    ∧ (chkS .taken).jobs.cells.find? (fun c => c.2.prog == 1 && c.2.jobseq == 0 && underCheck c.2) = some (5, chkJ .taken)
    ∧ (chkJ .taken).role = .user
    ∧ (∀ r ∈ readable (chkS .taken), ¬ (r.2.1 ≤ 3 * 2 ^ 20 ∧ 3 * 2 ^ 20 + 65 ≤ r.2.1 + r.2.2))
    ∧ (readable (chkS .taken)).find? (fun r => r.2.1 ≤ 3 * 2 ^ 20 && 3 * 2 ^ 20 + 64 ≤ r.2.1 + r.2.2) = some (0, 3 * 2 ^ 20, 64)
    ∧ skReason (chkS .taken) 0 (3 * 2 ^ 20) 64 = 0 ∧ 0x1FFFC0 + 64 ≤ 2 ^ 21
    ∧ (pathGrids (chkS .taken)).find? (fun g => g.2.data == 1) = none
    ∧ (pathGrids (chkS .taken)).any (fun g => g.2.data == 0) = true
    ∧ 0 < (chkS .taken).nDisp ∧ (chkS .taken).skk.crcs.get? (0 * 4 + 3) = some 9
    ∧ run.portsUp = true ∧ dbgInvasive { run with fws := { run.fws with nsid := false } } false = false
    ∧ dbgInvasive (chkS .taken) false = true := by decide +kernel
theorem wit_DebugAction : svcS.dev.st = .service ∧ svcS.progs.get? 1 = some safetyP ∧ safetyP.img.paired = true
    ∧ (withProg prog0 svcS).progs.get? 1 = some prog0 ∧ prog0.img.paired = false
    ∧ dbgInvasive svcS (svcS.ten 0).secure = true ∧ (svcS.skk.replay.getD 1 []).length < 4096 ∧ dbgInvasive svcS true = true
    ∧ (let s := { svcS with fws := { svcS.fws with attached := [(0, gtile 0 0, false), (4, 0, true)] } }
       slotReached s safetyP 0 0 false = true ∧ dbgAttached s 4 0 true = true ∧ s.portsUp = true)
    ∧ (let s := { svcS with skk := { svcS.skk with replay := ⟨[(1, [⟨0, 0, 0, 0, [1]⟩, ⟨0, 0, 0, 1, [2]⟩])]⟩ } }
       s.skk.replay.getD 1 [] = ⟨0, 0, 0, 0, [1]⟩ :: [⟨0, 0, 0, 1, [2]⟩]) := by decide +kernel

/-! ## Firmware -/

def fwS (total : Nat) (b : List Byte) (v : Option Nat) : State :=
  let s := inSt .awaitFw
  { s with fws := { s.fws with part := some (total, b), verify := v } }
def restS : State := { run with fws := { run.fws with restarting := ⟨[(0x11, 2)]⟩ } }

theorem wit_BundlesAndRestarts :
    cFwBegin.taken h0 (leBytes 4 (2 ^ 23) ++ zeros 4) (inSt .awaitFw) = true
    ∧ cFwChunk.taken h0 (leBytes 4 2 ++ zeros 5) (fwS 16384 [1, 2] none) = true ∧ (fwS 16384 [1, 2] none).fws.part = some (16384, [1, 2])
    ∧ cFwEnd.taken h0 [] (fwS 16384 [1, 2] none) = true
    ∧ cFwRestart.taken h0 [0x1B, 0, 0, 0] (secS rdy) = true
    ∧ (fwS 16384 [1, 2] (some 3)).dev.st = .awaitFw ∧ (fwS 16384 [1, 2] (some 3)).fws.verify = some 3
    ∧ bundleReason (fwS 16384 [1, 2] (some 3)) 16384 [1, 2] ≠ 0
    ∧ run.fwRuns = true ∧ procInService run 2 = true ∧ procInService run 0x10 = true
    ∧ ((run.fws.cccTimes.getD 0x10 []).filter (fun t => decide (run.time.ns < t + DAY))).length < 2
    ∧ cccCluster run 0x10 = some 0 ∧ run.fwRuns = true ∧ procInService run 0x20 = false ∧ rdy.fwRuns = true
    ∧ restS.fws.restarting.get? 0x11 = some 2 ∧ 0x11 ≠ fwPmc := by decide +kernel

/-- A manifest of four empty components with a signature block, 8 KiB in all. -/
def man0 : List Byte :=
  leBytes 4 0x4257465A ++ leBytes 2 0x100 ++ leBytes 2 0x9640 ++ [0, 4] ++ zeros 6 ++ leBytes 4 4096 ++ leBytes 4 8192 ++ zeros 232
def bun0 : List Byte :=
  man0 ++ [1, 2, 3, 4].flatMap (fun t => [t] ++ zeros 63) ++ zeros (8192 - 512)

theorem comp_ok (hs : shake [] = zeros 32) (i : Nat) (h : i < 4) : compOk bun0 4096 i = true := by
  have e : compAt bun0 i = ⟨i + 1, 0, 0, zeros 32⟩ := by
    revert i; decide +kernel
  have hz : sub bun0 0 0 = [] := rfl
  simp [compOk, e, hz, hs]
  omega

/-- Whether a bundle passes turns on the external standards alone (log 13): where they accept its digests, key and
signature, verification ends with reason 0. -/
theorem test_bundle (hs : shake [] = zeros 32) (hk : shake (sub bun0 4096 68) = padTo 32 Config.rootHash)
    (hx : Config.xmssVerify (sub bun0 4096 68) (bun0.take 4096) (sub bun0 (4096 + 68) 2820) = true) :
    bundleReason (inSt .awaitFw) 8192 bun0 = 0 := by
  have e1 : bun0.length = 8192 := by decide +kernel
  have e2 : u32 bun0 16 = 4096 := by decide +kernel
  have e3 : (u32 bun0 0 != 0x4257465A || u16 bun0 4 / 256 != 1 || u16 bun0 6 != 0x9640
      || (inSt .awaitFw).stepping < u8 bun0 8 || u32 bun0 20 != 8192) = false := by decide +kernel
  have e4 : u8 bun0 9 = 4 := by decide +kernel
  have e5 : typesOk (compsOf bun0) = true := by decide +kernel
  have e6 : ¬ u16 bun0 12 < (inSt .awaitFw).larder.svnFloor := by decide +kernel
  have e7 : (List.range 4).all (compOk bun0 4096) = true := by
    simp only [List.all_eq_true, List.mem_range]
    exact comp_ok hs
  have e8 : integratorOk bun0 4096 = true := by decide +kernel
  simp only [Bool.or_eq_false_iff] at e3
  simp [bundleReason, e1, e2, e3, e4, e5, e6, e7, e8, hk, hx]

/-- The proof of the all-zero key over the nonce of HP0. -/
def nonceS : State :=
  { rdy with larder := { rdy.larder with ssk := some (zeros 32) }, hp0 := { rdy.hp0 with nonce := some (zeros 32) } }
def mac0 : List Byte := kmac (zeros 32) sessionName (zeros 32 ++ [0])

theorem sec_prove_taken (m : List Byte) (hl : m.length = 32) (hm : Machine.macOk h0 m nonceS = true) :
    cFwSecProve.taken h0 m nonceS = true := by
  have h1 : cFwSecProve.lenOk m = true := by simp [cFwSecProve, hl]
  have h2 : cFwSecProve.denied h0 m nonceS = false := by
    show (nonceS.hp0.lockout || !Machine.macOk h0 m nonceS) = false
    rw [hm]; decide
  simp only [Cmd.taken, Cmd.outcome, Cmd.verdict, h1, h2, hl]
  clear hl hm h1 h2
  rfl

theorem wit_SecProve : cFwSecProve.taken h0 mac0 nonceS = true :=
  sec_prove_taken mac0 (by simp [mac0, kmac, padTo, zeros]) (by show (mac0 == mac0) = true; simp)

theorem wit_SecureSessionsCountersAndJournal : cFwSecChallenge.taken h0 [] rdy = true
    ∧ cFwSecProve.refusedBy h0 (zeros 32) rdy = true ∧ cFwSecProve.verdict h0 (zeros 32) rdy = DENIED ∧ rdy.hp0.lockout = false
    ∧ cFwSvnCommit.taken h0 [] (secS rdy) = true ∧ cFwSskSet.taken h0 (zeros 32) rdy = true
    ∧ cFwIntkeyBurn.taken h0 (zeros 32) (secS (inSt .service)) = true
    ∧ cFwAttest.taken h0 (zeros 36) rdy = true ∧ cFwAttest.taken h0 (zeros 32 ++ [1, 0, 0, 0]) rdy = true
    ∧ cFwMcounter.taken h0 [7, 0, 0, 0] rdy = true ∧ cFwMcounter.taken h0 [7, 1, 0, 0] (secS rdy) = true
    ∧ run.fwRuns = true ∧ run.fwDown fwSec = false := by decide +kernel

/-! ## Gateway and chain -/

/-- A routing entry from any port with any CAN identifier to controller 1, of tenant 0. -/
def routeE : List Byte := zeros 8 ++ [0xFF, 0, 1, 0] ++ zeros 8 ++ leBytes 2 0xFFFF ++ [0, 1] ++ zeros 8
def routePs : List Byte := leBytes 2 8191 ++ [0, 0] ++ routeE
def ringCfgPs : List Byte := [63, 1] ++ leBytes 2 16 ++ leBytes 2 128 ++ [0, 0] ++ leBytes 8 (3 * 2 ^ 20) ++ leBytes 8 (3 * 2 ^ 20 + 4096)
def canF : Ingress := .can 0 0x7FF false 1 0 [1]
def canG : GFrame := ⟨0, 0, 0x7FF, 0, 1, [1], run.time.ns⟩
def routeS : State := { run with gwy := { run.gwy with routes := ⟨[(8191, ⟨routeE, 0, 0, 0⟩)]⟩ } }
def gwRing0 : GwRing := ⟨0, 16, 128, 3 * 2 ^ 20, 3 * 2 ^ 20 + 4096, 0, 0, 0, 0, 0⟩
def iso0 (nm : Nat) : IsoCfg := ⟨128, 128, 129, nm, 128, none⟩
def isoS (nm : Nat) : State := modNetPort 0 (fun n => { n with iso := some (iso0 nm) }) run
def chainCfg (role : Byte) : List Byte :=
  [1, role, 2, 0x03] ++ leBytes 4 7 ++ leBytes 2 0xFFFF ++ [0, 0] ++ leBytes 4 500 ++ leBytes 4 10 ++ leBytes 4 10
/-- A member of a chain of two, devices 0 (this one) and 1. -/
def memberS (role : Nat) : State :=
  { run with
    chn := { run.chn with
      cfg := chainCfg (BitVec.ofNat 8 role), st := 3, devid := 0, role := role, master := if role = 1 then 0 else 1,
      members := ⟨[(0, role), (1, 0)]⟩, links := [⟨0, 1, 10⟩], table := ⟨[(1, 0)]⟩ } }
def slS (l : SlPort) (s : State) : State := modSl 0 (fun _ => l) s
def upL : SlPort := { SlPort.fresh with lstate := 5, signal := true, lanes := 15, width := 4, peerId := 1, peerPart := 9, peerMember := true }
def post0 (port : Nat) : Posted := ⟨1, 0, 0, 0, port, 0, 5, 0, 0, 1, 0, 0, [1]⟩

theorem wit_GatewayCommandsAndFrames : cGwRouteSet.taken (ht 0) routePs (withTen 0 run) = true
    ∧ cGwRouteClear.taken h0 [0xFF, 0x1F, 1, 0] run = true
    ∧ cGwRingCfg.taken (ht 0) ringCfgPs (owned 3 0 (withTen 0 run)) = true
    ∧ cGwRingCfg.taken (ht 0) (zeros 24) (withTen 0 run) = true
    ∧ cGwPortCfg.taken h0 ([3, 3, 0, 0] ++ zeros 16) run = true ∧ cGwIsoCfg.taken h0 ([3, 1, 128, 128, 129] ++ zeros 11) run = true
    ∧ run.gwyRuns = true ∧ ctxTakers run canF = [] ∧ gFrame run canF 0 = some canG ∧ acting canG 4 run.gwy.routes.cells = []
    ∧ acting canG 4 routeS.gwy.routes.cells = [8191]
    ∧ (memberS 1).isMember = true ∧ (post0 0).dev = (memberS 1).chn.devid
    ∧ targetFail (memberS 1) 0 1 5 = 0 ∧ targetFail (memberS 1) 0 0x40 5 ≠ 0
    ∧ 1 ≠ (memberS 1).chn.devid ∧ (memberS 1).chn.table.get? 1 = some 0 ∧ ((slS upL (memberS 1)).sl 0).lstate = 5
    ∧ { run.gwy with rings := ⟨[(63, gwRing0)]⟩ }.rings.get? 63 = some gwRing0
    ∧ 0 < run.nCan ∧ ({ NetPort.fresh with txq := [⟨0, 0, 0, 0, 0, 0, []⟩] } : NetPort).txq = ⟨0, 0, 0, 0, 0, 0, []⟩ :: []
    ∧ ((slS { upL with c3 := [⟨0, 1, false, post0 0⟩] } (memberS 1)).sl 0).c3 = [⟨0, 1, false, post0 0⟩]
    ∧ ((isoS (2 ^ 63)).netPort 0).iso = some (iso0 (2 ^ 63)) ∧ (iso0 (2 ^ 63)).addr ≠ some (iso0 0).claim
    ∧ (0 : Nat) + 1000000 < { run with time := { run.time with ns := 1000001 } }.time.ns
    ∧ bit (iso0 (2 ^ 63)).name 63 = true ∧ nextClaim (iso0 (2 ^ 63)) ≠ 254 ∧ bit (iso0 0).name 63 = false := by decide +kernel

def peer0 (n : Nat) : ChainPeer := ⟨n, 7, 0, true, 1, 0, 0xFFFF⟩
theorem wit_LinksTrainCarryAndFail : 0 < run.nSl ∧ (memberS 1).slEnabled 0 = true ∧ ((memberS 1).sl 0).lstate = 0
    ∧ run.slEnabled 0 = false ∧ ((slS { SlPort.fresh with signal := true } (memberS 1)).sl 0).signal = true
    ∧ trains ((slS { SlPort.fresh with lstate := 1 } (memberS 1)).sl 0).lstate = true
    ∧ (let s := modSl 1 (fun _ => upL) (slS { SlPort.fresh with lstate := 4 } (memberS 1))
       s.slEnabled 0 = true ∧ trains (s.sl 0).lstate = true
       ∧ (List.range s.nSl).any (fun q => q != 0 && (s.sl q).lstate == 5 && (s.sl q).peerPart == (peer0 9).part) = true
       ∧ (List.range s.nSl).any (fun q => q != 0 && (s.sl q).lstate == 5 && (s.sl q).peerPart == (peer0 8).part) = false)
    ∧ ((slS upL (memberS 1)).sl 0).lstate = 5 ∧ run.larder.map.laneSub.get? 0 = none ∧ run.larder.map.laneOut.contains 0 = false
    ∧ bit (lanesOf (slS upL (memberS 1)) 0) 3 = true
    ∧ (let s := slS upL (memberS 1)
       let s := { s with larder := { s.larder with map := { s.larder.map with laneSub := ⟨[(0, 0)]⟩ } } }
       (s.larder.map.laneSub.get? 0).isSome = true ∧ bit (lanesOf s 0) 3 = true)
    ∧ isMaster (memberS 0) = false ∧ isMaster (memberS 1) = true := by decide +kernel

theorem wit_ChainMembersAndEpoch : cChnCfg.taken h0 (chainCfg 1) rdy = true ∧ cChnCfg.taken h0 (chainCfg 2) rdy = true
    ∧ cChnCfg.taken h0 ([0, 0, 0, 0] ++ (chainCfg 0).drop 4) rdy = true ∧ ccRole (chainCfg 1) = 1 ∧ ccEnable (chainCfg 1) = true
    ∧ cChnLeave.taken h0 [] (memberS 1) = true ∧ cChnLeave.taken h0 [] (memberS 0) = true ∧ (memberS 0).chn.role ≠ 1
    ∧ cChnEvict.taken h0 [1, 0, 0, 0] (memberS 1) = true
    ∧ ((planned (memberS 1)).1.get? 1).isSome = true ∧ joinReason (memberS 1) 1 10 7 4 4 = 0
    ∧ joinId (planned (memberS 1)).1 4 = some 4 ∧ joinReason (memberS 1) 1 10 8 4 4 ≠ 0
    ∧ (memberS 1).jobs.any (fun _ j => j.prepared) = false ∧ (memberS 1).chn.pend = []
    ∧ (memberS 1).chn.links.any (fun l => (l.a == 0 && l.b == 2) || (l.a == 2 && l.b == 0)) = false
    ∧ (memberS 1).chn.links.any (fun l => (l.a == 1 && l.b == 0) || (l.a == 0 && l.b == 1)) = true
    ∧ (let s1 := modChn (fun c => { c with links := [] }) (memberS 1)
       let gone := s1.chn.members.keys.filter (fun k => k != s1.chn.devid && !reaches s1.chn.links s1.chn.devid k)
       gone = [1] ∧ (endChainJobs gone.contains s1).jobs.any (fun _ j => j.prepared) = false)
    ∧ { run.chn with st := 2 }.st = 2 ∧ (memberS 2).isMember = true ∧ (memberS 2).chn.role = 2 ∧ (memberS 0).chn.role ≠ 2
    ∧ 1 ≠ (memberS 0).chn.devid
    ∧ accessCheck (owned 3 0 (memberS 0)) (accTenant (owned 3 0 (memberS 0)) 0) (3 * 2 ^ 20) 64 = 0
    ∧ accessCheck (owned 3 0 (memberS 0)) (accTenant (owned 3 0 (memberS 0)) 0) lastByte [(1 : Byte)].length = 0 := by
  decide +kernel

/-! ## Power, temperature, wear -/

def powS (f : Pow → Pow) : State := { run with pow := f run.pow }
def gatePs (k i m : Byte) : List Byte := [k, i, m, 0]
def sErr (unc : Bool) : SramErr := ⟨false, 155, 7, 2 ^ 32 - 1, 3, unc, none, .none⟩

theorem wit_ThrottlingDroopsAndTemperature : run.powered = true ∧ run.pmcRuns = true
    ∧ 125000 * capW run < 13000 * 1000000 ∧ 0 * 0 ≤ 125000 * capW run ∧ run.pow.droop = none
    ∧ 100 * run.pow.droopV ≤ 13000 ∧ 1 < 100 * run.pow.droopV
    ∧ islandHere run 0 155 = true ∧ run.pow.rail.get? (0 * 256 + 155) = none
    ∧ (powS (fun w => { w with droop := some run.time.ns })).pow.droop = some run.time.ns ∧ run.time.ns - run.time.ns ≤ 1000000
    ∧ (let s := { powS (fun w => { w with droop := some 0 }) with time := { run.time with ns := 1000001 } }
       s.pow.droop = some 0 ∧ 1000000 < s.time.ns - 0)
    ∧ (run.cl 11).tripped = false
    ∧ islandHere run run.clk.fselKind run.clk.fselInst = true ∧ { run.clk with fmArmed := true }.fmArmed = true
    ∧ { run.clk with fmArmed := false }.fmArmed = false ∧ islandHere run 0 156 = false := by decide +kernel

theorem wit_GatingWearAndRetirement : cPwrGate.taken h0 (gatePs 1 0 1) (secS run) = true
    ∧ cPwrGate.taken h0 (gatePs 1 0 0) (secS run) = true
    ∧ cPwrRetire.taken h0 ([1, 0, 0, 0] ++ leBytes 4 155) (secS (inSt .service)) = true
    ∧ (powS (fun w => { w with gatePend := [(1, 1, 0, 0)] })).pow.gatePend.find? (fun g => g.2.1 == 1 && g.2.2.1 == 0) = some (1, 1, 0, 0)
    ∧ run.dev.st ≠ .off ∧ 0 < run.edies ∧ run.larder.map.units.contains (6, 0 * 256 + 0) = false
    ∧ railOf run 0 0 = some 0 ∧ freePhase run 0 = some (activePhases run.part.variant)
    ∧ run.fwRuns = true ∧ (run.tileMap (155 / 13)).retired.contains (155 % 13) = false
    ∧ (run.tileMap 11).retired.contains 12 = false ∧ (run.tileMap 11).spare = some 12
    ∧ sramHere (sErr true) run = true ∧ (sErr true).unc = true ∧ sramHere (sErr false) run = true ∧ (sErr false).row < 2 ^ 32
    ∧ ((run.pow.sramErr.getD (lineKey 2 (155 * 256 + 7) 0 (2 ^ 32 - 1)) []).filter (fun t => decide (run.time.ns < t + DAY))).length < 2
    ∧ ((run.pow.sramErr.getD (lineKey 2 (155 * 256 + 7) 1 3) []).filter (fun t => decide (run.time.ns < t + DAY))).length < 2 := by
  decide +kernel

/-! ## Queries and the whole device -/

theorem wit_QueriesReplyAndChangeNothingElse : cCtlBankRead.taken (ht 0) [0, 63, 1, 0] (ceS eng0 ctlS) = true
    ∧ cCtlBankRead.taken (ht 0) [0, 63, 0, 0] (ceS eng0 ctlS) = true ∧ cCtlStatus.taken (ht 0) [0, 0, 0, 0] (ceS eng0 ctlS) = true
    ∧ cSkkProgStatus.taken h1 [1, 0, 0, 0] safS = true ∧ cSkkBistGet.taken h1 [] run = true ∧ cFwInfo.taken h0 [] run = true
    ∧ cFwLogRead.taken h0 [0, 0, 0, 0, 63, 0, 0, 0] run = true ∧ cFwAttestCert.taken h0 [1, 0, 0, 0] run = true
    ∧ cFwJournalRead.taken h0 [0, 0, 0, 0, 120, 0, 0, 0] run = true ∧ cPwrStatus.taken h0 [] run = true
    ∧ cPwrWearRead.taken h0 [0, 0, 0, 0, 120, 0, 0, 0] run = true ∧ cGwRouteGet.taken h0 [0xFF, 0x1F, 0, 0] run = true
    ∧ cChnStatus.taken h0 [] run = true ∧ cChnMembers.taken h0 [0xFF, 0x0F, 0, 2] (memberS 1) = true
    ∧ cRasStatus.taken (ht 0) [0, 0, 0, 0] { poolS with rctxs := ⟨[(0, rctx0)]⟩ } = true
    ∧ cDispStatus.taken (ht 0) [0, 0, 0, 0] (dispS (dispOn 2)) = true
    ∧ cFusStatus.taken (ht 0) [0, 0, 0, 0] fusR = true ∧ cFusSensorStatus.taken (ht 0) [0, 31, 0, 0] fusR = true
    ∧ fusR.fctxs.get? (u8 [0, 31, 0, 0] 0) = some fus0 ∧ cFusMapStatus.taken (ht 0) [0, 0, 0, 0] fusR = true := by decide +kernel

theorem wit_EveryStepKeepsForm : State.reset.formOk = true ∧ step State.reset = .next (nxt (step State.reset) rdy) := by
  constructor
  · decide
  · rfl
/-- Of the form: a byte that reads as unlisted bytes do is not listed (log 5). -/
theorem test_form : { run with mem := { run.mem with dram := ⟨[(5, 0)]⟩ } }.formOk = false
    ∧ { run with mem := { run.mem with dram := ⟨[(5, 1), (4, 1)]⟩ } }.formOk = false := by decide

/-- A SERVICE state entered from SAFE. -/
def svcHeld : State := { inSt .service with dev := { (inSt .service).dev with svcFromSafe := true } }
theorem wit_DeviceMovesOnlyByItsTransitions : (inSt .safe).safeHeld = true ∧ svcHeld.safeHeld = true ∧ run.safeHeld = false
    ∧ cSkkSafeReq ∈ cmdTable ∧ run.pending = []
    ∧ exec .vinLoss svcHeld = .next (nxt (exec .vinLoss svcHeld) run) ∧ (nxt (exec .vinLoss svcHeld) run).dev.st = .off := by
  refine ⟨by decide, by decide, by decide, by simp [cmdTable], by decide, rfl, by decide +kernel⟩
theorem test_moves : DevSt.safe.mayMove .run = false ∧ DevSt.safe.mayMove .service = true ∧ DevSt.awaitFw.mayMove .ready = false := by decide
end Sys2Proof.Tests
end

section
/-! SUPPORT. What a write and a zeroing leave in DRAM (R201, R206, R209, R214). -/

namespace Sys2Proof.Machine

/-- A write clears the poison of every 64-byte block it touches (R201). -/
theorem outside_of_mem_poison_dramWrite {a : Nat} {bs : List Byte} {s : State} {b : Nat} (hbs : bs ≠ [])
    (hb : b ∈ (dramWrite a bs s).mem.poison) : b * 64 + 64 ≤ a ∨ a + bs.length ≤ b * 64 := by
  cases bs with
  | nil => exact absurd rfl hbs
  | cons x t => simpa using (List.mem_filter.mp hb).2

theorem dramWrite_wf (a : Nat) (bs : List Byte) {s : State} (h : s.mem.dram.wf = true) :
    (dramWrite a bs s).mem.dram.wf = true := by
  rw [dramWrite_dram]
  exact Mem.wf_writeN bs _ a h

theorem zeroPages_wf (first count : Nat) {s : State} (h : s.mem.dram.wf = true) :
    (zeroPages first count s).mem.dram.wf = true :=
  Mem.wf_zeroRange _ _ _ h

/-- Settles O32, by the laws of byte memories: a write is `Mem.writeN` on DRAM, zeroing is `Mem.zeroRange`. -/
theorem dramReadsBackWhatWasWritten : Obligations.DramReadsBackWhatWasWritten := by
  intro a bs first count s
  refine ⟨dramRead_dramWrite a bs s, fun x hx => ?outside, fun hbs b hb => outside_of_mem_poison_dramWrite hbs hb,
    fun hwf => ⟨dramWrite_wf a bs hwf, zeroPages_wf first count hwf⟩, fun x => ?zeroed⟩
  case outside => rw [dramWrite_dram, Mem.read_writeN_out bs _ a x hx]
  case zeroed => rw [zeroPages_dram, Mem.read_zeroRange]

end Sys2Proof.Machine
end

section
/-! SUPPORT. The form of a state (`State.formOk`) as a proposition, and how updates of single parts of the state keep it. -/

namespace Sys2Proof.Machine

/-- The state has the form of `State.formOk`. -/
def State.Formed (s : State) : Prop := s.formOk = true

theorem State.formed_iff (s : State) : s.Formed ↔
    s.mem.dram.wf = true ∧ s.skk.sram.wf = true ∧ (s.pow.cap < 256 ∧ s.pow.capmax < 256 ∧ s.pow.dramRate < 4)
    ∧ s.hp0.expSeq < 65536 ∧ s.hp1.expSeq < 65536 := by
  simp [State.Formed, State.formOk, Pow.inFields, and_assoc]

/-- What an outcome's next state, if there is one, has the form. -/
def NextFormed (o : Host.Outcome State Fault Refusal) : Prop := ∀ t, o = .next t → t.Formed

protected theorem NextFormed.ite {c : Prop} {_ : Decidable c} {o p : Host.Outcome State Fault Refusal}
    (ho : NextFormed o) (hp : NextFormed p) : NextFormed (if c then o else p) := by
  split <;> assumption

namespace State.Formed

variable {s t : State}

theorem next (hs : s.Formed) : NextFormed (.next s) := by
  rintro _ ⟨rfl⟩
  exact hs

/-- The form rests on these seven parts of a state and on nothing else. -/
theorem frame (hs : s.Formed) (dram : t.mem.dram = s.mem.dram := by rfl) (sram : t.skk.sram = s.skk.sram := by rfl)
    (cap : t.pow.cap = s.pow.cap := by rfl) (capmax : t.pow.capmax = s.pow.capmax := by rfl)
    (rate : t.pow.dramRate = s.pow.dramRate := by rfl) (seq0 : t.hp0.expSeq = s.hp0.expSeq := by rfl)
    (seq1 : t.hp1.expSeq = s.hp1.expSeq := by rfl) : t.Formed := by
  rw [formed_iff] at hs ⊢
  rwa [dram, sram, cap, capmax, rate, seq0, seq1]

/-- New contents of DRAM, of the form that memories have. -/
theorem newDram (hs : s.Formed) (dram : t.mem.dram.wf = true) (sram : t.skk.sram = s.skk.sram := by rfl)
    (pow : t.pow = s.pow := by rfl) (hp0 : t.hp0 = s.hp0 := by rfl) (hp1 : t.hp1 = s.hp1 := by rfl) : t.Formed := by
  rw [formed_iff] at hs ⊢
  rw [sram, pow, hp0, hp1]
  exact ⟨dram, hs.2⟩

/-- Bytes written to Skink SRAM. -/
theorem writeSkinkSram {a : Nat} {bs : List Byte} (hs : s.Formed) :
    (modSkk (fun k => { k with sram := k.sram.writeN a bs }) s).Formed := by
  rw [formed_iff] at hs ⊢
  obtain ⟨hdram, hsram, hrest⟩ := hs
  exact ⟨hdram, Mem.wf_writeN bs _ a hsram, hrest⟩

/-- An update in place of other parts of a state; what it updates is read off without unfolding any operation. -/
theorem upd (hs : s.Formed) (dram : t.mem.dram = s.mem.dram := by with_reducible rfl)
    (sram : t.skk.sram = s.skk.sram := by with_reducible rfl) (cap : t.pow.cap = s.pow.cap := by with_reducible rfl)
    (capmax : t.pow.capmax = s.pow.capmax := by with_reducible rfl)
    (rate : t.pow.dramRate = s.pow.dramRate := by with_reducible rfl)
    (seq0 : t.hp0.expSeq = s.hp0.expSeq := by with_reducible rfl)
    (seq1 : t.hp1.expSeq = s.hp1.expSeq := by with_reducible rfl) : t.Formed :=
  hs.frame dram sram cap capmax rate seq0 seq1

protected theorem ite {c : Prop} {_ : Decidable c} (hs : s.Formed) (ht : t.Formed) : (if c then s else t).Formed := by
  split <;> assumption

/-- A fold whose step keeps the form keeps it. -/
protected theorem foldl {α : Type} {l : List α} {f : State → α → State} (hs : s.Formed)
    (hf : ∀ {s : State} {x : α}, s.Formed → (f s x).Formed) : (l.foldl f s).Formed := by
  induction l generalizing s with
  | nil => exact hs
  | cons x l ih => exact ih (hf hs)

/-- A fold that carries a value beside the state. -/
theorem foldlSnd {α β : Type} {l : List α} {f : β × State → α → β × State} {p : β × State} (hs : p.2.Formed)
    (hf : ∀ {p : β × State} {x : α}, p.2.Formed → (f p x).2.Formed) : (l.foldl f p).2.Formed := by
  induction l generalizing p with
  | nil => exact hs
  | cons x l ih => exact ih (hf hs)

theorem foldlFst {α β : Type} {l : List α} {f : State × β → α → State × β} {p : State × β} (hs : p.1.Formed)
    (hf : ∀ {p : State × β} {x : α}, p.1.Formed → (f p x).1.Formed) : (l.foldl f p).1.Formed := by
  induction l generalizing p with
  | nil => exact hs
  | cons x l ih => exact ih (hf hs)

/-- A fold that carries two values beside the state. -/
theorem foldlSndSnd {α β γ : Type} {l : List α} {f : β × γ × State → α → β × γ × State} {p : β × γ × State}
    (hs : p.2.2.Formed) (hf : ∀ {p : β × γ × State} {x : α}, p.2.2.Formed → (f p x).2.2.Formed) :
    (l.foldl f p).2.2.Formed := by
  induction l generalizing p with
  | nil => exact hs
  | cons x l ih => exact ih (hf hs)

/-! ## Host ports -/

theorem port_expSeq_lt (hs : s.Formed) (p : Port) : (s.port p).expSeq < 65536 := by
  obtain ⟨-, -, -, h0, h1⟩ := (formed_iff s).mp hs
  cases p <;> assumption

protected theorem setPort {p : Port} {v : PortSt} (hs : s.Formed) (hv : v.expSeq < 65536) : (s.setPort p v).Formed := by
  rw [formed_iff] at hs ⊢
  obtain ⟨hd, hk, hp, h0, h1⟩ := hs
  cases p
  · exact ⟨hd, hk, hp, hv, h1⟩
  · exact ⟨hd, hk, hp, h0, hv⟩

/-- A change of a port that leaves its expected sequence number alone. -/
theorem updPort {p : Port} {v : PortSt} (hs : s.Formed) (hv : v.expSeq = (s.port p).expSeq := by rfl) :
    (s.setPort p v).Formed :=
  hs.setPort (hv ▸ hs.port_expSeq_lt p)

end State.Formed

/-- A command whose effect, and what a refusal leaves behind, keep the form. -/
structure Cmd.KeepsForm (c : Cmd) : Prop where
  effect : ∀ {n : Nat} {h : Hdr} {ps : List Byte} {s : State}, s.Formed → (c.effect n h ps s).Formed
  onRefuse : ∀ {n : Nat} {h : Hdr} {ps : List Byte} {s : State}, s.Formed → (c.onRefuse n h ps s).Formed

/-- Of a command whose refusals leave nothing behind, only the effect matters. -/
theorem Cmd.KeepsForm.of_effect {c : Cmd}
    (effect : ∀ {n : Nat} {h : Hdr} {ps : List Byte} {s : State}, s.Formed → (c.effect n h ps s).Formed)
    (onRefuse : c.onRefuse = fun _ _ _ s => s := by rfl) : c.KeepsForm :=
  ⟨effect, fun hs => onRefuse ▸ hs⟩

/-- Counting a dissent leaves Skink SRAM alone. -/
theorem countDissent_sram (core : Nat) (k : Skk) : (countDissent core k).sram = k.sram := by
  unfold countDissent
  split <;> rfl

end Sys2Proof.Machine
end

section
/-! SUPPORT. Operations of a port that leave its expected sequence number alone (R51). -/

namespace Sys2Proof.Machine

theorem PortSt.makeRoom_expSeq (k n : Nat) (v : PortSt) : (makeRoom k n v).expSeq = v.expSeq := by
  induction k generalizing v with
  | zero => rfl
  | succ k ih =>
    unfold makeRoom
    split
    · rfl
    · split
      · exact ih _
      · rfl

theorem PortSt.offer_expSeq (v : PortSt) (op : Nat) (data : List Byte) : (v.offer op data).expSeq = v.expSeq := by
  unfold PortSt.offer
  dsimp only
  split
  · split
    · rfl
    · split
      · split <;> split <;> exact makeRoom_expSeq ..
      · split <;> rfl
  · rfl

theorem PortSt.complete_expSeq (v : PortSt) (t st : Nat) (data : List Byte) :
    (v.complete t st data).expSeq = v.expSeq := by
  unfold PortSt.complete
  split
  · rfl
  · split <;> rfl

end Sys2Proof.Machine
end

section
/-! SUPPORT. Every operation, command and instruction of the model keeps the form, in the order of the model's text.
A chain such as `hs.complete.offer` names the operations that a definition applies, the first one first. -/

-- One theorem after another: side by side, hundreds of short ones ask for more threads than the check's memory holds.
set_option Elab.async false

namespace Sys2Proof.Machine

/-! ## The state of INIT -/

/-- INIT leaves empty memories, sequence numbers of 0 and a power cap from the part (R398). -/
theorem State.Formed.fresh {p : Part} {l : Larder} : (State.fresh p l).Formed := by
  have hcap : p.variant.capW / 25 < 256 := by cases p.variant <;> decide
  exact (State.formed_iff _).mpr ⟨rfl, rfl, ⟨(by decide : 6 < 256), hcap, (by decide : 0 < 4)⟩,
    (by decide : 0 < 65536), (by decide : 0 < 65536)⟩

/-! ## Ports, completions and tenants -/

namespace State.Formed

variable {s : State}

protected theorem putReply {p : Port} {o : OutPkt} (hs : s.Formed) : (putReply p o s).Formed := hs.updPort

protected theorem offer {p : Port} {op : Nat} {data : List Byte} (hs : s.Formed) :
    (offer p op data s).Formed :=
  hs.updPort (PortSt.offer_expSeq ..)

protected theorem offer0 {op : Nat} {data : List Byte} (hs : s.Formed) : (offer0 op data s).Formed := hs.offer

protected theorem offerBoth {op : Nat} {data : List Byte} (hs : s.Formed) : (offerBoth op data s).Formed :=
  hs.offer.offer

protected theorem accept {p : Port} {op tag seq space : Nat} (hs : s.Formed) :
    (accept p op tag seq space s).2.Formed :=
  hs.upd.updPort

protected theorem completeNow {t st : Nat} {data : List Byte} (hs : s.Formed) :
    (completeNow t st data s).Formed :=
  hs.frame (seq0 := PortSt.complete_expSeq ..) (seq1 := PortSt.complete_expSeq ..)

protected theorem complete {t st : Nat} {data : List Byte} (hs : s.Formed) : (complete t st data s).Formed :=
  hs.upd.ite hs.completeNow

protected theorem releaseCpl (hs : s.Formed) : (releaseCpl s).Formed := hs.upd.foldl fun hs => hs.complete

protected theorem completeOpt {t : Option Nat} {st : Nat} {data : List Byte} (hs : s.Formed) :
    (completeOpt t st data s).Formed := by
  unfold completeOpt
  split
  · exact hs
  · exact hs.complete

protected theorem setDevSt {n : DevSt} (hs : s.Formed) : (setDevSt n s).Formed := hs.upd.offerBoth

protected theorem retireNoSpare (hs : s.Formed) : (retireNoSpare s).Formed := hs.upd.setDevSt.ite hs.upd

protected theorem journal {op port : Nat} {secure : Bool} {tenant object value : Nat} (hs : s.Formed) :
    (journal op port secure tenant object value s).Formed :=
  hs.frame

protected theorem journalCmd {h : Hdr} {op object value : Nat} (hs : s.Formed) :
    (journalCmd h op object value s).Formed :=
  hs.journal

protected theorem setTen {t : Nat} {v : Tenant} (hs : s.Formed) : (s.setTen t v).Formed := hs.frame

protected theorem setCl {n : Nat} {c : Cluster} (hs : s.Formed) : (s.setCl n c).Formed := hs.frame

protected theorem setTenSt {t : Nat} {n : TenSt} (hs : s.Formed) : (setTenSt t n s).Formed :=
  hs.ite hs.setTen.offer0

protected theorem takeFree (hs : s.Formed) : (takeFree s).2.Formed := hs.frame

end State.Formed

/-! ## DRAM, the cache and accesses -/

namespace State.Formed

variable {s : State}

protected theorem trimCache {cl : Nat} (hs : s.Formed) : (trimCache s cl).Formed := hs.ite hs.setCl

protected theorem cacheRead {cl : Nat} {secure : Bool} {t line : Nat} {alloc stream : Bool} (hs : s.Formed) :
    (cacheRead cl secure t line alloc stream s).Formed := by
  unfold cacheRead
  dsimp only
  split
  · exact hs.setCl
  · split
    · exact hs
    · split
      · exact hs
      · exact hs.setCl

protected theorem dropLines {a n : Nat} (hs : s.Formed) : (dropLines a n s).Formed := hs.frame

protected theorem dramWrite {a : Nat} {bs : List Byte} (hs : s.Formed) : (dramWrite a bs s).Formed := by
  unfold dramWrite
  split
  · exact hs
  · exact hs.newDram (Mem.wf_writeN _ _ _ ((formed_iff s).mp hs).1)

protected theorem zeroPages {first count : Nat} (hs : s.Formed) : (zeroPages first count s).Formed := by
  unfold zeroPages
  exact hs.newDram (zeroPages_wf first count ((formed_iff s).mp hs).1)

protected theorem recordViol {src : Nat} {secure write : Bool} {ten reason a : Nat} (hs : s.Formed) :
    (recordViol src secure write ten reason a s).Formed :=
  hs.frame (dram := by unfold recordViol; dsimp only; split <;> rfl)

protected theorem fwLog {secure : Bool} {kind unit detail : Nat} (hs : s.Formed) :
    (fwLog secure kind unit detail s).Formed := by
  unfold fwLog
  exact hs.upd

protected theorem markRtLock (hs : s.Formed) : (markRtLock s).Formed := hs.frame

protected theorem devWrite {c : Acc} {a : Nat} {bs : List Byte} (hs : s.Formed) :
    (devWrite c a bs s).Formed := by
  unfold devWrite
  split
  · exact hs.markRtLock.ite hs.dramWrite
  · exact hs.recordViol.fwLog

protected theorem ownWrite {t a : Nat} {bs : List Byte} (hs : s.Formed) : (ownWrite t a bs s).Formed :=
  hs.devWrite

protected theorem undefBytes {n : Nat} (hs : s.Formed) : (undefBytes n s).2.Formed := hs.takeFree

protected theorem devRead {c : Acc} {a n : Nat} (hs : s.Formed) : (devRead c a n s).2.Formed := by
  unfold devRead
  split
  · split
    · exact hs.undefBytes
    · exact hs
  · exact hs.recordViol.fwLog

end State.Formed

/-! ## What a latch, a fault or a close does to the units -/

namespace State.Formed

variable {s : State}

protected theorem noteDeg (hs : s.Formed) : (noteDeg s).Formed := hs.ite hs.upd

protected theorem modCtx {k : Nat} {f : StreamCtx → StreamCtx} (hs : s.Formed) : (modCtx k f s).Formed := by
  unfold modCtx
  split
  · exact hs
  · exact hs.upd

protected theorem setCtxSt {k : Nat} {n : CtxSt} {reason : Nat} (hs : s.Formed) :
    (setCtxSt k n reason s).Formed := by
  unfold setCtxSt
  split
  · exact hs
  · exact hs.ite hs.upd.offer0

protected theorem startStreams (hs : s.Formed) : (startStreams s).Formed := hs.foldl fun hs => hs.setCtxSt

protected theorem faultStreams {t : Nat} (hs : s.Formed) : (faultStreams t s).Formed :=
  hs.foldl fun hs => hs.modCtx.setCtxSt

protected theorem closeStream {k : Nat} (hs : s.Formed) : (closeStream k s).Formed := by
  unfold closeStream
  dsimp only
  split
  · exact hs.setCtxSt
  · exact hs.setCtxSt.upd

protected theorem dropPasses {id : Nat} (hs : s.Formed) : (dropPasses id s).Formed := hs.frame

protected theorem commitFlips {id : Nat} (hs : s.Formed) : (commitFlips id s).Formed := by
  unfold commitFlips
  split
  · exact hs
  · refine hs.foldl fun hs => ?_
    split
    · exact hs.upd.ite hs
    · exact hs

protected theorem untrain {k status : Nat} (hs : s.Formed) : (untrain k status s).Formed := by
  unfold untrain
  split
  · exact hs
  · split
    · exact hs
    · exact hs.upd.complete

protected theorem faultDisp {t k : Nat} (hs : s.Formed) : (faultDisp t k s).Formed := by
  unfold faultDisp
  split
  · exact hs
  · exact hs.upd.ite hs

protected theorem faultDisps {t : Nat} (hs : s.Formed) : (faultDisps t s).Formed :=
  hs.foldl fun hs => (hs.untrain.ite hs).faultDisp

protected theorem dispOff {k : Nat} (hs : s.Formed) : (dispOff k s).Formed := by
  unfold dispOff
  dsimp only
  split
  · exact hs.untrain
  · exact hs.untrain.upd

protected theorem closeRctx {n : Nat} (hs : s.Formed) : (closeRctx n s).Formed := by
  unfold closeRctx
  split
  · exact hs
  · exact hs.upd.completeOpt

protected theorem closeRaster {t : Nat} (hs : s.Formed) : (closeRaster t s).Formed :=
  (hs.foldl fun hs => hs.closeRctx).foldl fun hs => hs.dispOff

protected theorem setFeng {die : Nat} {e : FusEng} (hs : s.Formed) : (s.setFeng die e).Formed :=
  hs.upd.ite hs.upd

protected theorem evFusion {ctx ev idx st g : Nat} (hs : s.Formed) : (evFusion ctx ev idx st g s).Formed :=
  hs.offer0

protected theorem freeFusCtx {n : Nat} (hs : s.Formed) : (freeFusCtx n s).Formed := by
  unfold freeFusCtx
  split
  · exact hs
  · exact (hs.foldl fun hs => hs.complete).upd.completeOpt

protected theorem boundEvents {n : Nat} {old new : FusCtx} (hs : s.Formed) :
    (boundEvents n old new s).Formed :=
  hs.foldl fun hs => hs.ite hs.evFusion

protected theorem commitFusion {id : Nat} (hs : s.Formed) : (commitFusion id s).Formed := by
  refine hs.foldl fun hs => ?_
  split
  · exact hs.upd.boundEvents.ite hs
  · exact hs

protected theorem dropFusion {id : Nat} (hs : s.Formed) : (dropFusion id s).Formed := hs.frame

protected theorem endFusion {id : Nat} (hs : s.Formed) : (endFusion id s).Formed := hs.frame

protected theorem haltEngines {f : Engine → Bool} {cause : Nat} (hs : s.Formed) :
    (haltEngines f cause s).Formed :=
  hs.frame

protected theorem closeControl {t : Nat} (hs : s.Formed) : (closeControl t s).Formed := by
  unfold closeControl
  exact (hs.foldl fun hs => hs.foldl fun hs => hs.complete).upd

protected theorem dropUnits {id : Nat} (hs : s.Formed) : (dropUnits id s).Formed := hs.dropFusion.dropPasses

protected theorem endUnits {id : Nat} (hs : s.Formed) : (endUnits id s).Formed := hs.endFusion

protected theorem commitUnits {id : Nat} (hs : s.Formed) : (commitUnits id s).Formed :=
  hs.commitFusion.commitFlips

protected theorem safeUnits (hs : s.Formed) : (safeUnits s).Formed := hs.haltEngines

protected theorem afterSafe (hs : s.Formed) : (afterSafe s).Formed := hs.startStreams

protected theorem faultUnits {t : Nat} (hs : s.Formed) : (faultUnits t s).Formed :=
  hs.faultStreams.faultDisps.haltEngines

protected theorem closeGateway {t : Nat} (hs : s.Formed) : (closeGateway t s).Formed := hs.frame

protected theorem abortUnits (hs : s.Formed) : (abortUnits s).Formed := by
  unfold abortUnits
  dsimp only
  refine .foldl (.upd ?_) fun hs => hs.complete
  refine .foldl (.upd ?_) fun hs => hs.complete
  refine .foldl ?_ fun hs => hs.upd.foldl fun hs => hs.complete
  refine .foldl ?_ fun hs => hs.upd.foldl fun hs => hs.complete
  exact hs.foldl fun hs => hs.untrain

protected theorem closeUnits {t : Nat} (hs : s.Formed) : (closeUnits t s).Formed :=
  (hs.closeGateway.foldl fun hs => hs.closeStream).upd.closeRaster.closeControl.foldl fun hs => hs.freeFusCtx

end State.Formed

/-! ## Jobs and weight banks -/

namespace State.Formed

variable {s : State}

protected theorem modJob {id : Nat} {f : Job → Job} (hs : s.Formed) : (modJob id f s).Formed := by
  unfold modJob
  split
  · exact hs
  · exact hs.upd

protected theorem modProg {h : Nat} {f : Prog → Prog} (hs : s.Formed) : (modProg h f s).Formed := by
  unfold modProg
  split
  · exact hs
  · exact hs.upd

protected theorem modTen {t : Nat} {f : Tenant → Tenant} (hs : s.Formed) : (modTen t f s).Formed := hs.setTen

protected theorem modCl {n : Nat} {f : Cluster → Cluster} (hs : s.Formed) : (modCl n f s).Formed := hs.setCl

protected theorem addJob {j : Job} (hs : s.Formed) : (addJob j s).Formed := hs.frame

protected theorem chargeTen {t : Nat} {lc : Bool} {ns : Nat} (hs : s.Formed) : (chargeTen t lc ns s).Formed :=
  hs.modTen

protected theorem releaseTiles {id : Nat} {f : Nat → Bool} (hs : s.Formed) :
    (releaseTiles id f s).Formed := by
  unfold releaseTiles
  split
  · exact hs
  · exact hs.upd.chargeTen

protected theorem grantTo {id : Nat} (hs : s.Formed) : (grantTo id s).Formed := hs.modJob

protected theorem grantTiles (hs : s.Formed) : (grantTiles s).Formed := hs.foldl fun hs => hs.grantTo

protected theorem raiseVt {j : Job} (hs : s.Formed) : (raiseVt j s).Formed := hs.modTen.ite hs

protected theorem writeHeaders {j : Job} {valid : Bool} {sflags epoch cseq : Nat} (hs : s.Formed) :
    (writeHeaders j valid sflags epoch cseq s).Formed :=
  hs.foldl fun hs => hs.ownWrite

protected theorem msixSignal {n : Nat} (hs : s.Formed) : (msixSignal n s).Formed := hs.foldl fun hs => hs.upd

protected theorem deliver {j : Job} {st fc epoch cseq : Nat} (hs : s.Formed) :
    (deliver j st fc epoch cseq s).Formed := by
  unfold deliver
  dsimp only
  split
  · exact hs.completeOpt
  · split
    · refine .msixSignal ?_
      split
      · exact hs.upd.devWrite
      · exact hs.upd.completeOpt
    · split
      · exact hs.upd.devWrite
      · exact hs.upd.completeOpt

protected theorem setBank {h : Nat} {b : BankSt} {reason : Nat} (hs : s.Formed) :
    (setBank h b reason s).Formed := by
  unfold setBank
  split
  · exact hs
  · exact hs.upd.offer0

protected theorem drainBank {h : Nat} (hs : s.Formed) : (drainBank h s).Formed := by
  unfold drainBank
  split
  · exact hs.setBank.ite hs
  · exact hs

protected theorem addEval {h idx : Nat} (hs : s.Formed) : (addEval h idx s).Formed := by
  unfold addEval
  split
  · exact hs
  · exact hs.addJob

protected theorem fillResident {h bank : Nat} (hs : s.Formed) : (fillResident h bank s).Formed := by
  unfold fillResident
  split
  · exact hs
  · refine hs.foldl fun hs => ?_
    split
    · refine hs.ite ?_
      dsimp only
      split
      · exact hs.modCl.modCl
      · exact hs.modCl
    · exact hs

protected theorem acceptCand {h : Nat} (hs : s.Formed) : (acceptCand h s).Formed := by
  unfold acceptCand
  split
  · exact hs
  · exact hs.completeOpt.modProg.setBank

protected theorem fillStandby {h : Nat} (hs : s.Formed) : (fillStandby h s).Formed := by
  unfold fillStandby
  split
  · exact hs.fillResident
  · exact hs

protected theorem startEval {h ms : Nat} {tok : Option Nat} (hs : s.Formed) :
    (startEval h ms tok s).Formed := by
  unfold startEval
  dsimp only
  split
  · exact hs.modProg.fillStandby.setBank
  · exact hs.modProg.fillStandby.setBank.acceptCand.ite hs.modProg.fillStandby.setBank.addEval

protected theorem evalPassed {h idx sig : Nat} (hs : s.Formed) : (evalPassed h idx sig s).Formed := by
  unfold evalPassed
  dsimp only
  split
  · exact hs.modProg
  · exact hs.modProg.ite (hs.modProg.acceptCand.ite hs.modProg.addEval)

protected theorem swapBank {h : Nat} (hs : s.Formed) : (swapBank h s).Formed := by
  unfold swapBank
  split
  · exact hs
  · exact hs.ite hs.modProg.setBank.drainBank

protected theorem bankAfter {id : Nat} {j : Job} {ok : Bool} (hs : s.Formed) :
    (bankAfter id j ok s).Formed := by
  unfold bankAfter
  refine .drainBank ?_
  split
  · exact hs.startEval.ite hs.modProg.setBank
  · exact hs

protected theorem dropWork {id : Nat} (hs : s.Formed) : (dropWork id s).Formed := hs.upd.dropUnits

protected theorem fillChk (hs : s.Formed) : (fillChk s).Formed := by
  unfold fillChk
  split
  · exact hs
  · exact hs.upd.modJob.ite hs

protected theorem dropChk {id : Nat} (hs : s.Formed) : (dropChk id s).Formed := hs.upd.fillChk

protected theorem freeOld {h : Nat} (hs : s.Formed) : (freeOld h s).Formed := hs.modProg

protected theorem finishJob {id st fc epoch cseq : Nat} (hs : s.Formed) :
    (finishJob id st fc epoch cseq s).Formed := by
  unfold finishJob
  dsimp only
  split
  · exact hs.releaseTiles
  · refine .grantTiles (.freeOld (.bankAfter (.dropChk (.endUnits (.dropWork (.upd ?_))))))
    split
    · exact hs.releaseTiles.raiseVt.deliver
    · exact hs.releaseTiles.raiseVt

protected theorem dropJobs {f : Job → Bool} {st : Nat} (hs : s.Formed) : (dropJobs f st s).Formed :=
  hs.foldl fun hs => hs.finishJob

protected theorem freeCand {h reason st : Nat} (hs : s.Formed) : (freeCand h reason st s).Formed := by
  unfold freeCand
  split
  · exact hs
  · exact hs.modProg.dropJobs.completeOpt.setBank

protected theorem finishInvalid {id fc : Nat} (hs : s.Formed) : (finishInvalid id fc s).Formed := by
  unfold finishInvalid
  split
  · exact hs
  · refine .finishJob ?_
    split
    · exact hs.writeHeaders
    · exact hs

protected theorem noteFrame {h : Nat} {failed : Bool} (hs : s.Formed) : (noteFrame h failed s).Formed :=
  hs.modProg

protected theorem failDeps {n : Nat} (hs : s.Formed) : (failDeps n s).Formed := by
  induction n generalizing s with
  | zero => exact hs
  | succ n ih =>
    unfold failDeps
    split
    · exact ih (hs.noteFrame.ite hs).finishJob
    · exact hs

protected theorem sweepHeaders {t : Nat} {rs : List Recent} (hs : s.Formed) : (sweepHeaders t rs s).Formed :=
  hs.foldl fun hs => hs.devWrite

protected theorem sweepProgs {f : Prog → Bool} (hs : s.Formed) : (sweepProgs f s).Formed :=
  hs.foldl fun hs => hs.sweepHeaders.ite hs

protected theorem evSafe {phase : Nat} (hs : s.Formed) : (evSafe phase s).Formed := hs.offerBoth

protected theorem dropLoad {st : Nat} {data : List Byte} {l : Load} (hs : s.Formed) :
    (dropLoad st data l s).Formed := by
  unfold dropLoad
  refine .complete ?_
  split
  · exact hs.upd.modProg
  · exact hs.upd

protected theorem abortSubmits (hs : s.Formed) : (abortSubmits s).Formed := hs.foldl fun hs => hs.finishJob

protected theorem abortAccepted (hs : s.Formed) : (abortAccepted s).Formed :=
  (hs.abortSubmits.upd.completeOpt.foldl fun hs => hs.dropLoad).abortUnits.foldl
    fun hs => (hs.foldl fun hs => hs.complete).modProg

protected theorem endEvals (hs : s.Formed) : (endEvals s).Formed := hs.foldl fun hs => hs.freeCand.ite hs

protected theorem latchSafe {cause prog detail : Nat} (hs : s.Formed) : (latchSafe cause prog detail s).Formed := by
  unfold latchSafe
  extract_lets
  refine hs.ite ?_
  refine .afterSafe (.setDevSt (.abortAccepted (.sweepProgs (.evSafe (.safeUnits (.failDeps ?_))))))
  exact hs.upd.endEvals.foldl fun hs => hs.finishInvalid

protected theorem frameDone {h reason jobseq : Nat} (hs : s.Formed) :
    (frameDone h reason jobseq s).Formed := by
  unfold frameDone
  split
  · exact hs
  · exact hs.noteFrame.ite (hs.noteFrame.modProg.upd.offerBoth.latchSafe.ite hs.noteFrame.modProg.upd.offerBoth)

protected theorem endJob {id st fc inv : Nat} (hs : s.Formed) : (endJob id st fc inv s).Formed := by
  unfold endJob
  split
  · exact hs
  · refine .failDeps ?_
    split
    · exact (hs.finishInvalid.ite hs.finishJob).frameDone.ite (hs.finishInvalid.ite hs.finishJob)
    · exact (hs.finishInvalid.ite hs.finishJob).modProg
    · exact (hs.finishInvalid.ite hs.finishJob).freeCand

protected theorem endJobs {f : Job → Bool} {st fc : Nat} (hs : s.Formed) : (endJobs f st fc s).Formed :=
  hs.foldl fun hs => hs.endJob

protected theorem commitAt {id epoch : Nat} {checked : Bool} (hs : s.Formed) :
    (commitAt id epoch checked s).Formed := by
  unfold commitAt
  split
  · exact hs
  · extract_lets cseq fr sch counted written recorded finished
    have hcounted : counted.Formed := hs.upd
    have hwritten : written.Formed := hcounted.commitUnits.writeHeaders
    have hfinished : finished.Formed := hwritten.modProg.finishJob
    exact hs.endJob.ite (hs.markRtLock.endJob.ite (hfinished.frameDone.ite hfinished))

protected theorem commitJob {id : Nat} {checked : Bool} (hs : s.Formed) : (commitJob id checked s).Formed :=
  hs.commitAt

protected theorem faultTenant {t cause : Nat} (hs : s.Formed) : (faultTenant t cause s).Formed :=
  hs.modTen.setTenSt.faultUnits.endJobs.ite hs

protected theorem violate {c : Acc} {write : Bool} {reason a : Nat} (hs : s.Formed) :
    (violate c write reason a s).Formed :=
  hs.recordViol.faultTenant.ite (hs.recordViol.fwLog.ite hs.recordViol)

protected theorem checkedWrite {c : Acc} {a : Nat} {bs : List Byte} (hs : s.Formed) :
    (checkedWrite c a bs s).Formed := by
  unfold checkedWrite
  split
  · exact hs.markRtLock.ite hs.dramWrite
  · exact hs.violate

protected theorem checkedRead {c : Acc} {a n : Nat} (hs : s.Formed) : (checkedRead c a n s).2.Formed := by
  unfold checkedRead
  split
  · split
    · exact hs.undefBytes
    · exact hs
  · exact hs.violate

protected theorem restartJob {id : Nat} (hs : s.Formed) : (restartJob id s).Formed := by
  unfold restartJob
  split
  · exact hs
  · exact hs.ite hs.dropWork.dropChk.modJob.modTen

end State.Formed

/-! ## Stored blocks -/

namespace State.Formed

variable {s : State}

protected theorem failChecks {cl : Nat} {bad : List PairCheck} (hs : s.Formed) :
    (failChecks cl bad s).Formed := by
  unfold failChecks
  split
  · exact hs
  · exact hs.modCl.foldl fun hs => hs.endJob

protected theorem sramViolate {job : Nat} {write : Bool} {off : Nat} (hs : s.Formed) :
    (sramViolate job write off s).Formed := by
  unfold sramViolate
  split
  · exact hs
  · exact hs.violate

protected theorem workBytes {job cl : Nat} {unit : Option Nat} {a n : Nat} (hs : s.Formed) :
    (workBytes job cl unit a n s).2.Formed := by
  unfold workBytes
  split
  · dsimp only
    split
    · exact hs
    · exact hs.sramViolate
  · split
    · exact hs
    · dsimp only
      split
      · split
        · exact hs.endJob
        · split
          · exact hs.undefBytes
          · exact hs
      · exact hs.violate

protected theorem sramWrite {job cl unit off : Nat} {bs : List Byte} (hs : s.Formed) :
    (sramWrite job cl unit off bs s).Formed :=
  hs.modCl.ite hs.sramViolate

protected theorem fetchPairs {job cl : Nat} {t : Streams} {bs : List Nat} (hs : s.Formed) :
    (fetchPairs job cl t bs s).2.Formed :=
  hs.foldlSnd fun hs => hs.workBytes.workBytes

protected theorem loadRows {job cl tile : Nat} {vec : Bool} {t : Stored} {rs : List Nat} (hs : s.Formed) :
    (loadRows job cl tile vec t rs s).2.Formed := by
  unfold loadRows
  split
  · dsimp only
    split
    · exact hs.fetchPairs
    · split
      · exact hs.fetchPairs
      · exact hs.fetchPairs.failChecks
  · dsimp only
    split <;> exact hs.foldlSnd (fun hs => hs.workBytes)

end State.Formed

/-! ## Vector arithmetic -/

namespace State.Formed

variable {s : State}

protected theorem expand {job cl tile : Nat} {x : Expand} (hs : s.Formed) :
    (expand job cl tile x s).2.Formed := by
  unfold expand
  dsimp only
  split
  · exact hs.loadRows
  · exact hs.loadRows.foldl fun hs => hs.sramWrite

protected theorem loadPass {job cl tile : Nat} {p : MatPass} (hs : s.Formed) :
    (loadPass job cl tile p s).2.Formed := by
  unfold loadPass
  dsimp only
  split
  · split
    · exact hs.expand
    · split
      · exact hs.expand.loadRows
      · exact hs.expand.loadRows.loadRows
  · split
    · exact hs
    · split
      · exact hs.loadRows
      · exact hs.loadRows.loadRows

protected theorem loadPasses {job cl tile : Nat} {l : List MatPass} (hs : s.Formed) :
    (loadPasses job cl tile l s).2.Formed := by
  induction l generalizing s with
  | nil => exact hs
  | cons p t ih =>
    unfold loadPasses
    dsimp only
    split
    · exact hs.loadPass
    · exact ih hs.loadPass

protected theorem loadBlks {job cl tile : Nat} {f : Fam} {l : List AccBlk} (hs : s.Formed) :
    (loadBlks job cl tile f l s).2.Formed := by
  induction l generalizing s with
  | nil => exact hs
  | cons b t ih =>
    unfold loadBlks
    dsimp only
    split
    · exact hs.loadPasses
    · exact ih hs.loadPasses

protected theorem winRows {job cl tile : Nat} {w : VecWin} (hs : s.Formed) :
    (winRows job cl tile w s).2.Formed := by
  unfold winRows
  dsimp only
  split
  · exact hs.loadRows
  · split
    · exact hs.loadRows.loadRows
    · exact hs.loadRows

protected theorem loadWide {job cl tile : Nat} {bf : Bool} {t : Stored} (hs : s.Formed) :
    (loadWide job cl tile bf t s).2.Formed :=
  hs.loadRows

protected theorem optRows {job cl tile : Nat} {o : OptStep} (hs : s.Formed) : (optRows job cl tile o s).2.Formed := by
  unfold optRows
  extract_lets w m v g
  have hm : m.2.Formed := hs.loadWide.loadWide
  have hv : v.2.Formed := by
    unfold v
    split
    · exact hm
    · exact hm.loadWide
  have hg : g.2.Formed := hv.loadWide
  split <;> exact hg

protected theorem vecEvalVec1 {x : State → Option (List (List Nat)) × State} {f : List (List Nat) → List (List Nat)}
    (hs : s.Formed) (hx : ∀ {a : State}, a.Formed → (x a).2.Formed) :
    (vecEval.vec1 x f s).2.Formed :=
  hx hs

protected theorem vecEvalVec2 {x y : State → Option (List (List Nat)) × State} {f : Nat → Nat → Nat} (hs : s.Formed)
    (hx : ∀ {a : State}, a.Formed → (x a).2.Formed) (hy : ∀ {a : State}, a.Formed → (y a).2.Formed) :
    (vecEval.vec2 x y f s).2.Formed := by
  unfold vecEval.vec2
  dsimp only
  split <;> exact hy (hx hs)

/-- What the vector engine reads keeps the form, operand by operand. -/
protected theorem vecEval {job cl tile : Nat} {e : VecExpr} (hs : s.Formed) : (vecEval job cl tile e s).2.Formed := by
  induction e generalizing s with
  | load bf t => exact hs.loadWide
  | const rows => exact hs
  | add bf x y hx hy => exact hs.vecEvalVec2 hx hy
  | mul bf x y hx hy => exact hs.vecEvalVec2 hx hy
  | div bf x y hx hy => exact hs.vecEvalVec2 hx hy
  | fma bf x y z hx hy hz =>
    unfold vecEval
    dsimp only
    split <;> exact hz (hy (hx hs))
  | sqrt bf x hx => exact hs.vecEvalVec1 hx
  | trans f bf x hx => exact hs.vecEvalVec1 hx
  | sum bf x hx => exact hs.vecEvalVec1 hx
  | win w => exact hs.winRows
  | opt o => exact hs.optRows
  | lossScale n x hx => exact hs.vecEvalVec1 hx

protected theorem jobDramWrite {job cl a : Nat} {bs : List Byte} (hs : s.Formed) :
    (jobDramWrite job cl a bs s).Formed := by
  unfold jobDramWrite
  split
  · exact hs
  · exact hs.modJob.ite (hs.markRtLock.endJob.ite hs.checkedWrite)

protected theorem jobWrite {job cl a : Nat} {bs : List Byte} (hs : s.Formed) :
    (jobWrite job cl a bs s).Formed :=
  hs.sramWrite.ite hs.jobDramWrite

protected theorem wbWrite {job cl : Nat} {d : WbDest} {w : Nat × List Byte} (hs : s.Formed) :
    (wbWrite job cl d w s).Formed := by
  unfold wbWrite
  split
  · exact hs.sramWrite
  · exact hs.jobDramWrite

protected theorem countNonfin {cl n : Nat} (hs : s.Formed) : (countNonfin cl n s).Formed := hs.ite hs.modCl

protected theorem wbRows {job cl tile : Nat} {src : WbSrc} (hs : s.Formed) :
    (wbRows job cl tile src s).2.Formed := by
  unfold wbRows
  split
  · exact hs.vecEval
  · dsimp only
    split
    · exact hs.loadBlks
    · split
      · split
        · exact hs.loadBlks.modCl.modCl.modJob
        · exact hs.loadBlks.modCl.modCl.modJob.modCl
      · exact hs.loadBlks.modCl.modCl

protected theorem wbConvert {job cl : Nat} {conv : Conv} {dest : WbDest} {nfmode : Nat} {rows : List (List Nat)}
    (hs : s.Formed) :
    (wbConvert job cl conv dest nfmode rows s).Formed :=
  hs.countNonfin.endJob.ite (hs.countNonfin.modCl.foldl fun hs => hs.wbWrite)

protected theorem execWriteback {job cl tile : Nat} {src : WbSrc} {conv : Conv} {dest : WbDest} (hs : s.Formed) :
    NextFormed (execWriteback job cl tile src conv dest s) := by
  unfold execWriteback
  split
  · exact hs.next
  · split
    · exact hs.next
    · dsimp only
      split
      · exact hs.wbRows.next
      · exact hs.wbRows.wbConvert.next

protected theorem fetchPair {cl : Nat} {acc : List PairCheck × State} {f : PairFetch} (hs : acc.2.Formed) :
    (fetchPair cl acc f).2.Formed := by
  unfold fetchPair
  dsimp only
  split
  · exact hs
  · split
    · exact hs
    · split
      · exact hs.workBytes.workBytes
      · split
        · exact hs.workBytes.workBytes
        · split
          · exact hs.workBytes.workBytes.sramWrite.sramWrite
          · exact hs.workBytes.workBytes

protected theorem execBlockPairFetch {cl : Nat} {fs : List PairFetch} (hs : s.Formed) :
    NextFormed (execBlockPairFetch cl fs s) :=
  (hs.foldlSnd fun hs => hs.fetchPair).failChecks.next

end State.Formed

/-! ## A command at its turn -/

namespace State.Formed

variable {s : State}

protected theorem consume {h : Hdr} {o : OutPkt} (hs : s.Formed) : (consume h o s).Formed :=
  hs.setPort (Nat.mod_lt _ (by decide))

protected theorem replyUse {op : Nat} {h : Hdr} {st : Nat} {data : List Byte} (hs : s.Formed) :
    (replyUse op h st data s).Formed :=
  hs.putReply.consume

protected theorem replyOnly {op : Nat} {h : Hdr} {st : Nat} {data : List Byte} (hs : s.Formed) :
    (replyOnly op h st data s).Formed :=
  hs.putReply

protected theorem logInternal {c : Cmd} {h : Hdr} {ps : List Byte} {n : State} (hn : n.Formed) :
    (logInternal c h ps s n).Formed :=
  hn.fwLog.ite hn

protected theorem runUnknown {op : Nat} {h : Hdr} (hs : s.Formed) : (runUnknown op h s).Formed := by
  unfold runUnknown
  split
  · exact hs.replyOnly
  · split
    · exact hs.putReply
    · exact hs.replyOnly
    · exact hs.replyUse

end State.Formed

theorem Cmd.KeepsForm.perform {c : Cmd} {h : Hdr} {ps : List Byte} {s : State} (hc : c.KeepsForm) (hs : s.Formed) :
    (c.perform h ps s).Formed := by
  unfold Cmd.perform
  split
  · exact hc.effect hs.replyUse
  · exact hc.effect hs.replyUse.accept

/-- A packet at its turn: answered, refused or carried out, it keeps the form (R49 to R51). -/
theorem Cmd.KeepsForm.run {c : Cmd} {h : Hdr} {ps : List Byte} {s : State} (hc : c.KeepsForm) (hs : s.Formed) :
    (c.run h ps s).Formed := by
  unfold Cmd.run
  refine .ite (.ite (hc.perform hs) hs.replyOnly.logInternal) (.ite hs.replyOnly ?_)
  split
  · exact hs.putReply
  · exact hs.replyOnly
  · exact (hc.perform hs).ite (hc.onRefuse hs.replyUse).logInternal

theorem Cmd.KeepsForm.arrive {c : Cmd} {h : Hdr} {ps : List Byte} {s : State} (hc : c.KeepsForm) (hs : s.Formed) :
    (c.arrive h ps s).Formed :=
  hs.ite ((hc.run hs).ite hs.updPort)

theorem Cmd.KeepsForm.exec {c : Cmd} {h : Hdr} {ps : List Byte} {s : State} (hc : c.KeepsForm) (hs : s.Formed) :
    NextFormed (c.exec h ps s) :=
  (hc.arrive hs).next

/-! ## Loads of programs -/

namespace State.Formed

variable {s : State}

protected theorem evProg {h t kind lc cl tile : Nat} (hs : s.Formed) : (evProg h t kind lc cl tile s).Formed :=
  hs.offer0

protected theorem reserve {l : Load} (hs : s.Formed) : (reserve l s).Formed :=
  hs.upd.foldl fun hs => hs.trimCache

protected theorem reserveWaiting {l : Load} (hs : s.Formed) : (reserveWaiting l s).Formed :=
  hs.upd.foldl fun hs => hs.trimCache

protected theorem addWaiting {tok t : Nat} {ps : List Byte} {st : LoadSt} {rep : Option (Nat × Nat)} (hs : s.Formed) :
    (addWaiting tok t ps st rep s).Formed :=
  hs.frame

protected theorem makeSteps {l : Load} (hs : s.Formed) : (makeSteps l s).Formed := by
  unfold makeSteps
  split
  · exact hs.dropLoad
  · exact hs.dropLoad.ite hs.reserveWaiting

protected theorem stepLoads {n : Nat} (hs : s.Formed) : (stepLoads n s).Formed := by
  induction n generalizing s with
  | zero => exact hs
  | succ n ih =>
    unfold stepLoads
    split
    · exact hs.ite (ih hs.makeSteps)
    · exact hs

protected theorem runLoads (hs : s.Formed) : (runLoads s).Formed := hs.stepLoads

protected theorem endDrain {l : Load} (hs : s.Formed) : (endDrain l s).Formed := hs.frame

protected theorem dropProgCmds {h : Nat} {p : Prog} {st : Nat} (hs : s.Formed) :
    (dropProgCmds h p st s).Formed :=
  (hs.foldl fun hs => hs.complete).modProg.completeOpt.modProg.completeOpt.foldl fun hs => hs.dropLoad

protected theorem removeProg {h jobSt jobFc cmdSt : Nat} (hs : s.Formed) :
    (removeProg h jobSt jobFc cmdSt s).Formed := by
  unfold removeProg
  split
  · exact hs
  · refine .runLoads (.failDeps (.upd ?_))
    split
    · refine .ite ?_ (.setBank ?_) <;> exact (hs.foldl fun hs => hs.finishJob).dropProgCmds
    · exact (hs.foldl fun hs => hs.finishJob).dropProgCmds

protected theorem loseProg {h lc cl tile : Nat} (hs : s.Formed) : (loseProg h lc cl tile s).Formed := by
  unfold loseProg
  split
  · exact hs
  · exact hs.removeProg.evProg.upd.ite hs.removeProg.evProg

protected theorem unloadProg {h : Nat} (hs : s.Formed) : (unloadProg h s).Formed := by
  unfold unloadProg
  split
  · exact hs
  · exact (hs.foldl fun hs => hs.removeProg.evProg).removeProg.evProg

protected theorem rebindJob {id old : Nat} {new : Option Nat} {tiles : List Nat} {deg : Bool} (hs : s.Formed) :
    (rebindJob id old new tiles deg s).Formed := by
  unfold rebindJob
  split
  · exact hs
  · exact hs.ite hs.releaseTiles.modJob.restartJob.grantTiles

protected theorem rebindJobs {cl t : Nat} {sp : Option Nat} {h no : Nat} {bs : List LcBind} (hs : s.Formed) :
    (rebindJobs cl t sp h no bs s).Formed := by
  unfold rebindJobs
  refine .foldl hs fun hs => ?_
  split
  · exact hs.rebindJob
  · split
    · split
      · exact hs.rebindJob
      · exact hs
    · exact hs

protected theorem retireInOld {cl t : Nat} {sp : Option Nat} {h : Nat} {o : OldImg} (hs : s.Formed) :
    (retireInOld cl t sp h o s).Formed := by
  unfold retireInOld
  split
  · exact hs.modProg.rebindJobs
  · exact (hs.foldl fun hs => hs.finishJob).failDeps

protected theorem retireInProg {cl t : Nat} {sp : Option Nat} {h : Nat} (hs : s.Formed) :
    (retireInProg cl t sp h s).Formed := by
  unfold retireInProg
  dsimp only
  split
  · split
    · exact hs.foldl fun hs => hs.retireInOld
    · exact hs
  · split
    · refine .evProg (.rebindJobs (.modProg ?_))
      split
      · exact hs.foldl fun hs => hs.retireInOld
      · exact hs
    · refine .modProg ?_
      split
      · exact hs.foldl fun hs => hs.retireInOld
      · exact hs
    · refine .loseProg ?_
      split
      · exact hs.foldl fun hs => hs.retireInOld
      · exact hs
    · split
      · exact hs.foldl fun hs => hs.retireInOld
      · exact hs

protected theorem retireInLoad {cl t : Nat} {sp : Option Nat} {l : Load} (hs : s.Formed) :
    (retireInLoad cl t sp l s).Formed := by
  unfold retireInLoad
  split
  · exact hs.upd
  · exact hs.dropLoad

protected theorem wear {kind action cause inst value : Nat} (hs : s.Formed) :
    (wear kind action cause inst value s).Formed :=
  hs.upd.offer0

protected theorem modMap {f : RetMap → RetMap} (hs : s.Formed) : (modMap f s).Formed := hs.frame

protected theorem retireTile {cl t : Nat} (hs : s.Formed) : (retireTile cl t s).Formed := by
  unfold retireTile
  extract_lets m wasSpare sp noSpare mapped masked inProgs inLoads
  have hmasked : masked.Formed := hs.modMap.upd
  have hprogs : inProgs.Formed := hmasked.foldl fun hs => hs.retireInProg
  have hloads : inLoads.Formed := hprogs.foldl fun hs => hs.retireInLoad
  exact hs.ite (hmasked.ite (hloads.retireNoSpare.ite hloads))

protected theorem firstCover {h : Nat} (hs : s.Formed) : (firstCover h s).Formed := hs.modProg

protected theorem copyWeights {l : Load} (hs : s.Formed) : (copyWeights l s).Formed :=
  hs.foldl fun hs => hs.dramWrite

protected theorem clearLost {l : Load} (hs : s.Formed) : (clearLost l s).Formed := hs.upd.ite hs

end State.Formed

/-! ## Programs and weight banks -/

namespace State.Formed

variable {s : State}

protected theorem execEvalMsExpiry {prog : Nat} (hs : s.Formed) : NextFormed (execEvalMsExpiry prog s) := by
  unfold execEvalMsExpiry
  split
  · exact hs.freeCand.next.ite hs.next
  · exact hs.next

protected theorem execProgLoadComplete {i : Nat} (hs : s.Formed) : NextFormed (execProgLoadComplete i s) := by
  unfold execProgLoadComplete
  split
  · exact hs.next
  · exact (hs.copyWeights.upd.firstCover.ite hs.copyWeights.upd).clearLost.fillResident.complete.next.ite hs.next

protected theorem execProgUnloadDrained {prog : Nat} (hs : s.Formed) :
    NextFormed (execProgUnloadDrained prog s) := by
  unfold execProgUnloadDrained
  split
  · exact hs.next
  · exact hs.modProg.unloadProg.completeOpt.next.ite hs.next

protected theorem execProgReplaceDrained {prog : Nat} (hs : s.Formed) :
    NextFormed (execProgReplaceDrained prog s) := by
  unfold execProgReplaceDrained
  split
  · exact hs.next.ite hs.endDrain.runLoads.next
  · exact hs.next

protected theorem execProgReplaceSwitch {prog : Nat} (hs : s.Formed) :
    NextFormed (execProgReplaceSwitch prog s) := by
  unfold execProgReplaceSwitch
  split
  · exact hs.next.ite ((hs.copyWeights.ite hs.copyWeights.freeCand).modProg.upd.fillResident.evProg.complete.next)
  · exact hs.next

end State.Formed

theorem cWbankStatus_keepsForm : cWbankStatus.KeepsForm := .of_effect fun hs => hs

theorem cWbankOpen_keepsForm : cWbankOpen.KeepsForm := .of_effect fun hs => hs.modProg.setBank

theorem cWbankSubmit_keepsForm : cWbankSubmit.KeepsForm := .of_effect fun hs => hs.startEval

theorem cWbankAbandon_keepsForm : cWbankAbandon.KeepsForm := .of_effect fun hs => hs.freeCand

theorem cProgLoad_keepsForm : cProgLoad.KeepsForm := by
  refine .of_effect fun {n h ps s} hs => ?_
  dsimp only [cProgLoad]
  refine hs.addWaiting.ite ?_
  split
  · exact hs.complete
  · exact hs.reserve

theorem cProgFitcheck_keepsForm : cProgFitcheck.KeepsForm := by
  refine .of_effect fun {n h ps s} hs => ?_
  dsimp only [cProgFitcheck]
  refine hs.addWaiting.ite ?_
  split
  · exact hs.complete
  · exact hs.complete

theorem cProgUnload_keepsForm : cProgUnload.KeepsForm := .of_effect fun hs => hs.modProg.endJobs

theorem cProgReplace_keepsForm : cProgReplace.KeepsForm := by
  refine .of_effect fun {n h ps s} hs => ?_
  dsimp only [cProgReplace]
  split
  · exact hs
  · refine (hs.addWaiting.modProg.ite hs.complete).ite (hs.addWaiting.modProg.ite ?_)
    split
    · exact hs.complete
    · exact hs.modProg.reserve

theorem cProgInfo_keepsForm : cProgInfo.KeepsForm := .of_effect fun hs => hs

/-! ## Tenants -/

namespace State.Formed

variable {s : State}

protected theorem markSecLive (hs : s.Formed) : (markSecLive s).Formed := hs.frame

protected theorem resetBwr {t : Nat} (hs : s.Formed) : (resetBwr t s).Formed := hs.frame

protected theorem execTenantQuiesceDrained {t : Nat} (hs : s.Formed) :
    NextFormed (execTenantQuiesceDrained t s) :=
  hs.modTen.completeOpt.next.ite hs.next

protected theorem cancelQueued {t : Nat} (hs : s.Formed) : (cancelQueued t s).Formed := hs.endJobs

protected theorem releasePages {t : Nat} (hs : s.Formed) : (releasePages t s).Formed := by
  unfold releasePages
  exact (hs.foldl fun hs => hs.dropLines.zeroPages).upd

protected theorem execTenantCloseDrained {t : Nat} (hs : s.Formed) : NextFormed (execTenantCloseDrained t s) :=
  (hs.foldl fun hs => hs.unloadProg).upd.closeUnits.releasePages.setTenSt.setTen.markSecLive.completeOpt.next.ite
    hs.next

end State.Formed

theorem cTenantOpen_keepsForm : cTenantOpen.KeepsForm := .of_effect fun hs => hs.setTen.resetBwr.setTenSt.markSecLive

theorem cTenantQuiesce_keepsForm : cTenantQuiesce.KeepsForm := .of_effect fun hs => hs.modTen.setTenSt

theorem cTenantResume_keepsForm : cTenantResume.KeepsForm := .of_effect fun hs => hs.setTenSt

theorem cTenantReset_keepsForm : cTenantReset.KeepsForm :=
  .of_effect fun hs => hs.cancelQueued.modTen.setTenSt.startStreams

theorem cTenantClose_keepsForm : cTenantClose.KeepsForm :=
  .of_effect fun hs => (((hs.modTen.setTenSt.ite hs.modTen).foldl (fun hs => hs.dropLoad)).runLoads).cancelQueued

theorem cTenantStatus_keepsForm : cTenantStatus.KeepsForm := .of_effect fun hs => hs

theorem cQueueCreate_keepsForm : cQueueCreate.KeepsForm := by
  refine .of_effect fun {n h ps s} hs => ?_
  dsimp only [cQueueCreate]
  exact hs.upd

theorem cQueueDestroy_keepsForm : cQueueDestroy.KeepsForm := by
  refine .of_effect fun {n h ps s} hs => ?_
  dsimp only [cQueueDestroy]
  exact hs.upd

theorem cQueueStatus_keepsForm : cQueueStatus.KeepsForm := .of_effect fun hs => hs

/-! ## Queues and jobs -/

namespace State.Formed

variable {s : State}

protected theorem wakeVt {t : Nat} (hs : s.Formed) : (wakeVt t s).Formed := by
  unfold wakeVt
  split
  · exact hs
  · split
    · exact hs
    · exact hs.modTen

protected theorem countTaken {t qn : Nat} (hs : s.Formed) : (countTaken t qn s).Formed := by
  unfold countTaken
  split
  · exact hs
  · exact hs.upd

protected theorem takeJob {j : Job} (hs : s.Formed) : (takeJob j s).Formed :=
  (hs.wakeVt.ite hs).countTaken.addJob.failDeps

protected theorem doorbell {t qn : Nat} {f : Queue → State → State} (hs : s.Formed)
    (hf : ∀ {a : Queue} {a_1 : State}, a_1.Formed → (f a a_1).Formed) :
    (doorbell t qn f s).Formed := by
  unfold doorbell
  split
  · exact (hf hs).ite hs.modTen
  · exact hs.modTen

protected theorem writeSqTail {tenant queue v : Nat} (hs : s.Formed) : (writeSqTail tenant queue v s).Formed :=
  hs.doorbell fun hs => hs.upd.faultTenant.ite hs.upd

protected theorem writeCqHead {tenant queue v : Nat} (hs : s.Formed) : (writeCqHead tenant queue v s).Formed :=
  hs.doorbell fun hs => hs.upd

protected theorem execSqTailWrite {w : DoorWrite} (hs : s.Formed) : NextFormed (execSqTailWrite w s) := by
  unfold execSqTailWrite
  split
  · exact hs.writeSqTail.next
  · exact hs.next

protected theorem execCqHeadWrite {w : DoorWrite} (hs : s.Formed) : NextFormed (execCqHeadWrite w s) := by
  unfold execCqHeadWrite
  split
  · exact hs.writeCqHead.next
  · exact hs.next

protected theorem execSqEntryTake {tenant queue : Nat} (hs : s.Formed) :
    NextFormed (execSqEntryTake tenant queue s) := by
  unfold execSqEntryTake
  split
  · exact hs.next
  · split
    · exact hs.next
    · exact hs.next.ite (hs.devRead.upd.takeJob.next.ite hs.devRead.upd.countTaken.deliver.next)

protected theorem stopJob {id st fc : Nat} (hs : s.Formed) : (stopJob id st fc s).Formed := by
  unfold stopJob
  split
  · exact hs
  · split
    · exact hs.endJob
    · exact hs.endJob
    · exact hs.endJob.ite hs.modJob
    · exact hs

protected theorem applyLeave {h : Nat} {g : BatchChg} (hs : s.Formed) : (applyLeave h g s).Formed :=
  hs.modProg.complete

protected theorem applyJoin {h : Nat} {g : BatchChg} (hs : s.Formed) : (applyJoin h g s).Formed := by
  unfold applyJoin
  split
  · exact hs
  · split
    · exact hs.complete
    · split
      · exact hs.complete
      · exact hs.complete.ite ((hs.foldl fun hs => hs.dramWrite).modProg.complete)

protected theorem batchBoundary {h : Nat} (hs : s.Formed) : (batchBoundary h s).Formed := by
  unfold batchBoundary
  split
  · exact hs
  · exact (hs.modProg.foldl fun hs => hs.applyLeave).foldl fun hs => hs.applyJoin

end State.Formed

theorem cJobSubmit_keepsForm : cJobSubmit.KeepsForm := by
  refine .of_effect fun {n h ps s} hs => ?_
  dsimp only [cJobSubmit]
  split
  · exact hs
  · exact hs.takeJob

theorem cQueueRings_keepsForm : cQueueRings.KeepsForm := by
  refine .of_effect fun {n h ps s} hs => ?_
  dsimp only [cQueueRings]
  split
  · exact hs
  · exact hs.upd

theorem cJobCancel_keepsForm : cJobCancel.KeepsForm := by
  refine .of_effect fun {n h ps s} hs => ?_
  dsimp only [cJobCancel]
  split
  · exact hs.stopJob
  · exact hs

theorem cJobStatus_keepsForm : cJobStatus.KeepsForm := .of_effect fun hs => hs

theorem cPartitionSet_keepsForm : cPartitionSet.KeepsForm := .of_effect fun hs => hs.journalCmd.modTen

theorem cPartitionGet_keepsForm : cPartitionGet.KeepsForm := .of_effect fun hs => hs

theorem cBatchJoin_keepsForm : cBatchJoin.KeepsForm := .of_effect fun hs => hs.modProg

theorem cBatchLeave_keepsForm : cBatchLeave.KeepsForm := .of_effect fun hs => hs.modProg

theorem cBatchStatus_keepsForm : cBatchStatus.KeepsForm := .of_effect fun hs => hs

/-! ## Windows -/

namespace State.Formed

variable {s : State}

protected theorem setHalo {b : HaloBuf} (hs : s.Formed) : (setHalo b s).Formed := hs.frame

protected theorem execHaloEntryWrite {job idx copy step waitUs : Nat} {rows : List Byte} (hs : s.Formed) :
    NextFormed (execHaloEntryWrite job idx copy step waitUs rows s) := by
  unfold execHaloEntryWrite
  split
  · exact hs.next
  · split
    · exact hs.next
    · exact hs.next.ite hs.setHalo.modCl.next

protected theorem execHaloEntryRead {job idx copy step waitUs unit off : Nat} (hs : s.Formed) :
    NextFormed (execHaloEntryRead job idx copy step waitUs unit off s) := by
  unfold execHaloEntryRead
  split
  · exact hs.next
  · split
    · exact hs.next
    · dsimp only
      split
      · exact hs.next
      · exact hs.next.ite (hs.modCl.setHalo.sramWrite.next.ite hs.modCl.modCl.endJob.next)

protected theorem setCld {die : Nat} {c : Colander} (hs : s.Formed) : (s.setCld die c).Formed :=
  hs.upd.ite hs.upd

protected theorem execColanderCall {job cl : Nat} {desc : List Byte} (hs : s.Formed) :
    NextFormed (execColanderCall job cl desc s) := by
  unfold execColanderCall
  split
  · exact hs.next
  · exact hs.next.ite hs.setCld.next

protected theorem cdRead {job cl a n : Nat} (hs : s.Formed) : (cdRead job cl a n s).2.Formed := by
  unfold cdRead
  split <;> exact hs.workBytes

/-- What an NMS call (R163) does once its inputs are read: a fault or its results. -/
protected theorem colanderResults {c d e : Prop} {_ : Decidable c} {_ : Decidable d} {_ : Decidable e}
    {job st fc inv cl a n m st' fc' inv' : Nat} {bs : List Byte} (hs : s.Formed) :
    NextFormed (if c then .next s else if d then .next (endJob job st fc inv s)
      else if e then .next (endJob job st' fc' inv' (countNonfin cl n s))
      else .next (jobWrite job cl a bs (countNonfin cl m s))) :=
  hs.next.ite (hs.endJob.next.ite (hs.countNonfin.endJob.next.ite hs.countNonfin.jobWrite.next))

protected theorem execColanderCallDone {die : Nat} (hs : s.Formed) : NextFormed (execColanderCallDone die s) := by
  unfold execColanderCallDone
  split
  · exact hs.next
  · dsimp only
    split
    · exact hs.setCld.next
    · split
      · split
        · exact hs.setCld.cdRead.cdRead.cdRead.cdRead.colanderResults
        · exact hs.setCld.cdRead.cdRead.cdRead.colanderResults
      · split
        · exact hs.setCld.cdRead.cdRead.cdRead.colanderResults
        · exact hs.setCld.cdRead.cdRead.colanderResults

end State.Formed

/-! ## Rendering -/

namespace State.Formed

variable {s : State}

protected theorem shadeVertex {e : PassEnv} {r : List Byte} {inst v : Nat} (hs : s.Formed) :
    (shadeVertex e r inst v s).2.Formed :=
  hs.foldlSnd fun hs => hs.cdRead

protected theorem drawIndices {e : PassEnv} {r : List Byte} (hs : s.Formed) :
    (drawIndices e r s).2.Formed := by
  unfold drawIndices
  split
  · exact hs
  · exact hs.cdRead

protected theorem drawPrims {e : PassEnv} {r : List Byte} (hs : s.Formed) : (drawPrims e r s).2.2.Formed := by
  unfold drawPrims
  extract_lets ix
  have hix : ix.2.Formed := hs.drawIndices
  clear_value ix
  refine foldlSndSnd hix fun {p inst} hp => ?_
  refine foldlSnd hp fun hs => ?_
  exact hs.shadeVertex

protected theorem rasRead {e : PassEnv} {a n : Nat} (hs : s.Formed) : (rasRead e a n s).2.Formed := by
  unfold rasRead
  split
  · exact hs
  · split
    · split
      · exact hs.endJob
      · split
        · exact hs.undefBytes
        · exact hs
    · exact hs.violate

protected theorem rasWrite {e : PassEnv} {a : Nat} {bs : List Byte} (hs : s.Formed) :
    (rasWrite e a bs s).Formed := by
  unfold rasWrite
  split
  · exact hs
  · split
    · exact hs.markRtLock.endJob.ite hs.dramWrite
    · exact hs.violate

protected theorem readTile {e : PassEnv} {base pitch bps ns tile : Nat} (hs : s.Formed) :
    (readTile e base pitch bps ns tile s).2.Formed :=
  hs.foldlSnd fun hs => hs.rasRead

protected theorem writeTile {e : PassEnv} {base pitch bps ns tile : Nat} {codes : List Nat} (hs : s.Formed) :
    (writeTile e base pitch bps ns tile codes s).Formed :=
  hs.foldl fun hs => hs.rasWrite

protected theorem readFlag {e : PassEnv} {r : List Byte} {tile : Nat} (hs : s.Formed) :
    (readFlag e r tile s).2.Formed := by
  unfold readFlag
  split
  · exact hs.rasRead
  · exact hs

protected theorem setFlag {e : PassEnv} {r : List Byte} {tile : Nat} {v : Bool} (hs : s.Formed) :
    (setFlag e r tile v s).Formed :=
  hs.rasRead.rasWrite.ite hs

protected theorem storedTile {e : PassEnv} {r : List Byte} {tile : Nat} (hs : s.Formed) :
    (storedTile e r tile s).2.Formed := by
  unfold storedTile
  dsimp only
  split <;> exact hs.readTile

protected theorem loadAtt {e : PassEnv} {earlier : Bool} {tile a : Nat} (hs : s.Formed) :
    (loadAtt e earlier tile a s).2.Formed := by
  unfold loadAtt
  dsimp only
  split
  · exact hs.storedTile
  · split
    · exact hs
    · split
      · exact hs.undefBytes (n := 1024 * e.samples * fmtBytes (u8 (pbSurf e.blk a) 12))
      · split
        · exact hs.readFlag
        · exact hs.readFlag.storedTile

protected theorem storeAtt {e : PassEnv} {full : Bool} {tile : Nat} {x : Nat × List Nat} (hs : s.Formed) :
    (storeAtt e full tile s x).Formed :=
  (hs.setFlag.writeTile.ite hs.setFlag.writeTile).ite (hs.setFlag.writeTile.ite hs)

protected theorem untouchedAtt {e : PassEnv} {tile a : Nat} (hs : s.Formed) :
    (untouchedAtt e tile s a).Formed :=
  hs.setFlag.ite hs.loadAtt.storeAtt

protected theorem lateResolve {e : PassEnv} {tile a : Nat} (hs : s.Formed) : (lateResolve e tile s a).Formed :=
  hs.storedTile.storeAtt.ite hs

protected theorem texResident {e : PassEnv} {x : Texel} (hs : s.Formed) : (texResident e x s).2.Formed := by
  unfold texResident
  split
  · exact hs
  · exact hs.cdRead

protected theorem texFetch {e : PassEnv} {x : Texel} (hs : s.Formed) : (texFetch e x s).2.Formed := by
  unfold texFetch
  dsimp only
  split
  · split
    · exact hs
    · exact hs.cdRead
  · split
    · exact hs.cdRead
    · exact hs.cdRead.cdRead

protected theorem addNonres {cl n : Nat} (hs : s.Formed) : (addNonres cl n s).Formed := hs.ite hs.upd.modCl

protected theorem texSample {e : PassEnv} {cl : Nat} {t : TexSample} (hs : s.Formed) :
    (texSample e cl t s).2.Formed := by
  unfold texSample
  refine .addNonres ?_
  refine hs.foldlSndSnd fun hs => ?_
  dsimp only
  split
  · exact hs.texResident.texFetch
  · exact hs.texResident

protected theorem convFlags {cl : Nat} {sat : Bool} {nf : Nat} (hs : s.Formed) :
    (convFlags cl sat nf s).Formed :=
  (hs.modCl.ite hs).countNonfin

protected theorem blendSamples {e : PassEnv} {p : RPrim} {cl x y : Nat} {ks : List Nat} {cols : List (List Nat)}
    {a : TileMem × State} (hs : a.2.Formed) :
    (blendSamples e p cl x y ks cols a).2.Formed :=
  hs.foldlSnd fun hs => hs.foldlSnd fun hs => hs.convFlags

protected theorem shadeFrag {e : PassEnv} {p : RPrim} {cl : Nat} {t : List WinVtx} {x y n : Nat}
    {got : List (List Nat × Bool)} (hs : s.Formed) : (shadeFrag e p cl t x y n got s).2.Formed := by
  induction n generalizing got s with
  | zero => exact hs
  | succ n ih =>
    unfold shadeFrag
    split
    · exact hs
    · exact hs
    · exact ih hs.texSample

protected theorem rasPixel {e : PassEnv} {p : RPrim} {cl : Nat} {t : List WinVtx} {a : TileMem × State}
    {q : Nat × Nat}
    (hs : a.2.Formed) : (rasPixel e p cl t a q).2.Formed := by
  unfold rasPixel
  extract_lets ks early r1
  split
  · exact hs
  · have hf := hs.shadeFrag (e := e) (p := p) (cl := cl) (t := t) (x := q.1) (y := q.2)
      (n := Config.fragRounds e.tbl p.shader) (got := [])
    split <;> rename_i heq <;> rw [heq] at hf
    · exact hf
    · exact hf.blendSamples

protected theorem rasPrim {e : PassEnv} {cl tile : Nat} {a : TileMem × State} {p : RPrim} (hs : a.2.Formed) :
    (rasPrim e cl tile a p).2.Formed :=
  hs.foldlSnd fun hs => hs.foldlSnd fun hs => hs.rasPixel

protected theorem renderTile {e : PassEnv} {cl : Nat} {earlier full : Bool} {ps : List RPrim} {tile : Nat}
    (hs : s.Formed) :
    (renderTile e cl earlier full ps s tile).Formed := by
  unfold renderTile
  extract_lets ld r
  have hld : ld.2.Formed := foldlSnd hs fun hs => hs.loadAtt
  clear_value ld
  have hr : r.2.Formed := foldlSnd hld fun hs => hs.rasPrim
  clear_value r
  exact hr.foldl fun hs => hs.storeAtt

protected theorem renderPhase {e : PassEnv} {cls earlier : List Nat} {full : Bool} {ps : List RPrim} (hs : s.Formed) :
    (renderPhase e cls earlier full ps s).Formed :=
  hs.foldl fun hs => hs.takeFree.renderTile

protected theorem renderPhases {e : PassEnv} {cls seen : List Nat} {l : List (List RPrim)} (hs : s.Formed) :
    (renderPhases e cls seen l s).Formed := by
  induction l generalizing seen s with
  | nil => exact hs
  | cons ps rest ih => exact ih hs.renderPhase

protected theorem finishTiles {e : PassEnv} {phases : List (List RPrim)} (hs : s.Formed) :
    (finishTiles e phases s).Formed :=
  hs.foldl fun hs => (hs.foldl fun hs => hs.untouchedAtt).ite (hs.ite (hs.foldl fun hs => hs.lateResolve))

end State.Formed

/-! ## Displays -/

namespace State.Formed

variable {s : State}

protected theorem evDisplay {k ev : Nat} (hs : s.Formed) : (evDisplay k ev s).Formed := hs.offer0

protected theorem execDispTrainingDone {disp : Nat} {ok : Bool} (hs : s.Formed) :
    NextFormed (execDispTrainingDone disp ok s) := by
  unfold execDispTrainingDone
  dsimp only
  split
  · exact (hs.upd.complete.evDisplay.ite hs.upd.complete).next.ite hs.untrain.next
  · exact hs.upd.evDisplay.next.ite hs.next

protected theorem frameCrcs {disp : Nat} (hs : s.Formed) : (frameCrcs disp s).Formed := hs.frame

protected theorem scanCheck {disp : Nat} (hs : s.Formed) : (scanCheck disp s).Formed := by
  unfold scanCheck
  dsimp only
  split
  · exact hs
  · split
    · exact hs.violate
    · exact hs

protected theorem execVblank {disp : Nat} (hs : s.Formed) : NextFormed (execVblank disp s) := by
  unfold execVblank
  extract_lets d s1 b o d' s2 d''
  have h2 : s2.Formed := by
    have h1 : s1.Formed := hs.frameCrcs
    exact h1.upd.scanCheck
  exact hs.next.ite (h2.next.ite h2.upd.next)

protected theorem execUnderrun {disp : Nat} {pixels : List (Nat × Nat)} (hs : s.Formed) :
    NextFormed (execUnderrun disp pixels s) :=
  hs.next.ite ((hs.upd.ite hs.upd.evDisplay).next)

protected theorem execHpdChange {disp : Nat} {plugged : Bool} (hs : s.Formed) :
    NextFormed (execHpdChange disp plugged s) :=
  hs.next.ite hs.upd.evDisplay.next

protected theorem execDispLinkLoss {disp : Nat} (hs : s.Formed) : NextFormed (execDispLinkLoss disp s) := by
  unfold execDispLinkLoss
  dsimp only
  split <;> exact hs.next.ite hs.upd.evDisplay.next

end State.Formed

theorem cDispCfg_keepsForm : cDispCfg.KeepsForm := by
  refine .of_effect fun {n h ps s} hs => ?_
  dsimp only [cDispCfg]
  exact hs.upd

theorem cDispOff_keepsForm : cDispOff.KeepsForm := .of_effect fun hs => hs.dispOff

theorem cDispFlip_keepsForm : cDispFlip.KeepsForm := by
  refine .of_effect fun {n h ps s} hs => ?_
  dsimp only [cDispFlip]
  exact hs.upd

theorem cDispStatus_keepsForm : cDispStatus.KeepsForm := .of_effect fun hs => hs

/-! ## Clock map -/

namespace State.Formed

variable {s : State}

protected theorem modMapK {k : Nat} {f : ClockMap → ClockMap} (hs : s.Formed) : (modMapK k f s).Formed :=
  hs.frame

protected theorem setMst {k n uno : Nat} (hs : s.Formed) : (setMst k n uno s).Formed :=
  hs.ite hs.modMapK.evFusion

protected theorem mapUnit {k : Nat} {u : UnitSt} {ok : Bool} (hs : s.Formed) : (mapUnit k u ok s).Formed :=
  hs.setMst.ite hs.takeFree.modMapK.setMst

protected theorem recordUnit {k : Nat} {u : UnitSt} {ok keep : Bool} (hs : s.Formed) :
    (recordUnit k u ok keep s).Formed :=
  hs.ite (hs.mapUnit.ite hs.mapUnit.takeFree.modMapK)

end State.Formed

/-! ## Fusion calls -/

namespace State.Formed

variable {s : State}

protected theorem callTv {c : FusCtx} {d fb : List Byte} (hs : s.Formed) : (callTv s c d fb).2.Formed := by
  unfold callTv
  split
  · dsimp only
    split
    · exact hs.takeFree
    · exact hs
  · exact hs

protected theorem zqRead {job cl : Nat} {z : ZqSrc} (hs : s.Formed) : (zqRead job cl z s).2.Formed :=
  hs.cdRead.cdRead

end State.Formed

/-! ## Stream contexts and time -/

namespace State.Formed

variable {s : State}

protected theorem scrambleBuf {c : StreamCtx} {u : UnitSt} (hs : s.Formed) : (scrambleBuf c u s).Formed :=
  hs.takeFree.dramWrite.ite hs

protected theorem finishUnit {k : Nat} {ok : Bool} {reason tend : Nat} (hs : s.Formed) :
    (finishUnit k ok reason tend s).Formed := by
  unfold finishUnit
  split
  · exact hs
  · split
    · exact hs
    · extract_lets u scrambled a r recorded
      have hrecorded : recorded.Formed := (hs.ite hs.scrambleBuf).recordUnit.modCtx
      exact (hrecorded.markRtLock.ite hrecorded.dramWrite.modCtx).ite hrecorded.violate

protected theorem truncate {k reason : Nat} (hs : s.Formed) : (truncate k reason s).Formed := hs.finishUnit

protected theorem haltStream {k : Nat} (hs : s.Formed) : (haltStream k s).Formed := by
  unfold haltStream
  split
  · exact hs
  · exact hs.ite hs.truncate.setCtxSt

protected theorem syncStreams (hs : s.Formed) : (syncStreams s).Formed :=
  (hs.foldl fun hs => hs.haltStream).startStreams

protected theorem startUnit {k : Nat} {f : Ingress} {err : Int} (hs : s.Formed) :
    (startUnit k f err s).Formed := by
  unfold startUnit
  split
  · exact hs
  · split
    · exact hs
    · dsimp only
      split
      · exact hs.truncate
      · exact hs.truncate.ite (hs.truncate.modCtx.setCtxSt.modCtx.ite hs.truncate.modCtx)

protected theorem addPacket {k : Nat} {f : Ingress} {err : Int} (hs : s.Formed) :
    (addPacket k f err s).Formed := by
  unfold addPacket
  split
  · exact hs
  · split
    · exact hs
    · split
      · exact hs.modCtx
      · split
        · exact hs
        · exact hs.modCtx.ite (hs.modCtx.ite (hs.modCtx.markRtLock.ite hs.modCtx.checkedWrite))

protected theorem endUnit {k : Nat} {f : Ingress} {err : Int} (hs : s.Formed) : (endUnit k f err s).Formed := by
  unfold endUnit
  split
  · exact hs
  · split
    · split
      · exact hs.modCtx
      · exact hs
    · split
      · exact hs
      · split
        · exact hs
        · exact hs.finishUnit
        · exact hs.truncate

protected theorem execUnitStart {f : Ingress} {err : Int} (hs : s.Formed) : NextFormed (execUnitStart f err s) :=
  (hs.foldl fun hs => hs.startUnit).next

protected theorem countBad {csi : Bool} {port : Nat} (hs : s.Formed) : (countBad csi port s).Formed :=
  hs.frame

protected theorem execStreamPacket {f : Ingress} {err : Int} (hs : s.Formed) :
    NextFormed (execStreamPacket f err s) := by
  unfold execStreamPacket
  split
  · exact hs.countBad.next
  · exact (hs.foldl fun hs => hs.addPacket).next

protected theorem execUnitEnd {f : Ingress} {err : Int} (hs : s.Formed) : NextFormed (execUnitEnd f err s) :=
  (hs.foldl fun hs => hs.endUnit).next

protected theorem execStreamHoldExpiry {ctx : Nat} (hs : s.Formed) :
    NextFormed (execStreamHoldExpiry ctx s) := by
  unfold execStreamHoldExpiry
  split
  · exact hs.next
  · split
    · dsimp only
      split
      · exact hs.truncate.next
      · exact hs.truncate.setCtxSt.next.ite hs.truncate.next
    · exact hs.setCtxSt.next.ite hs.next

protected theorem execStreamDoneWrite {w : DoorWrite} (hs : s.Formed) :
    NextFormed (execStreamDoneWrite w s) := by
  unfold execStreamDoneWrite
  split
  · exact hs.modCtx.next
  · exact hs.next

end State.Formed

/-! ## Sensors and time -/

namespace State.Formed

variable {s : State}

protected theorem setDom {d : Nat} {v : Dom} (hs : s.Formed) : (s.setDom d v).Formed := hs.upd.ite hs.upd

protected theorem modGwy {f : Gwy → Gwy} (hs : s.Formed) : (modGwy f s).Formed := hs.frame

protected theorem modNetPort {p : Nat} {f : NetPort → NetPort} (hs : s.Formed) : (modNetPort p f s).Formed :=
  hs.modGwy

protected theorem macSend {mac : Nat} {frame : List Byte} (hs : s.Formed) : (macSend mac frame s).Formed :=
  hs.modNetPort

protected theorem evTime {new prev cause : Nat} (hs : s.Formed) : (evTime new prev cause s).Formed :=
  hs.takeFree.offer0

protected theorem servo (hs : s.Formed) : (servo s).Formed := hs.upd.ite (hs.ite hs.upd)

protected theorem stepTime {d : Nat} (hs : s.Formed) : (stepTime d s).Formed := by
  unfold stepTime
  exact hs.evTime.upd

protected theorem autostep {prev : Nat} (hs : s.Formed) : (autostep prev s).Formed := hs.stepTime.ite hs

protected theorem setActive {n cause : Nat} (hs : s.Formed) : (setActive n cause s).Formed :=
  hs.ite hs.upd.noteDeg.evTime.autostep

protected theorem reselect {cause : Nat} (hs : s.Formed) : (reselect cause s).Formed := hs.setActive

protected theorem execSyncReceived {mac domNum gm : Nat} {offset rate : Int} (hs : s.Formed) :
    NextFormed (execSyncReceived mac domNum gm offset rate s) := by
  unfold execSyncReceived
  dsimp only
  split
  · exact hs.next
  · exact hs.next.ite hs.servo.setDom.reselect.next

protected theorem execSyncTimeout {dom : Nat} (hs : s.Formed) : NextFormed (execSyncTimeout dom s) :=
  hs.servo.setDom.reselect.next.ite hs.next

protected theorem invalidMac {mac : Nat} (hs : s.Formed) : (invalidMac mac s).Formed := hs.frame

protected theorem execEthLinkLoss {mac : Nat} (hs : s.Formed) : NextFormed (execEthLinkLoss mac s) :=
  hs.servo.upd.invalidMac.reselect.next.ite hs.next

protected theorem execEthLinkUp {mac mbps : Nat} (hs : s.Formed) : NextFormed (execEthLinkUp mac mbps s) :=
  hs.upd.next.ite hs.next

protected theorem execPeerDelayMessage {mac domNum : Nat} {capable : Bool} (hs : s.Formed) :
    NextFormed (execPeerDelayMessage mac domNum capable s) := by
  unfold execPeerDelayMessage
  dsimp only
  split
  · exact hs.next
  · exact hs.servo.takeFree.macSend.upd.reselect.next

protected theorem execDomainRevert (hs : s.Formed) : NextFormed (execDomainRevert s) :=
  hs.servo.setActive.next.ite hs.next

protected theorem execPulseEdge {tpo : Nat} (hs : s.Formed) : NextFormed (execPulseEdge tpo s) := by
  unfold execPulseEdge
  dsimp only
  split
  · exact hs.next
  · exact (hs.upd.next.ite hs.next).ite (hs.upd.next.ite hs.next)

protected theorem drainTci {k : Nat} (hs : s.Formed) : (drainTci k s).Formed :=
  hs.ite ((hs.foldlFst fun hs => hs.offer0).upd)

protected theorem execTciEdge {tci : Nat} {rising : Bool} {err : Int} (hs : s.Formed) :
    NextFormed (execTciEdge tci rising err s) :=
  hs.upd.drainTci.next.ite hs.next

protected theorem execLtailWrite {w : DoorWrite} (hs : s.Formed) : NextFormed (execLtailWrite w s) := by
  unfold execLtailWrite
  split
  · split
    · exact hs.next
    · exact hs.upd.next
  · exact hs.next

protected theorem execLaunchEntry {mac : Nat} {busy : Bool} {err : Int} (hs : s.Formed) :
    NextFormed (execLaunchEntry mac busy err s) := by
  unfold execLaunchEntry
  split
  · exact hs.next
  · split
    · exact hs.next
    · dsimp only
      split
      · exact hs.checkedRead.next
      · split
        · exact hs.checkedRead.next
        · exact hs.checkedRead.upd.ownWrite.checkedRead.ownWrite.macSend.next.ite
            (hs.checkedRead.upd.ownWrite.violate.next.ite hs.checkedRead.upd.ownWrite.next)

end State.Formed

theorem cStreamOpen_keepsForm : cStreamOpen.KeepsForm := .of_effect fun hs => hs.upd.setCtxSt

theorem cStreamClose_keepsForm : cStreamClose.KeepsForm := .of_effect fun hs => hs.closeStream

theorem cStreamStart_keepsForm : cStreamStart.KeepsForm := .of_effect fun hs => hs.modCtx.syncStreams

theorem cStreamStop_keepsForm : cStreamStop.KeepsForm := .of_effect fun hs => hs.modCtx.syncStreams

theorem cStreamStatus_keepsForm : cStreamStatus.KeepsForm := .of_effect fun hs => hs

theorem cTimeCfg_keepsForm : cTimeCfg.KeepsForm := .of_effect fun hs => hs.journalCmd.servo.upd.reselect

theorem cTimeStatus_keepsForm : cTimeStatus.KeepsForm := .of_effect fun hs => hs

theorem cTimeStep_keepsForm : cTimeStep.KeepsForm :=
  .of_effect fun hs => hs.journalCmd.stepTime.upd.ite hs.journalCmd.stepTime

theorem cPulseArm_keepsForm : cPulseArm.KeepsForm := by
  refine .of_effect fun {n h ps s} hs => ?_
  dsimp only [cPulseArm]
  exact hs.upd

theorem cPulseCancel_keepsForm : cPulseCancel.KeepsForm := by
  refine .of_effect fun {n h ps s} hs => ?_
  dsimp only [cPulseCancel]
  exact hs.upd

theorem cCaptureCfg_keepsForm : cCaptureCfg.KeepsForm := .of_effect fun hs => hs.upd.drainTci

theorem cLaunchCfg_keepsForm : cLaunchCfg.KeepsForm := .of_effect fun hs => hs.upd.ite hs.upd

/-! ## Fusion -/

namespace State.Formed

variable {s : State}

protected theorem execFusCloseDone {ctx : Nat} (hs : s.Formed) : NextFormed (execFusCloseDone ctx s) := by
  unfold execFusCloseDone
  split
  · exact hs.next
  · exact hs.freeFusCtx.next.ite hs.next

protected theorem applyPend {n : Nat} {p : Nat × FusChange} (hs : s.Formed) : (applyPend n p s).Formed := by
  unfold applyPend
  split
  · exact hs
  · exact hs.upd.boundEvents.evFusion.complete

protected theorem applyAll {n : Nat} (hs : s.Formed) : (applyAll n s).Formed := by
  unfold applyAll
  split
  · exact hs
  · exact hs.upd.foldl fun hs => hs.applyPend

protected theorem pendChange {n tok : Nat} {g : FusChange} (hs : s.Formed) :
    (pendChange n tok g s).Formed := by
  unfold pendChange
  split
  · exact hs
  · exact hs.upd.ite hs.upd.applyAll

protected theorem execFusionCall {job cl copy : Nat} {desc : List Byte} (hs : s.Formed) :
    NextFormed (execFusionCall job cl copy desc s) := by
  unfold execFusionCall
  split
  · exact hs.next
  · split
    · exact hs.next
    · split
      · exact hs.endJob.next
      · exact hs.setFeng.next

protected theorem beginCall {n job : Nat} (hs : s.Formed) : (beginCall n job s).Formed := by
  unfold beginCall
  split
  · exact hs.upd
  · exact hs

protected theorem execFusionCallStart {die : Nat} (hs : s.Formed) :
    NextFormed (execFusionCallStart die s) := by
  unfold execFusionCallStart
  split
  · exact hs.next
  · dsimp only
    split
    · exact hs.setFeng.next
    · split
      · exact hs.setFeng.next
      · split
        · exact hs.endJob.next
        · exact (hs.ite hs.applyAll.beginCall).setFeng.next

protected theorem readInputs {job cl : Nat} {l : List FusIn} (hs : s.Formed) :
    (readInputs job cl l s).2.Formed := by
  induction l generalizing s with
  | nil => exact hs
  | cons i r ih =>
    unfold readInputs
    extract_lets cam n a d p m
    have ha : a.2.Formed := hs.zqRead
    have hd : d.2.Formed := by
      unfold d
      split
      · exact ha.zqRead
      · exact ha
    have hp : p.2.Formed := by
      unfold p
      split
      · exact hd
      · exact hd.cdRead
    exact ih hp

protected theorem readDets {job cl : Nat} {d : List Byte} {bufs : List FusBuf} (hs : s.Formed) :
    (readDets job cl d bufs s).2.Formed := by
  unfold readDets
  split
  · exact hs
  · exact hs.cdRead.cdRead

protected theorem writeFusion {r : FusCall} {o : FusOut} (hs : s.Formed) : (writeFusion r o s).Formed := by
  unfold writeFusion
  extract_lets d n put grid mask tracks report hd hdrs gs recorded
  have hmask : mask.Formed := (hs.foldl fun hs => hs.jobWrite).jobWrite
  have hrecorded : recorded.Formed := (hmask.ite hmask.jobWrite).jobWrite.modJob
  split
  · exact hrecorded.upd.ite hrecorded
  · exact hrecorded

protected theorem countSat {cl n : Nat} (hs : s.Formed) : (countSat cl n s).Formed := hs.modCl

protected theorem execFusionCallDone {die : Nat} (hs : s.Formed) : NextFormed (execFusionCallDone die s) := by
  unfold execFusionCallDone
  dsimp only
  split
  · exact hs.next
  · split
    · split
      · exact hs.setFeng.cdRead.cdRead.next
      · split
        · exact hs.setFeng.cdRead.cdRead.endJob.next
        · split
          · exact hs.setFeng.cdRead.cdRead.callTv.readInputs.readDets.next
          · split
            · exact hs.setFeng.cdRead.cdRead.callTv.readInputs.readDets.modCl.endJob.next
            · exact hs.setFeng.cdRead.cdRead.callTv.readInputs.readDets.countNonfin.endJob.next.ite
                hs.setFeng.cdRead.cdRead.callTv.readInputs.readDets.countNonfin.countSat.writeFusion.next
    · exact hs.setFeng.next

end State.Formed

theorem cFusMapCfg_keepsForm : cFusMapCfg.KeepsForm := .of_effect fun hs => hs.modMapK

theorem cFusMapStatus_keepsForm : cFusMapStatus.KeepsForm := .of_effect fun hs => hs

theorem cFusOpen_keepsForm : cFusOpen.KeepsForm := by
  refine .of_effect fun {n h ps s} hs => ?_
  dsimp only [cFusOpen]
  exact hs.upd

theorem cFusClose_keepsForm : cFusClose.KeepsForm := by
  refine .of_effect fun {n h ps s} hs => ?_
  dsimp only [cFusClose]
  split
  · exact hs
  · exact hs.upd

theorem cFusSensorSet_keepsForm : cFusSensorSet.KeepsForm := .of_effect fun hs => hs.pendChange

theorem cFusCalibReset_keepsForm : cFusCalibReset.KeepsForm := .of_effect fun hs => hs.pendChange

theorem cFusStatus_keepsForm : cFusStatus.KeepsForm := .of_effect fun hs => hs

theorem cFusSensorStatus_keepsForm : cFusSensorStatus.KeepsForm := .of_effect fun hs => hs

/-! ## Rasterizer -/

namespace State.Formed

variable {s : State}

protected theorem execRasCloseDone {rctx : Nat} (hs : s.Formed) : NextFormed (execRasCloseDone rctx s) := by
  unfold execRasCloseDone
  split
  · exact hs.next
  · exact hs.closeRctx.next.ite hs.next

protected theorem execRenderPassIssue {job cl : Nat} {desc : List Byte} (hs : s.Formed) :
    NextFormed (execRenderPassIssue job cl desc s) := by
  unfold execRenderPassIssue
  split
  · exact hs.next
  · exact hs.upd.next.ite hs.next

protected theorem countDisplaced {p : RPass} (hs : s.Formed) : (countDisplaced p s).Formed := by
  unfold countDisplaced
  split
  · exact hs
  · refine .foldl hs fun hs => ?_
    split
    · exact hs.modJob.modTen
    · exact hs

protected theorem fetchDraws {e : PassEnv} (hs : s.Formed) : (fetchDraws e s).2.2.Formed := by
  unfold fetchDraws
  refine hs.foldlSndSnd fun hs => ?_
  split
  · exact hs
  · dsimp only
    split
    · exact hs.rasRead
    · split
      · exact hs.rasRead.endJob
      · exact hs.rasRead.drawPrims

protected theorem setRunning {rctx : Nat} {run : RRun} {f : RasCtx → RasCtx} (hs : s.Formed) :
    (setRunning rctx run f s).Formed := by
  unfold setRunning
  split
  · exact hs
  · exact hs.upd

protected theorem runBinning {rctx : Nat} {p : RPass} {j : Job} {b : List Byte} {pool : Nat} (hs : s.Formed) :
    (runBinning rctx p j b pool s).Formed :=
  hs.fetchDraws.upd.ite hs.fetchDraws.upd.setRunning

protected theorem execRenderPassStart {rctx : Nat} (hs : s.Formed) : NextFormed (execRenderPassStart rctx s) := by
  unfold execRenderPassStart
  split
  next => exact hs.next
  next p _ =>
    split
    next => exact hs.upd.next
    next =>
      refine hs.next.ite ?_
      split
      next b t hread =>
        have ht := hs.cdRead (job := p.job) (cl := p.cl) (a := u64 p.desc 8) (n := blkLen p)
        rw [hread] at ht
        refine ht.next.ite (ht.endJob.next.ite ?_)
        split
        · exact ht.next
        · exact ht.countDisplaced.upd.setRunning.runBinning.next

protected theorem endPass {rctx : Nat} (hs : s.Formed) : (endPass rctx s).Formed := by
  unfold endPass
  split
  · exact hs
  · exact hs.upd.ite hs

protected theorem execRenderPassDone {rctx : Nat} (hs : s.Formed) : NextFormed (execRenderPassDone rctx s) := by
  unfold execRenderPassDone
  split
  · exact hs.next
  · split
    · exact hs.next
    · refine hs.next.ite ?_
      extract_lets e t u
      have ht : t.Formed := hs.renderPhases.finishTiles
      exact ht.next.ite (ht.endPass.next.ite ht.endPass.modJob.next)

end State.Formed

theorem cRasOpen_keepsForm : cRasOpen.KeepsForm := by
  refine .of_effect fun {n h ps s} hs => ?_
  dsimp only [cRasOpen]
  exact hs.upd

theorem cRasClose_keepsForm : cRasClose.KeepsForm := by
  refine .of_effect fun {n h ps s} hs => ?_
  dsimp only [cRasClose]
  split
  · exact hs
  · exact hs.upd

theorem cRasStatus_keepsForm : cRasStatus.KeepsForm := .of_effect fun hs => hs

/-! ## Skink -/

namespace State.Formed

variable {s : State}

protected theorem modSkk {f : Skk → Skk} (hs : s.Formed) (sram : ∀ k, (f k).sram = k.sram := by exact fun _ => rfl) :
    (modSkk f s).Formed :=
  hs.frame (sram := sram _)

protected theorem service {f : State → State} (hs : s.Formed) (hf : ∀ {a : State}, a.Formed → (f a).Formed) :
    NextFormed (service f s) :=
  ((hf hs).ite hs).next

protected theorem skResult {err : Nat} {d : List Byte} (hs : s.Formed) : (skResult err d s).Formed :=
  hs.modSkk

protected theorem execSkKick (hs : s.Formed) : NextFormed (execSkKick s) := hs.service fun hs => hs.modSkk

protected theorem execSkNext (hs : s.Formed) : NextFormed (execSkNext s) := by
  unfold execSkNext
  refine hs.service fun hs => ?_
  split
  · exact hs
  · split
    · exact hs.modSkk.fillChk
    · exact hs.modSkk.fillChk.modJob.skResult

protected theorem sendC0 {m : C0Msg} (hs : s.Formed) : (sendC0 m s).Formed := hs.frame

protected theorem commitChain {id : Nat} {checked : Bool} (hs : s.Formed) :
    (commitChain id checked s).Formed :=
  hs.sendC0.commitJob

protected theorem passJob {id : Nat} {checked : Bool} (hs : s.Formed) : (passJob id checked s).Formed := by
  unfold passJob
  split
  · exact hs
  · exact hs.commitJob.ite (hs.modJob.sendC0.ite (hs.modJob.commitChain.ite hs.modJob))

protected theorem judge {id : Nat} {pass : Bool} (hs : s.Formed) : (judge id pass s).Formed := by
  unfold judge
  split
  · exact hs
  · split
    · exact hs.endJob
    · split
      · exact hs.finishJob.evalPassed
      · exact hs.passJob

protected theorem execSkVerdict {prog jobseq : Nat} {pass : Bool} (hs : s.Formed) :
    NextFormed (execSkVerdict prog jobseq pass s) := by
  unfold execSkVerdict
  refine hs.service fun hs => ?_
  split
  · exact hs
  · exact hs.judge

protected theorem execVerdictTimeout {job : Nat} (hs : s.Formed) : NextFormed (execVerdictTimeout job s) := by
  unfold execVerdictTimeout
  split
  · exact hs.next
  · exact hs.endJob.next.ite hs.next

protected theorem execSkRead {addr len dst : Nat} (hs : s.Formed) : NextFormed (execSkRead addr len dst s) := by
  refine hs.service fun {s} hs => ?_
  split
  · exact hs.violate.skResult
  · exact hs.violate.skResult.ite (hs.skResult.ite hs.checkedRead.writeSkinkSram.skResult)

protected theorem execSkPath {grid thr : Nat} {rects : List Corridor} (hs : s.Formed) :
    NextFormed (execSkPath grid thr rects s) := by
  unfold execSkPath
  refine hs.service fun hs => ?_
  split
  · exact hs.skResult
  · exact hs.skResult.ite hs.checkedRead.checkedRead.checkedRead.skResult

protected theorem execSkDispreg {disp region x y w h : Nat} (hs : s.Formed) :
    NextFormed (execSkDispreg disp region x y w h s) :=
  hs.service fun hs => hs.skResult.ite hs.modSkk.skResult

protected theorem execSkDispcrc {disp region : Nat} (hs : s.Formed) :
    NextFormed (execSkDispcrc disp region s) := by
  unfold execSkDispcrc
  refine hs.service fun hs => ?_
  split <;> exact hs.skResult

protected theorem execSkMbox (hs : s.Formed) : NextFormed (execSkMbox s) := hs.service fun hs => hs.skResult

protected theorem execSkTime (hs : s.Formed) : NextFormed (execSkTime s) := hs.service fun hs => hs.skResult

protected theorem execSkSafe {detail : Nat} (hs : s.Formed) : NextFormed (execSkSafe detail s) :=
  hs.service fun hs => hs.latchSafe

protected theorem pairMismatch {id : Nat} (hs : s.Formed) : (pairMismatch id s).Formed := by
  unfold pairMismatch
  split
  · exact hs
  · dsimp only
    split
    · split
      · exact hs.modSkk.modProg.modJob.restartJob
      · split
        · exact hs.modSkk.modProg.finishJob.addEval
        · exact hs.modSkk.modProg.endJob
    · split
      · exact hs.modSkk.modProg.modJob.restartJob
      · split
        · exact hs.modSkk.modProg.finishJob.addEval
        · exact hs.modSkk.modProg.endJob

protected theorem execWindowClose {job layer window : Nat} {a b : List WinPart} {diff : List (Nat × Byte)}
    {ckpt : Bool} (hs : s.Formed) :
    NextFormed (execWindowClose job layer window a b diff ckpt s) := by
  unfold execWindowClose
  split
  · exact hs.next
  · exact hs.next.ite
      ((hs.modJob.modJob.ite hs.modJob.pairMismatch).next.ite (hs.modJob.modJob.next.ite hs.modJob.next))

protected theorem evCoverage {h kind due : Nat} (hs : s.Formed) : (evCoverage h kind due s).Formed :=
  hs.offerBoth

protected theorem goldenDone {id : Nat} (hs : s.Formed) : (goldenDone id s).Formed := by
  unfold goldenDone
  split
  · exact hs
  · dsimp only
    split
    · exact hs.endJob
    · split
      · exact hs.finishJob.latchSafe
      · split
        · exact hs.finishJob
        · exact hs.finishJob.modProg.evCoverage.ite hs.finishJob.modProg

protected theorem execGoldenEligible {prog : Nat} (hs : s.Formed) :
    NextFormed (execGoldenEligible prog s) := by
  unfold execGoldenEligible
  split
  · exact hs.next
  · exact (hs.modProg.ite hs).next

protected theorem execCoverageDue {prog : Nat} (hs : s.Formed) : NextFormed (execCoverageDue prog s) := by
  unfold execCoverageDue
  split
  · exact hs.next
  · exact hs.next.ite (hs.latchSafe.next.ite hs.modProg.evCoverage.next)

protected theorem execPlacementDeadline {i : Nat} (hs : s.Formed) :
    NextFormed (execPlacementDeadline i s) := by
  unfold execPlacementDeadline
  split
  · exact hs.next
  · exact hs.next.ite ((hs.modSkk.latchSafe.ite hs.modSkk).next)

protected theorem execCoreDissent {core : Nat} {majority : Bool} (hs : s.Formed) :
    NextFormed (execCoreDissent core majority s) := by
  have hcount {ts : List Nat} :
      (modSkk (fun k => countDissent core { k with diss24 := k.diss24.set core ts }) s).Formed :=
    hs.modSkk fun k => countDissent_sram core _
  exact hs.next.ite (hs.latchSafe.next.ite (hcount.next.ite hcount.modMap.wear.retireNoSpare.next))

protected theorem execSkinkSramError {unc : Bool} (hs : s.Formed) : NextFormed (execSkinkSramError unc s) :=
  (hs.latchSafe.ite hs.modSkk).next

protected theorem execSkwdtExpiry (hs : s.Formed) : NextFormed (execSkwdtExpiry s) :=
  (hs.latchSafe.ite hs).next

protected theorem execPinFeedbackMismatch (hs : s.Formed) : NextFormed (execPinFeedbackMismatch s) :=
  (hs.latchSafe.ite hs).next

protected theorem execSweepDone (hs : s.Formed) : NextFormed (execSweepDone s) :=
  (hs.sweepProgs.modSkk.evSafe.ite hs).next

protected theorem execDebuggerAttach {kind inst : Nat} {secure : Bool} (hs : s.Formed) :
    NextFormed (execDebuggerAttach kind inst secure s) :=
  hs.next.ite (hs.violate.next.ite (hs.upd.modSkk.offerBoth.next.ite hs.upd.next))

protected theorem slotWrite {p : Prog} {lc slot : Nat} {copyB : Bool} {off : Nat} {bs : List Byte} (hs : s.Formed) :
    (slotWrite p lc slot copyB off bs s).Formed := by
  unfold slotWrite
  split
  · exact hs
  · exact hs.modCl

protected theorem execDebugAction {tgt : DbgTarget} {off : Nat} {bytes : List Byte} (hs : s.Formed) :
    NextFormed (execDebugAction tgt off bytes s) := by
  unfold execDebugAction
  refine hs.next.ite ?_
  cases tgt with
  | slot h lc slot pos copyB =>
    dsimp only
    split
    · exact hs.next
    · exact hs.violate.next.ite (hs.next.ite (hs.slotWrite.next.ite (hs.next.ite hs.slotWrite.modSkk.next)))
  | replay h =>
    dsimp only
    split
    · exact hs.slotWrite.modSkk.next
    · exact hs.next
  | skink core => exact hs.violate.next.ite (hs.next.ite hs.writeSkinkSram.next)

protected theorem execHeartbeat (hs : s.Formed) : NextFormed (execHeartbeat s) :=
  hs.next.ite hs.modSkk.offer.next

end State.Formed

theorem cSkkArm_keepsForm : cSkkArm.KeepsForm := .of_effect fun hs => hs.journalCmd.modSkk

theorem cSkkProgCfg_keepsForm : cSkkProgCfg.KeepsForm := .of_effect fun hs => hs.journalCmd.modProg

theorem cSkkProgStatus_keepsForm : cSkkProgStatus.KeepsForm := .of_effect fun hs => hs

theorem cSkkSafeReq_keepsForm : cSkkSafeReq.KeepsForm := .of_effect fun hs => hs.latchSafe

theorem cSkkMbox_keepsForm : cSkkMbox.KeepsForm := .of_effect fun hs => hs.modSkk

theorem cSkkGoldenNow_keepsForm : cSkkGoldenNow.KeepsForm := .of_effect fun hs => hs.modProg

theorem cSkkBistGet_keepsForm : cSkkBistGet.KeepsForm := .of_effect fun hs => hs.takeFree

/-! ## Dispatcher -/

namespace State.Formed

variable {s : State}

protected theorem countWait {j : Job} (hs : s.Formed) : (countWait j s).Formed := hs.modTen

protected theorem askStop {id : Nat} {ts : List Nat} (hs : s.Formed) : (askStop id ts s).Formed := hs.frame

protected theorem startJob {id : Nat} (hs : s.Formed) : (startJob id s).Formed := by
  unfold startJob
  split
  · exact hs
  · extract_lets batched swapped
    have hbatched : batched.Formed := hs.batchBoundary.ite hs
    have hswapped : swapped.Formed := hbatched.ite hbatched.swapBank
    split
    · exact hswapped
    · extract_lets ts free j' listed asked counted
      have hasked : asked.Formed := hswapped.upd.askStop
      have hcounted : counted.Formed := hasked.countWait.ite hasked
      exact hcounted.modProg.setBank.ite hcounted

protected theorem startGolden {h : Nat} (hs : s.Formed) : (startGolden h s).Formed := by
  unfold startGolden
  split
  · exact hs
  · exact hs.modProg.addJob.startJob

protected theorem execJobDispatch (hs : s.Formed) : NextFormed (execJobDispatch s) := by
  unfold execJobDispatch
  split
  · exact hs.next
  · split
    · exact hs.startJob.next
    · split
      · exact hs.startGolden.next
      · split
        · exact hs.next
        · split
          · exact hs.startJob.next
          · exact hs.next

protected theorem parkRead {id tile : Nat} {r : Nat × Nat} (hs : s.Formed) : (parkRead id tile r s).Formed :=
  (hs.ite hs.upd).modJob

protected theorem execYieldPointStop {job tile : Nat} {reads : List (Nat × Nat)} {writes : List Nat} (hs : s.Formed) :
    NextFormed (execYieldPointStop job tile reads writes s) := by
  unfold execYieldPointStop
  split
  · exact hs.next
  · split
    · exact hs.next
    · dsimp only
      split
      · exact hs.modJob.endJob.next.ite hs.modJob.next
      · exact (hs.modJob.foldl fun hs => hs.parkRead).modJob.next

protected theorem preemptJob {id : Nat} (hs : s.Formed) : (preemptJob id s).Formed := by
  unfold preemptJob
  split
  · exact hs
  · exact hs.modJob.modTen

protected theorem execContextSaveDone {job tile : Nat} (hs : s.Formed) :
    NextFormed (execContextSaveDone job tile s) := by
  unfold execContextSaveDone
  split
  · exact hs.next
  · split
    · exact hs.next
    · dsimp only
      split
      · exact hs.releaseTiles.next
      · split
        · exact hs.releaseTiles.grantTiles.next
        · split
          · exact hs.releaseTiles.endJob.next
          · exact hs.releaseTiles.preemptJob.grantTiles.next

protected theorem takeReply {job token : Nat} {data : List Byte} (hs : s.Formed) :
    (takeReply job token data s).Formed := by
  unfold takeReply
  split
  · exact hs
  · exact hs.modJob

protected theorem execJobResume (hs : s.Formed) : NextFormed (execJobResume s) := by
  unfold execJobResume
  split
  · exact hs.next
  · split
    · exact hs.next
    · split
      · exact hs.next
      · exact hs.next.ite
          (((hs.modJob.foldl fun hs => hs.takeReply).pairMismatch.ite (hs.modJob.foldl fun hs => hs.takeReply)).next)

protected theorem holdReply {job port tile token : Nat} {data : List Byte} (hs : s.Formed) :
    (holdReply job port tile token data s).Formed :=
  hs.modJob

protected theorem execRemoteReply {job port tile token : Nat} {data : List Byte} (hs : s.Formed) :
    NextFormed (execRemoteReply job port tile token data s) := by
  unfold execRemoteReply
  split
  · exact hs.next
  · dsimp only
    split
    · exact (hs.holdReply.ite hs.takeReply).next
    · exact hs.holdReply.next
    · exact hs.next

protected theorem execRemoteWriteDone {job token : Nat} {ok : Bool} (hs : s.Formed) :
    NextFormed (execRemoteWriteDone job token ok s) := by
  unfold execRemoteWriteDone
  split
  · exact hs.next
  · exact hs.next.ite (hs.modJob.next.ite hs.endJob.next)

protected theorem execParkTimeout {job token : Nat} (hs : s.Formed) :
    NextFormed (execParkTimeout job token s) := by
  unfold execParkTimeout
  split
  · exact hs.next
  · exact hs.modJob.upd.next.ite hs.next

protected theorem execRemoteTimeout {job port tile token : Nat} {write : Bool} (hs : s.Formed) :
    NextFormed (execRemoteTimeout job port tile token write s) := by
  unfold execRemoteTimeout
  split
  · exact hs.next
  · exact hs.next.ite ((hs.endJob.next.ite hs.modJob.next).ite (hs.next.ite (hs.endJob.next.ite hs.modJob.next)))

protected theorem execTlimitExpiry {job : Nat} (hs : s.Formed) : NextFormed (execTlimitExpiry job s) := by
  unfold execTlimitExpiry
  split
  · exact hs.next
  · exact hs.next.ite (hs.modJob.next.ite hs.stopJob.next)

protected theorem queueChk {id : Nat} (hs : s.Formed) : (queueChk id s).Formed := hs.modJob.modSkk.fillChk

protected theorem execJobSlotsFinished {job : Nat} (hs : s.Formed) :
    NextFormed (execJobSlotsFinished job s) := by
  unfold execJobSlotsFinished
  split
  · exact hs.next
  · split
    · exact hs.next
    · split
      · exact hs.endJob.next
      · dsimp only
        split
        · exact hs.modJob.endJob.next
        · split
          · exact hs.modJob.goldenDone.next
          · exact (hs.modJob.endJob.ite hs.modJob.queueChk).next
          · exact hs.modJob.queueChk.next.ite hs.modJob.passJob.next

protected theorem execChainJobPrepare {job member : Nat} (hs : s.Formed) :
    NextFormed (execChainJobPrepare job member s) := by
  unfold execChainJobPrepare
  split
  · exact hs.next
  · exact hs.next.ite (hs.modJob.commitChain.next.ite hs.modJob.next)

protected theorem adoptEpoch (hs : s.Formed) : (adoptEpoch s).Formed := by
  unfold adoptEpoch
  split
  · exact hs
  · exact hs.ite hs.upd

protected theorem execChainJobCommit {job epoch : Nat} (hs : s.Formed) :
    NextFormed (execChainJobCommit job epoch s) := by
  unfold execChainJobCommit
  split
  · exact hs.next
  · exact hs.next.ite hs.upd.commitAt.adoptEpoch.next

protected theorem execPrepareTimeout {job : Nat} (hs : s.Formed) : NextFormed (execPrepareTimeout job s) := by
  unfold execPrepareTimeout
  split
  · exact hs.next
  · exact hs.endJob.adoptEpoch.next.ite hs.next

end State.Formed

/-! ## Control engines -/

namespace State.Formed

variable {s : State}

protected theorem setCe {e : Nat} {v : Engine} (hs : s.Formed) : (s.setCe e v).Formed := hs.frame

protected theorem evControl {ce idx ev st : Nat} (hs : s.Formed) : (evControl ce idx ev st s).Formed :=
  hs.offer0

protected theorem stopLoop {ce k st cause : Nat} {x : Engine × State} (hs : x.2.Formed) :
    (stopLoop ce k st cause x).2.Formed :=
  hs.evControl

protected theorem feAct {ce k : Nat} {x : Engine × State} (hs : x.2.Formed) : (feAct ce k x).2.Formed := by
  unfold feAct
  dsimp only
  split
  · exact hs.stopLoop
  · exact hs.evControl

protected theorem evalLoop {ce n bumpMask k : Nat} {x : Engine × State} (hs : x.2.Formed) :
    (evalLoop ce n bumpMask k x).2.Formed := by
  unfold evalLoop
  extract_lets e s l rd l1 t l2 y
  split
  · exact hs
  · split
    · exact hs.stopLoop
    · have hy : y.2.Formed := hs
      clear_value y
      split
      · exact hy.feAct
      · exact hy

protected theorem turnLoop {ce n bumpMask : Nat} {x : Engine × State} {k : Nat} (hs : x.2.Formed) :
    (turnLoop ce n bumpMask x k).2.Formed := by
  unfold turnLoop
  dsimp only
  split <;> exact hs.evalLoop

protected theorem applySwap {ce n : Nat} {x : Engine × State} {w : Swap} (hs : x.2.Formed) :
    (applySwap ce n x w).2.Formed :=
  (hs.foldl fun hs => hs.evControl).complete

protected theorem beginTick {ce n : Nat} (hs : s.Formed) : (beginTick ce n s).2.2.Formed := by
  unfold beginTick
  dsimp only
  split
  · exact hs.foldlSnd fun hs => hs.applySwap
  · refine .foldlSnd (hs.foldlSnd fun hs => hs.applySwap) fun hs => ?_
    split
    · exact hs.stopLoop
    · exact hs

protected theorem applyIo {p : Nat × Nat × List Byte} (hs : s.Formed) : (applyIo s p).Formed := by
  unfold applyIo
  dsimp only
  split <;> exact hs.upd

protected theorem dieTickAt {die n : Nat} (hs : s.Formed) : (dieTickAt die n s).Formed := by
  unfold dieTickAt
  refine hs.ite (.upd ?_)
  exact hs.upd.foldl fun hs => hs.applyIo

protected theorem execEngineTick {ce : Nat} {skip : Bool} (hs : s.Formed) : NextFormed
    (execEngineTick ce skip s) := by
  unfold execEngineTick
  extract_lets n fresh t
  refine hs.next.ite ?_
  have ht : t.Formed := hs.dieTickAt
  split
  next e bump u hbegin =>
  have hu := ht.beginTick (ce := ce) (n := n)
  rw [hbegin] at hu
  have hloops : ((List.range 64).foldl (turnLoop ce n bump) (e, u)).2.Formed := foldlSnd hu fun hs => hs.turnLoop
  exact hu.setCe.next.ite hloops.setCe.next

protected theorem execFollowingErrorTimeout {ce loop : Nat} (hs : s.Formed) :
    NextFormed (execFollowingErrorTimeout ce loop s) :=
  hs.feAct.setCe.next.ite hs.next

protected theorem execTraceDone {ce : Nat} (hs : s.Formed) : NextFormed (execTraceDone ce s) :=
  hs.setCe.evControl.next.ite hs.next

protected theorem writeSp {ce : Nat} {l : List (Nat × Int)} (hs : s.Formed) : (writeSp ce l s).Formed :=
  hs.setCe

protected theorem execSetpointPageWrite {w : DoorWrite} (hs : s.Formed) :
    NextFormed (execSetpointPageWrite w s) := by
  unfold execSetpointPageWrite
  split
  · exact hs.writeSp.next.ite hs.next
  · exact hs.next

protected theorem ioTake {kind ch : Nat} {o : Option Nat} (hs : s.Formed) : (ioTake kind ch o s).Formed :=
  hs.upd.ite (hs.upd.ite hs.upd)

protected theorem execPwmPeriod {pwm : Nat} (hs : s.Formed) : NextFormed (execPwmPeriod pwm s) := by
  unfold execPwmPeriod
  dsimp only
  split
  · exact hs.next
  · exact hs.next.ite ((hs.upd.ite hs.upd).next)

protected theorem execSigmaDeltaOutput {sd : Nat} {stream : List Bool} (hs : s.Formed) :
    NextFormed (execSigmaDeltaOutput sd stream s) :=
  hs.next.ite hs.upd.next

protected theorem markFault {kind ch : Nat} (hs : s.Formed) : (markFault kind ch s).Formed := hs.frame

protected theorem sdFault {k : Nat} (hs : s.Formed) : (sdFault k s).Formed := hs.upd.markFault.evControl

protected theorem execSdClockLoss {sd : Nat} (hs : s.Formed) : NextFormed (execSdClockLoss sd s) :=
  hs.next.ite hs.sdFault.next

protected theorem execQuadratureEdge {enc : Nat} {aLeads : Bool} (hs : s.Formed) :
    NextFormed (execQuadratureEdge enc aLeads s) :=
  hs.upd.next.ite hs.next

protected theorem execEncIllegalTransition {enc : Nat} (hs : s.Formed) :
    NextFormed (execEncIllegalTransition enc s) :=
  hs.upd.markFault.evControl.next.ite hs.next

protected theorem execEncIndex {enc : Nat} (hs : s.Formed) : NextFormed (execEncIndex enc s) :=
  hs.upd.next.ite hs.next

protected theorem execSentMessage {enc sync : Nat} {ticks : List Nat} (hs : s.Formed) :
    NextFormed (execSentMessage enc sync ticks s) :=
  hs.next.ite (hs.next.ite (hs.upd.next.ite hs.upd.next))

protected theorem execSentTimeout {enc : Nat} (hs : s.Formed) : NextFormed (execSentTimeout enc s) :=
  hs.upd.markFault.evControl.next.ite hs.next

protected theorem execCtlTraceDumpDone {ce : Nat} (hs : s.Formed) :
    NextFormed (execCtlTraceDumpDone ce s) := by
  unfold execCtlTraceDumpDone
  dsimp only
  split
  · exact hs.setCe.ownWrite.complete.next
  · exact hs.next

end State.Formed

theorem cCtlAssign_keepsForm : cCtlAssign.KeepsForm :=
  .of_effect fun hs => hs.journalCmd.setCe.ite (hs.journalCmd.ite hs.journalCmd.setCe)

theorem cCtlBankWrite_keepsForm : cCtlBankWrite.KeepsForm := .of_effect fun hs => hs.setCe

theorem cCtlBankRead_keepsForm : cCtlBankRead.KeepsForm := .of_effect fun hs => hs

theorem cCtlSwap_keepsForm : cCtlSwap.KeepsForm := .of_effect fun hs => hs.journalCmd.setCe

theorem cCtlEnable_keepsForm : cCtlEnable.KeepsForm := .of_effect fun hs => hs.setCe

theorem cCtlDisable_keepsForm : cCtlDisable.KeepsForm := .of_effect fun hs => hs.setCe

theorem cCtlSetpt_keepsForm : cCtlSetpt.KeepsForm := .of_effect fun hs => hs.writeSp

theorem cCtlStatus_keepsForm : cCtlStatus.KeepsForm := .of_effect fun hs => hs

theorem cCtlIoCfg_keepsForm : cCtlIoCfg.KeepsForm := by
  refine .of_effect fun {n h ps s} hs => ?_
  dsimp only [cCtlIoCfg]
  exact hs.journalCmd.ioTake.upd

theorem cCtlTraceCfg_keepsForm : cCtlTraceCfg.KeepsForm := .of_effect fun hs => hs.setCe

theorem cCtlTraceDump_keepsForm : cCtlTraceDump.KeepsForm := .of_effect fun hs => hs.setCe

/-! ## Gateway -/

namespace State.Formed

variable {s : State}

protected theorem countDrops {n : Nat} (hs : s.Formed) : (countDrops n s).Formed := hs.modGwy

protected theorem evLink {port ev lanes : Nat} (hs : s.Formed) : (evLink port ev lanes s).Formed := hs.offer0

protected theorem execAddressClaim {ctl : Nat} {won : Bool} (hs : s.Formed) :
    NextFormed (execAddressClaim ctl won s) := by
  unfold execAddressClaim
  split
  · exact hs.next
  · exact (hs.next.ite hs.modNetPort.evLink.next).ite
      ((hs.modNetPort.ite hs.modNetPort.evLink).next.ite hs.modNetPort.next)

protected theorem enqueue {p : Nat} {f : TxFrame} (hs : s.Formed) : (enqueue p f s).Formed := hs.modNetPort

protected theorem toCan {p prio kind id flags dlc : Nat} {data : List Byte} (hs : s.Formed) :
    (toCan p prio kind id flags dlc data s).Formed :=
  hs.countDrops.ite hs.enqueue

protected theorem toMac {p prio kind id : Nat} {f : GFrame} (hs : s.Formed) :
    (toMac p prio kind id f s).Formed :=
  hs.countDrops.ite hs.enqueue

protected theorem toRing {p prio id : Nat} {f : GFrame} (hs : s.Formed) : (toRing p prio id f s).Formed := by
  unfold toRing
  split
  · exact hs.countDrops
  · exact hs.countDrops.ite hs.checkedWrite.modGwy

protected theorem toSetpt {id : Nat} {f : GFrame} (hs : s.Formed) : (toSetpt id f s).Formed :=
  hs.takeFree.writeSp.ite hs.writeSp

protected theorem deliverAt {port prio kind id : Nat} {f : GFrame} (hs : s.Formed) :
    (deliverAt port prio kind id f s).Formed :=
  hs.toSetpt.ite (hs.toRing.ite (hs.toCan.ite hs.toMac))

protected theorem gotReport {reason outport outdev ident idx tenant : Nat} (hs : s.Formed) :
    (gotReport reason outport outdev ident idx tenant s).Formed :=
  (hs.modGwy.ite hs.modGwy.modGwy).offer0

protected theorem reportFail {reason : Nat} {p : Posted} (hs : s.Formed) : (reportFail reason p s).Formed :=
  hs.countDrops.ite (hs.modGwy.gotReport.ite hs.modGwy.upd)

protected theorem execErrorReport {reason outport outdev ident idx tenant : Nat} (hs : s.Formed) :
    NextFormed (execErrorReport reason outport outdev ident idx tenant s) :=
  (hs.gotReport.ite hs).next

protected theorem modSl {p : Nat} {f : SlPort → SlPort} (hs : s.Formed) : (modSl p f s).Formed := hs.frame

protected theorem storeC3 {p : Nat} {c : C3Pkt} (hs : s.Formed) : (storeC3 p c s).Formed :=
  hs.countDrops.ite hs.modSl

protected theorem sendPosted {p : Posted} (hs : s.Formed) : (sendPosted p s).Formed := by
  unfold sendPosted
  split
  · exact hs.reportFail
  · split
    · exact hs.reportFail
    · exact hs.countDrops.reportFail.ite (hs.reportFail.ite hs.storeC3)

protected theorem execPostedWrite {p : Posted} (hs : s.Formed) : NextFormed (execPostedWrite p s) := by
  unfold execPostedWrite
  split
  · exact hs.next
  · split
    · exact hs.reportFail.next
    · split
      · exact hs.deliverAt.next
      · exact hs.reportFail.next

protected theorem forward {k : Nat} {e : List Byte} {f : GFrame} (hs : s.Formed) :
    (forward k e f s).Formed := by
  unfold forward
  dsimp only
  split
  · split
    · exact hs.deliverAt
    · exact hs.countDrops
  · exact hs.sendPosted

protected theorem actEntry {k : Nat} {f : GFrame} (hs : s.Formed) : (actEntry k f s).Formed := by
  unfold actEntry
  split
  · exact hs
  · exact hs.modGwy.countDrops.ite (hs.modGwy.countDrops.ite hs.modGwy.forward)

protected theorem route {f : GFrame} (hs : s.Formed) : (route f s).Formed := by
  unfold route
  split
  · exact hs.modGwy
  · exact hs.foldl fun hs => hs.actEntry

protected theorem execGatewayFrame {f : Ingress} {err : Int} (hs : s.Formed) :
    NextFormed (execGatewayFrame f err s) := by
  unfold execGatewayFrame
  dsimp only
  split
  · exact hs.next
  · split
    · exact hs.next
    · exact hs.route.next

protected theorem txSlot {k : Nat} (hs : s.Formed) : (txSlot k s).Formed := by
  unfold txSlot
  split
  · exact hs
  · exact hs.checkedRead.modGwy.ite (hs.checkedRead.modGwy.countDrops.ite hs.checkedRead.modGwy.route)

protected theorem txSlots {k n : Nat} (hs : s.Formed) : (txSlots k n s).Formed := by
  induction n generalizing s with
  | zero => exact hs
  | succ n ih => exact ih hs.txSlot

protected theorem writeTxtail {ring v : Nat} (hs : s.Formed) : (writeTxtail ring v s).Formed := by
  unfold writeTxtail
  split
  · exact hs
  · exact hs.ite (hs.modGwy.ite hs.modGwy.txSlots)

protected theorem execTxtailWrite {w : DoorWrite} (hs : s.Formed) : NextFormed (execTxtailWrite w s) := by
  unfold execTxtailWrite
  split
  · exact hs.writeTxtail.next
  · exact hs.next

protected theorem writeRxdone {ring v : Nat} (hs : s.Formed) : (writeRxdone ring v s).Formed := by
  unfold writeRxdone
  split
  · exact hs
  · exact hs.modGwy

protected theorem execRxdoneWrite {w : DoorWrite} (hs : s.Formed) : NextFormed (execRxdoneWrite w s) := by
  unfold execRxdoneWrite
  split
  · exact hs.writeRxdone.next
  · exact hs.next

protected theorem execCanTxTimeout {ctl : Nat} (hs : s.Formed) : NextFormed (execCanTxTimeout ctl s) := by
  unfold execCanTxTimeout
  dsimp only
  split
  · exact hs.next
  · exact hs.next.ite hs.modNetPort.countDrops.next

protected theorem sendFrames (hs : s.Formed) : (sendFrames s).Formed := by
  unfold sendFrames
  refine hs.foldl fun hs => ?_
  dsimp only
  split
  · exact hs.ite hs.modNetPort
  · split
    · exact (hs.ite hs.modNetPort).ite ((hs.ite hs.modNetPort).modNetPort)
    · split
      · split
        · exact (hs.ite hs.modNetPort).modNetPort
        · exact (hs.ite hs.modNetPort).modNetPort.countDrops
      · exact (hs.ite hs.modNetPort).modNetPort

protected theorem sendChain (hs : s.Formed) : (sendChain s).Formed := hs.upd.foldl fun hs => hs.modSl.ite hs

end State.Formed

theorem cGwRouteSet_keepsForm : cGwRouteSet.KeepsForm := .of_effect fun hs => hs.journalCmd.modGwy

theorem cGwRouteClear_keepsForm : cGwRouteClear.KeepsForm := .of_effect fun hs => hs.journalCmd.modGwy

theorem cGwRouteGet_keepsForm : cGwRouteGet.KeepsForm := .of_effect fun hs => hs

theorem cGwRingCfg_keepsForm : cGwRingCfg.KeepsForm := .of_effect fun hs => hs.modGwy.ite hs.modGwy

theorem cGwPortCfg_keepsForm : cGwPortCfg.KeepsForm := .of_effect fun hs => hs.journalCmd.modNetPort

theorem cGwIsoCfg_keepsForm : cGwIsoCfg.KeepsForm := .of_effect fun hs => hs.journalCmd.modNetPort

/-! ## Chain -/

namespace State.Formed

variable {s : State}

protected theorem modChn {f : Chn → Chn} (hs : s.Formed) : (modChn f s).Formed := hs.frame

protected theorem send {m : C0Msg} (hs : s.Formed) : (send m s).Formed := hs.modChn

protected theorem evChain {ev reason ident : Nat} (hs : s.Formed) : (evChain ev reason ident s).Formed :=
  hs.offer0

protected theorem tryJoin {p : Nat} (hs : s.Formed) : (tryJoin p s).Formed := hs.modChn.send.ite hs

protected theorem beginTraining {p : Nat} (hs : s.Formed) : (beginTraining p s).Formed := hs.modSl

protected theorem execJoinReq {m : JoinMsg} (hs : s.Formed) : NextFormed (execJoinReq m s) := by
  unfold execJoinReq
  split
  · split
    · exact hs.next
    · split
      · exact hs.modChn.next
      · exact hs.send.next
  · exact hs.next.ite hs.modChn.evChain.next

protected theorem endChainJobs {gone : Nat → Bool} (hs : s.Formed) : (endChainJobs gone s).Formed :=
  hs.endJobs

protected theorem switchGen {gen lat : Nat} {table : Map Nat} (hs : s.Formed) :
    (switchGen gen lat table s).Formed :=
  hs.modChn

protected theorem leftChain {st ev : Nat} (hs : s.Formed) : (leftChain st ev s).Formed :=
  (hs.completeOpt.foldl fun hs => hs.complete).modChn.endChainJobs.evChain

protected theorem applyChain (hs : s.Formed) : (applyChain s).Formed := by
  unfold applyChain
  extract_lets c keep links gone new taken left switched ended joined
  have hleft : left.Formed := hs.modChn.foldl fun hs => hs.modSl.ite hs
  have hjoined : joined.Formed := hleft.switchGen.endChainJobs.foldl fun hs => hs.evChain
  have htold := hjoined.foldl (l := gone) (f := fun s k => evChain 3 0 k s) fun hs => hs.evChain
  exact hs.leftChain.ite (htold.foldl fun hs => hs.complete).modChn

protected theorem advanceEpoch (hs : s.Formed) : (advanceEpoch s).Formed :=
  hs.ite ((hs.upd.ite hs.upd.applyChain).send)

protected theorem markPeers (hs : s.Formed) : (markPeers s).Formed := by
  unfold markPeers
  refine .foldl hs fun hs => ?_
  split
  · exact hs.modSl.ite hs
  · exact hs

protected theorem execEpochAdvance {leaves : List Nat} (hs : s.Formed) :
    NextFormed (execEpochAdvance leaves s) :=
  hs.next.ite ((hs.modChn.ite hs.modChn.markPeers.advanceEpoch).next)

protected theorem knowPeers {g : ChainGen} {new gone : List Nat} (hs : s.Formed) :
    (knowPeers g new gone s).Formed := by
  unfold knowPeers
  refine .foldl hs fun hs => ?_
  dsimp only
  split
  · exact hs
  · split
    · exact hs.modSl.ite hs
    · split
      · exact hs.modSl
      · exact hs

protected theorem takeGen {g : ChainGen} (hs : s.Formed) : (takeGen g s).Formed := by
  unfold takeGen
  extract_lets ms joining before newMaster switched gone
  split
  · exact hs.leftChain
  · extract_lets member new known joined told
    have hknown : known.Formed := hs.switchGen.modChn.endChainJobs.knowPeers
    have hjoined : joined.Formed := hknown.foldl fun hs => hs.evChain
    have htold : told.Formed := hjoined.foldl fun hs => hs.evChain
    exact hknown.evChain.ite (htold.evChain.ite htold)

protected theorem execAdvance {epoch : Nat} {isOver : Bool} {sw : Option ChainGen} (hs : s.Formed) :
    NextFormed (execAdvance epoch isOver sw s) := by
  unfold execAdvance
  dsimp only
  split
  · exact hs.next.ite ((hs.modChn.adoptEpoch.takeGen.evChain.ite hs.modChn.adoptEpoch.takeGen).next)
  · exact hs.next.ite ((hs.modChn.adoptEpoch.evChain.ite hs.modChn.adoptEpoch).next)

protected theorem linkLost {a b : Nat} (hs : s.Formed) : (linkLost a b s).Formed :=
  hs.ite (hs.ite (hs.modChn.endChainJobs.modChn.ite hs.modChn.endChainJobs.modChn.upd.markPeers.applyChain.send))

protected theorem execPortDownReport {a b : Nat} (hs : s.Formed) : NextFormed (execPortDownReport a b s) :=
  hs.linkLost.next

protected theorem execMasterLost {by_ : Option Nat} {links : List ChLink} (hs : s.Formed) :
    NextFormed (execMasterLost by_ links s) := by
  unfold execMasterLost
  split
  · exact hs.next
  · split
    · exact hs.next.ite hs.modChn.evChain.next
    · exact (hs.endChainJobs.upd.modChn.switchGen.foldl fun hs => hs.evChain).evChain.send.next.ite hs.leftChain.next

protected theorem execC3Timeout {port : Nat} (hs : s.Formed) : NextFormed (execC3Timeout port s) := by
  unfold execC3Timeout
  split
  · exact hs.next
  · exact hs.modSl.countDrops.next

protected theorem execChainPacketForward {gen dst : Nat} {upper : Bool} {post : Option Posted} (hs : s.Formed) :
    NextFormed (execChainPacketForward gen dst upper post s) := by
  unfold execChainPacketForward
  split
  · exact hs.next
  · dsimp only
    split
    · refine State.Formed.next ?_
      split
      · exact hs.reportFail
      · exact hs
    · split
      · refine State.Formed.next ?_
        split
        · exact hs.reportFail
        · exact hs
      · split
        · exact hs.storeC3.next
        · exact hs.next

protected theorem execRemoteRequest {token tenant addr n : Nat} {write : Option (List Byte)} (hs : s.Formed) :
    NextFormed (execRemoteRequest token tenant addr n write s) := by
  unfold execRemoteRequest
  split
  · exact hs.next
  · dsimp only
    split
    · split
      · exact hs.checkedWrite.modChn.next
      · exact hs.violate.modChn.next
    · split
      · exact hs.checkedRead.modChn.next
      · exact hs.violate.modChn.next

protected theorem execSignalDetected {port : Nat} (hs : s.Formed) : NextFormed (execSignalDetected port s) :=
  hs.next.ite ((hs.modSl.beginTraining.ite hs.modSl).next)

protected theorem execLinkRetry {port : Nat} (hs : s.Formed) : NextFormed (execLinkRetry port s) :=
  (hs.beginTraining.ite hs).next

protected theorem execLinkTrainingTimeout {port : Nat} (hs : s.Formed) :
    NextFormed (execLinkTrainingTimeout port s) :=
  (hs.modSl.ite hs).next

protected theorem execLinkUp {port : Nat} {peer : ChainPeer} {lanes dly : Nat} (hs : s.Formed) :
    NextFormed (execLinkUp port peer lanes dly s) :=
  hs.next.ite (hs.modSl.next.ite ((hs.modSl.modChn.ite (hs.modSl.send.ite hs.modSl)).evLink.tryJoin.next))

protected theorem execLinkdlyMeasure {port dly : Nat} {far : List ChLink} (hs : s.Formed) :
    NextFormed (execLinkdlyMeasure port dly far s) :=
  hs.next.ite ((hs.modSl.send.ite hs.modSl).next.ite ((hs.modSl.modChn.send.evChain.ite hs.modSl.modChn).next))

protected theorem execLinkDown {port : Nat} (hs : s.Formed) : NextFormed (execLinkDown port s) := by
  unfold execLinkDown
  extract_lets l down told failed
  have hfailed : failed.Formed := hs.modSl.evLink.foldl fun hs => hs.reportFail
  exact hs.next.ite (hfailed.next.ite (hfailed.linkLost.next.ite hfailed.send.next))

protected theorem execFlitReceived {port corr uncorr : Nat} {ok : Bool} (hs : s.Formed) :
    NextFormed (execFlitReceived port corr uncorr ok s) :=
  hs.next.ite hs.modSl.next

protected theorem retireLane {port lane cause symErr : Nat} (hs : s.Formed) :
    (retireLane port lane cause symErr s).Formed :=
  hs.ite ((hs.modMap.wear.ite hs).ite (hs.modMap.modSl.wear.evLink.ite hs.modMap.wear.retireNoSpare.evLink.modSl))

protected theorem execLaneSpare {port lane symErr : Nat} (hs : s.Formed) :
    NextFormed (execLaneSpare port lane symErr s) :=
  hs.next.ite hs.retireLane.next

end State.Formed

theorem cChnCfg_keepsForm : cChnCfg.KeepsForm := .of_effect fun hs => by
  refine .ite (.modChn ?_) (.ite (.modChn ?_) (.foldl (.modChn ?_) fun hs => hs.tryJoin))
  all_goals exact hs.journalCmd.modChn.foldl fun hs => hs.modSl.ite (hs.beginTraining.ite hs)

theorem cChnLeave_keepsForm : cChnLeave.KeepsForm :=
  .of_effect fun hs => hs.journalCmd.modChn.modChn.ite hs.journalCmd.modChn.send

theorem cChnStatus_keepsForm : cChnStatus.KeepsForm := .of_effect fun hs => hs

theorem cChnMembers_keepsForm : cChnMembers.KeepsForm := .of_effect fun hs => hs

theorem cChnEvict_keepsForm : cChnEvict.KeepsForm := .of_effect fun hs => hs.journalCmd.modChn

/-! ## Memory -/

namespace State.Formed

variable {s : State}

protected theorem modMem {f : MemSt → MemSt} (hs : s.Formed)
    (dram : ∀ m, (f m).dram = m.dram := by exact fun _ => rfl) :
    (modMem f s).Formed :=
  hs.frame (dram := dram _)

protected theorem modEcc {k : Nat} {f : EccSt → EccSt} (hs : s.Formed) : (modEcc k f s).Formed := hs.modMem

protected theorem repairRow {stack : Nat} {e : DramErr} {cause value : Nat} (hs : s.Formed) :
    (repairRow stack e cause value s).Formed :=
  hs.fwLog.modMap.modEcc.wear.ite (hs.fwLog.modMap.foldl fun hs => hs.ite hs.modMap.wear.retireNoSpare)

protected theorem dramError {e : DramErr} (hs : s.Formed) : (dramError e s).Formed :=
  hs.dropLines.modEcc.modMem.repairRow.ite (hs.modEcc.modMem.ite hs.modEcc.modMem.repairRow)

protected theorem metBy {err : Option DramErr} {a n : Nat} (hs : s.Formed) : (metBy err a n s).Formed := by
  unfold metBy
  split
  · exact hs.dramError.ite hs
  · exact hs

protected theorem execPatrolScrub {errs : List DramErr} (hs : s.Formed) :
    NextFormed (execPatrolScrub errs s) :=
  hs.next.ite ((hs.foldl fun hs => hs.dramError.ite hs).next)

protected theorem countDrop {why : Nat} (hs : s.Formed) : (countDrop why s).Formed :=
  hs.modMem fun m => by split <;> rfl

protected theorem cacheLinesRead {cl : Nat} {secure : Bool} {t a n label : Nat} (hs : s.Formed) :
    (cacheLinesRead cl secure t a n label s).Formed :=
  hs.foldl fun hs => hs.ite hs.cacheRead

protected theorem putSram {job cl : Nat} {dst : Option (Nat × Nat)} {d : List Byte} (hs : s.Formed) :
    (putSram job cl dst d s).Formed := by
  unfold putSram
  split
  · exact hs.sramWrite
  · exact hs

protected theorem gotData {d : List Byte} (hs : s.Formed) : (gotData d s).Formed := hs.modMem

protected theorem workRead {job cl a n label : Nat} {j : Job} {err : Option DramErr} (hs : s.Formed) :
    (workRead job cl a n label j err s).2.Formed := by
  unfold workRead
  dsimp only
  split
  · split
    · exact hs.metBy.endJob
    · have h1 := hs.metBy (err := err) (a := a) (n := n)
      split
      · exact (h1.cacheLinesRead (label := label)).undefBytes (n := n)
      · exact h1.cacheLinesRead
  · exact hs.violate

protected theorem asyncRead {job cl copy a n label : Nat} {j : Job} {dst : Option (Nat × Nat)} {err : Option DramErr}
    (hs : s.Formed) :
    (asyncRead job cl copy a n label j dst err s).Formed := by
  unfold asyncRead
  split
  · split
    · exact hs.modJob.putSram.gotData
    · dsimp only
      split
      · exact hs.workRead.modJob.putSram.gotData
      · exact hs.workRead
  · split
    · exact hs.modJob.putSram.gotData
    · exact hs

protected theorem aheadRead {c : Acc} {cl : Option Nat} {a n label : Nat} {err : Option DramErr} (hs : s.Formed) :
    (aheadRead c cl a n label err s).Formed := by
  unfold aheadRead
  split
  · exact hs.countDrop
  · split
    · dsimp only
      split
      · exact hs.metBy
      · split
        · refine .gotData (.cacheLinesRead ?_)
          split
          · exact hs.metBy.undefBytes
          · exact hs.metBy
        · refine .gotData ?_
          split
          · exact hs.metBy.undefBytes
          · exact hs.metBy
    · exact hs.violate

protected theorem execDramTransaction {src : DramSrc} {addr label : Nat} {op : DramOp} {dst : Option (Nat × Nat)}
    {async : Bool} {err : Option DramErr} (hs : s.Formed) :
    NextFormed (execDramTransaction src addr label op dst async err s) := by
  unfold execDramTransaction
  split
  · split
    · exact hs.next
    · split
      · exact hs.next
      · split
        · exact hs.jobDramWrite.next
        · exact hs.aheadRead.next
        · dsimp only
          split
          · split
            · exact hs.asyncRead.next
            · split
              · exact hs.workRead.putSram.gotData.next
              · exact hs.workRead.gotData.next
          · split
            · exact hs.asyncRead.next
            · split
              · exact hs.workRead.putSram.gotData.next
              · exact hs.workRead.gotData.next
  · dsimp only
    split
    · exact hs.checkedWrite.next
    · exact hs.aheadRead.next
    · exact (hs.metBy.ite hs).checkedRead.gotData.next

protected theorem hostRead {addr n : Nat} {err : Option DramErr} (hs : s.Formed) :
    (hostRead addr n err s).Formed := by
  unfold hostRead
  split
  · refine .modMem ?_
    split
    · exact hs.metBy.undefBytes
    · exact hs.metBy
  · exact hs.violate.modMem

protected theorem execHostBar4Access {ep addr : Nat} {op : DramOp} {err : Option DramErr} (hs : s.Formed) :
    NextFormed (execHostBar4Access ep addr op err s) := by
  unfold execHostBar4Access
  split
  · exact hs.next
  · split
    · exact hs.next.ite hs.checkedWrite.next
    · exact hs.next.ite (hs.countDrop.next.ite hs.hostRead.next)
    · exact hs.next.ite hs.hostRead.next

protected theorem setPages {l : List Nat} {f : PageEnt → PageEnt} (hs : s.Formed) : (setPages l f s).Formed :=
  hs.modMem

protected theorem addMemCmd {tok : Nat} {drop : List (Nat × Nat)} (hs : s.Formed) :
    (addMemCmd tok drop s).Formed :=
  hs.modMem

protected theorem execMemCommandDone {i : Nat} (hs : s.Formed) : NextFormed (execMemCommandDone i s) := by
  unfold execMemCommandDone
  split
  · exact hs.next
  · exact hs.next.ite ((hs.foldl fun hs => hs.dropLines).modMem.complete.next)

protected theorem execBwrPeriod {q iso dev : Nat} {tens : List (Nat × Nat × Bool)} (hs : s.Formed) :
    NextFormed (execBwrPeriod q iso dev tens s) :=
  hs.upd.next

end State.Formed

theorem cMemAssign_keepsForm : cMemAssign.KeepsForm := .of_effect fun hs => hs.journalCmd.setPages.zeroPages.addMemCmd

theorem cMemRelease_keepsForm : cMemRelease.KeepsForm :=
  .of_effect fun hs => ((hs.journalCmd.foldl (fun hs => hs.zeroPages)).modMem).addMemCmd

theorem cMemFlags_keepsForm : cMemFlags.KeepsForm := .of_effect fun hs => hs.journalCmd.setPages.addMemCmd

theorem cMemQuery_keepsForm : cMemQuery.KeepsForm := .of_effect fun hs => hs

/-! ## Firmware -/

namespace State.Formed

variable {s : State}

protected theorem modFws {f : Fws → Fws} (hs : s.Formed) : (modFws f s).Formed := hs.frame

protected theorem modLarder {f : Larder → Larder} (hs : s.Formed) : (modLarder f s).Formed := hs.frame

protected theorem execFwVerifyDone (hs : s.Formed) : NextFormed (execFwVerifyDone s) := by
  unfold execFwVerifyDone
  split
  · exact hs.next
  · split
    · exact hs.modFws.complete.modFws.setDevSt.next.ite hs.modFws.complete.modFws.next
    · exact hs.next

protected theorem countRestart {proc : Nat} (hs : s.Formed) : (countRestart proc s).Formed := hs.modFws

protected theorem retireTileWear {cl t cause value : Nat} (hs : s.Formed) :
    (retireTileWear cl t cause value s).Formed := by
  unfold retireTileWear
  dsimp only
  split
  · exact hs
  · refine .retireTile ?_
    split
    · exact hs.wear
    · split <;> exact hs.wear

protected theorem retireCcc {proc cl cause value : Nat} (hs : s.Formed) :
    (retireCcc proc cl cause value s).Formed :=
  hs.modMap.wear.modFws.ite (hs.modMap.wear.retireNoSpare.foldl fun hs => hs.retireTileWear)

protected theorem beginRestart {proc cause : Nat} (hs : s.Formed) : (beginRestart proc cause s).Formed := by
  unfold beginRestart
  split
  · exact hs
  · dsimp only
    split
    · exact hs.countRestart.fwLog.modFws
    · exact hs.countRestart.fwLog.modFws.modFws.ite hs.countRestart.fwLog.modFws.modFws.retireCcc

protected theorem flushRefEvents (hs : s.Formed) : (flushRefEvents s).Formed :=
  hs.upd.foldl fun hs => hs.offerBoth

protected theorem drainAllTci (hs : s.Formed) : (drainAllTci s).Formed := hs.foldl fun hs => hs.drainTci

protected theorem endRestart {proc : Nat} (hs : s.Formed) : (endRestart proc s).Formed := by
  unfold endRestart
  dsimp only
  split
  · exact hs
  · exact hs.modFws.releaseCpl.offer0.flushRefEvents.drainAllTci.ite hs.modFws.releaseCpl.offer0

protected theorem execFwWatchdogExpiry {proc : Nat} (hs : s.Formed) :
    NextFormed (execFwWatchdogExpiry proc s) :=
  hs.beginRestart.next

protected theorem execFwException {proc : Nat} {memory : Bool} (hs : s.Formed) :
    NextFormed (execFwException proc memory s) :=
  hs.beginRestart.next

protected theorem execFwRestartDone {proc : Nat} (hs : s.Formed) : NextFormed (execFwRestartDone proc s) :=
  hs.endRestart.next

protected theorem modPort {p : Port} {f : PortSt → PortSt} (hs : s.Formed)
    (seq : ∀ v, (f v).expSeq = v.expSeq := by exact fun _ => rfl) : (modPort p f s).Formed := hs.updPort (seq _)

protected theorem proveRefused {st : Nat} {h : Hdr} (hs : s.Formed) : (proveRefused st h s).Formed :=
  hs.ite hs.modPort

protected theorem execNonceExpiry {p : Port} {proof : Bool} (hs : s.Formed) :
    NextFormed (execNonceExpiry p proof s) :=
  (hs.modPort fun v => by split <;> rfl).next

protected theorem execProveLockoutEnd {p : Port} (hs : s.Formed) : NextFormed (execProveLockoutEnd p s) :=
  hs.modPort.next

protected theorem drainJournal (hs : s.Formed) : (drainJournal s).Formed := hs.modFws.modLarder

protected theorem execJournalDrain (hs : s.Formed) : NextFormed (execJournalDrain s) :=
  hs.next.ite hs.drainJournal.next

protected theorem secLoss {kind inst tenant : Nat} (hs : s.Formed) : (secLoss kind inst tenant s).Formed :=
  (hs.journal.ite hs).offer0.ite ((hs.journal.ite hs).modLarder)

end State.Formed

theorem cFwBegin_keepsForm : cFwBegin.KeepsForm := .of_effect fun hs => hs.modFws

theorem cFwChunk_keepsForm : cFwChunk.KeepsForm := .of_effect fun hs => hs.modFws

theorem cFwEnd_keepsForm : cFwEnd.KeepsForm := .of_effect fun hs => hs.modFws

theorem cFwInfo_keepsForm : cFwInfo.KeepsForm := .of_effect fun hs => hs

theorem cFwLogRead_keepsForm : cFwLogRead.KeepsForm := .of_effect fun hs => hs

theorem cFwRestart_keepsForm : cFwRestart.KeepsForm := .of_effect fun hs => hs.journalCmd.beginRestart.endRestart

theorem cFwSvnCommit_keepsForm : cFwSvnCommit.KeepsForm := .of_effect fun hs => hs.journalCmd.modLarder

theorem cFwSecChallenge_keepsForm : cFwSecChallenge.KeepsForm := .of_effect fun hs => hs.journalCmd.upd.modPort

theorem cFwSecProve_keepsForm : cFwSecProve.KeepsForm :=
  ⟨fun hs => hs.journalCmd.modPort, fun hs => hs.proveRefused⟩

theorem cFwSskSet_keepsForm : cFwSskSet.KeepsForm := .of_effect fun hs => hs.journalCmd.modLarder

theorem cFwAttest_keepsForm : cFwAttest.KeepsForm :=
  .of_effect fun hs => hs.journalCmd.modFws.modLarder.ite hs.journalCmd.modFws.modLarder

theorem cFwAttestCert_keepsForm : cFwAttestCert.KeepsForm := .of_effect fun hs => hs

theorem cFwJournalRead_keepsForm : cFwJournalRead.KeepsForm := .of_effect fun hs => hs

theorem cFwMcounter_keepsForm : cFwMcounter.KeepsForm := .of_effect fun hs => hs.journalCmd.modLarder.ite hs

theorem cFwIntkeyBurn_keepsForm : cFwIntkeyBurn.KeepsForm := by
  refine .of_effect fun {n h ps s} hs => ?_
  dsimp only [cFwIntkeyBurn]
  exact hs.journalCmd.upd

/-! ## Wear -/

namespace State.Formed

variable {s : State}

protected theorem modPow {f : Pow → Pow} (hs : s.Formed) (cap : ∀ w, (f w).cap = w.cap := by exact fun _ => rfl)
    (capmax : ∀ w, (f w).capmax = w.capmax := by exact fun _ => rfl)
    (rate : ∀ w, (f w).dramRate = w.dramRate := by exact fun _ => rfl) : (modPow f s).Formed :=
  hs.frame (cap := cap _) (capmax := capmax _) (rate := rate _)

protected theorem evPower {ev : Nat} {inst value : Option Nat} (hs : s.Formed) :
    (evPower ev inst value s).Formed :=
  hs.takeFree.offer0

protected theorem withCap {f : State → State} (hs : s.Formed) (hf : ∀ {a : State}, a.Formed → (f a).Formed) :
    (withCap f s).Formed :=
  (hf hs).ite ((hf hs).evPower)

protected theorem clusterLost {cl : Nat} (hs : s.Formed) : (clusterLost cl s).Formed :=
  hs.endJobs.foldl fun hs => hs.secLoss

protected theorem addUnit {kind inst : Nat} {noSpare : Bool} (hs : s.Formed) :
    (addUnit kind inst noSpare s).Formed :=
  hs.modMap

protected theorem loseUnit {kind inst cause value : Nat} (hs : s.Formed) :
    (loseUnit kind inst cause value s).Formed :=
  hs.ite hs.addUnit.wear.retireNoSpare

protected theorem loseTiles {cl : Nat} (hs : s.Formed) : (loseTiles cl s).Formed :=
  (hs.clusterLost.foldl fun hs => hs.retireTileWear).modCl

protected theorem losePort {port : Nat} (hs : s.Formed) : (losePort port s).Formed := by
  unfold losePort
  refine .modSl (.modMap ?_)
  refine .foldl ?_ fun hs => hs.loseUnit
  split
  · exact hs.execLinkDown _ ‹_›
  · exact hs

protected theorem railShutdown {r : Nat} (hs : s.Formed) : (railShutdown r s).Formed := by
  unfold railShutdown
  extract_lets tiles granules cores ports
  have htiles : tiles.Formed := (hs.foldl fun hs => hs.loseTiles).ite hs
  have hgranules : granules.Formed := (htiles.foldl fun hs => hs.foldl fun hs => hs.loseUnit).ite htiles
  have hcores : cores.Formed := (hgranules.foldl fun hs => hs.loseUnit).ite hgranules
  have hports : ports.Formed := (hcores.foldl fun hs => hs.losePort).ite hcores
  exact (hports.foldl fun hs => hs.loseUnit).ite hports

protected theorem retirePhase {die p cause : Nat} {fault : Bool} (hs : s.Formed) :
    (retirePhase die p cause fault s).Formed := by
  unfold retirePhase
  extract_lets inst flagged
  have hflagged : flagged.Formed := hs.modPow.ite hs
  refine hs.ite ?_
  split
  · exact hflagged.addUnit.modMap.wear.evPower.ite hflagged.addUnit.modMap.wear
  · split
    · exact hflagged.addUnit.modMap.wear.evPower
    · extract_lets out counted told
      have hcounted : counted.Formed := (hflagged.withCap fun hs => hs.addUnit.modMap).wear.retireNoSpare
      have htold : told.Formed := hcounted.evPower.ite hcounted
      exact htold.railShutdown.ite htold

protected theorem execPhaseFault {die phase : Nat} (hs : s.Formed) : NextFormed (execPhaseFault die phase s) :=
  (hs.ite hs.retirePhase).next

protected theorem execWearMeasure {drops : List (Nat × Nat)} (hs : s.Formed) :
    NextFormed (execWearMeasure drops s) :=
  (hs.ite (hs.foldl fun hs => hs.ite (hs.retireTileWear.ite (hs.wear.ite hs)))).next

protected theorem retireGranule {cl g cause value : Nat} {holder : GranHolder} (hs : s.Formed) :
    (retireGranule cl g cause value holder s).Formed := by
  unfold retireGranule
  dsimp only
  split
  · exact hs.loseUnit.trimCache
  · split
    · split
      · exact hs.loseUnit.loseProg
      · exact hs.loseUnit
    · exact hs.loseUnit
  · split
    · exact hs.loseUnit.dropLoad.ite hs.loseUnit
    · exact hs.loseUnit

protected theorem repairLine {e : SramErr} {col cause value : Nat} (hs : s.Formed) :
    (repairLine e col cause value s).Formed :=
  hs.fwLog.modMap.wear.ite (hs.fwLog.retireGranule.ite hs.fwLog.modMap.wear.retireNoSpare.retireTileWear)

protected theorem noteError {k : Nat} (hs : s.Formed) : (noteError k s).2.Formed := hs.modPow

protected theorem reloadJob {id : Nat} (hs : s.Formed) : (reloadJob id s).Formed := by
  unfold reloadJob
  split
  · exact hs.restartJob.fillResident
  · exact hs

protected theorem execSramEccError {e : SramErr} (hs : s.Formed) : NextFormed (execSramEccError e s) := by
  unfold execSramEccError
  split
  · exact hs.next
  · split
    · refine State.Formed.next ?_
      split
      · exact hs.repairLine.reloadJob.ite hs.repairLine
      · exact hs.repairLine
    · exact (hs.noteError.noteError.repairLine.ite
        (hs.noteError.noteError.repairLine.ite hs.noteError.noteError)).next

protected theorem loseSpareCcc {die cause : Nat} (hs : s.Formed) : (loseSpareCcc die cause s).Formed :=
  hs.modMap.wear

protected theorem retireCccInst {inst cause : Nat} (hs : s.Formed) : (retireCccInst inst cause s).Formed := by
  unfold retireCccInst
  dsimp only
  split
  · exact hs.retireCcc
  · exact hs.loseSpareCcc.ite hs

protected theorem pageRow {pg : Nat} (hs : s.Formed) : (pageRow pg s).2.Formed := hs.takeFree

protected theorem retireUnit {kind inst : Nat} (hs : s.Formed) : (retireUnit kind inst s).Formed := by
  unfold retireUnit
  split
  · exact hs.retireTileWear
  · exact hs.repairLine
  · exact hs.repairLine
  · exact hs.pageRow.repairRow
  · exact hs.retireLane
  · exact hs.retirePhase
  · exact hs.retireCccInst
  · exact hs.modMap.wear.retireNoSpare

end State.Formed

theorem cPwrRetire_keepsForm : cPwrRetire.KeepsForm := .of_effect fun hs => hs.journalCmd.retireUnit.complete

theorem cPwrWearRead_keepsForm : cPwrWearRead.KeepsForm := .of_effect fun hs => hs

/-! ## Power -/

namespace State.Formed

variable {s : State}

protected theorem noteClock (hs : s.Formed) : (noteClock s).Formed := hs.frame

protected theorem newWindow (hs : s.Formed) : (newWindow s).Formed := hs.frame

protected theorem modClock {f : Pow → Pow} (hs : s.Formed) (cap : ∀ w, (f w).cap = w.cap := by exact fun _ => rfl)
    (capmax : ∀ w, (f w).capmax = w.capmax := by exact fun _ => rfl)
    (rate : ∀ w, (f w).dramRate = w.dramRate := by exact fun _ => rfl) : (modClock f s).Formed :=
  (hs.modPow cap capmax rate).noteClock

protected theorem execPmcInterval {share : Nat} (hs : s.Formed) : NextFormed (execPmcInterval share s) :=
  (hs.ite hs.modClock).next

protected theorem execFastLimit {vin iin : Nat} (hs : s.Formed) : NextFormed (execFastLimit vin iin s) :=
  (hs.modClock.ite hs).next

protected theorem execVinDroop {mv : Nat} (hs : s.Formed) : NextFormed (execVinDroop mv s) :=
  (hs.ite (hs.modClock (fun w => by dsimp only; split <;> rfl) (fun w => by dsimp only; split <;> rfl)
    (fun w => by dsimp only; split <;> rfl))).next

protected theorem execRailDroop {kind inst permille : Nat} (hs : s.Formed) :
    NextFormed (execRailDroop kind inst permille s) :=
  (hs.ite hs.modClock).next

protected theorem execDroopRelease {island : Option (Nat × Nat)} (hs : s.Formed) :
    NextFormed (execDroopRelease island s) := by
  unfold execDroopRelease
  refine State.Formed.next ?_
  split
  · exact hs.modClock
  · split
    · exact hs
    · exact hs.modClock.ite hs.modClock.evPower

protected theorem restoreCluster {cl : Nat} {t : Temps} (hs : s.Formed) : (restoreCluster cl t s).Formed := by
  unfold restoreCluster
  split
  · exact hs
  · exact hs.ite hs.setCl.evPower

protected theorem execThermalSample {t : Temps} (hs : s.Formed) : NextFormed (execThermalSample t s) := by
  unfold execThermalSample
  split
  · exact hs.next
  · refine State.Formed.next ?_
    refine .foldl ?_ fun hs => hs.restoreCluster
    split
    · exact (hs.modClock.modClock.ite hs.modClock).ite ((hs.modClock.modClock.ite hs.modClock).modPow.evPower)
    · exact hs.modClock.modClock.ite hs.modClock

protected theorem execClusterTrip {cl temp : Nat} (hs : s.Formed) :
    NextFormed (execClusterTrip cl temp s) := by
  unfold execClusterTrip
  split
  · exact hs.next
  · refine State.Formed.next ?_
    refine .evPower (.modPow (.setCl ?_))
    refine .foldl ?_ fun hs => hs.dropLoad.ite hs
    refine hs.clusterLost.endJobs.foldl fun hs => ?_
    split
    · exact hs.loseProg
    · exact hs

protected theorem setGate {kind inst mode : Nat} (hs : s.Formed) : (setGate kind inst mode s).Formed :=
  hs.modPow

protected theorem cutBlock {kind inst mode : Nat} (hs : s.Formed) : (cutBlock kind inst mode s).Formed := by
  unfold cutBlock
  dsimp only
  split
  · exact hs.setGate.setCl.ite hs.setGate.setCl
  · refine .modSl ?_
    split
    · exact hs.setGate.execLinkDown _ ‹_›
    · exact hs.setGate
  · exact hs.setGate.upd.ite hs.setGate
  · exact hs.setGate.modNetPort.countDrops
  · exact hs.setGate

protected theorem runBlock {kind inst : Nat} (hs : s.Formed) : (runBlock kind inst s).Formed := by
  unfold runBlock
  dsimp only
  split
  · exact hs.setGate.modCl
  · exact hs.setGate

protected theorem execPwrGateDone {kind inst : Nat} (hs : s.Formed) :
    NextFormed (execPwrGateDone kind inst s) := by
  unfold execPwrGateDone
  split
  · exact hs.next
  · exact hs.next.ite ((hs.modPow.runBlock.ite hs.modPow).complete.next)

protected theorem execInputMonitorSample {vin iin : Nat} (hs : s.Formed) :
    NextFormed (execInputMonitorSample vin iin s) :=
  (hs.ite hs.modPow).next

protected theorem execFmeasWindow {freq : Nat} (hs : s.Formed) : NextFormed (execFmeasWindow freq s) :=
  (hs.ite (hs.upd.ite (hs.upd.newWindow.ite hs.upd.newWindow))).next

end State.Formed

theorem cPwrGate_keepsForm : cPwrGate.KeepsForm :=
  .of_effect fun hs => (hs.journalCmd.ite hs.journalCmd.cutBlock).modPow

theorem cPwrStatus_keepsForm : cPwrStatus.KeepsForm := .of_effect fun hs => hs

/-! ## The device -/

namespace State.Formed

variable {s : State}

protected theorem deliverNotices (hs : s.Formed) : (deliverNotices s).Formed :=
  hs.modLarder.foldl fun hs => hs.offer0

protected theorem startDevice (hs : s.Formed) : (startDevice s).Formed :=
  (hs.setDevSt.foldl fun hs => hs.firstCover).startStreams

protected theorem execDevStopComplete (hs : s.Formed) : NextFormed (execDevStopComplete s) := by
  unfold execDevStopComplete
  split
  · exact hs.next
  · refine hs.next.ite ?_
    extract_lets _ s1 s2
    have h1 : s1.Formed := hs.upd.setDevSt
    have h2 : s2.Formed := h1.upd
    exact h2.complete.next

protected theorem restart {n : DevSt} : (restart n s).Formed :=
  (State.Formed.fresh (p := s.part) (l := s.larder)).frame

protected theorem execDevResetInit (hs : s.Formed) : NextFormed (execDevResetInit s) :=
  hs.next.ite State.Formed.restart.upd.next

protected theorem execVinValid (hs : s.Formed) : NextFormed (execVinValid s) :=
  hs.next.ite State.Formed.restart.next

protected theorem execVinLoss (hs : s.Formed) : NextFormed (execVinLoss s) :=
  hs.next.ite State.Formed.restart.next

protected theorem execAwaitFwEntry (hs : s.Formed) : NextFormed (execAwaitFwEntry s) :=
  hs.next.ite hs.upd.next

protected theorem seclive (hs : s.Formed) : (seclive s).Formed := hs.ite hs.upd.zeroPages.modLarder

protected theorem retireFailed {kind inst item : Nat} (hs : s.Formed) :
    (retireFailed kind inst item s).Formed := by
  unfold retireFailed
  split
  · exact hs.retireTileWear
  · exact hs.repairLine
  · exact hs.repairLine
  · exact hs.retireLane
  · exact hs.retirePhase
  · exact hs.retireCcc
  · exact hs

protected theorem injectFail {f : BistFail} (hs : s.Formed) : (injectFail f s).Formed := by
  unfold injectFail
  split
  · exact hs.retireFailed.ite hs.modSkk
  · exact hs.modSkk

protected theorem execSelfTestEnd {fails : List BistFail} (hs : s.Formed) : NextFormed (execSelfTestEnd fails s) := by
  unfold execSelfTestEnd
  refine hs.next.ite ?_
  extract_lets fs s1 s2 s3
  have h3 : s3.Formed := hs.seclive.modSkk.modMem.foldl fun hs => hs.injectFail
  exact (h3.latchSafe.ite (h3.upd.setDevSt.ite h3.setDevSt)).next

protected theorem evRefclk {ev : Nat} (hs : s.Formed) : (evRefclk ev s).Formed := hs.upd.ite hs.offerBoth

protected theorem execRefInvalid {missing range : Bool} (hs : s.Formed) :
    NextFormed (execRefInvalid missing range s) :=
  hs.next.ite (hs.upd.next.ite (hs.upd.next.ite hs.upd.noteDeg.evRefclk.next))

protected theorem execRefRestored (hs : s.Formed) : NextFormed (execRefRestored s) := by
  unfold execRefRestored
  split
  · exact hs.upd.next
  · refine State.Formed.next (.upd ?_)
    exact hs.upd.noteDeg.evRefclk

protected theorem execHoldLimitExpiry (hs : s.Formed) : NextFormed (execHoldLimitExpiry s) :=
  hs.next.ite hs.evRefclk.latchSafe.next

end State.Formed

theorem cSessionOpen_keepsForm : cSessionOpen.KeepsForm :=
  .of_effect fun hs => hs.updPort.deliverNotices.ite hs.updPort

theorem cSessionClose_keepsForm : cSessionClose.KeepsForm := .of_effect fun hs => hs.updPort

theorem cNop_keepsForm : cNop.KeepsForm := .of_effect fun hs => hs

theorem cDevStart_keepsForm : cDevStart.KeepsForm := .of_effect fun hs => hs.startDevice.complete

theorem cDevStop_keepsForm : cDevStop.KeepsForm := .of_effect fun hs => hs.upd.syncStreams

theorem cDevReset_keepsForm : cDevReset.KeepsForm := by
  refine .of_effect fun {n h ps s} hs => ?_
  dsimp only [cDevReset]
  exact hs.journalCmd.upd

theorem cServiceEnter_keepsForm : cServiceEnter.KeepsForm :=
  .of_effect fun hs => hs.journalCmd.upd.ite hs.journalCmd.upd.setDevSt.syncStreams

theorem cServiceExit_keepsForm : cServiceExit.KeepsForm := .of_effect fun hs => hs.setDevSt.syncStreams

/-! ## Parts of the state that registers change -/

namespace State.Formed

variable {s : State}

protected theorem modSch {f : Sch → Sch} (hs : s.Formed) : (modSch f s).Formed := hs.frame

protected theorem modCld {d : Nat} {f : Colander → Colander} (hs : s.Formed) : (modCld d f s).Formed :=
  hs.setCld

protected theorem modBwr {f : Bwr → Bwr} (hs : s.Formed) : (modBwr f s).Formed := hs.frame

protected theorem setLabel {k : Nat} {f : Bool × Nat × Bool → Bool × Nat × Bool} (hs : s.Formed) :
    (setLabel k f s).Formed :=
  hs.modBwr

protected theorem setBwrCfg {t : Nat} {f : Nat × Nat → Nat × Nat} (hs : s.Formed) : (setBwrCfg t f s).Formed :=
  hs.modBwr

protected theorem latchTnow (hs : s.Formed) : (latchTnow s).Formed := hs.frame

protected theorem modRas {f : RasSt → RasSt} (hs : s.Formed) : (modRas f s).Formed := hs.frame

protected theorem modDisp {d : Nat} {f : Disp → Disp} (hs : s.Formed) : (modDisp d f s).Formed := hs.frame

protected theorem modClk {f : Clk → Clk} (hs : s.Formed) : (modClk f s).Formed := hs.frame

end State.Formed

/-! ## Register commands -/

/-! ## Registers (R12 to R14, R67) -/

/-- A function on states that keeps the form. -/
def KeepsForm (f : State → State) : Prop := ∀ s : State, s.Formed → (f s).Formed

/-- Writing any value of its width to a field keeps the form. -/
def RField.KeepsForm (f : RField) : Prop := ∀ n, n < 2 ^ f.w → Machine.KeepsForm (f.put n)

/-- Every field of a register keeps the form, and so does what a read or a write of the word does besides. -/
def Reg.KeepsForm (r : Reg) : Prop :=
  (∀ f ∈ r.fields, f.KeepsForm) ∧ Machine.KeepsForm r.onRead ∧ Machine.KeepsForm r.onWrite

/-- The register found at an address, if there is one, keeps the form. -/
def FoundKeepsForm (o : Option Reg) : Prop := ∀ r, o = some r → r.KeepsForm

@[simp] theorem keepsForm_id : KeepsForm id := fun _ hs => hs

@[simp] theorem foundKeepsForm_none : FoundKeepsForm none := fun _ h => nomatch h

@[simp] theorem foundKeepsForm_some (r : Reg) : FoundKeepsForm (some r) ↔ r.KeepsForm :=
  ⟨fun h => h r rfl, fun h _ e => Option.some.inj e ▸ h⟩

@[simp] theorem foundKeepsForm_ite {c : Prop} [Decidable c] {a b : Option Reg} :
    FoundKeepsForm (if c then a else b) ↔ (c → FoundKeepsForm a) ∧ (¬c → FoundKeepsForm b) := by
  split <;> simp [*]

@[simp] theorem ro_keepsForm (lo w v : Nat) : (ro lo w v).KeepsForm := fun _ _ _ hs => hs

@[simp] theorem ros_keepsForm (lo w v : Nat) : (ros lo w v).KeepsForm := fun _ _ _ hs => hs

@[simp] theorem w1c_keepsForm (lo : Nat) (v : Bool) (f : State → State) : (w1c lo v f).KeepsForm ↔ KeepsForm f :=
  ⟨fun h => h 0 Nat.two_pos, fun h _ _ => h⟩

@[simp] theorem wo_keepsForm (lo : Nat) (f : State → State) : (wo lo f).KeepsForm ↔ KeepsForm f :=
  ⟨fun h => h 0 Nat.two_pos, fun h _ _ => h⟩

@[simp] theorem rw_keepsForm (lo w v : Nat) (f : Nat → State → State) :
    (rw lo w v f).KeepsForm ↔ ∀ n, n < 2 ^ w → KeepsForm (f n) := Iff.rfl

@[simp] theorem rwl_keepsForm (lo w v : Nat) (l : Bool) (f : Nat → State → State) :
    (rwl lo w v l f).KeepsForm ↔ ∀ n, n < 2 ^ w → KeepsForm (f n) := Iff.rfl

/-- The session that may not change a field, and what it reads, are no matter of the form. -/
@[simp] theorem keepsForm_withDeny (f : RField) (d : Bool) : RField.KeepsForm { f with deny := d } ↔ f.KeepsForm :=
  Iff.rfl

@[simp] theorem plainReg_keepsForm (fs : List RField) : (plainReg fs).KeepsForm ↔ ∀ f ∈ fs, f.KeepsForm :=
  ⟨fun h => h.1, fun h => ⟨h, keepsForm_id, keepsForm_id⟩⟩

@[simp] theorem roReg_keepsForm (v : Nat) : (roReg v).KeepsForm := by simp [roReg]

@[simp] theorem satReg_keepsForm (v : Nat) : (satReg v).KeepsForm := by simp [satReg]

@[simp] theorem checked_keepsForm (bad : Nat → Bool) (fs : List RField) :
    (checked bad fs).KeepsForm ↔ ∀ f ∈ fs, f.KeepsForm := plainReg_keepsForm fs

@[simp] theorem latchReg_keepsForm (fs : List RField) (f : State → State) :
    (latchReg fs f).KeepsForm ↔ (∀ f ∈ fs, f.KeepsForm) ∧ KeepsForm f :=
  ⟨fun h => ⟨h.1, h.2.1⟩, fun h => ⟨h.1, h.2, keepsForm_id⟩⟩

@[simp] theorem keepsForm_withDenyAll (r : Reg) (d : Bool) : Reg.KeepsForm { r with denyAll := d } ↔ r.KeepsForm :=
  Iff.rfl

/-- A hidden register (R66) does what the register does. -/
@[simp] theorem hideReg_keepsForm {r : Reg} (hidden : Bool) (h : r.KeepsForm) : (hideReg hidden r).KeepsForm := by
  unfold hideReg
  split
  · refine ⟨fun f hf => ?_, h.2⟩
    obtain ⟨g, hg, rfl⟩ := List.mem_map.mp hf
    exact h.1 g hg
  · exact h

@[simp] theorem foundKeepsForm_map_hideReg {o : Option Reg} (hidden : Bool) (h : FoundKeepsForm o) :
    FoundKeepsForm (o.map (hideReg hidden)) := by
  intro _ hr
  obtain ⟨r, hfound, rfl⟩ := Option.map_eq_some_iff.mp hr
  exact hideReg_keepsForm hidden (h r hfound)

/-! ### What the fields of the map do -/

@[simp] theorem keepsForm_modPort (p : Port) {f : PortSt → PortSt} (h : ∀ v, (f v).expSeq = v.expSeq) :
    KeepsForm (modPort p f) := fun _ hs => hs.modPort h

@[simp] theorem keepsForm_modMem {f : MemSt → MemSt} (h : ∀ m, (f m).dram = m.dram) : KeepsForm (modMem f) :=
  fun _ hs => hs.modMem h

@[simp] theorem keepsForm_modSkk {f : Skk → Skk} (h : ∀ k, (f k).sram = k.sram) : KeepsForm (modSkk f) :=
  fun _ hs => hs.modSkk h

@[simp] theorem keepsForm_modPow {f : Pow → Pow} (cap : ∀ w, (f w).cap = w.cap)
    (capmax : ∀ w, (f w).capmax = w.capmax)
    (rate : ∀ w, (f w).dramRate = w.dramRate) : KeepsForm (modPow f) := fun _ hs => hs.modPow cap capmax rate

@[simp] theorem keepsForm_modSch (f : Sch → Sch) : KeepsForm (modSch f) := fun _ hs => hs.modSch
@[simp] theorem keepsForm_modCld (d : Nat) (f : Colander → Colander) : KeepsForm (modCld d f) := fun _ hs => hs.modCld
@[simp] theorem keepsForm_modTen (t : Nat) (f : Tenant → Tenant) : KeepsForm (modTen t f) := fun _ hs => hs.modTen
@[simp] theorem keepsForm_modBwr (f : Bwr → Bwr) : KeepsForm (modBwr f) := fun _ hs => hs.modBwr
@[simp] theorem keepsForm_setLabel (k : Nat) (f : Bool × Nat × Bool → Bool × Nat × Bool) : KeepsForm (setLabel k f) :=
  fun _ hs => hs.setLabel
@[simp] theorem keepsForm_setBwrCfg (t : Nat) (f : Nat × Nat → Nat × Nat) : KeepsForm (setBwrCfg t f) :=
  fun _ hs => hs.setBwrCfg
@[simp] theorem keepsForm_latchTnow : KeepsForm latchTnow := fun _ hs => hs.latchTnow
@[simp] theorem keepsForm_modRas (f : RasSt → RasSt) : KeepsForm (modRas f) := fun _ hs => hs.modRas
@[simp] theorem keepsForm_modDisp (d : Nat) (f : Disp → Disp) : KeepsForm (modDisp d f) := fun _ hs => hs.modDisp
@[simp] theorem keepsForm_modFws (f : Fws → Fws) : KeepsForm (modFws f) := fun _ hs => hs.modFws
@[simp] theorem keepsForm_modGwy (f : Gwy → Gwy) : KeepsForm (modGwy f) := fun _ hs => hs.modGwy
@[simp] theorem keepsForm_modClk (f : Clk → Clk) : KeepsForm (modClk f) := fun _ hs => hs.modClk
@[simp] theorem keepsForm_modCl (n : Nat) (f : Cluster → Cluster) : KeepsForm (modCl n f) := fun _ hs => hs.modCl

theorem keepsForm_withCap {f : State → State} (h : KeepsForm f) : KeepsForm (withCap f) :=
  fun _ hs => hs.withCap fun hs => h _ hs

/-- A value of CAP's width. -/
theorem keepsForm_setCap {n : Nat} (hn : n < 256) : KeepsForm (modPow (fun w => { w with cap := n })) := by
  intro s hs
  rw [State.formed_iff] at hs ⊢
  obtain ⟨hdram, hsram, ⟨-, hpow⟩, hseq⟩ := hs
  exact ⟨hdram, hsram, ⟨hn, hpow⟩, hseq⟩

/-- A value of CAPMAX's width; CAP is cut to it and stays below its own bound (R392). -/
theorem keepsForm_setCapmax {n : Nat} (hn : n < 256) :
    KeepsForm (modPow (fun w => { w with capmax := n, cap := min w.cap n })) := by
  intro s hs
  rw [State.formed_iff] at hs ⊢
  obtain ⟨hdram, hsram, ⟨-, -, hrate⟩, hseq⟩ := hs
  exact ⟨hdram, hsram, ⟨(Nat.min_le_right _ _).trans_lt hn, hn, hrate⟩, hseq⟩

/-- A value of DRAMRATE's width. -/
theorem keepsForm_setDramRate {n : Nat} (hn : n < 4) : KeepsForm (modPow (fun w => { w with dramRate := n })) := by
  intro s hs
  rw [State.formed_iff] at hs ⊢
  obtain ⟨hdram, hsram, ⟨hcap, hcapmax, -⟩, hseq⟩ := hs
  exact ⟨hdram, hsram, ⟨hcap, hcapmax, hn⟩, hseq⟩

/-! ### The map, block by block -/

theorem idsReg_keepsForm (o : Nat) (s : State) : FoundKeepsForm (idsReg o s) := by
  unfold idsReg
  split <;> simp

theorem cmdReg_keepsForm (o : Nat) (s : State) : FoundKeepsForm (cmdReg o s) := by
  unfold cmdReg
  split <;> simp [cmdStat, cmdCnt]

theorem acctReg_keepsForm (t o : Nat) (s : State) : FoundKeepsForm (acctReg t o s) := by
  unfold acctReg
  dsimp only
  split <;> simp

theorem schReg_keepsForm (v : Viewer) (o : Nat) (s : State) : FoundKeepsForm (schReg v o s) := by
  unfold schReg
  split <;> simp [cldStat, cldCnt, acctReg_keepsForm]

theorem memReg_keepsForm (o : Nat) (s : State) : FoundKeepsForm (memReg o s) := by
  unfold memReg
  dsimp only
  split <;> simp
  split <;> simp

theorem bwrTen_keepsForm (t o : Nat) (s : State) : FoundKeepsForm (bwrTen t o s) := by
  unfold bwrTen
  dsimp only
  split <;> simp

theorem bwrReg_keepsForm (v : Viewer) (o : Nat) (s : State) : FoundKeepsForm (bwrReg v o s) := by
  unfold bwrReg
  dsimp only
  split <;> simp [bwrTen_keepsForm]

theorem domReg_keepsForm (d : Dom) (ofs : Bool) : (domReg d ofs).KeepsForm := by
  cases ofs <;> simp [domReg]

theorem ctxReg_keepsForm (v : Viewer) (k o : Nat) (s : State) : FoundKeepsForm (ctxReg v k o s) := by
  unfold ctxReg
  dsimp only
  split <;> cases s.ctxs.get? k <;> simp

theorem snsReg_keepsForm (v : Viewer) (o : Nat) (s : State) : FoundKeepsForm (snsReg v o s) := by
  unfold snsReg
  split <;> simp [tstatWord, domReg_keepsForm, ctxReg_keepsForm]

theorem fusReg_keepsForm (v : Viewer) (n o : Nat) (s : State) : FoundKeepsForm (fusReg v n o s) := by
  unfold fusReg
  dsimp only
  split <;> split <;> simp

theorem mapReg_keepsForm (v : Viewer) (k o : Nat) (s : State) : FoundKeepsForm (mapReg v k o s) := by
  unfold mapReg
  dsimp only
  split <;> simp

theorem fusBlock_keepsForm (v : Viewer) (o : Nat) (s : State) : FoundKeepsForm (fusBlock v o s) := by
  simp [fusBlock, fusReg_keepsForm, mapReg_keepsForm]

theorem rcReg_keepsForm (v : Viewer) (n o : Nat) (s : State) : FoundKeepsForm (rcReg v n o s) := by
  unfold rcReg
  dsimp only
  split <;> split <;> simp

theorem dispReg_keepsForm (v : Viewer) (d o : Nat) (s : State) : FoundKeepsForm (dispReg v d o s) := by
  unfold dispReg
  dsimp only
  split <;> simp

theorem rasReg_keepsForm (v : Viewer) (o : Nat) (s : State) : FoundKeepsForm (rasReg v o s) := by
  simp [rasReg, rcReg_keepsForm, dispReg_keepsForm]

theorem ceReg_keepsForm (v : Viewer) (e o : Nat) (s : State) : FoundKeepsForm (ceReg v e o s) := by
  have hclear : KeepsForm (fun s => s.setCe e { s.ce e with trip := false }) := fun _ hs => hs.setCe
  unfold ceReg
  dsimp only
  split <;> simp [hclear]

theorem sdReg_keepsForm (v : Viewer) (c o : Nat) (s : State) : FoundKeepsForm (sdReg v c o s) := by
  have hclear : KeepsForm (fun s =>
      if (s.sd c).bad then s else { s with sds := s.sds.set c { s.sd c with fault := false } }) :=
    fun _ hs => hs.ite hs.upd
  unfold sdReg
  dsimp only
  split <;> simp [hclear]

theorem encReg_keepsForm (v : Viewer) (c o : Nat) (s : State) : FoundKeepsForm (encReg v c o s) := by
  have hclear : KeepsForm (fun s =>
      if (s.enc c).bad then s else { s with encs := s.encs.set c { s.enc c with fault := false } }) :=
    fun _ hs => hs.ite hs.upd
  unfold encReg
  dsimp only
  split <;> simp [hclear]

theorem ctlReg_keepsForm (v : Viewer) (o : Nat) (s : State) : FoundKeepsForm (ctlReg v o s) := by
  simp [ctlReg, ceReg_keepsForm, sdReg_keepsForm, encReg_keepsForm]

theorem skkReg_keepsForm (v : Viewer) (o : Nat) (s : State) : FoundKeepsForm (skkReg v o s) := by
  unfold skkReg
  dsimp only
  split <;> simp [skkStatus]

theorem wdtReg_keepsForm (v : Viewer) (hi lo : Nat) (putHi putLo : Nat → Fws → Fws) :
    (wdtReg v hi lo putHi putLo).KeepsForm := by
  simp [wdtReg]

theorem dbgenReg_keepsForm (v : Viewer) (s : State) : (dbgenReg v s).KeepsForm := by
  simp [dbgenReg]

theorem fwsReg_keepsForm (v : Viewer) (o : Nat) (s : State) : FoundKeepsForm (fwsReg v o s) := by
  unfold fwsReg
  dsimp only
  split <;> simp [wdtReg_keepsForm, dbgenReg_keepsForm]

theorem gwyReg_keepsForm (v : Viewer) (o : Nat) (s : State) : FoundKeepsForm (gwyReg v o s) := by
  unfold gwyReg
  dsimp only
  split <;> simp

theorem slReg_keepsForm (p o : Nat) (s : State) : FoundKeepsForm (slReg p o s) := by
  unfold slReg
  dsimp only
  split <;> simp

theorem chnReg_keepsForm (o : Nat) (s : State) : FoundKeepsForm (chnReg o s) := by
  unfold chnReg
  dsimp only
  split <;> simp [slReg_keepsForm]

/-- A write of PWR_CFG puts into CAP, CAPMAX and DRAMRATE values of their widths (Table 16 of chapter 15). -/
theorem pwrCfgReg_keepsForm (s : State) : (pwrCfgReg s).KeepsForm := by
  refine ⟨?_, keepsForm_id, keepsForm_id⟩
  simp only [pwrCfgReg, plainReg, List.forall_mem_cons, rw_keepsForm, rwl_keepsForm, List.not_mem_nil, false_implies,
    implies_true, and_true]
  exact ⟨fun n hn => keepsForm_withCap (keepsForm_setCap hn), fun n hn => keepsForm_withCap (keepsForm_setCapmax hn),
    fun n hn => keepsForm_setDramRate hn, by simp⟩

theorem pwrReg_keepsForm (o : Nat) (s : State) : FoundKeepsForm (pwrReg o s) := by
  have hfsel (r : Reg) (f : Clk → Clk) (h : r.KeepsForm) : Reg.KeepsForm { r with onWrite := modClk f } :=
    ⟨h.1, h.2.1, keepsForm_modClk f⟩
  unfold pwrReg
  dsimp only
  split <;> simp [pwrCfgReg_keepsForm, hfsel]

theorem clReg_keepsForm (n o : Nat) (s : State) : FoundKeepsForm (clReg n o s) := by
  unfold clReg
  dsimp only
  split <;> simp

theorem regAt_keepsForm (v : Viewer) (a : Nat) (s : State) : FoundKeepsForm (regAt v a s) := by
  unfold regAt
  split
  · simp [clReg_keepsForm]
  · split <;> simp [idsReg_keepsForm, cmdReg_keepsForm, schReg_keepsForm, memReg_keepsForm, bwrReg_keepsForm,
      snsReg_keepsForm, fusBlock_keepsForm, rasReg_keepsForm, ctlReg_keepsForm, skkReg_keepsForm, fwsReg_keepsForm,
      gwyReg_keepsForm, chnReg_keepsForm, pwrReg_keepsForm]

/-! ### Reading and writing words (R67) -/

/-- What a write puts into a field is a value of its width (R12). -/
theorem RField.change_lt {f : RField} {mask v n : Nat} (h : f.change mask v = some n) : n < 2 ^ f.w := by
  have hmask : ∀ x, x &&& (2 ^ f.w - 1 - bits mask f.lo f.w) < 2 ^ f.w := fun x =>
    Nat.and_le_right.trans_lt (by have := Nat.two_pow_pos f.w; omega)
  have hbits : bits v f.lo f.w &&& bits mask f.lo f.w < 2 ^ f.w :=
    Nat.and_le_left.trans_lt (Nat.mod_lt _ (Nat.two_pow_pos _))
  unfold RField.change at h
  cases hacc : f.acc <;> simp only [hacc] at h
  case ro => cases h
  case w1c =>
    split at h <;> cases h
    exact Nat.two_pow_pos _
  case wo =>
    split at h <;> cases h
    exact hbits
  all_goals
    split at h <;> cases h
    exact Nat.or_lt_two_pow (hmask _) hbits

theorem Reg.KeepsForm.write {r : Reg} {mask v : Nat} {s : State} (hr : r.KeepsForm) (hs : s.Formed) :
    (r.write mask v s).Formed := by
  obtain ⟨hfields, -, hwrite⟩ := hr
  refine hwrite _ ?_
  generalize r.fields = fs at hfields
  induction fs generalizing s with
  | nil => exact hs
  | cons f fs ih =>
    rw [List.forall_mem_cons] at hfields
    refine ih ?_ hfields.2
    dsimp only
    split
    · exact hfields.1 _ (RField.change_lt ‹_›) s hs
    · exact hs

protected theorem State.Formed.readWords {v : Viewer} {l : List Nat} {s : State} (hs : s.Formed) :
    (readWords v l s).2.Formed := by
  induction l generalizing s with
  | nil => exact hs
  | cons a t ih =>
    unfold Machine.readWords
    split
    · exact ih hs
    · exact ih ((regAt_keepsForm v a s _ ‹_›).2.1 s hs)

protected theorem State.Formed.writeWord {full : Bool} {h : Hdr} {w : WordWrite} {s : State} (hs : s.Formed) :
    (writeWord full h s w).Formed := by
  unfold Machine.writeWord
  split
  · exact hs
  · have hw := (regAt_keepsForm _ _ s _ ‹_›).write (mask := w.mask) (v := w.val) hs
    exact hw.journalCmd.ite hw

theorem cRegRead_keepsForm : cRegRead.KeepsForm := .of_effect fun hs => hs.readWords

theorem cRegWrite_keepsForm : cRegWrite.KeepsForm := .of_effect fun hs => hs.foldl (fun hs => hs.writeWord)

theorem cRegModify_keepsForm : cRegModify.KeepsForm := .of_effect fun hs => hs.writeWord

/-! ## Packets on the wire -/

theorem PortSt.takePkts_expSeq (k waiting : Nat) (b : List Byte) (v : PortSt) :
    (takePkts k waiting b v).expSeq = v.expSeq := by
  induction k generalizing waiting b v with
  | zero => rfl
  | succ k ih =>
    unfold takePkts
    dsimp only
    split
    · rfl
    · split
      · rfl
      · split
        · rfl
        · split
          · rfl
          · exact ih ..

/-- Every command that a packet can name keeps the form. -/
theorem cmdTable_keepsForm : ∀ c ∈ cmdTable, c.KeepsForm := by
  simp only [cmdTable, List.cons_append, List.nil_append, List.forall_mem_cons, List.not_mem_nil, false_implies,
    implies_true, and_true]
  exact ⟨cSessionOpen_keepsForm, cSessionClose_keepsForm, cNop_keepsForm, cDevStart_keepsForm,
    cDevStop_keepsForm, cDevReset_keepsForm, cServiceEnter_keepsForm, cServiceExit_keepsForm,
    cRegRead_keepsForm, cRegWrite_keepsForm, cRegModify_keepsForm, cProgLoad_keepsForm,
    cProgFitcheck_keepsForm, cProgUnload_keepsForm, cProgReplace_keepsForm, cProgInfo_keepsForm,
    cWbankStatus_keepsForm, cWbankOpen_keepsForm, cWbankSubmit_keepsForm, cWbankAbandon_keepsForm,
    cTenantOpen_keepsForm, cTenantQuiesce_keepsForm, cTenantResume_keepsForm, cTenantReset_keepsForm,
    cTenantClose_keepsForm, cTenantStatus_keepsForm, cQueueCreate_keepsForm, cQueueDestroy_keepsForm,
    cQueueStatus_keepsForm, cQueueRings_keepsForm, cJobSubmit_keepsForm, cJobCancel_keepsForm,
    cJobStatus_keepsForm, cPartitionSet_keepsForm, cPartitionGet_keepsForm, cBatchJoin_keepsForm,
    cBatchLeave_keepsForm, cBatchStatus_keepsForm, cMemAssign_keepsForm, cMemRelease_keepsForm,
    cMemFlags_keepsForm, cMemQuery_keepsForm, cStreamOpen_keepsForm, cStreamClose_keepsForm,
    cStreamStart_keepsForm, cStreamStop_keepsForm, cStreamStatus_keepsForm, cTimeCfg_keepsForm,
    cTimeStatus_keepsForm, cTimeStep_keepsForm, cPulseArm_keepsForm, cPulseCancel_keepsForm,
    cCaptureCfg_keepsForm, cLaunchCfg_keepsForm, cFusMapCfg_keepsForm, cFusMapStatus_keepsForm,
    cFusOpen_keepsForm, cFusClose_keepsForm, cFusSensorSet_keepsForm, cFusCalibReset_keepsForm,
    cFusStatus_keepsForm, cFusSensorStatus_keepsForm, cRasOpen_keepsForm, cRasClose_keepsForm,
    cRasStatus_keepsForm, cDispCfg_keepsForm, cDispOff_keepsForm, cDispFlip_keepsForm,
    cDispStatus_keepsForm, cCtlAssign_keepsForm, cCtlBankWrite_keepsForm, cCtlBankRead_keepsForm,
    cCtlSwap_keepsForm, cCtlEnable_keepsForm, cCtlDisable_keepsForm, cCtlSetpt_keepsForm,
    cCtlStatus_keepsForm, cCtlIoCfg_keepsForm, cCtlTraceCfg_keepsForm, cCtlTraceDump_keepsForm,
    cSkkArm_keepsForm, cSkkProgCfg_keepsForm, cSkkProgStatus_keepsForm, cSkkSafeReq_keepsForm,
    cSkkMbox_keepsForm, cSkkGoldenNow_keepsForm, cSkkBistGet_keepsForm, cFwBegin_keepsForm,
    cFwChunk_keepsForm, cFwEnd_keepsForm, cFwInfo_keepsForm, cFwLogRead_keepsForm,
    cFwRestart_keepsForm, cFwSvnCommit_keepsForm, cFwSecChallenge_keepsForm, cFwSecProve_keepsForm,
    cFwSskSet_keepsForm, cFwAttest_keepsForm, cFwAttestCert_keepsForm, cFwJournalRead_keepsForm,
    cFwMcounter_keepsForm, cFwIntkeyBurn_keepsForm, cGwRouteSet_keepsForm, cGwRouteClear_keepsForm,
    cGwRouteGet_keepsForm, cGwRingCfg_keepsForm, cGwPortCfg_keepsForm, cGwIsoCfg_keepsForm,
    cChnCfg_keepsForm, cChnLeave_keepsForm, cChnStatus_keepsForm, cChnMembers_keepsForm,
    cChnEvict_keepsForm, cPwrStatus_keepsForm, cPwrGate_keepsForm, cPwrWearRead_keepsForm,
    cPwrRetire_keepsForm⟩

theorem cmdOf_keepsForm {op : Nat} {c : Cmd} (h : cmdOf op = some c) : c.KeepsForm :=
  cmdTable_keepsForm c (List.mem_of_find?_eq_some h)

protected theorem State.Formed.runPkt {p : Port} {k : InPkt} {s : State} (hs : s.Formed) : (runPkt p k s).Formed := by
  unfold Machine.runPkt
  dsimp only
  split
  · exact hs.replyOnly.modPort.ite hs.replyOnly
  · split
    · exact (cmdOf_keepsForm ‹_›).run hs
    · exact hs.runUnknown

namespace State.Formed

variable {s : State}

protected theorem runPkts {p : Port} {l : List InPkt} (hs : s.Formed) : (runPkts p l s).Formed := by
  induction l generalizing s with
  | nil => exact hs
  | cons k t ih => exact ih hs.modPort.runPkt

protected theorem execWritePacket {p : Port} {ph : CmdPhase} {data : List Byte} (hs : s.Formed) :
    NextFormed (execWritePacket p ph data s) :=
  have htaken : (modPort p (takePkts data.length 0 data) s).Formed := hs.modPort (PortSt.takePkts_expSeq _ _ _)
  hs.next.ite htaken.runPkts.modPort.next

protected theorem execReadReply {p : Port} {ph : CmdPhase} {n : Nat} (hs : s.Formed) :
    NextFormed (execReadReply p ph n s) :=
  (hs.modPort.ite hs).next

protected theorem execReadPortStatus {p : Port} {ph : CmdPhase} (hs : s.Formed) :
    NextFormed (execReadPortStatus p ph s) :=
  (hs.modPort.ite hs).next

protected theorem execPortReset {p : Port} {ph : CmdPhase} (hs : s.Formed) :
    NextFormed (execPortReset p ph s) :=
  (hs.modPort.ite hs).next

protected theorem execEvLost {p : Port} (hs : s.Formed) : NextFormed (execEvLost p s) :=
  (hs.ite hs.takeFree.modPort.offer).next

end State.Formed

/-! ## Every instruction -/

namespace State.Formed

variable {s : State}

/-- Every instruction keeps the form. -/
protected theorem exec {i : Instr} (hs : s.Formed) : NextFormed (exec i s) := by
  cases i with
  | writePacket => exact hs.execWritePacket
  | readReply => exact hs.execReadReply
  | readPortStatus => exact hs.execReadPortStatus
  | portReset => exact hs.execPortReset
  | sessionOpen => exact cSessionOpen_keepsForm.exec hs
  | sessionClose => exact cSessionClose_keepsForm.exec hs
  | nop => exact cNop_keepsForm.exec hs
  | devStart => exact cDevStart_keepsForm.exec hs
  | devStop => exact cDevStop_keepsForm.exec hs
  | devStopComplete => exact hs.execDevStopComplete
  | devReset => exact cDevReset_keepsForm.exec hs
  | devResetInit => exact hs.execDevResetInit
  | serviceEnter => exact cServiceEnter_keepsForm.exec hs
  | serviceExit => exact cServiceExit_keepsForm.exec hs
  | regRead => exact cRegRead_keepsForm.exec hs
  | regWrite => exact cRegWrite_keepsForm.exec hs
  | regModify => exact cRegModify_keepsForm.exec hs
  | evLost => exact hs.execEvLost
  | vinValid => exact hs.execVinValid
  | vinLoss => exact hs.execVinLoss
  | awaitFwEntry => exact hs.execAwaitFwEntry
  | selfTestEnd => exact hs.execSelfTestEnd
  | refInvalid => exact hs.execRefInvalid
  | refRestored => exact hs.execRefRestored
  | holdLimitExpiry => exact hs.execHoldLimitExpiry
  | tenantOpen => exact cTenantOpen_keepsForm.exec hs
  | tenantQuiesce => exact cTenantQuiesce_keepsForm.exec hs
  | tenantQuiesceDrained => exact hs.execTenantQuiesceDrained
  | tenantResume => exact cTenantResume_keepsForm.exec hs
  | tenantReset => exact cTenantReset_keepsForm.exec hs
  | tenantClose => exact cTenantClose_keepsForm.exec hs
  | tenantCloseDrained => exact hs.execTenantCloseDrained
  | tenantStatus => exact cTenantStatus_keepsForm.exec hs
  | queueCreate => exact cQueueCreate_keepsForm.exec hs
  | queueDestroy => exact cQueueDestroy_keepsForm.exec hs
  | queueStatus => exact cQueueStatus_keepsForm.exec hs
  | wbankStatus => exact cWbankStatus_keepsForm.exec hs
  | wbankOpen => exact cWbankOpen_keepsForm.exec hs
  | wbankSubmit => exact cWbankSubmit_keepsForm.exec hs
  | wbankAbandon => exact cWbankAbandon_keepsForm.exec hs
  | evalMsExpiry => exact hs.execEvalMsExpiry
  | writeback => exact hs.execWriteback
  | blockPairFetch => exact hs.execBlockPairFetch
  | progLoad => exact cProgLoad_keepsForm.exec hs
  | progLoadComplete => exact hs.execProgLoadComplete
  | progFitcheck => exact cProgFitcheck_keepsForm.exec hs
  | progUnload => exact cProgUnload_keepsForm.exec hs
  | progUnloadDrained => exact hs.execProgUnloadDrained
  | progReplace => exact cProgReplace_keepsForm.exec hs
  | progReplaceDrained => exact hs.execProgReplaceDrained
  | progReplaceSwitch => exact hs.execProgReplaceSwitch
  | progInfo => exact cProgInfo_keepsForm.exec hs
  | haloEntryWrite => exact hs.execHaloEntryWrite
  | haloEntryRead => exact hs.execHaloEntryRead
  | colanderCall => exact hs.execColanderCall
  | colanderCallDone => exact hs.execColanderCallDone
  | queueRings => exact cQueueRings_keepsForm.exec hs
  | sqTailWrite => exact hs.execSqTailWrite
  | cqHeadWrite => exact hs.execCqHeadWrite
  | sqEntryTake => exact hs.execSqEntryTake
  | jobSubmit => exact cJobSubmit_keepsForm.exec hs
  | jobCancel => exact cJobCancel_keepsForm.exec hs
  | jobStatus => exact cJobStatus_keepsForm.exec hs
  | partitionSet => exact cPartitionSet_keepsForm.exec hs
  | partitionGet => exact cPartitionGet_keepsForm.exec hs
  | batchJoin => exact cBatchJoin_keepsForm.exec hs
  | batchLeave => exact cBatchLeave_keepsForm.exec hs
  | batchStatus => exact cBatchStatus_keepsForm.exec hs
  | jobDispatch => exact hs.execJobDispatch
  | yieldPointStop => exact hs.execYieldPointStop
  | contextSaveDone => exact hs.execContextSaveDone
  | jobResume => exact hs.execJobResume
  | remoteReply => exact hs.execRemoteReply
  | remoteWriteDone => exact hs.execRemoteWriteDone
  | parkTimeout => exact hs.execParkTimeout
  | tlimitExpiry => exact hs.execTlimitExpiry
  | jobSlotsFinished => exact hs.execJobSlotsFinished
  | loWordRead => exact cRegRead_keepsForm.exec hs
  | schTnnActlClr => exact cRegWrite_keepsForm.exec hs
  | schEpochLoRead => exact cRegRead_keepsForm.exec hs
  | dramTransaction => exact hs.execDramTransaction
  | hostBar4Access => exact hs.execHostBar4Access
  | patrolScrub => exact hs.execPatrolScrub
  | memAssign => exact cMemAssign_keepsForm.exec hs
  | memRelease => exact cMemRelease_keepsForm.exec hs
  | memFlags => exact cMemFlags_keepsForm.exec hs
  | memQuery => exact cMemQuery_keepsForm.exec hs
  | memCommandDone => exact hs.execMemCommandDone
  | bwrPeriod => exact hs.execBwrPeriod
  | bwrTnnBloRead => exact cRegRead_keepsForm.exec hs
  | streamOpen => exact cStreamOpen_keepsForm.exec hs
  | streamClose => exact cStreamClose_keepsForm.exec hs
  | streamStart => exact cStreamStart_keepsForm.exec hs
  | streamStop => exact cStreamStop_keepsForm.exec hs
  | streamStatus => exact cStreamStatus_keepsForm.exec hs
  | unitStart => exact hs.execUnitStart
  | streamPacket => exact hs.execStreamPacket
  | unitEnd => exact hs.execUnitEnd
  | streamHoldExpiry => exact hs.execStreamHoldExpiry
  | streamDoneWrite => exact hs.execStreamDoneWrite
  | snsTnowLoRead => exact cRegRead_keepsForm.exec hs
  | timeCfg => exact cTimeCfg_keepsForm.exec hs
  | timeStatus => exact cTimeStatus_keepsForm.exec hs
  | timeStep => exact cTimeStep_keepsForm.exec hs
  | syncReceived => exact hs.execSyncReceived
  | syncTimeout => exact hs.execSyncTimeout
  | ethLinkLoss => exact hs.execEthLinkLoss
  | domainRevert => exact hs.execDomainRevert
  | pulseArm => exact cPulseArm_keepsForm.exec hs
  | pulseCancel => exact cPulseCancel_keepsForm.exec hs
  | pulseEdge => exact hs.execPulseEdge
  | captureCfg => exact cCaptureCfg_keepsForm.exec hs
  | tciEdge => exact hs.execTciEdge
  | launchCfg => exact cLaunchCfg_keepsForm.exec hs
  | ltailWrite => exact hs.execLtailWrite
  | launchEntry => exact hs.execLaunchEntry
  | fusMapCfg => exact cFusMapCfg_keepsForm.exec hs
  | fusMapStatus => exact cFusMapStatus_keepsForm.exec hs
  | fusOpen => exact cFusOpen_keepsForm.exec hs
  | fusClose => exact cFusClose_keepsForm.exec hs
  | fusCloseDone => exact hs.execFusCloseDone
  | fusSensorSet => exact cFusSensorSet_keepsForm.exec hs
  | fusStatus => exact cFusStatus_keepsForm.exec hs
  | fusSensorStatus => exact cFusSensorStatus_keepsForm.exec hs
  | fusCalibReset => exact cFusCalibReset_keepsForm.exec hs
  | fusionCall => exact hs.execFusionCall
  | fusionCallStart => exact hs.execFusionCallStart
  | fusionCallDone => exact hs.execFusionCallDone
  | rasOpen => exact cRasOpen_keepsForm.exec hs
  | rasClose => exact cRasClose_keepsForm.exec hs
  | rasCloseDone => exact hs.execRasCloseDone
  | rasStatus => exact cRasStatus_keepsForm.exec hs
  | renderPassIssue => exact hs.execRenderPassIssue
  | renderPassStart => exact hs.execRenderPassStart
  | renderPassDone => exact hs.execRenderPassDone
  | dispCfg => exact cDispCfg_keepsForm.exec hs
  | dispTrainingDone => exact hs.execDispTrainingDone
  | dispOff => exact cDispOff_keepsForm.exec hs
  | dispFlip => exact cDispFlip_keepsForm.exec hs
  | dispStatus => exact cDispStatus_keepsForm.exec hs
  | vblank => exact hs.execVblank
  | underrun => exact hs.execUnderrun
  | hpdChange => exact hs.execHpdChange
  | dispLinkLoss => exact hs.execDispLinkLoss
  | ctlAssign => exact cCtlAssign_keepsForm.exec hs
  | ctlBankWrite => exact cCtlBankWrite_keepsForm.exec hs
  | ctlBankRead => exact cCtlBankRead_keepsForm.exec hs
  | ctlSwap => exact cCtlSwap_keepsForm.exec hs
  | ctlEnable => exact cCtlEnable_keepsForm.exec hs
  | ctlDisable => exact cCtlDisable_keepsForm.exec hs
  | ctlSetpt => exact cCtlSetpt_keepsForm.exec hs
  | setpointPageWrite => exact hs.execSetpointPageWrite
  | ctlStatus => exact cCtlStatus_keepsForm.exec hs
  | ctlIoCfg => exact cCtlIoCfg_keepsForm.exec hs
  | ctlTraceCfg => exact cCtlTraceCfg_keepsForm.exec hs
  | ctlTraceDump => exact cCtlTraceDump_keepsForm.exec hs
  | ctlTraceDumpDone => exact hs.execCtlTraceDumpDone
  | engineTick => exact hs.execEngineTick
  | followingErrorTimeout => exact hs.execFollowingErrorTimeout
  | traceDone => exact hs.execTraceDone
  | pwmPeriod => exact hs.execPwmPeriod
  | sigmaDeltaOutput => exact hs.execSigmaDeltaOutput
  | sdClockLoss => exact hs.execSdClockLoss
  | encIllegalTransition => exact hs.execEncIllegalTransition
  | encIndex => exact hs.execEncIndex
  | sentMessage => exact hs.execSentMessage
  | sentTimeout => exact hs.execSentTimeout
  | channelFaultClear => exact cRegModify_keepsForm.exec hs
  | skkArm => exact cSkkArm_keepsForm.exec hs
  | skkProgCfg => exact cSkkProgCfg_keepsForm.exec hs
  | skkProgStatus => exact cSkkProgStatus_keepsForm.exec hs
  | skkSafeReq => exact cSkkSafeReq_keepsForm.exec hs
  | sweepDone => exact hs.execSweepDone
  | skkMbox => exact cSkkMbox_keepsForm.exec hs
  | skkGoldenNow => exact cSkkGoldenNow_keepsForm.exec hs
  | skkBistGet => exact cSkkBistGet_keepsForm.exec hs
  | skkLtimeLoRead => exact cRegRead_keepsForm.exec hs
  | skKick => exact hs.execSkKick
  | skNext => exact hs.execSkNext
  | skVerdict => exact hs.execSkVerdict
  | skRead => exact hs.execSkRead
  | skPath => exact hs.execSkPath
  | skDispreg => exact hs.execSkDispreg
  | skDispcrc => exact hs.execSkDispcrc
  | skMbox => exact hs.execSkMbox
  | skTime => exact hs.execSkTime
  | skSafe => exact hs.execSkSafe
  | verdictTimeout => exact hs.execVerdictTimeout
  | windowClose => exact hs.execWindowClose
  | goldenEligible => exact hs.execGoldenEligible
  | coverageDue => exact hs.execCoverageDue
  | placementDeadline => exact hs.execPlacementDeadline
  | coreDissent => exact hs.execCoreDissent
  | skinkSramError => exact hs.execSkinkSramError
  | skwdtExpiry => exact hs.execSkwdtExpiry
  | pinFeedbackMismatch => exact hs.execPinFeedbackMismatch
  | debuggerAttach => exact hs.execDebuggerAttach
  | debugAction => exact hs.execDebugAction
  | heartbeat => exact hs.execHeartbeat
  | fwBegin => exact cFwBegin_keepsForm.exec hs
  | fwChunk => exact cFwChunk_keepsForm.exec hs
  | fwEnd => exact cFwEnd_keepsForm.exec hs
  | fwVerifyDone => exact hs.execFwVerifyDone
  | fwInfo => exact cFwInfo_keepsForm.exec hs
  | fwLogRead => exact cFwLogRead_keepsForm.exec hs
  | fwRestart => exact cFwRestart_keepsForm.exec hs
  | fwWatchdogExpiry => exact hs.execFwWatchdogExpiry
  | fwException => exact hs.execFwException
  | fwRestartDone => exact hs.execFwRestartDone
  | fwSvnCommit => exact cFwSvnCommit_keepsForm.exec hs
  | fwSecChallenge => exact cFwSecChallenge_keepsForm.exec hs
  | fwSecProve => exact cFwSecProve_keepsForm.exec hs
  | nonceExpiry => exact hs.execNonceExpiry
  | proveLockoutEnd => exact hs.execProveLockoutEnd
  | fwSskSet => exact cFwSskSet_keepsForm.exec hs
  | fwAttest => exact cFwAttest_keepsForm.exec hs
  | fwAttestCert => exact cFwAttestCert_keepsForm.exec hs
  | fwJournalRead => exact cFwJournalRead_keepsForm.exec hs
  | fwMcounter => exact cFwMcounter_keepsForm.exec hs
  | fwIntkeyBurn => exact cFwIntkeyBurn_keepsForm.exec hs
  | journalDrain => exact hs.execJournalDrain
  | fwsDbgenWrite => exact cRegWrite_keepsForm.exec hs
  | gatewayFrame => exact hs.execGatewayFrame
  | postedWrite => exact hs.execPostedWrite
  | errorReport => exact hs.execErrorReport
  | canTxTimeout => exact hs.execCanTxTimeout
  | txtailWrite => exact hs.execTxtailWrite
  | rxdoneWrite => exact hs.execRxdoneWrite
  | addressClaim => exact hs.execAddressClaim
  | c3Timeout => exact hs.execC3Timeout
  | chainPacketForward => exact hs.execChainPacketForward
  | flitReceived => exact hs.execFlitReceived
  | linkUp => exact hs.execLinkUp
  | linkTrainingTimeout => exact hs.execLinkTrainingTimeout
  | linkRetry => exact hs.execLinkRetry
  | linkdlyMeasure => exact hs.execLinkdlyMeasure
  | linkDown => exact hs.execLinkDown
  | laneSpare => exact hs.execLaneSpare
  | joinReq => exact hs.execJoinReq
  | portDownReport => exact hs.execPortDownReport
  | epochAdvance => exact hs.execEpochAdvance
  | advance => exact hs.execAdvance
  | masterLost => exact hs.execMasterLost
  | remoteTimeout => exact hs.execRemoteTimeout
  | prepareTimeout => exact hs.execPrepareTimeout
  | gwRouteSet => exact cGwRouteSet_keepsForm.exec hs
  | gwRouteClear => exact cGwRouteClear_keepsForm.exec hs
  | gwRouteGet => exact cGwRouteGet_keepsForm.exec hs
  | gwRingCfg => exact cGwRingCfg_keepsForm.exec hs
  | gwPortCfg => exact cGwPortCfg_keepsForm.exec hs
  | gwIsoCfg => exact cGwIsoCfg_keepsForm.exec hs
  | chnCfg => exact cChnCfg_keepsForm.exec hs
  | chnLeave => exact cChnLeave_keepsForm.exec hs
  | chnStatus => exact cChnStatus_keepsForm.exec hs
  | chnMembers => exact cChnMembers_keepsForm.exec hs
  | chnEvict => exact cChnEvict_keepsForm.exec hs
  | vinDroop => exact hs.execVinDroop
  | railDroop => exact hs.execRailDroop
  | droopRelease => exact hs.execDroopRelease
  | pmcInterval => exact hs.execPmcInterval
  | fastLimit => exact hs.execFastLimit
  | phaseFault => exact hs.execPhaseFault
  | thermalSample => exact hs.execThermalSample
  | clusterTrip => exact hs.execClusterTrip
  | wearMeasure => exact hs.execWearMeasure
  | sramEccError => exact hs.execSramEccError
  | pwrStatus => exact cPwrStatus_keepsForm.exec hs
  | pwrGate => exact cPwrGate_keepsForm.exec hs
  | pwrGateDone => exact hs.execPwrGateDone
  | pwrWearRead => exact cPwrWearRead_keepsForm.exec hs
  | pwrRetire => exact cPwrRetire_keepsForm.exec hs
  | pwrCfgCap => exact cRegModify_keepsForm.exec hs
  | pwrCfgCapmax => exact cRegModify_keepsForm.exec hs
  | pwrCfgDramrate => exact cRegModify_keepsForm.exec hs
  | pwrFselWrite => exact cRegWrite_keepsForm.exec hs
  | fmeasWindow => exact hs.execFmeasWindow
  | pwrPowerRead => exact cRegRead_keepsForm.exec hs
  | clrcntWrite => exact cRegModify_keepsForm.exec hs
  | halostatClrwait => exact cRegModify_keepsForm.exec hs
  | quadratureEdge => exact hs.execQuadratureEdge
  | remoteRequest => exact hs.execRemoteRequest
  | chainJobPrepare => exact hs.execChainJobPrepare
  | chainJobCommit => exact hs.execChainJobCommit
  | signalDetected => exact hs.execSignalDetected
  | ethLinkUp => exact hs.execEthLinkUp
  | peerDelayMessage => exact hs.execPeerDelayMessage
  | inputMonitorSample => exact hs.execInputMonitorSample

end State.Formed

/-! ## A tick with no command waiting -/

namespace State.Formed

variable {s : State}

protected theorem tick (hs : s.Formed) : (tick s).Formed := hs.frame

protected theorem countHold (hs : s.Formed) : (countHold s).Formed := hs.upd.ite hs

protected theorem idle (hs : s.Formed) : (idle s).Formed :=
  hs.tick.countHold.servo.sendFrames.sendChain.ite hs

end State.Formed

/-- A step keeps the form, with a command at the front of the queue and with none. -/
protected theorem State.Formed.step {s : State} (hs : s.Formed) : NextFormed (step s) := by
  unfold Machine.step
  split
  · exact hs.idle.next
  · exact hs.upd.exec

end Sys2Proof.Machine
end

section
namespace Sys2Proof.Machine

/-- Settles O59: the form of memory (log 5), of PWR_CFG (Table 16 of chapter 15, R392) and of the expected sequence
numbers (R51) is an invariant of `step`, by one lemma for each function of the model. -/
theorem everyStepKeepsForm : Obligations.EveryStepKeepsForm :=
  fun _ s' hs hstep => State.Formed.step hs s' hstep

end Sys2Proof.Machine
end

section
/-! SUPPORT. What the rows of the reference monitor do (R30 to R35), and the note of a change of NOREF or HOLDOVER. -/

namespace Sys2Proof.Machine

section

variable {s : State} {missing range : Bool}

/-! ## The reference becomes invalid -/

theorem execRefInvalid_of_off_or_init (hm : (missing || range) = true) (hst : s.dev.st = .off ∨ s.dev.st = .init) :
    execRefInvalid missing range s = .next { s with clk := { s.clk with refOk := false } } := by
  rcases hst with hst | hst <;> simp [execRefInvalid, hm, hst]

theorem execRefInvalid_of_hold (hm : (missing || range) = true) (hoff : s.dev.st ≠ .off) (hinit : s.dev.st ≠ .init)
    (hh : s.clk.hold = true) : execRefInvalid missing range s = .next { s with clk := { s.clk with
      refOk := false, refLost := true, missing := s.clk.missing || missing, range := s.clk.range || range } } := by
  simp [execRefInvalid, hm, hoff, hinit, hh]

theorem execRefInvalid_of_no_hold (hm : (missing || range) = true) (hoff : s.dev.st ≠ .off) (hinit : s.dev.st ≠ .init)
    (hh : s.clk.hold = false) : execRefInvalid missing range s = .next (evRefclk 1 (noteDeg { s with clk := { s.clk with
      refOk := false, refLost := true, hold := true, holdT := 0, holdRunT := 0,
      missing := missing, range := range } })) := by
  simp [execRefInvalid, hm, hoff, hinit, hh]

/-! ## It returns, or the hold lasts too long -/

theorem execRefRestored_of_hold (hh : s.clk.hold = true) : execRefRestored s = .next
    (let n := evRefclk 2 (noteDeg { s with clk := { s.clk with refOk := true, hold := false } })
     { n with clk := { n.clk with holdT := 0, holdRunT := 0 } }) := by
  simp [execRefRestored, hh]

theorem Clk.holdOver_iff (c : Clk) : c.holdOver = true ↔ c.hold = true ∧ c.holdMs * 125000 < c.holdRunT := by
  simp [Clk.holdOver]

theorem execHoldLimitExpiry_of_holdOver (ho : s.clk.holdOver = true) (hr : s.running = true) :
    execHoldLimitExpiry s = .next (latchSafe 0x0A 0 0 (evRefclk 3 s)) := by
  simp [execHoldLimitExpiry, ho, hr]

/-! ## EV_REFCLK and the flags of stamps -/

/-- The data of EV_REFCLK (R34): the event, the flags of what was detected, the hold's length in µs, device time. -/
def refclkData (ev : Nat) (s : State) : List Byte :=
  leBytes 1 ev ++ leBytes 1 (b2n s.clk.missing + 2 * b2n s.clk.range)
    ++ leBytes 2 (min (s.clk.holdT * 8 / 1000) 0xFFFF) ++ leBytes 4 s.time.ns

theorem evRefclk_of_pmc_up (ev : Nat) (hp : s.fwDown fwPmc = false) :
    evRefclk ev s = offerBoth evRefclkOp (refclkData ev s) s := by
  simp [evRefclk, refclkData, hp]

theorem evRefclk_of_pmc_down (ev : Nat) (hp : s.fwDown fwPmc = true) :
    evRefclk ev s = { s with clk := { s.clk with refEvents := s.clk.refEvents ++ [refclkData ev s] } } := by
  simp [evRefclk, refclkData, hp]

theorem noteDeg_cases (s : State) :
    noteDeg s = s ∨ noteDeg s = { s with time := { s.time with unsure := (s.time.ns, s.degNow) :: s.time.unsure } } :=
  ite_eq_or_eq _ _ _

theorem noteDeg_frame (s : State) : { noteDeg s with time := s.time } = s := by
  rcases noteDeg_cases s with h | h <;> rw [h]

end

/-- Settles O13, by one equation for each row of the reference monitor in each state it tells apart. A second loss within
a hold without event 1, and the flags of events 2 and 3, are the model's reading (log 32). -/
theorem referenceEvents : Obligations.ReferenceEvents := by
  intro s
  refine ⟨fun missing range hm => ⟨?unpowered, ?within, ?begins⟩, ?returned, ?limit, fun ev => ⟨?up, ?down⟩, ?frame, ?noted⟩
  case unpowered => exact execRefInvalid_of_off_or_init hm
  case within => exact execRefInvalid_of_hold hm
  case begins => exact execRefInvalid_of_no_hold hm
  case returned => exact execRefRestored_of_hold
  case limit => exact fun hh hr hc => execHoldLimitExpiry_of_holdOver (s.clk.holdOver_iff.mpr ⟨hh, hc⟩) hr
  case up => exact evRefclk_of_pmc_up ev
  case down => exact evRefclk_of_pmc_down ev
  case frame => exact noteDeg_frame s
  case noted => exact (noteDeg_cases s).imp_right (congrArg State.time)

end Sys2Proof.Machine
end

section
/-! SUPPORT. What the rows about power, droops, temperature and frequency measurement do in a powered device (R36,
R395 to R400, R415). -/

namespace Sys2Proof.Machine

/-! ## The throttle factor (R395) -/

section

variable {cap p share f : Nat}

theorem nextF_of_over_cap (h : cap < p) : nextF cap p share f = max 16 (f - min (f - holdF cap p share f) 4) :=
  if_pos h

theorem nextF_of_within_cap (h : p ≤ cap) : nextF cap p share f = min 64 (f + 1) ∨ nextF cap p share f = f := by
  rw [nextF, if_neg (by omega)]
  exact ite_eq_or_eq _ _ _

/-- Above the cap the factor falls by at most 4/64, within it the factor rises by at most 1/64. -/
theorem nextF_bounds (hlo : 16 ≤ f) (hhi : f ≤ 64) :
    16 ≤ nextF cap p share f ∧ nextF cap p share f ≤ 64 ∧ f ≤ nextF cap p share f + 4 ∧ nextF cap p share f ≤ f + 1
    ∧ (cap < p → nextF cap p share f ≤ f) := by
  rcases lt_or_ge cap p with h | h
  · rw [nextF_of_over_cap h]
    omega
  · rcases nextF_of_within_cap (share := share) (f := f) h with e | e <;> rw [e] <;> omega

end

section

variable {s : State}

/-- A change of the power state is what it makes of the present one. -/
theorem modClock_congr {f g : Pow → Pow} (h : f s.pow = g s.pow) : modClock f s = modClock g s := by
  simp [modClock, modPow, h]

/-! ## Power (R395, R396) -/

theorem execPmcInterval_of_pmcRuns (share : Nat) (h : s.pmcRuns = true) :
    execPmcInterval share s = .next (modClock (fun w => { w with
      f := nextF (10 * capW s) (intervalPower s) (min share (intervalPower s)) w.f, fastOn := false }) s) := by
  simp [execPmcInterval, h]

theorem execFastLimit_of_above {v i : Nat} (hp : s.powered = true) (h : 125000 * capW s < v * i) :
    execFastLimit v i s = .next (modClock (fun w => { w with fastlim := true, fastOn := true }) s) := by
  simp [execFastLimit, hp, h]

theorem execFastLimit_of_within {v i : Nat} (h : v * i ≤ 125000 * capW s) : execFastLimit v i s = .next s := by
  simp [execFastLimit, h.not_gt]

/-! ## Droops (R397, R398) -/

theorem execVinDroop_of_no_droop {mv : Nat} (h : 100 * s.pow.droopV ≤ mv) : execVinDroop mv s = .next s := by
  simp [execVinDroop, h]

theorem execVinDroop_of_first {mv : Nat} (hp : s.powered = true) (hd : s.pow.droop = none) (h : mv < 100 * s.pow.droopV) :
    execVinDroop mv s = .next (modClock (fun w => { w with
      droop := some s.time.ns, droopPct := if mv + 500 < 100 * s.pow.droopV then 50 else 75,
      vdroops := min 0xFFFF (s.pow.vdroops + 1) }) s) := by
  rw [execVinDroop, if_neg (by simp [hp, h])]
  exact congrArg _ (modClock_congr (by simp [hd, satAdd]))

theorem execRailDroop_of_no_droop {k i m : Nat} (h : 970 < m) : execRailDroop k i m s = .next s := by
  simp [execRailDroop, h]

theorem deeper_none {pct : Nat} (h : pct ≤ 100) : deeper none pct = pct := min_eq_right h

theorem execRailDroop_of_first {k i m : Nat} (hp : s.powered = true) (hi : islandHere s k i = true)
    (hr : s.pow.rail.get? (k * 256 + i) = none) (h : m ≤ 970) :
    execRailDroop k i m s = .next (modClock (fun w => { w with
      rail := w.rail.set (k * 256 + i) (if m ≤ 950 then 50 else 75), rdroops := min 0xFFFF (s.pow.rdroops + 1) }) s) := by
  have hpct : (if m ≤ 950 then 50 else 75) ≤ 100 := by split <;> decide
  rw [execRailDroop, if_neg (by simp [hp, hi, h])]
  exact congrArg _ (modClock_congr (by simp [hr, deeper_none hpct, satAdd]))

theorem execDroopRelease_vin {t : Nat} (hd : s.pow.droop = some t) :
    execDroopRelease none s = .next
      (let n := modClock (fun w => { w with droop := none, droopPct := 100 }) s
       let us := (s.time.ns - t) / 1000
       if s.time.ns - t ≤ 1000000 then n else evPower 2 none (if us < 65536 then some us else none) n) := by
  simp [execDroopRelease, hd]

/-! ## A tripped cluster (R400) -/

/-- What becomes of a program when a cluster trips: it is lost when it has slots or granules there. -/
def loseIn (c : Nat) (s : State) (p : Nat × Prog) : State :=
  match (p.2.binds ++ p.2.old.flatMap (·.binds)).find? (bindIn c) with
  | some b => loseProg p.1 b.lc c 0xFF s
  | none => s

/-- A cluster's trip after its jobs have ended, with `lose` for each program: loads that have granules there are
dropped, the cluster is off and tripped, the trip is counted and reported. -/
def tripAfter (c x : Nat) (lose : State → Nat × Prog → State) (s : State) : State :=
  let b := s.progs.cells.foldl lose s
  let d := b.loads.foldl (fun s l => if l.binds.any (bindIn c) then dropLoad PLACEMENT_LOST [] l s else s) b
  let e := d.setCl c { Cluster.fresh with mode := .off, tripped := true }
  evPower 4 (some c) (some x) { e with pow := { e.pow with trips := min 0xFFFF (e.pow.trips + 1) } }

/-- Any function that loses the programs with slots or granules in the cluster, and no others, is `loseIn`. -/
theorem tripAfter_eq {c x : Nat} {lose : State → Nat × Prog → State}
    (hsome : ∀ {s p b}, (p.2.binds ++ p.2.old.flatMap (·.binds)).find? (bindIn c) = some b →
      lose s p = loseProg p.1 b.lc c 0xFF s)
    (hnone : ∀ {s p}, (p.2.binds ++ p.2.old.flatMap (·.binds)).find? (bindIn c) = none → lose s p = s) (s : State) :
    tripAfter c x lose s = tripAfter c x (loseIn c) s := by
  have h : lose = loseIn c := by
    funext s p
    cases hb : (p.2.binds ++ p.2.old.flatMap (·.binds)).find? (bindIn c) with
    | some b => simp only [hsome hb, loseIn, hb]
    | none => simp only [hnone hb, loseIn, hb]
  rw [h]

theorem execClusterTrip_of_trip {c x : Nat} (hp : s.powered = true) (hc : c < 12) (hx : 125 ≤ x)
    (ht : (s.cl c).tripped = false) :
    execClusterTrip c x s = .next (tripAfter c x (loseIn c) (endJobs (jobIn c) FAULT 0x0C02 (clusterLost c s))) := by
  rw [execClusterTrip, if_neg (by simp [hp, hc, hx, ht])]
  exact congrArg Host.Outcome.next (tripAfter_eq (fun hb => by simp only [hb]) (fun hb => by simp only [hb]) _)

/-! ## Measurement (R36, R415) -/

theorem execFmeasWindow_of_here (fr : Nat) (hp : s.powered = true)
    (hi : islandHere s s.clk.fselKind s.clk.fselInst = true) :
    execFmeasWindow fr s = .next (newWindow { s with clk := if s.clk.fmArmed then { s.clk with
        fmValid := true, fmFreq := min 65535 (max (meanBounds s.clk).1 (min (meanBounds s.clk).2 fr)),
        fmMinPct := s.clk.fwPct }
      else { s.clk with fmArmed := true } }) := by
  cases ha : s.clk.fmArmed <;> simp [execFmeasWindow, hp, hi, ha]

theorem execFmeasWindow_of_absent (fr : Nat) (hp : s.powered = true)
    (hi : islandHere s s.clk.fselKind s.clk.fselInst = false) :
    execFmeasWindow fr s = .next { s with
      clk := { s.clk with fmValid := false, fmArmed := true, fmFreq := 0, fmMinPct := 0 } } := by
  simp [execFmeasWindow, hp, hi]

end

/-- Settles O55, by the bounds of the throttle factor and one equation for each row in each case it tells apart; a
sample of temperature or input, and a trip, are the model's own steps once the device is known to be powered. The PMC's
estimates as operands and the mean of ten samples are the model's reading (log 29). -/
theorem throttlingDroopsAndTemperature : Obligations.ThrottlingDroopsAndTemperature := by
  refine ⟨fun _ _ _ _ => nextF_bounds, fun _ _ => rfl, fun _ => rfl, fun s hp => ⟨?interval, ?fast, ?slow,
    fun mv hd => ⟨?vinHigh, ?vinLow⟩, fun k i m hi hr => ⟨?railHigh, ?railLow⟩, ?railBack, ?vinBack, ?sample, ?trip, ?input,
    ?window, ?noIsland⟩⟩
  case interval => exact execPmcInterval_of_pmcRuns
  case fast => exact fun _ _ => execFastLimit_of_above hp
  case slow => exact fun _ _ => execFastLimit_of_within
  case vinHigh => exact execVinDroop_of_no_droop
  case vinLow => exact execVinDroop_of_first hp hd
  case railHigh => exact execRailDroop_of_no_droop
  case railLow => exact execRailDroop_of_first hp hi hr
  case railBack => exact fun _ => rfl
  case vinBack => exact fun _ => execDroopRelease_vin
  case sample => exact fun _ => if_neg (by simp [hp])
  case trip => exact fun _ _ hc hx ht => (execClusterTrip_of_trip hp hc hx ht).trans (congrArg Host.Outcome.next
    (tripAfter_eq (fun hb => by simp only [hb]) (fun hb => by simp only [hb]) _).symm)
  case input => exact fun _ _ => congrArg _ (if_neg (by simp [hp]))
  case window => exact fun hi fr => execFmeasWindow_of_here fr hp hi
  case noIsland => exact fun hi fr => execFmeasWindow_of_absent fr hp hi

end Sys2Proof.Machine
end

section
/-! SUPPORT. The step of a waiting command, and what reset leaves (R45, R62, R64, R410). -/

namespace Sys2Proof.Machine

/-- Settles O1, by the definition of a step (log 1). -/
theorem stepRunsFrontCommand : Obligations.StepRunsFrontCommand :=
  fun _ _ _ => rfl

theorem State.ten_reset (t : Nat) : State.reset.ten t = Tenant.fresh := rfl

theorem State.queue?_reset (t q : Nat) : State.reset.queue? t q = none := rfl

/-- Settles O58: reset is a fresh start, and a fresh start has the form (log 5). -/
theorem resetKeepsForm : Obligations.ResetKeepsForm := State.Formed.fresh

/-- Settles O3: each field at reset is the value that a fresh start gives it, and no table lists an entry. -/
theorem resetHoldsSpecValues : Obligations.ResetHoldsSpecValues := by
  refine ⟨rfl, rfl, rfl, rfl, rfl, rfl, rfl, rfl, rfl, rfl, rfl, rfl, rfl, rfl, rfl, rfl, ?tenants, ?queues, rfl, rfl,
    rfl, rfl, rfl, rfl, rfl, rfl, rfl, rfl, rfl, rfl, rfl, rfl, rfl⟩
  case tenants => exact fun t => congrArg Tenant.st (State.ten_reset t)
  case queues => exact State.queue?_reset

end Sys2Proof.Machine
end

section
/-! SUPPORT. The transactions of a host port (R42 to R45). -/

namespace Sys2Proof.Machine

section

variable {s : State} {p : Port} {ph : CmdPhase}

theorem phaseOk_iff (code : Nat) (ph : CmdPhase) : phaseOk code ph = true ↔ ph.code.toNat = code ∧ ph.inv = ~~~ph.code := by
  simp [phaseOk]

/-! ## A wrong command phase -/

theorem execWritePacket_of_phase {data : List Byte} (h : phaseOk 0x12 ph = false) :
    execWritePacket p ph data s = .next s := by
  simp [execWritePacket, h]

theorem execReadReply_of_phase {n : Nat} (h : phaseOk 0x13 ph = false) : execReadReply p ph n s = .next s := by
  simp [execReadReply, h]

theorem execReadPortStatus_of_phase (h : phaseOk 0x05 ph = false) : execReadPortStatus p ph s = .next s := by
  simp [execReadPortStatus, h]

theorem execPortReset_of_phase (h : phaseOk 0xF0 ph = false) : execPortReset p ph s = .next s := by
  simp [execPortReset, h]

/-! ## The right one, with the ports up -/

theorem execReadReply_of_up {n : Nat} (up : s.portsUp = true) (h : phaseOk 0x13 ph = true) :
    execReadReply p ph n s = .next (s.setPort p ((s.port p).readReply n)) := by
  simp [execReadReply, up, h, modPort]

theorem execReadPortStatus_of_up (up : s.portsUp = true) (h : phaseOk 0x05 ph = true) :
    execReadPortStatus p ph s = .next (s.setPort p { s.port p with dq := portStatus (s.port p) }) := by
  simp [execReadPortStatus, up, h, modPort]

theorem execPortReset_of_up (up : s.portsUp = true) (h : phaseOk 0xF0 ph = true) :
    execPortReset p ph s = .next (s.setPort p (s.port p).reset) := by
  simp [execPortReset, up, h, modPort]

end

/-- Settles O7, by one equation for each transaction with its own command phase and one for a wrong phase. -/
theorem portStatusAndPortReset : Obligations.PortStatusAndPortReset :=
  ⟨fun _ _ _ up => ⟨execReadPortStatus_of_up up, execPortReset_of_up up⟩,
    fun _ ph _ => ⟨fun code => phaseOk_iff code ph, fun _ => execWritePacket_of_phase, fun _ => execReadReply_of_phase,
      execReadPortStatus_of_phase, execPortReset_of_phase⟩⟩

end Sys2Proof.Machine
end

section
/-! SUPPORT. What the rows of the command tables have in common: what a refusal leaves behind, the statuses of step 10
of R50, and which groups HP1 takes (R41). -/

namespace Sys2Proof.Machine

/-- Of all commands only FW_SEC_PROVE does something when it is refused (R352). -/
theorem onRefuse_of_mem_cmdTable : ∀ c ∈ cmdTable, c.opcode ≠ 0x0A21 → c.onRefuse = fun _ _ _ s => s := by
  simp only [cmdTable, List.cons_append, List.nil_append, List.forall_mem_cons]
  iterate 95 refine ⟨fun _ => rfl, ?_⟩
  refine ⟨fun h => absurd rfl h, ?_⟩
  iterate 21 refine ⟨fun _ => rfl, ?_⟩
  exact List.forall_mem_nil _

/-- Step 10 of R50 finds nothing or refuses with NO_RESOURCE, in each of the six commands that have such a check. -/
theorem resource_of_mem_cmdTable :
    ∀ c ∈ cmdTable, ∀ h ps s, c.resource h ps s = 0 ∨ c.resource h ps s = NO_RESOURCE := by
  simp only [cmdTable, List.cons_append, List.nil_append, List.forall_mem_cons]
  iterate 26 refine ⟨fun _ _ _ => .inl rfl, ?_⟩
  refine ⟨fun _ _ _ => (ite_eq_or_eq _ _ _).symm, ?queueCreate⟩
  iterate 3 refine ⟨fun _ _ _ => .inl rfl, ?_⟩
  refine ⟨fun _ _ _ => ite_eq_or_eq _ _ _, ?jobSubmit⟩
  iterate 2 refine ⟨fun _ _ _ => .inl rfl, ?_⟩
  refine ⟨fun _ _ _ => (ite_eq_or_eq _ _ _).symm, ?partitionSet⟩
  iterate 22 refine ⟨fun _ _ _ => .inl rfl, ?_⟩
  refine ⟨fun _ _ _ => (ite_eq_or_eq _ _ _).symm, ?fusOpen⟩
  iterate 40 refine ⟨fun _ _ _ => .inl rfl, ?_⟩
  refine ⟨fun _ _ _ => (ite_eq_or_eq _ _ _).symm, ?fwAttest⟩
  iterate 2 refine ⟨fun _ _ _ => .inl rfl, ?_⟩
  refine ⟨fun _ _ _ => (ite_eq_or_eq _ _ _).symm, ?fwMcounter⟩
  iterate 16 refine ⟨fun _ _ _ => .inl rfl, ?_⟩
  exact List.forall_mem_nil _

/-- No two commands share an opcode. -/
theorem cmdOf_of_mem_cmdTable : ∀ c ∈ cmdTable, cmdOf c.opcode = some c := by
  rw [cmdTable]
  simp only [List.cons_append, List.nil_append, List.forall_mem_cons]
  iterate 117 refine ⟨rfl, ?_⟩
  exact List.forall_mem_nil _

/-- A command of the tables is named by its opcode. -/
theorem eq_of_cmdOf {c d : Cmd} (hc : c ∈ cmdTable) (hd : cmdOf c.opcode = some d) : c = d :=
  Option.some.inj ((cmdOf_of_mem_cmdTable c hc).symm.trans hd)

/-- HP1 takes commands of groups 0x01xx and 0x09xx, and FW_SEC_PROVE. -/
theorem group_of_hp1 {c : Cmd} (hc : c ∈ cmdTable) (h1 : c.hp1 = true) :
    c.opcode / 256 = 0x01 ∨ c.opcode / 256 = 0x09 ∨ c.opcode = 0x0A21 := by
  have key : cmdTable.all (fun c => !c.hp1 || c.opcode / 256 == 0x01 || c.opcode / 256 == 0x09 || c.opcode == 0x0A21)
      = true := by decide
  simpa [h1, or_assoc] using List.all_eq_true.mp key c hc

end Sys2Proof.Machine
end

section
/-! SUPPORT. The sequence check (R51) and refusals (R50, R55) of a packet of an open session. -/

namespace Sys2Proof.Machine

section

variable {c : Cmd} {h : Hdr} {ps : List Byte} {s : State}

/-! ## Replies -/

theorem replyUse_eq (op : Nat) (h : Hdr) (st : Nat) (data : List Byte) (s : State) :
    replyUse op h st data s = s.setPort h.port { s.port h.port with
      out := (s.port h.port).out ++ [mkReply op h st data], kept := some (h.tag.toNat, mkReply op h st data),
      expSeq := (h.seq.toNat + 1) % 65536 } := by
  cases h with | mk p _ _ _ _ _ => cases p <;> rfl

/-! ## The sequence check (R51) -/

theorem seqCheck_of_expected {v : PortSt} (hseq : h.seq.toNat = v.expSeq) : seqCheck h v = .pass := by
  simp [seqCheck, hseq]

theorem seqCheck_of_retransmission {v : PortSt} {o : OutPkt} (hne : h.seq.toNat ≠ v.expSeq)
    (hseq : (h.seq.toNat + 1) % 65536 = v.expSeq) (hkept : v.kept = some (h.tag.toNat, o)) : seqCheck h v = .again o := by
  simp [seqCheck, hne, hseq, hkept]

theorem seqCheck_of_unexpected {v : PortSt} (hne : h.seq.toNat ≠ v.expSeq)
    (hkept : ∀ o, v.kept = some (h.tag.toNat, o) → (h.seq.toNat + 1) % 65536 ≠ v.expSeq) : seqCheck h v = .bad := by
  unfold seqCheck
  rw [if_neg (by simpa using hne)]
  split
  · next tag o hk =>
    refine if_neg fun hagain => ?_
    obtain ⟨hseq, rfl⟩ : (h.seq.toNat + 1) % 65536 = v.expSeq ∧ tag = h.tag.toNat := by simpa using hagain
    exact hkept o hk hseq
  · rfl

theorem Cmd.run_of_again {o : OutPkt} (hop : c.opcode ≠ sessionOpenOp) (hopen : (s.port h.port).openS = true)
    (hseq : seqCheck h (s.port h.port) = .again o) : c.run h ps s = putReply h.port o s := by
  simp [Cmd.run, hop, hopen, hseq]

theorem Cmd.run_of_bad (hop : c.opcode ≠ sessionOpenOp) (hopen : (s.port h.port).openS = true)
    (hseq : seqCheck h (s.port h.port) = .bad) :
    c.run h ps s = replyOnly c.opcode h BAD_SEQUENCE (leBytes 2 (s.port h.port).expSeq) s := by
  simp [Cmd.run, hop, hopen, hseq]

/-! ## The verdict (R50) -/

/-- INTERNAL is not the status of a check. -/
theorem Cmd.verdict_ne_internal (hc : c ∈ cmdTable) : c.verdict h ps s ≠ INTERNAL := by
  unfold Cmd.verdict
  dsimp only
  rcases resource_of_mem_cmdTable c hc h ps s with hres | hres <;> rw [hres] <;> repeat' split
  all_goals decide

/-- The first two checks: a packet whose LENGTH fits is refused with DENIED where its port or session may not send it. -/
theorem Cmd.verdict_of_denied (hlen : c.lenOk ps = true) (hd : portOk c h = false ∨ c.denied h ps s = true) :
    c.verdict h ps s = DENIED := by
  unfold Cmd.verdict
  rw [if_neg (by simp [hlen]), if_pos (by rcases hd with hd | hd <;> simp [hd])]

theorem Cmd.outcome_of_verdict_ne_ok (hv : c.verdict h ps s ≠ OK) : c.outcome h ps s = c.verdict h ps s := by
  simp [Cmd.outcome, hv]

/-- A command that passes every check and is not carried out is one whose firmware finds an inconsistency. -/
theorem Cmd.outcome_of_verdict_ok (hv : c.verdict h ps s = OK) (ho : c.outcome h ps s ≠ OK) :
    h.inconsistent = true ∧ c.outcome h ps s = INTERNAL := by
  unfold Cmd.outcome at ho ⊢
  split at ho
  · next hi =>
    simp only [Bool.and_eq_true] at hi
    exact ⟨hi.1.2, if_pos (by simpa using hi)⟩
  · exact absurd hv ho

end

/-- Settles O4, by the three answers of the sequence check. -/
theorem retransmissionAndBadSequence : Obligations.RetransmissionAndBadSequence := by
  intro c h ps s _ hop hopen
  refine ⟨seqCheck_of_expected, fun o hne hseq hkept => ?again, fun hne hkept => ?bad, fun st data => ?used⟩
  case again => exact Cmd.run_of_again hop hopen (seqCheck_of_retransmission hne hseq hkept)
  case bad => exact Cmd.run_of_bad hop hopen (seqCheck_of_unexpected hne hkept)
  case used => rw [replyUse_port]; exact ⟨rfl, rfl⟩

/-- Settles O5: a refusal of the table leaves nothing behind but its reply, and only the outcome INTERNAL is logged. -/
theorem refusedCommandHasNoEffect : Obligations.RefusedCommandHasNoEffect := by
  intro c h ps s hc hop hr refused
  have hne : c.outcome h ps s ≠ OK := by
    simp only [Cmd.refusedBy, Bool.and_eq_true, bne_iff_ne] at hr
    exact hr.2
  have hexec : c.exec h ps s = .next (logInternal c h ps s (refused (c.outcome h ps s))) := by
    rw [Cmd.exec_of_refusedBy hr, onRefuse_of_mem_cmdTable c hc hop, replyUse_eq]
  refine ⟨fun hv => ?check, fun hv => ?abandoned⟩
  case check =>
    have ho := Cmd.outcome_of_verdict_ne_ok hv
    rw [hexec, logInternal, ho, if_neg (by simpa using Cmd.verdict_ne_internal hc)]
  case abandoned =>
    obtain ⟨hi, ho⟩ := Cmd.outcome_of_verdict_ok hv hne
    refine ⟨hi, ?_⟩
    rw [hexec, logInternal, ho, if_pos (beq_self_eq_true _)]

/-! ## HP1 (R41) -/

theorem portOk_hp1 {c : Cmd} {h : Hdr} (hp : h.port = .hp1) : portOk c h = c.hp1 := by
  simp [portOk, hp]

/-- REG_WRITE and REG_MODIFY on HP1 are denied an address outside the SKK block. -/
theorem regWrite_denied_of_hp1 {c : Cmd} {h : Hdr} {ps : List Byte} {s : State} (hc : c ∈ cmdTable) (hp : h.port = .hp1)
    (hop : c.opcode = 0x0111 ∨ c.opcode = 0x0112) (ha : inSkk (u32 ps 0) = false) : c.denied h ps s = true := by
  rcases hop with hop | hop
  · obtain rfl : c = cRegWrite := eq_of_cmdOf hc (by rw [hop]; rfl)
    simp [cRegWrite, hp, ha]
  · obtain rfl : c = cRegModify := eq_of_cmdOf hc (by rw [hop]; rfl)
    simp [cRegModify, writesDenied, modifyOf, hp, ha]

/-- Settles O14: step 6 of R50 refuses what HP1 may not send, and a refusal changes nothing else. -/
theorem hp1RefusesOtherGroups : Obligations.Hp1RefusesOtherGroups := by
  intro c h ps s hc hp hup hopen hseq hroom hlen hwhat hop
  have hport : s.port h.port = s.hp1 := by rw [hp]; rfl
  have hd : portOk c h = false ∨ c.denied h ps s = true := by
    rcases hwhat with ⟨h1, h9⟩ | ⟨hreg, ha⟩
    · refine .inl (Bool.eq_false_iff.mpr fun hok => ?_)
      rcases group_of_hp1 hc (portOk_hp1 hp ▸ hok) with h | h | h <;> contradiction
    · exact .inr (regWrite_denied_of_hp1 hc hp hreg (by simpa [inSkk] using ha))
  have hv : c.verdict h ps s = DENIED := Cmd.verdict_of_denied hlen hd
  have hok : c.verdict h ps s ≠ OK := by rw [hv]; decide
  have hsess : c.opcode ≠ sessionOpenOp := by
    rcases hwhat with ⟨h1, -⟩ | ⟨hreg, -⟩ <;> rw [sessionOpenOp] <;> omega
  have hr : c.refusedBy h ps s = true := by
    simp [Cmd.refusedBy, Cmd.outcome_of_verdict_ne_ok hok, hok, hup, hport, hroom, hopen, hseq, hsess]
  rw [(refusedCommandHasNoEffect c h ps s hc hop hr).1 hok, hv, hport, hp]
  rfl

end Sys2Proof.Machine
end

section
/-! SUPPORT. How READ_REPLY takes whole packets from the output FIFO (R44). -/

namespace Sys2Proof.Machine

theorem pktBytes_eq_sum (l : List OutPkt) : pktBytes l = (l.map OutPkt.len).sum := by
  rw [pktBytes, List.sum_eq_foldl, List.foldl_map]

/-- The number of whole packets that leave when `n` bytes are read. -/
def readCount : Nat → List OutPkt → Nat
  | _, [] => 0
  | n, o :: t => if o.len ≤ n then readCount (n - o.len) t + 1 else 0

theorem readPkts_fst (n : Nat) (l : List OutPkt) : (readPkts n l).1 = l.drop (readCount n l) := by
  induction l generalizing n with
  | nil => rfl
  | cons o t ih =>
    unfold readPkts readCount
    split
    · exact ih _
    · rfl

theorem readCount_le_length (n : Nat) (l : List OutPkt) : readCount n l ≤ l.length := by
  induction l generalizing n with
  | nil => exact le_rfl
  | cons o t ih =>
    unfold readCount
    split
    · exact Nat.succ_le_succ (ih _)
    · exact Nat.zero_le _

/-- The packets that leave fit in what is read. -/
theorem pktBytes_take_readCount (n : Nat) (l : List OutPkt) : pktBytes (l.take (readCount n l)) ≤ n := by
  induction l generalizing n with
  | nil => exact Nat.zero_le _
  | cons o t ih =>
    unfold readCount
    split
    · have := ih (n - o.len)
      simp only [pktBytes_eq_sum, List.take_succ_cons, List.map_cons, List.sum_cons] at this ⊢
      omega
    · exact Nat.zero_le _

/-- One packet more would not fit. -/
theorem lt_pktBytes_take_readCount (n : Nat) (l : List OutPkt) :
    readCount n l = l.length ∨ n < pktBytes (l.take (readCount n l + 1)) := by
  induction l generalizing n with
  | nil => exact .inl rfl
  | cons o t ih =>
    unfold readCount
    split
    · refine (ih (n - o.len)).imp (congrArg (· + 1)) fun h => ?_
      simp only [pktBytes_eq_sum, List.take_succ_cons, List.map_cons, List.sum_cons] at h ⊢
      omega
    · refine .inr ?_
      simp only [pktBytes_eq_sum, Nat.zero_add, List.take_succ_cons, List.take_zero, List.map_cons, List.map_nil,
        List.sum_cons, List.sum_nil]
      omega

/-- Settles O6, by induction over the packets that fit in what is read. -/
theorem readReplyDeliversWholePackets : Obligations.ReadReplyDeliversWholePackets := by
  intro p ph n s up hph
  let v := s.port p
  refine ⟨readCount n v.out, (v.readReply n).begun, readCount_le_length n v.out, pktBytes_take_readCount n v.out,
    lt_pktBytes_take_readCount n v.out, ?_⟩
  rw [← readPkts_fst]
  exact execReadReply_of_up up hph

end Sys2Proof.Machine
end

section
/-! SUPPORT. A packet on the wire when the journal buffer holds more than its 64 entries. -/

namespace Sys2Proof.Machine

/-- A device with a session on HP0 and one entry more in the journal buffer than R361 gives it. -/
def overJournaled : State :=
  { State.reset with
    hp0 := { PortSt.init with openS := true }
    fws := { Fws.init with jbuf := List.replicate 65 ⟨0, 0, 0, 0, 0, false, 0, 0, 0⟩ } }

/-- The bytes of Table 5 for a NOP of no tenant and no queue, TAG 0 and SEQUENCE 0. -/
def nopPacket : List Byte :=
  leBytes 2 0x0103 ++ [0xFF, 0xFF] ++ leBytes 2 0 ++ leBytes 2 0 ++ leBytes 2 0

/-- The statuses of the packets in the output FIFO of HP0 after a command. -/
def statuses0 : Host.Outcome State Fault Refusal → List Nat
  | .next s => s.hp0.out.map (·.status)
  | _ => []

set_option maxRecDepth 8000 in
theorem overJournaled_nop : statuses0 (exec (.writePacket .hp0 ⟨0x12, 0xED⟩
    (nopPacket ++ leBytes 4 (crc32c nopPacket))) overJournaled) = [RETRY_LATER] := by
  decide

set_option maxRecDepth 8000 in
/-- Refutes O8: step 9 of R50 asks of every command that the journal buffer has room for its entries, and where the
buffer holds 65 entries it has no room even for the none of a NOP, which is then answered RETRY_LATER. The statement
does not ask that the buffer is within the 64 entries of R361. -/
theorem not_wirePacketReachesItsCommand : ¬ Obligations.WirePacketReachesItsCommand := by
  intro h
  have hnop := (h .hp0 ⟨0x12, 0xED⟩ 0 0 [] (crc32c nopPacket) overJournaled (by decide) (by decide) rfl rfl rfl
    (by decide) (by decide) (by decide)).1 rfl
  have hok := (congrArg statuses0 hnop).symm.trans overJournaled_nop
  exact absurd hok (by decide)

end Sys2Proof.Machine
end

section
/-! SUPPORT. What offering an event does to the packets of an output FIFO (R52, R68, R410). -/

namespace Sys2Proof.Machine

/-! ## Packets of a list -/

/-- The replies and completions among packets. -/
def replies (l : List OutPkt) : List OutPkt := l.filter (fun o => !o.evt)

theorem replies_append (l m : List OutPkt) : replies (l ++ m) = replies l ++ replies m := List.filter_append ..

theorem replies_cons_event {o : OutPkt} (h : o.evt = true) (l : List OutPkt) : replies (o :: l) = replies l := by
  simp [replies, h]

theorem replies_filter_not_event (f : OutPkt → Bool) (l : List OutPkt) :
    replies (l.filter fun o => !(o.evt && f o)) = replies l := by
  rw [replies, List.filter_filter]
  refine List.filter_congr fun o _ => ?_
  cases o.evt <;> simp

theorem replies_dropFirst {f : OutPkt → Bool} (hf : ∀ o, f o = true → o.evt = true) (l : List OutPkt) :
    replies (dropFirst f l) = replies l := by
  induction l with
  | nil => rfl
  | cons o t ih =>
    unfold dropFirst
    split
    · exact (replies_cons_event (hf o ‹_›) t).symm
    · simp only [replies, List.filter_cons] at ih ⊢
      rw [ih]

theorem dropFirst_sublist (f : OutPkt → Bool) (l : List OutPkt) : (dropFirst f l).Sublist l := by
  induction l with
  | nil => exact .slnil
  | cons o t ih =>
    unfold dropFirst
    split
    · exact List.sublist_cons_self o t
    · exact ih.cons_cons o

/-- The packet is an EV_SKSTAT. -/
def OutPkt.isSkstat (o : OutPkt) : Bool := o.evt && o.opcode == evSkstatOp

namespace PortSt

variable {v w x : PortSt} {l : List OutPkt}

/-! ## The packet being read and the rest -/

theorem begunPart_append_freshPart (v : PortSt) : v.begunPart ++ v.freshPart = v.out := by
  unfold begunPart freshPart
  split
  · exact List.take_append_drop 1 v.out
  · rfl

/-- New packets after the one being read: that one stays apart, where there is one. -/
theorem freshPart_eq (hb : w.begun = v.begun) (hout : w.out = v.begunPart ++ l) (hne : v.begun = true → v.out ≠ []) :
    w.freshPart = l := by
  unfold freshPart begunPart at *
  rw [hb, hout]
  split
  · next hv =>
    obtain ⟨o, t, ho⟩ := List.exists_cons_of_ne_nil (hne hv)
    simp [ho]
  · rfl

theorem freshPart_sublist (hb : w.begun = v.begun) (hout : w.out = v.begunPart ++ l) : w.freshPart.Sublist l := by
  unfold freshPart begunPart at *
  rw [hb, hout]
  split
  · cases v.out <;> simp [List.tail_sublist]
  · exact .refl l

/-! ## What an event leaves: the replies, and the packet being read -/

/-- From one port state to the next the replies in the FIFO stay in their order, and so does a packet being read. -/
structure KeepsReplies (v w : PortSt) : Prop where
  begun : w.begun = v.begun
  replies : replies w.out = replies v.out
  head : v.begun = true → v.out = [] ∨ w.out.head? = v.out.head?

theorem KeepsReplies.refl (v : PortSt) : v.KeepsReplies v := ⟨rfl, rfl, fun _ => .inr rfl⟩

theorem KeepsReplies.trans (hvw : v.KeepsReplies w) (hwx : w.KeepsReplies x) : v.KeepsReplies x := by
  refine ⟨hwx.begun.trans hvw.begun, hwx.replies.trans hvw.replies, fun hv => ?_⟩
  rcases hvw.head hv with h | h
  · exact .inl h
  · rcases hwx.head (hvw.begun.trans hv) with hw | hw
    · exact .inl (by simpa [hw] using h.symm)
    · exact .inr (hw.trans h)

/-- Changes behind the packet being read that touch events alone. -/
theorem KeepsReplies.of_fresh (hb : w.begun = v.begun) (hout : w.out = v.begunPart ++ l)
    (hl : Machine.replies l = Machine.replies v.freshPart) : v.KeepsReplies w := by
  refine ⟨hb, ?_, fun hv => ?_⟩
  · rw [hout, replies_append, hl, ← replies_append, begunPart_append_freshPart]
  · rw [hout, begunPart, if_pos hv]
    cases v.out <;> simp

/-- An event after every other packet. -/
theorem KeepsReplies.of_append {o : OutPkt} (hb : w.begun = v.begun) (hout : w.out = v.out ++ [o]) (ho : o.evt = true) :
    v.KeepsReplies w := by
  refine ⟨hb, ?_, fun _ => ?_⟩
  · rw [hout, replies_append, replies_cons_event ho]
    exact List.append_nil _
  · rw [hout]
    cases v.out <;> simp

theorem keepsReplies_putAhead {o : OutPkt} (ho : o.evt = true) : v.KeepsReplies (v.putAhead o) :=
  .of_fresh rfl rfl (replies_cons_event ho _)

theorem keepsReplies_discard (b : Bool) : v.KeepsReplies (v.discard b) := ⟨rfl, rfl, fun _ => .inr rfl⟩

theorem keepsReplies_dropPlain : v.KeepsReplies (PortSt.discard { v with
    out := v.begunPart ++ dropFirst (fun o => o.evt && !isSafetyOp o.opcode) v.freshPart } false) :=
  .of_fresh rfl rfl (replies_dropFirst (fun _ h => (Bool.and_eq_true_iff.mp h).1) _)

theorem keepsReplies_makeRoom (k n : Nat) (v : PortSt) : v.KeepsReplies (makeRoom k n v) := by
  induction k generalizing v with
  | zero => exact .refl v
  | succ k ih =>
    unfold makeRoom
    split
    · exact .refl v
    · split
      · exact keepsReplies_dropPlain.trans (ih _)
      · exact .refl v

/-! ## Offering an event -/

/-- The packet of an event offered to a port. -/
def eventPkt (v : PortSt) (op : Nat) (data : List Byte) : OutPkt := ⟨op, OK, true, false, 0, (v.evCount + 1) % 65536, data⟩

/-- The port with the event counted, and without an older EV_SKSTAT where a new one comes. -/
def counted (v : PortSt) : PortSt := { v with evCount := v.evCount + 1 }

def withoutSkstat (v : PortSt) : PortSt :=
  { v with out := v.begunPart ++ v.freshPart.filter (fun o => !o.isSkstat) }

/-- Where a safety event that may be discarded is placed, with room made for it, or counted as lost. -/
def placeSafety (o : OutPkt) (v : PortSt) : PortSt :=
  let w := makeRoom v.out.length o.len v
  if w.safetyRoom o.len then w.putAhead o else w.discard true

theorem offer_eq (hopen : v.openS = true) (op : Nat) (data : List Byte) : v.offer op data =
    if isHeldOp op then v.counted.putAhead (v.eventPkt op data)
    else if isSafetyOp op then
      placeSafety (v.eventPkt op data) (if op == evSkstatOp then v.counted.withoutSkstat else v.counted)
    else if v.counted.plainRoom (v.eventPkt op data).len then { v.counted with out := v.out ++ [v.eventPkt op data] }
    else v.counted.discard false := by
  unfold offer
  rw [if_pos hopen]
  rfl

theorem keepsReplies_withoutSkstat : v.KeepsReplies v.withoutSkstat :=
  .of_fresh rfl rfl (replies_filter_not_event _ _)

theorem keepsReplies_placeSafety {o : OutPkt} (ho : o.evt = true) : v.KeepsReplies (placeSafety o v) := by
  refine (keepsReplies_makeRoom v.out.length o.len v).trans ?_
  unfold placeSafety
  dsimp only
  split
  · exact keepsReplies_putAhead ho
  · exact keepsReplies_discard true

theorem keepsReplies_offer (hopen : v.openS = true) (op : Nat) (data : List Byte) : v.KeepsReplies (v.offer op data) := by
  have hcount : v.KeepsReplies v.counted := ⟨rfl, rfl, fun _ => .inr rfl⟩
  rw [offer_eq hopen]
  refine hcount.trans ?_
  split
  · exact keepsReplies_putAhead rfl
  · split
    · split
      · exact keepsReplies_withoutSkstat.trans (keepsReplies_placeSafety rfl)
      · exact keepsReplies_placeSafety rfl
    · split
      · exact .of_append rfl rfl rfl
      · exact keepsReplies_discard false

theorem placeSafety_evCount (o : OutPkt) (v : PortSt) : (placeSafety o v).evCount = v.evCount := by
  obtain ⟨-, -, -, -, -, -, -, hcount⟩ := makeRoom_frame v.out.length o.len v
  unfold placeSafety
  dsimp only
  split <;> exact hcount

theorem offer_evCount (hopen : v.openS = true) (op : Nat) (data : List Byte) :
    (v.offer op data).evCount = v.evCount + 1 := by
  rw [offer_eq hopen]
  split
  · rfl
  · split
    · rw [placeSafety_evCount]
      split <;> rfl
    · split <;> rfl

/-! ## EV_SAFE and EV_DEBUG -/

theorem freshPart_offer_held {op : Nat} (hopen : v.openS = true) (hop : isHeldOp op = true) (data : List Byte) :
    (v.offer op data).freshPart = v.eventPkt op data :: v.freshPart ∨ v.begun = true ∧ v.out = [] := by
  rw [offer_eq hopen, if_pos hop]
  by_cases hnil : v.begun = true ∧ v.out = []
  · exact .inr hnil
  · exact .inl (freshPart_eq (v := v) rfl rfl fun hb hout => hnil ⟨hb, hout⟩)

/-! ## EV_SKSTAT -/

/-- No EV_SKSTAT is among the packets whose reading has not begun. -/
def NoSkstat (v : PortSt) : Prop := ∀ o ∈ v.freshPart, o.isSkstat = false

theorem NoSkstat.of_sublist (hv : v.NoSkstat) (h : w.freshPart.Sublist v.freshPart) : w.NoSkstat :=
  fun o ho => hv o (h.subset ho)

theorem noSkstat_withoutSkstat : v.withoutSkstat.NoSkstat := fun o ho => by
  have hmem := (freshPart_sublist (v := v) (w := v.withoutSkstat) rfl rfl).subset ho
  simpa using (List.mem_filter.mp hmem).2

theorem NoSkstat.makeRoom (hv : v.NoSkstat) (k n : Nat) : (makeRoom k n v).NoSkstat := by
  induction k generalizing v with
  | zero => exact hv
  | succ k ih =>
    unfold Machine.makeRoom
    split
    · exact hv
    · split
      · refine ih (hv.of_sublist (.trans ?_ (dropFirst_sublist (fun o => o.evt && !isSafetyOp o.opcode) _)))
        exact freshPart_sublist (v := v) rfl rfl
      · exact hv

/-- After an EV_SKSTAT is offered, the packets whose reading has not begun are those of a FIFO without one, and
perhaps the new one ahead of them. -/
theorem exists_freshPart_offer_skstat (hopen : v.openS = true) (data : List Byte) :
    ∃ l, (∀ o ∈ l, o.isSkstat = false) ∧ (v.offer evSkstatOp data).freshPart.Sublist (v.eventPkt evSkstatOp data :: l) := by
  let u := v.counted.withoutSkstat
  let w := Machine.makeRoom u.out.length (v.eventPkt evSkstatOp data).len u
  rw [offer_eq hopen, if_neg (by decide), if_pos (by decide), if_pos (by decide)]
  refine ⟨w.freshPart, noSkstat_withoutSkstat.makeRoom _ _, ?_⟩
  unfold placeSafety
  dsimp only
  split
  · exact freshPart_sublist (v := w) rfl rfl
  · exact List.sublist_cons_self ..

end PortSt

/-! ## EV_LOST -/

theorem execEvLost_of_counts {p : Port} {s : State} (hopen : (s.port p).openS = true) (hlost : (s.port p).lostEv ≠ 0)
    (hroom : (s.port p).plainRoom 18 = true) (he : (s.port p).lostEv ≤ 0xFFFF) (hs : (s.port p).lostSafety ≤ 0xFFFF) :
    execEvLost p s = .next (offer p evLostOp (leBytes 2 (s.port p).lostEv ++ leBytes 2 (s.port p).lostSafety)
      (State.setPort { s with freeCtr := s.freeCtr + 1 } p { s.port p with lostEv := 0, lostSafety := 0 })) := by
  have hport : ({ s with freeCtr := s.freeCtr + 1 } : State).port p = s.port p := by cases p <;> rfl
  simp only [execEvLost, hopen, hroom, he, hs, beq_eq_false_iff_ne.mpr hlost, modPort, takeFree, hport, if_pos]
  rfl

/-- Settles O9: every branch of offering an event keeps the replies and the packet being read; a new EV_SKSTAT goes into
a FIFO rid of older ones, EV_SAFE and EV_DEBUG straight ahead. What a count above 2 bytes shows is free (log 9). -/
theorem eventsNeverDisplaceReplies : Obligations.EventsNeverDisplaceReplies := by
  refine ⟨fun v op data => ⟨PortSt.offer_closed op data, fun hopen => ⟨PortSt.offer_evCount hopen op data, ?_⟩⟩,
    fun v data hopen => ⟨?once, ?newest, fun op hop => ?held⟩, fun p s => execEvLost_of_counts⟩
  · have hkeeps := PortSt.keepsReplies_offer hopen op data
    exact ⟨hkeeps.replies, fun hb => (hkeeps.head hb).symm⟩
  case once =>
    obtain ⟨l, hl, hsub⟩ := PortSt.exists_freshPart_offer_skstat hopen data
    refine (hsub.filter _).length_le.trans ?_
    have hnone : l.filter (fun o => o.evt && o.opcode == evSkstatOp) = [] :=
      List.filter_eq_nil_iff.mpr fun o ho => Bool.eq_false_iff.mp (hl o ho)
    rw [List.filter_cons, hnone]
    split
    · exact le_rfl
    · exact Nat.zero_le 1
  case newest =>
    intro o ho hevt hop
    obtain ⟨l, hl, hsub⟩ := PortSt.exists_freshPart_offer_skstat hopen data
    rcases List.mem_cons.mp (hsub.subset ho) with rfl | hmem
    · rfl
    · exact absurd (hl o hmem) (by simp [OutPkt.isSkstat, hevt, hop])
  case held => exact PortSt.freshPart_offer_held hopen (by rcases hop with rfl | rfl <;> decide) data

end Sys2Proof.Machine
end

section
/-! SUPPORT. What a taken command does, as one equation, and the sessions of a port (R49, R66). -/

namespace Sys2Proof.Machine

section

variable {c : Cmd} {h : Hdr} {ps : List Byte} {s : State}

/-- A taken command that completes at once. -/
theorem Cmd.exec_now (ht : c.taken h ps s = true) (hc : c.cpl = none := by rfl) :
    c.exec h ps s = .next (c.effect 0 h ps (replyUse c.opcode h c.okStatus (c.data h ps (consumed h s)) s)) := by
  rw [exec_of_taken ht, perform_now hc]

/-- A taken command that is answered ACCEPTED gets the next token. -/
theorem Cmd.exec_later {n : Nat} (ht : c.taken h ps s = true) (hc : c.cpl = some n := by rfl) :
    c.exec h ps s = .next (c.effect s.sch.nTok h ps (acceptedReply c.opcode h n s).2) := by
  rw [exec_of_taken ht, perform_later hc, acceptedReply_tok]

theorem Cmd.verdict_of_taken (ht : c.taken h ps s = true) : c.verdict h ps s = OK := by
  simp only [taken, Bool.and_eq_true, beq_iff_eq] at ht
  exact verdict_of_outcome ht.2

/-- A taken command is not denied. -/
theorem Cmd.denied_of_taken (ht : c.taken h ps s = true) : c.denied h ps s = false := by
  have hv := verdict_of_taken ht
  by_contra hd
  by_cases hlen : c.lenOk ps = true
  · rw [verdict_of_denied hlen (.inr (by simpa using hd))] at hv
    exact absurd hv (by decide)
  · rw [verdict, if_pos (by simpa using hlen)] at hv
    exact absurd hv (by decide)

/-! ## Sessions -/

theorem PortSt.startSession_normal {v : PortSt} {e : Nat} (he : v.expSeq = e) : v.startSession false = { v with
    openS := true, secure := false, expSeq := e,
    awaiting := v.awaiting.map (fun w => { w with live := false, space := 0 }) } := by
  subst he
  simp [startSession, endSession]

theorem PortSt.startSession_secure {v : PortSt} {e : Nat} (he : v.expSeq = e) : v.startSession true = { v with
    openS := true, secure := true, proveOk := false, expSeq := e,
    awaiting := v.awaiting.map (fun w => { w with live := false, space := 0 }) } := by
  subst he
  simp [startSession, endSession]

/-- The reply uses the packet's sequence number. -/
theorem okReply_expSeq (op : Nat) (h : Hdr) (data : List Byte) (s : State) :
    ((okReply op h data s).port h.port).expSeq = (h.seq.toNat + 1) % 65536 := by
  rw [okReply_port]

/-- The notices that the Larder kept are delivered on HP0 in their order, and it keeps none (R356). -/
theorem deliverNotices_eq {l : Larder} (hl : s.larder = l) : deliverNotices s = l.notices.foldl (fun v n =>
    offer .hp0 0x0AF1 (leBytes 1 n.kind ++ leBytes 1 n.inst ++ leBytes 1 n.tenant ++ [0x00] ++ leBytes 4 n.time) v)
    { s with larder := { l with notices := [] } } := by
  subst hl
  rfl

theorem execSessionOpen_of_normal (ht : cSessionOpen.taken h ps s = true) (hw : u32 ps 0 = 0) :
    execSessionOpen h ps s = .next (let t := okReply sessionOpenOp h [] s
      t.setPort h.port ((t.port h.port).startSession false)) := by
  rw [execSessionOpen, Cmd.exec_now ht]
  simp [cSessionOpen, hw, okReply, Cmd.hw, Cmd.base]

theorem execSessionOpen_of_secure (ht : cSessionOpen.taken h ps s = true) (hw : u32 ps 0 = 1) :
    execSessionOpen h ps s = .next (let t := okReply sessionOpenOp h [] s
      deliverNotices (t.setPort h.port ((t.port h.port).startSession true))) := by
  rw [execSessionOpen, Cmd.exec_now ht]
  simp [cSessionOpen, hw, okReply, Cmd.hw, Cmd.base]

theorem proveOk_of_secure (ht : cSessionOpen.taken h ps s = true) (hw : u32 ps 0 = 1) :
    (s.port h.port).proveOk = true := by
  simpa [cSessionOpen, hw] using Cmd.denied_of_taken ht

theorem PortSt.complete_of_dead {v : PortSt} {w : Await} (st : Nat) (data : List Byte)
    (hw : v.awaiting.find? (fun x => x.tok == w.tok) = some w) (hdead : w.live = false) :
    v.complete w.tok st data = { v with awaiting := v.awaiting.filter (fun x => x.tok != w.tok), cpllost := true } := by
  simp only [complete, hw, hdead]
  rfl

end

/-- Settles O10, by the effect of each command on its port; what a secure session is given stands behind the reply
(log 18). -/
theorem sessionCommands : Obligations.SessionCommands := by
  refine ⟨fun h ps s => ⟨fun ht => Cmd.exec_now ht, fun ht => Cmd.exec_now ht, fun ht hw => ?normal,
    fun ht hw => ⟨proveOk_of_secure ht hw, ?secure⟩⟩, fun v w st data => PortSt.complete_of_dead st data⟩
  case normal =>
    exact (execSessionOpen_of_normal ht hw).trans (congrArg (fun v => Host.Outcome.next (State.setPort _ h.port v))
      (PortSt.startSession_normal (okReply_expSeq ..)))
  case secure =>
    refine (execSessionOpen_of_secure ht hw).trans (congrArg Host.Outcome.next ?_)
    dsimp only
    rw [PortSt.startSession_secure (okReply_expSeq ..), deliverNotices_eq (l := s.larder) (by simp [okReply_larder])]
    rfl

end Sys2Proof.Machine
end

section
/-! SUPPORT. The commands and rows of the device state (R57 to R62, R391) as equations. -/

namespace Sys2Proof.Machine

section

variable {h : Hdr} {ps : List Byte} {s : State}

/-! ## Commands -/

theorem startDevice_eq {s t : State} (hdev : t.dev = s.dev) : startDevice t =
    startStreams (t.progs.keys.foldl (fun s k => firstCover k s)
      (setDevSt (if s.dev.retired then .degraded else .run) t)) := by
  rw [startDevice, hdev]
  rfl

theorem execDevStart_of_taken (ht : cDevStart.taken h ps s = true) : execDevStart h ps s = .next
    (let a := acceptedReply 0x0104 h 0 s
     complete a.1 OK [] (startStreams (a.2.progs.keys.foldl (fun s k => firstCover k s)
       (setDevSt (if s.dev.retired then .degraded else .run) a.2)))) := by
  rw [execDevStart, Cmd.exec_of_taken ht, Cmd.perform_later rfl]
  exact congrArg (fun t => Host.Outcome.next (complete _ OK [] t)) (startDevice_eq (acceptedReply_dev ..))

theorem execDevStop_of_taken (ht : cDevStop.taken h ps s = true) : execDevStop h ps s = .next
    (syncStreams { (acceptedReply 0x0105 h 0 s).2 with dev := { s.dev with stopTok := some s.sch.nTok } }) := by
  rw [execDevStop, Cmd.exec_later ht, ← acceptedReply_dev 0x0105 h 0 s]
  rfl

theorem execDevReset_of_taken (ht : cDevReset.taken h ps s = true) : execDevReset h ps s = .next
    { journalCmd h 0x0106 0 0 (replyUse 0x0106 h ACCEPTED [] s) with dev := { s.dev with resetPend := true } } := by
  rw [execDevReset, Cmd.exec_now ht, ← replyUse_dev 0x0106 h ACCEPTED [] s]
  rfl

theorem execServiceEnter_of_taken (ht : cServiceEnter.taken h ps s = true) : execServiceEnter h ps s = .next
    (let t := journalCmd h 0x0107 0 0 (okReply 0x0107 h [] s)
     if s.dev.st == .awaitFw then { t with dev := { s.dev with svcArmed := true } }
     else syncStreams (setDevSt .service { t with dev := { s.dev with svcFromSafe := s.dev.st == .safe } })) := by
  rw [execServiceEnter, Cmd.exec_now ht, ← okReply_dev 0x0107 h [] s]
  rfl

/-! ## The end of DEV_STOP, INIT and the supply -/

theorem execDevStopComplete_of_stop {tok : Nat} (hstop : s.dev.stopTok = some tok) (hrun : s.running = true)
    (hjobs : s.inFlight = 0) (hsch : s.fwDown fwSch = false) : execDevStopComplete s = .next (complete tok OK []
      (let t := setDevSt .ready { s with dev := { s.dev with stopTok := none } }
       { t with progs := s.progs.mapV (fun p => { p with covered := false, eligible := false, lapsed := false }) })) := by
  simp only [execDevStopComplete, hstop, hrun, hjobs, hsch]
  rfl

theorem execDevResetInit_of_pending (hp : s.dev.resetPend = true) : execDevResetInit s = .next
    (let n := restart .init s
     { n with dev := { n.dev with resets := min 0xFF (s.dev.resets + 1) },
              pow := { n.pow with thermtrip := s.pow.thermtrip } }) := by
  simp only [execDevResetInit, hp]
  rfl

theorem execVinValid_of_off (hoff : s.dev.st = .off) : execVinValid s = .next (restart .init s) := by
  simp [execVinValid, hoff]

/-- With the journal buffer drained first, what OFF keeps is the journal in the Larder. -/
theorem restart_drainJournal (n : DevSt) (s : State) : restart n (drainJournal s) =
    (let f := State.fresh s.part (drainJournal s).larder
     { f with
       dev := { f.dev with st := n, prev := s.dev.st }, clk := { f.clk with refOk := s.clk.refOk },
       fws := { f.fws with jbuf := [] }, freeCtr := s.freeCtr, pending := s.pending }) := by
  have hbuf : (drainJournal s).fws.jbuf = [] := by simp [drainJournal]
  have hpart : (drainJournal s).part = s.part := by simp [drainJournal]
  have hdev : (drainJournal s).dev = s.dev := by simp [drainJournal]
  have hclk : (drainJournal s).clk = s.clk := by simp [drainJournal]
  have hctr : (drainJournal s).freeCtr = s.freeCtr := by simp [drainJournal]
  have hpend : (drainJournal s).pending = s.pending := by simp [drainJournal]
  simp only [restart, hpart, hdev, hclk, hbuf, hctr, hpend]

theorem execVinLoss_of_on (hon : s.dev.st ≠ .off) : execVinLoss s = .next
    (let f := State.fresh s.part (drainJournal s).larder
     { f with
       dev := { f.dev with st := .off, prev := s.dev.st }, clk := { f.clk with refOk := s.clk.refOk },
       fws := { f.fws with jbuf := [] }, freeCtr := s.freeCtr, pending := s.pending }) := by
  rw [← restart_drainJournal]
  simp [execVinLoss, hon]

theorem execAwaitFwEntry_of_ref (hst : s.dev.st = .init) (href : s.clk.refOk = true) : execAwaitFwEntry s = .next { s with
    dev := { s.dev with st := .awaitFw, prev := .init }, larder := { s.larder with boot := s.larder.boot + 1 } } := by
  simp [execAwaitFwEntry, hst, href]

theorem execAwaitFwEntry_of_no_ref (href : s.clk.refOk = false) : execAwaitFwEntry s = .next s := by
  simp [execAwaitFwEntry, href]

/-! ## The end of SELF_TEST -/

/-- The state that the end of the tests judges, with the first failed item's unit and the items that failed. -/
def tested (kind inst : Nat) (s : State) : State := { s with
  skk := { s.skk with bistDone := true, bistKind := kind, bistInst := inst },
  mem := { s.mem with ecc := s.mem.ecc.mapV (fun e => { e with soft := 0 }) } }

/-- What the device enters after its tests: SAFE on a latent fault, SERVICE where it is armed, else READY. -/
def afterTests (s : State) : State :=
  if s.skk.bistFail != 0 then latchSafe 0x0B 0 0 s
  else if s.dev.svcArmed then setDevSt .service { s with dev := { s.dev with svcArmed := false } }
  else setDevSt .ready s

theorem seclive_of_clear (hl : s.larder.seclive = false) : seclive s = s := by
  simp [seclive, hl]

theorem execSelfTestEnd_of_pass (hst : s.dev.st = .selfTest) (hl : s.larder.seclive = false) :
    execSelfTestEnd [] s = .next (afterTests (tested 0 0 s)) := by
  simp only [execSelfTestEnd, hst, seclive_of_clear hl]
  rfl

theorem execSelfTestEnd_of_fail {item : Nat} (kind inst : Nat) (hst : s.dev.st = .selfTest)
    (hl : s.larder.seclive = false) (hi : item < 8) : execSelfTestEnd [⟨item, kind, inst, none⟩] s = .next
      (afterTests (modSkk (fun k => { k with bistFail := setBit k.bistFail item true }) (tested kind inst s))) := by
  simp only [execSelfTestEnd, hst, seclive_of_clear hl, List.filter_cons, hi, decide_true]
  rfl

theorem afterTests_of_fail {n : Nat} (hn : s.skk.bistFail = n) (h0 : n ≠ 0) : afterTests s = latchSafe 0x0B 0 0 s := by
  rw [afterTests, if_pos (by simpa [hn] using h0)]

theorem afterTests_of_pass (h0 : s.skk.bistFail = 0) (harm : s.dev.svcArmed = false) :
    afterTests s = setDevSt .ready s := by
  rw [afterTests, if_neg (by simp [h0]), if_neg (by simp [harm])]

theorem afterTests_of_armed (h0 : s.skk.bistFail = 0) (harm : s.dev.svcArmed = true) :
    afterTests s = setDevSt .service { s with dev := { s.dev with svcArmed := false } } := by
  rw [afterTests, if_neg (by simp [h0]), if_pos harm]

end

/-- Settles O11, by the effect of each command on the state with its reply. A completion in the turn of DEV_START
(log 18) and OBJECT and VALUE 0 of the journal entries (log 26) are the model's reading. -/
theorem deviceStateCommands : Obligations.DeviceStateCommands := by
  refine ⟨fun h ps s => ⟨execDevStart_of_taken, execDevStop_of_taken, execDevReset_of_taken, fun ht hst => ?arm,
    fun ht hst => ?enter, fun ht => Cmd.exec_now ht⟩, fun _ _ => rfl⟩
  case arm => exact (execServiceEnter_of_taken ht).trans (congrArg Host.Outcome.next (if_pos (by simp [hst])))
  case enter => exact (execServiceEnter_of_taken ht).trans (congrArg Host.Outcome.next (if_neg (by simpa using hst)))

/-- Settles O12, by one equation for each row; a start keeps what `restart` keeps, and after the tests `afterTests`
judges the state. The journal buffer kept at INIT, BOOT at AWAIT_FW's entry, detail 0 of a latent fault (log 29),
THERMTRIP and the counters (log 18) are the model's reading. -/
theorem supplyAndStartEvents : Obligations.SupplyAndStartEvents := by
  intro s f kept tested
  refine ⟨fun tok => execDevStopComplete_of_stop, execDevResetInit_of_pending, execVinValid_of_off, fun hon => ?off,
    rfl, rfl, rfl, rfl, rfl, rfl, rfl, rfl, execAwaitFwEntry_of_ref, fun _ => execAwaitFwEntry_of_no_ref,
    fun hst hfail hl => ⟨fun harm => ?ready, fun harm => ?service, fun item kind inst hi => ?latent⟩⟩
  case off =>
    refine (execVinLoss_of_on hon).trans ?_
    generalize (drainJournal s).larder = l
    rfl
  case ready =>
    exact (execSelfTestEnd_of_pass hst hl).trans (congrArg Host.Outcome.next (afterTests_of_pass hfail harm))
  case service =>
    exact (execSelfTestEnd_of_pass hst hl).trans (congrArg Host.Outcome.next (afterTests_of_armed hfail harm))
  case latent =>
    have hbit : setBit s.skk.bistFail item true = 2 ^ item := by simp [setBit, hfail]
    refine (execSelfTestEnd_of_fail kind inst hst hl hi).trans (congrArg Host.Outcome.next ?_)
    refine (afterTests_of_fail hbit (Nat.two_pow_pos item).ne').trans (congrArg (latchSafe 0x0B 0 0) ?_)
    rw [← hbit]
    rfl

end Sys2Proof.Machine
end

section
/-! SUPPORT. What a write under a mask does to each kind of field, and the register commands (R10, R12, R67). -/

namespace Sys2Proof.Machine

/-! ## Fields -/

theorem testBit_bits (v lo w i : Nat) : (bits v lo w).testBit i = (decide (i < w) && v.testBit (lo + i)) := by
  rw [bits, Nat.testBit_mod_two_pow, Nat.testBit_div_two_pow, Nat.add_comm]

theorem bits_one (v lo : Nat) : bits v lo 1 = (v.testBit lo).toNat := by
  rw [bits, Nat.testBit_eq_decide_div_mod_eq, pow_one]
  rcases Nat.mod_two_eq_zero_or_one (v / 2 ^ lo) with h | h <;> simp [h]

section

variable {f : RField} {mask v : Nat}

/-- The value a field of its own would hold: its bits outside the mask, and those of the word inside. -/
def RField.masked (f : RField) (mask v : Nat) : Nat :=
  (f.val &&& (2 ^ f.w - 1 - bits mask f.lo f.w)) ||| (bits v f.lo f.w &&& bits mask f.lo f.w)

theorem RField.getD_change_of_rw (h : f.acc = .rw ∨ f.acc = .rwl) :
    (f.change mask v).getD f.val = f.masked mask v := by
  have hchange : f.change mask v = if f.masked mask v == f.val then none else some (f.masked mask v) := by
    rcases h with h | h <;> simp only [change, h] <;> rfl
  rw [hchange]
  split
  · next heq => exact (beq_iff_eq.mp heq).symm
  · rfl

theorem RField.testBit_masked {i : Nat} (hi : i < f.w) : (f.masked mask v).testBit i =
    if mask.testBit (f.lo + i) then v.testBit (f.lo + i) else f.val.testBit i := by
  have hm : bits mask f.lo f.w < 2 ^ f.w := Nat.mod_lt _ (Nat.two_pow_pos _)
  have hsub : 2 ^ f.w - 1 - bits mask f.lo f.w = 2 ^ f.w - (bits mask f.lo f.w + 1) := by omega
  rw [masked, hsub, Nat.testBit_or, Nat.testBit_and, Nat.testBit_and, Nat.testBit_two_pow_sub_succ hm, testBit_bits,
    testBit_bits]
  cases mask.testBit (f.lo + i) <;> simp [hi]

theorem RField.change_of_ro (h : f.acc = .ro) : f.change mask v = none := by
  simp only [change, h]

/-- Both words hold 1 at a field of one bit. -/
theorem and_bits_one_ne_zero (lo : Nat) :
    bits v lo 1 &&& bits mask lo 1 ≠ 0 ↔ mask.testBit lo = true ∧ v.testBit lo = true := by
  rw [bits_one, bits_one]
  cases mask.testBit lo <;> cases v.testBit lo <;> simp

theorem RField.isSome_change_of_w1c (h : f.acc = .w1c) (hw : f.w = 1) : (f.change mask v).isSome = true ↔
    f.val ≠ 0 ∧ mask.testBit f.lo = true ∧ v.testBit f.lo = true := by
  rw [← and_bits_one_ne_zero, and_comm]
  simp only [change, h, hw, Option.isSome_ite, Bool.and_eq_true, bne_iff_ne]

theorem RField.isSome_change_of_wo (h : f.acc = .wo) (hw : f.w = 1) : (f.change mask v).isSome = true ↔
    mask.testBit f.lo = true ∧ v.testBit f.lo = true := by
  rw [← and_bits_one_ne_zero]
  simp only [change, h, hw, Option.isSome_ite, bne_iff_ne]

end

/-! ## Commands -/

section

variable {h : Hdr} {ps : List Byte} {s : State}

theorem readWords_cons {v : Viewer} {a : Nat} {r : Reg} (hr : regAt v a s = some r) (t : List Nat) :
    readWords v (a :: t) s = (leBytes 4 r.word ++ (readWords v t (r.onRead s)).1, (readWords v t (r.onRead s)).2) := by
  rw [readWords, hr]

/-- Neither using a sequence number nor a reply changes the session's world. -/
theorem viewer_consumed (h : Hdr) (s : State) : viewer h (consumed h s) = viewer h s := by
  simp [viewer, consumed]

theorem viewer_okReply (op : Nat) (h : Hdr) (data : List Byte) (s : State) : viewer h (okReply op h data s) = viewer h s := by
  simp [viewer, okReply_port]

theorem execRegRead_of_taken (ht : cRegRead.taken h ps s = true) : execRegRead h ps s = .next
    (let as := wordAddrs (u32 ps 0) (regCount ps)
     (readWords (viewer h s) as (okReply 0x0110 h (readWords (viewer h s) as (consumed h s)).1 s)).2) := by
  rw [execRegRead, Cmd.exec_now ht]
  simp only [cRegRead, viewer_consumed]
  exact congrArg (fun v => Host.Outcome.next (readWords v _ _).2) (viewer_okReply ..)

theorem execRegModify_of_taken (ht : cRegModify.taken h ps s = true) : execRegModify h ps s = .next
    (writeWord false h (okReply 0x0112 h (leBytes 4 (wordAt (viewer h s) (u32 ps 0)
      (writeWord false h (consumed h s) (modifyOf ps)))) s) (modifyOf ps)) := by
  rw [execRegModify, Cmd.exec_now ht]
  simp only [cRegModify, viewer_consumed]
  rfl

end

/-- Settles O15: a word read is followed by the reads of the words above it, a write acts word by word, and each kind of
field changes as its access type says. -/
theorem registerCommandsAndMask : Obligations.RegisterCommandsAndMask := by
  refine ⟨⟨fun v a t r s hr => readWords_cons hr t, fun h ps s => ⟨execRegRead_of_taken, fun ht => Cmd.exec_now ht,
    execRegModify_of_taken⟩⟩, fun f mask v => ⟨fun hacc _ i hi => ?_, RField.change_of_ro, RField.isSome_change_of_w1c,
    RField.isSome_change_of_wo⟩⟩
  rw [RField.getD_change_of_rw hacc, RField.testBit_masked hi]

end Sys2Proof.Machine
end

section
/-! SUPPORT. Folds over states, and the tables and pages that a closing tenant gives up (R70, R211). -/

namespace Sys2Proof.Machine

/-! ## What a fold leaves alone -/

/-- A fold leaves alone what each of its steps does. -/
theorem foldl_frame {σ α β : Type} (g : σ → β) {f : σ → α → σ} (hf : ∀ s x, g (f s x) = g s) (l : List α)
    (s : σ) : g (l.foldl f s) = g s := by
  induction l generalizing s with
  | nil => rfl
  | cons x l ih => exact (ih _).trans (hf s x)

/-! ## Tables -/

theorem Map.lookup_filter_key {α : Type} (l : List (Nat × α)) (p : Nat → Bool) (k : Nat) :
    Map.lookup (l.filter (fun c => p c.1)) k = if p k then Map.lookup l k else none := by
  induction l with
  | nil => simp [Map.lookup]
  | cons c t ih =>
    obtain ⟨i, w⟩ := c
    simp only [List.filter_cons]
    split <;> simp only [Map.lookup, ih] <;> grind

theorem Map.get?_filter_key {α : Type} (m : Map α) (p : Nat → Bool) (k : Nat) :
    (m.filter (fun i _ => p i)).get? k = if p k then m.get? k else none :=
  Map.lookup_filter_key m.cells p k

/-- What a table holds is listed. -/
theorem Map.mem_cells_of_get? {α : Type} {m : Map α} {k : Nat} {v : α} (h : m.get? k = some v) : (k, v) ∈ m.cells := by
  obtain ⟨l⟩ := m
  induction l with
  | nil => cases h
  | cons c t ih =>
    obtain ⟨i, w⟩ := c
    simp only [Map.get?, Map.lookup] at h ih
    split at h
    · cases h
      simp_all
    · exact List.mem_cons_of_mem _ (ih h)

/-- Erasing keys one after another leaves the table as it was at every other key, and nothing at them. -/
theorem Map.get?_foldl_erase {α : Type} (l : List Nat) (m : Map α) (k : Nat) :
    (l.foldl (fun m p => m.erase p) m).get? k = if k ∈ l then none else m.get? k := by
  induction l generalizing m with
  | nil => rfl
  | cons p l ih =>
    rw [List.foldl_cons, ih, Map.get?_erase]
    by_cases hk : k = p <;> simp [hk]

section

variable {s : State} {t : Nat}

/-! ## Pages -/

theorem releasePages_own (t : Nat) (s : State) : (releasePages t s).mem.own =
    ((s.mem.own.filter (fun _ e => e.owner == t && !e.lock)).keys).foldl (fun m p => m.erase p) s.mem.own :=
  congrArg (List.foldl _ · _) (foldl_frame (fun s => s.mem.own)
    (f := fun s p => zeroPages p 1 (dropLines (p * 2 ^ 20) (2 ^ 20) s)) (fun _ _ => rfl) _ s)

/-- The pages a tenant still owns after its release are the locked ones. -/
theorem lock_of_releasePages {pg : Nat} {e : PageEnt} (he : (releasePages t s).mem.own.get? pg = some e)
    (ht : e.owner = t) : e.lock = true := by
  rw [releasePages_own, Map.get?_foldl_erase] at he
  split at he
  · cases he
  · next hkey =>
    by_contra hlock
    refine hkey (List.mem_map.mpr ⟨(pg, e), List.mem_filter.mpr ⟨Map.mem_cells_of_get? he, ?_⟩, rfl⟩)
    simpa [ht] using hlock

/-! ## Queues -/

theorem setCtxSt_queues (k : Nat) (n : CtxSt) (r : Nat) (s : State) : (setCtxSt k n r s).queues = s.queues := by
  unfold setCtxSt
  split
  · rfl
  · split <;> simp

theorem closeStream_queues (k : Nat) (s : State) : (closeStream k s).queues = s.queues := by
  unfold closeStream
  dsimp only
  split <;> exact setCtxSt_queues ..

theorem untrain_queues (k st : Nat) (s : State) : (untrain k st s).queues = s.queues := by
  unfold untrain
  split
  · rfl
  · split <;> simp

theorem dispOff_queues (k : Nat) (s : State) : (dispOff k s).queues = s.queues := by
  unfold dispOff
  dsimp only
  split <;> exact untrain_queues ..

theorem closeRctx_queues (k : Nat) (s : State) : (closeRctx k s).queues = s.queues := by
  unfold closeRctx
  split <;> simp

theorem closeRaster_queues (t : Nat) (s : State) : (closeRaster t s).queues = s.queues :=
  (foldl_frame State.queues (fun s k => dispOff_queues k s) _ _).trans
    (foldl_frame State.queues (fun s k => closeRctx_queues k s) _ s)

theorem completeAll_queues (st : Nat) (l : List Nat) (s : State) :
    (l.foldl (fun s k => complete k st [] s) s).queues = s.queues :=
  foldl_frame State.queues (fun s k => complete_queues k st [] s) l s

theorem closeControl_queues (t : Nat) (s : State) : (closeControl t s).queues = s.queues :=
  foldl_frame State.queues (fun s _ => completeAll_queues STATE _ s) _ s

theorem freeFusCtx_queues (n : Nat) (s : State) : (freeFusCtx n s).queues = s.queues := by
  unfold freeFusCtx
  split
  · rfl
  · next c _ =>
    rw [completeOpt_queues]
    exact foldl_frame State.queues (fun s p => complete_queues p.1 STATE [] s) c.pend s

theorem closeUnits_queues (t : Nat) (s : State) : (closeUnits t s).queues = s.queues := by
  have hstreams : ∀ l : List Nat, ∀ s, (l.foldl (fun s k => closeStream k s) s).queues = s.queues :=
    foldl_frame State.queues fun s k => closeStream_queues k s
  unfold closeUnits
  rw [foldl_frame State.queues (fun s n => freeFusCtx_queues n s), closeControl_queues, closeRaster_queues]
  exact hstreams _ _

theorem releasePages_queues (t : Nat) (s : State) : (releasePages t s).queues = s.queues :=
  foldl_frame State.queues (f := fun s p => zeroPages p 1 (dropLines (p * 2 ^ 20) (2 ^ 20) s)) (fun _ _ => rfl) _ s

theorem setTenSt_queues (t : Nat) (n : TenSt) (s : State) : (setTenSt t n s).queues = s.queues := by
  unfold setTenSt
  dsimp only
  split <;> simp

/-! ## Tenants -/

theorem modTen_eq {v : Tenant} (hv : s.ten t = v) (f : Tenant → Tenant) : modTen t f s = s.setTen t (f v) :=
  hv ▸ rfl

theorem okReply_ten (op : Nat) (h : Hdr) (d : List Byte) (s : State) (t : Nat) : (okReply op h d s).ten t = s.ten t := by
  simp [State.ten]

theorem acceptedReply_ten (op : Nat) (h : Hdr) (n : Nat) (s : State) (t : Nat) :
    (acceptedReply op h n s).2.ten t = s.ten t := by
  simp [State.ten]

theorem consumed_ten (h : Hdr) (s : State) (t : Nat) : (consumed h s).ten t = s.ten t := by
  simp [State.ten, consumed]

/-- The state of a closing tenant whose jobs have drained, before its command completes: programs, units, pages and
queues are given up, and it is as never opened but for its accounts and virtual time. -/
def closedTen (t : Nat) (s : State) : State :=
  let u := (s.progs.filter (fun _ p => p.tenant == t)).keys.foldl (fun s h => unloadProg h s) s
  let r := releasePages t (closeUnits t { u with queues := u.queues.filter (fun k _ => k / 16 != t) })
  markSecLive ((setTenSt t .closed r).setTen t { Tenant.fresh with acct := (s.ten t).acct, vt := (s.ten t).vt })

theorem execTenantCloseDrained_of_drained (hc : (s.ten t).closing = true) (hb : tenBusy s t = false)
    (hsch : s.fwDown fwSch = false) :
    execTenantCloseDrained t s = .next (completeOpt (s.ten t).tok OK [] (closedTen t s)) := by
  simp only [execTenantCloseDrained, hc, hb, hsch]
  rfl

theorem markSecLive_ten (s : State) (t : Nat) : (markSecLive s).ten t = s.ten t := rfl

theorem markSecLive_queues (s : State) : (markSecLive s).queues = s.queues := rfl

theorem closedTen_ten (t : Nat) (s : State) : ((closedTen t s).ten t).st = .closed := by
  unfold closedTen
  rw [markSecLive_ten, State.ten_setTen, if_pos rfl]
  rfl

/-- The queues that are left are those of other tenants. -/
theorem exists_closedTen_queues (t : Nat) (s : State) :
    ∃ m : Map Queue, (closedTen t s).queues = m.filter (fun k _ => k / 16 != t) := by
  unfold closedTen
  rw [markSecLive_queues, State.setTen_queues, setTenSt_queues, releasePages_queues, closeUnits_queues]
  exact ⟨_, rfl⟩

theorem closedTen_queue? {q : Nat} (hq : q < 16) (s : State) : (closedTen t s).queue? t q = none := by
  have hkey : qkey t q / 16 = t := by
    unfold qkey
    omega
  obtain ⟨m, hm⟩ := exists_closedTen_queues t s
  rw [State.queue?, hm, Map.get?_filter_key m (fun k => k / 16 != t), hkey]
  simp

end

end Sys2Proof.Machine
end

section
/-! SUPPORT. The tenant commands and rows as equations (R69, R70, Table 16 of chapter 02). -/

namespace Sys2Proof.Machine

section

variable {h : Hdr} {ps : List Byte} {s : State}

theorem execTenantOpen_of_taken (ht : cTenantOpen.taken h ps s = true) : execTenantOpen h ps s = .next
    (markSecLive (setTenSt h.tenant.toNat .opened (resetBwr h.tenant.toNat ((okReply 0x0301 h [] s).setTen h.tenant.toNat
      { Tenant.fresh with secure := (s.port h.port).secure })))) := by
  have hsec : ((okReply 0x0301 h [] s).port h.port).secure = (s.port h.port).secure := by rw [okReply_port]
  rw [execTenantOpen, Cmd.exec_now ht, ← hsec]
  rfl

theorem execTenantQuiesce_of_taken (ht : cTenantQuiesce.taken h ps s = true) : execTenantQuiesce h ps s = .next
    (setTenSt h.tenant.toNat .quiesced ((acceptedReply 0x0302 h 0 s).2.setTen h.tenant.toNat
      { s.ten h.tenant.toNat with draining := true, tok := some s.sch.nTok })) := by
  rw [execTenantQuiesce, Cmd.exec_later ht]
  exact congrArg (fun u => Host.Outcome.next (setTenSt _ .quiesced u)) (modTen_eq (acceptedReply_ten ..) _)

/-- The state to which TENANT_CLOSE drops the loads of its tenant. -/
theorem execTenantClose_of_taken (ht : cTenantClose.taken h ps s = true) : execTenantClose h ps s = .next
    (let n := h.tenant.toNat
     let t1 := modTen n (fun v => { v with closing := true, tok := some s.sch.nTok }) (acceptedReply 0x0304 h 0 s).2
     let t2 := if (s.ten n).st = .opened then setTenSt n .quiesced t1 else t1
     cancelQueued n (runLoads
       ((t2.loads.filter (fun l => l.tenant == n)).foldl (fun s l => dropLoad STATE [] l s) t2))) := by
  have hst : ∀ t1 : State, t1 = modTen h.tenant.toNat (fun v => { v with closing := true, tok := some s.sch.nTok })
      (acceptedReply 0x0304 h 0 s).2 → (t1.ten h.tenant.toNat).st = (s.ten h.tenant.toNat).st := by
    rintro t1 rfl
    rw [modTen_eq (acceptedReply_ten ..), State.ten_setTen, if_pos rfl]
  rw [execTenantClose, Cmd.exec_later ht]
  simp only [cTenantClose, Cmd.base, hst _ rfl, beq_iff_eq]

theorem consumed_queue? (h : Hdr) (s : State) (t q : Nat) : (consumed h s).queue? t q = s.queue? t q := by
  simp [State.queue?, consumed]

theorem queueMask_consumed (h : Hdr) (s : State) (t : Nat) : queueMask (consumed h s) t = queueMask s t := by
  simp only [queueMask, consumed_queue?]

theorem execTenantStatus_of_taken (ht : cTenantStatus.taken h ps s = true) : execTenantStatus h ps s = .next
    (okReply 0x0306 h
      (if (s.ten h.tenant.toNat).st = .closed then zeros 5
       else leBytes 1 (s.ten h.tenant.toNat).st.code ++ leBytes 2 (queueMask s h.tenant.toNat)
         ++ leBytes 1 (s.ten h.tenant.toNat).cause
         ++ leBytes 1 (b2n (s.ten h.tenant.toNat).closing + 2 * b2n (s.ten h.tenant.toNat).draining)) s) := by
  rw [execTenantStatus, Cmd.exec_now ht]
  simp only [cTenantStatus, consumed_ten, queueMask_consumed, beq_iff_eq]
  rfl

theorem execTenantQuiesceDrained_of_drained {t : Nat} (hd : (s.ten t).draining = true) (hb : tenBusy s t = false)
    (hsch : s.fwDown fwSch = false) : execTenantQuiesceDrained t s = .next (completeOpt (s.ten t).tok OK []
      (s.setTen t { s.ten t with draining := false, tok := none })) := by
  simp only [execTenantQuiesceDrained, hd, hb, hsch]
  rfl

end

/-- Settles O17: each command is its effect on the state with its reply; a closed tenant's queues went with their table
entries, and its unlocked pages with theirs. -/
theorem tenantLifeCycle : Obligations.TenantLifeCycle := by
  refine ⟨fun h ps s => ⟨execTenantOpen_of_taken, execTenantQuiesce_of_taken, fun ht => Cmd.exec_now ht,
    fun ht => Cmd.exec_now ht, execTenantClose_of_taken, execTenantStatus_of_taken⟩,
    fun t s => ⟨fun hb hsch => ⟨fun hd => execTenantQuiesceDrained_of_drained hd hb hsch,
      fun hc => execTenantCloseDrained_of_drained hc hb hsch⟩, fun u hc hb hsch hu => ?closed,
      fun pg e => lock_of_releasePages⟩⟩
  case closed =>
    obtain rfl := Host.Outcome.next.inj ((execTenantCloseDrained_of_drained hc hb hsch).symm.trans hu)
    have htens : (completeOpt (s.ten t).tok OK [] (closedTen t s)).tens = (closedTen t s).tens := by simp
    have hqueues : (completeOpt (s.ten t).tok OK [] (closedTen t s)).queues = (closedTen t s).queues := by simp
    refine ⟨?_, fun q hq => ?_⟩
    · rw [State.ten, htens]
      exact closedTen_ten t s
    · rw [State.queue?, hqueues]
      exact closedTen_queue? hq s

end Sys2Proof.Machine
end

section
/-! SUPPORT. Queues, doorbells and the taking of ring entries (R71, R72, R173 to R178). -/

namespace Sys2Proof.Machine

section

variable {h : Hdr} {ps : List Byte} {s : State} {t qn v : Nat} {q : Queue}

/-! ## Commands -/

theorem execQueueRings_of_taken (hq : s.queues.get? (qkey h.tenant.toNat h.queue.toNat) = some q)
    (ht : cQueueRings.taken h ps s = true) : execQueueRings h ps s = .next { okReply 0x0313 h [] s with
      queues := s.queues.set (qkey h.tenant.toNat h.queue.toNat) { q with rings := some (u64 ps 0, u64 ps 8) } } := by
  rw [execQueueRings, Cmd.exec_now ht, ← okReply_queues 0x0313 h [] s]
  have hq' : (okReply 0x0313 h [] s).queues.get? (qkey h.tenant.toNat h.queue.toNat) = some q := by
    rw [okReply_queues, hq]
  unfold okReply at hq' ⊢
  simp only [cQueueRings, Cmd.base, hq']

theorem execQueueStatus_of_taken (hq : s.queues.get? (qkey h.tenant.toNat h.queue.toNat) = some q)
    (ht : cQueueStatus.taken h ps s = true) : execQueueStatus h ps s = .next (okReply 0x0312 h
      (leBytes 2 q.cls ++ leBytes 2 q.depth
        ++ leBytes 2 (queueJobs s h.tenant.toNat h.queue.toNat - queueInFlight s h.tenant.toNat h.queue.toNat)
        ++ leBytes 2 (queueInFlight s h.tenant.toNat h.queue.toNat)) s) := by
  have hjobs : (consumed h s).jobs = s.jobs := by simp [consumed]
  have hq' : s.queue? h.tenant.toNat h.queue.toNat = some q := hq
  rw [execQueueStatus, Cmd.exec_now ht]
  simp only [cQueueStatus, consumed_queue?, hq', queueJobs, queueInFlight, hjobs]
  rfl

/-! ## Doorbells -/

/-- The words of SQ_TAIL and CQ_HEAD of a queue in a tenant's doorbell page (Table 2 of chapter 06). -/
theorem queueDoor_eq_some_iff {w : DoorWrite} {o : Nat} (ht : t < 64) (hqn : qn < 16) (ho : o = 0 ∨ o = 4) :
    queueDoor w = some (t, qn, o) ↔ w.size = 4 ∧ w.off = t * 0x1000 + qn * 0x40 + o := by
  have hw : queueDoor w = if w.size = 4 ∧ w.off % 4 = 0 ∧ w.off < 64 * 4096 ∧ w.off % 4096 < 0x400
      ∧ w.off % 4096 % 0x40 < 16 then some (w.off / 4096, w.off % 4096 / 0x40, w.off % 4096 % 0x40) else none := by
    unfold queueDoor doorWord
    split_ifs <;> simp_all
  rw [hw, Option.ite_none_right_eq_some, Option.some.injEq, Prod.mk.injEq, Prod.mk.injEq]
  omega

theorem execSqTailWrite_of_other {w : DoorWrite} (hw : ∀ t qn, queueDoor w ≠ some (t, qn, 0)) :
    execSqTailWrite w s = .next s := by
  unfold execSqTailWrite
  split
  · exact absurd ‹_› (hw _ _)
  · rfl

theorem execCqHeadWrite_of_other {w : DoorWrite} (hw : ∀ t qn, queueDoor w ≠ some (t, qn, 4)) :
    execCqHeadWrite w s = .next s := by
  unfold execCqHeadWrite
  split
  · exact absurd ‹_› (hw _ _)
  · rfl

theorem execSqTailWrite_of_door {w : DoorWrite} (hw : queueDoor w = some (t, qn, 0)) :
    execSqTailWrite w s = .next (writeSqTail t qn w.val s) := by
  simp only [execSqTailWrite, hw]

theorem execCqHeadWrite_of_door {w : DoorWrite} (hw : queueDoor w = some (t, qn, 4)) :
    execCqHeadWrite w s = .next (writeCqHead t qn w.val s) := by
  simp only [execCqHeadWrite, hw]

theorem execSqTailWrite_at (ht : t < 64) (hqn : qn < 16) :
    execSqTailWrite ⟨t * 0x1000 + qn * 0x40, 4, v⟩ s = .next (writeSqTail t qn v s) :=
  execSqTailWrite_of_door ((queueDoor_eq_some_iff ht hqn (.inl rfl)).mpr ⟨rfl, (Nat.add_zero _).symm⟩)

theorem execCqHeadWrite_at (ht : t < 64) (hqn : qn < 16) :
    execCqHeadWrite ⟨t * 0x1000 + qn * 0x40 + 4, 4, v⟩ s = .next (writeCqHead t qn v s) :=
  execCqHeadWrite_of_door ((queueDoor_eq_some_iff ht hqn (.inr rfl)).mpr ⟨rfl, rfl⟩)

theorem doorbell_of_ring (f : Queue → State → State) (hq : s.queues.get? (qkey t qn) = some q)
    (hr : q.rings.isSome = true) (hst : (s.ten t).st = .opened) : doorbell t qn f s = f q s := by
  simp [doorbell, hq, hr, hst]

/-- A doorbell of a queue that is not ring-fed, or of a tenant that is not OPEN, is ignored and counted. -/
theorem doorbell_of_no_ring (f : Queue → State → State)
    (hq : ∀ q, s.queues.get? (qkey t qn) = some q → q.rings = none ∨ (s.ten t).st ≠ .opened) :
    doorbell t qn f s = s.setTen t { s.ten t with
      acct := { (s.ten t).acct with dbign := min 0xFFFFFFFF ((s.ten t).acct.dbign + 1) } } := by
  unfold doorbell
  split
  · next q hsome =>
    rw [if_neg (by rcases hq q hsome with h | h <;> simp [h])]
    rfl
  · rfl

theorem writeSqTail_of_within (hq : s.queues.get? (qkey t qn) = some q) (hr : q.rings.isSome = true)
    (hst : (s.ten t).st = .opened) (hv : sqAhead q v ≤ q.depth) : writeSqTail t qn v s = { s with
      queues := s.queues.set (qkey t qn) { q with sqTail := v % 2 ^ 32, overrun := false } } := by
  rw [writeSqTail, doorbell_of_ring _ hq hr hst]
  simp [hv.not_gt]

theorem writeSqTail_of_overrun (hq : s.queues.get? (qkey t qn) = some q) (hr : q.rings.isSome = true)
    (hst : (s.ten t).st = .opened) (hv : q.depth < sqAhead q v) : writeSqTail t qn v s = faultTenant t 1 { s with
      queues := s.queues.set (qkey t qn) { q with sqTail := v % 2 ^ 32, overrun := true } } := by
  rw [writeSqTail, doorbell_of_ring _ hq hr hst]
  simp [hv]

/-! ## Ring entries -/

theorem devRead_of_allowed {c : Acc} {a n : Nat} (hc : accessCheck s c a n = 0) (hl : rtLocked s a n = false) :
    devRead c a n s = (dramRead s a n, s) := by
  simp [devRead, hc, hl]

theorem execSqEntryTake_of_entry {sq cq : Nat} (hqn : qn < 16) (hq : s.queues.get? (qkey t qn) = some q)
    (hr : q.rings = some (sq, cq)) (hst : (s.ten t).st = .opened) (hsch : s.fwDown fwSch = false)
    (hdev : s.dev.st ∈ [DevSt.ready, .run, .degraded, .service]) (hover : q.overrun = false)
    (hahead : sqAhead q q.sqTail ≠ 0) (hdepth : queueJobs s t qn < q.depth)
    (howed : cqOwed q + queueJobs s t qn < q.depth) : execSqEntryTake t qn s = .next
      (let rd := devRead (accSch t) (sq + q.sqHead % q.depth * 64) 64 s
       let r' := { rd.2 with queues := rd.2.queues.set (qkey t qn) { q with sqHead := (q.sqHead + 1) % 65536 } }
       if descStatus rd.2 t q.cls rd.1 = OK then takeJob (jobOf rd.2 t qn q rd.1 none) r'
       else deliver (jobOf rd.2 t qn q rd.1 none) (descStatus rd.2 t q.cls rd.1) 0 0 0 (countTaken t qn r')) := by
  have hwork : stWork.contains s.dev.st = true := List.contains_iff_mem.mpr hdev
  simp only [execSqEntryTake, hq, hr]
  rw [if_neg (by simp only [hst, hsch, hover, hwork]; simp [hahead, hdepth, howed, hqn]), apply_ite Host.Outcome.next]
  simp only [beq_iff_eq]

end

/-- Settles O18: the commands act on one entry of the table of queues; an aligned write of 4 bytes names one doorbell;
and an entry that no check holds back is read, and becomes a job or a completion. -/
theorem queuesDoorbellsAndRings : Obligations.QueuesDoorbellsAndRings := by
  refine ⟨fun h ps s => ⟨fun ht => ?create, fun ht => ?destroy, fun q hq => execQueueRings_of_taken hq,
    fun q hq => execQueueStatus_of_taken hq⟩, fun w t qn o ht hqn ho => queueDoor_eq_some_iff ht hqn ho,
    fun w s => execSqTailWrite_of_other, fun w s => execCqHeadWrite_of_other, fun t qn v s ht hqn => ⟨fun q hq hr hst =>
    ⟨fun hv => ?within, fun hv => ?overrun, ?head⟩, fun hq => ⟨?ignored, ?ignoredHead⟩, fun q sq cq hq hr hst hsch hdev
    hover hahead hdepth howed => ⟨execSqEntryTake_of_entry hqn hq hr hst hsch hdev hover hahead hdepth howed,
      devRead_of_allowed⟩⟩⟩
  case create => exact (Cmd.exec_now ht).trans (by rw [← okReply_queues 0x0310 h [] s]; rfl)
  case destroy => exact (Cmd.exec_now ht).trans (by rw [← okReply_queues 0x0311 h [] s]; rfl)
  case within => exact (execSqTailWrite_at ht hqn).trans (congrArg _ (writeSqTail_of_within hq hr hst hv))
  case overrun => exact (execSqTailWrite_at ht hqn).trans (congrArg _ (writeSqTail_of_overrun hq hr hst hv))
  case head => exact (execCqHeadWrite_at ht hqn).trans (congrArg _ (doorbell_of_ring _ hq hr hst))
  case ignored => exact (execSqTailWrite_at ht hqn).trans (congrArg _ (doorbell_of_no_ring _ hq))
  case ignoredHead =>
    refine (execCqHeadWrite_at ht hqn).trans (.trans ?_ (execSqTailWrite_at ht hqn).symm)
    exact congrArg _ ((doorbell_of_no_ring _ hq).trans (doorbell_of_no_ring _ hq).symm)

end Sys2Proof.Machine
end

section
/-! SUPPORT. Operations that leave the fields of the device state alone, in the order of the model's text. -/

set_option Elab.async false

namespace Sys2Proof.Machine

@[simp] theorem State.ite_dev {c : Prop} {_ : Decidable c} {s t : State} :
    (if c then s else t).dev = if c then s.dev else t.dev :=
  apply_ite ..

@[simp] theorem State.foldl_dev {α : Type} {f : State → α → State} {l : List α} {s : State}
    (hf : ∀ s x, (f s x).dev = s.dev) : (l.foldl f s).dev = s.dev :=
  foldl_frame State.dev hf l s

/-! ## Ports, completions, tenants and the journal -/

@[simp] theorem putReply_dev {p : Port} {o : OutPkt} {s : State} : (putReply p o s).dev = s.dev := by simp [putReply]

@[simp] theorem accept_dev {p : Port} {op tag seq space : Nat} {s : State} :
    (accept p op tag seq space s).2.dev = s.dev := by simp [accept]

@[simp] theorem releaseCpl_dev {s : State} : (releaseCpl s).dev = s.dev := by simp [releaseCpl]

@[simp] theorem journal_dev {op port : Nat} {secure : Bool} {tenant object value : Nat} {s : State} :
    (journal op port secure tenant object value s).dev = s.dev := by simp [journal]

@[simp] theorem journalCmd_dev {h : Hdr} {op object value : Nat} {s : State} :
    (journalCmd h op object value s).dev = s.dev := by simp [journalCmd]

@[simp] theorem setTenSt_dev {t : Nat} {n : TenSt} {s : State} : (setTenSt t n s).dev = s.dev := by simp [setTenSt]

/-! ## DRAM, the cache and accesses -/

@[simp] theorem trimCache_dev {cl : Nat} {s : State} : (trimCache s cl).dev = s.dev := by simp [trimCache]

@[simp] theorem cacheRead_dev {cl : Nat} {secure : Bool} {t line : Nat} {alloc stream : Bool} {s : State} :
    (cacheRead cl secure t line alloc stream s).dev = s.dev := by
  unfold cacheRead
  dsimp only
  (repeat' split) <;> simp

@[simp] theorem dropLines_dev {a n : Nat} {s : State} : (dropLines a n s).dev = s.dev := by simp [dropLines]

@[simp] theorem dramWrite_dev {a : Nat} {bs : List Byte} {s : State} : (dramWrite a bs s).dev = s.dev := by
  simp [dramWrite]

@[simp] theorem zeroPages_dev {first count : Nat} {s : State} : (zeroPages first count s).dev = s.dev := by
  simp [zeroPages]

@[simp] theorem recordViol_dev {src : Nat} {secure write : Bool} {ten reason a : Nat} {s : State} :
    (recordViol src secure write ten reason a s).dev = s.dev := by simp [recordViol]

@[simp] theorem fwLog_dev {secure : Bool} {kind unit detail : Nat} {s : State} :
    (fwLog secure kind unit detail s).dev = s.dev := by simp [fwLog]

@[simp] theorem markRtLock_dev {s : State} : (markRtLock s).dev = s.dev := by simp [markRtLock]

@[simp] theorem devWrite_dev {c : Acc} {a : Nat} {bs : List Byte} {s : State} : (devWrite c a bs s).dev = s.dev := by
  unfold devWrite
  split <;> simp

@[simp] theorem ownWrite_dev {t a : Nat} {bs : List Byte} {s : State} : (ownWrite t a bs s).dev = s.dev := by
  simp [ownWrite]

@[simp] theorem undefBytes_dev {n : Nat} {s : State} : (undefBytes n s).2.dev = s.dev := by simp [undefBytes]

@[simp] theorem devRead_dev {c : Acc} {a n : Nat} {s : State} : (devRead c a n s).2.dev = s.dev := by
  unfold devRead
  split
  · split <;> simp
  · simp

/-! ## What a latch, a fault or a close does to the units -/

@[simp] theorem noteDeg_dev {s : State} : (noteDeg s).dev = s.dev := by simp [noteDeg]

@[simp] theorem modCtx_dev {k : Nat} {f : StreamCtx → StreamCtx} {s : State} : (modCtx k f s).dev = s.dev := by
  unfold modCtx
  split <;> rfl

@[simp] theorem setCtxSt_dev {k : Nat} {n : CtxSt} {reason : Nat} {s : State} :
    (setCtxSt k n reason s).dev = s.dev := by
  unfold setCtxSt
  split <;> simp

@[simp] theorem startStreams_dev {s : State} : (startStreams s).dev = s.dev := by simp [startStreams]

@[simp] theorem faultStreams_dev {t : Nat} {s : State} : (faultStreams t s).dev = s.dev := by simp [faultStreams]

@[simp] theorem closeStream_dev {k : Nat} {s : State} : (closeStream k s).dev = s.dev := by
  unfold closeStream
  dsimp only
  split <;> simp

@[simp] theorem dropPasses_dev {id : Nat} {s : State} : (dropPasses id s).dev = s.dev := by simp [dropPasses]

@[simp] theorem commitFlips_dev {id : Nat} {s : State} : (commitFlips id s).dev = s.dev := by
  unfold commitFlips
  split
  · rfl
  · exact foldl_frame State.dev (fun s f => by split <;> simp) _ s

@[simp] theorem untrain_dev {k status : Nat} {s : State} : (untrain k status s).dev = s.dev := by
  unfold untrain
  split
  · rfl
  · split <;> simp

@[simp] theorem faultDisp_dev {t k : Nat} {s : State} : (faultDisp t k s).dev = s.dev := by
  unfold faultDisp
  split <;> simp

@[simp] theorem faultDisps_dev {t : Nat} {s : State} : (faultDisps t s).dev = s.dev := by simp [faultDisps]

@[simp] theorem dispOff_dev {k : Nat} {s : State} : (dispOff k s).dev = s.dev := by
  unfold dispOff
  dsimp only
  split <;> simp

@[simp] theorem closeRctx_dev {n : Nat} {s : State} : (closeRctx n s).dev = s.dev := by
  unfold closeRctx
  split <;> simp

@[simp] theorem closeRaster_dev {t : Nat} {s : State} : (closeRaster t s).dev = s.dev := by simp [closeRaster]

@[simp] theorem State.setFeng_dev {die : Nat} {e : FusEng} {s : State} : (s.setFeng die e).dev = s.dev := by
  simp [State.setFeng]

@[simp] theorem evFusion_dev {ctx ev idx st g : Nat} {s : State} : (evFusion ctx ev idx st g s).dev = s.dev := by
  simp [evFusion]

@[simp] theorem freeFusCtx_dev {n : Nat} {s : State} : (freeFusCtx n s).dev = s.dev := by
  unfold freeFusCtx
  split <;> simp

@[simp] theorem boundEvents_dev {n : Nat} {old new : FusCtx} {s : State} : (boundEvents n old new s).dev = s.dev := by
  simp [boundEvents]

@[simp] theorem commitFusion_dev {id : Nat} {s : State} : (commitFusion id s).dev = s.dev :=
  foldl_frame State.dev (fun s c => by dsimp only; split <;> simp) _ s

@[simp] theorem dropFusion_dev {id : Nat} {s : State} : (dropFusion id s).dev = s.dev := by simp [dropFusion]

@[simp] theorem endFusion_dev {id : Nat} {s : State} : (endFusion id s).dev = s.dev := by simp [endFusion]

@[simp] theorem haltEngines_dev {f : Engine → Bool} {cause : Nat} {s : State} :
    (haltEngines f cause s).dev = s.dev := by
  simp [haltEngines]

@[simp] theorem closeControl_dev {t : Nat} {s : State} : (closeControl t s).dev = s.dev := by simp [closeControl]

@[simp] theorem dropUnits_dev {id : Nat} {s : State} : (dropUnits id s).dev = s.dev := by simp [dropUnits]

@[simp] theorem endUnits_dev {id : Nat} {s : State} : (endUnits id s).dev = s.dev := by simp [endUnits]

@[simp] theorem commitUnits_dev {id : Nat} {s : State} : (commitUnits id s).dev = s.dev := by simp [commitUnits]

@[simp] theorem safeUnits_dev {s : State} : (safeUnits s).dev = s.dev := by simp [safeUnits]

@[simp] theorem afterSafe_dev {s : State} : (afterSafe s).dev = s.dev := by simp [afterSafe]

@[simp] theorem faultUnits_dev {t : Nat} {s : State} : (faultUnits t s).dev = s.dev := by simp [faultUnits]

@[simp] theorem closeGateway_dev {t : Nat} {s : State} : (closeGateway t s).dev = s.dev := by simp [closeGateway]

@[simp] theorem abortUnits_dev {s : State} : (abortUnits s).dev = s.dev := by simp [abortUnits]

@[simp] theorem closeUnits_dev {t : Nat} {s : State} : (closeUnits t s).dev = s.dev := by simp [closeUnits]

/-! ## Jobs, weight banks and the entry to SAFE -/

@[simp] theorem addJob_dev {j : Job} {s : State} : (addJob j s).dev = s.dev := by simp [addJob]

@[simp] theorem releaseTiles_dev {id : Nat} {f : Nat → Bool} {s : State} : (releaseTiles id f s).dev = s.dev := by
  unfold releaseTiles
  split <;> rfl

@[simp] theorem grantTo_dev {id : Nat} {s : State} : (grantTo id s).dev = s.dev := by simp [grantTo]

@[simp] theorem grantTiles_dev {s : State} : (grantTiles s).dev = s.dev := by simp [grantTiles]

@[simp] theorem raiseVt_dev {j : Job} {s : State} : (raiseVt j s).dev = s.dev := by simp [raiseVt]

@[simp] theorem writeHeaders_dev {j : Job} {valid : Bool} {sflags epoch cseq : Nat} {s : State} :
    (writeHeaders j valid sflags epoch cseq s).dev = s.dev := by simp [writeHeaders]

@[simp] theorem msixSignal_dev {n : Nat} {s : State} : (msixSignal n s).dev = s.dev := by simp [msixSignal]

@[simp] theorem deliver_dev {j : Job} {st fc epoch cseq : Nat} {s : State} :
    (deliver j st fc epoch cseq s).dev = s.dev := by
  unfold deliver
  dsimp only
  (repeat' split) <;> simp

@[simp] theorem setBank_dev {h : Nat} {b : BankSt} {reason : Nat} {s : State} : (setBank h b reason s).dev = s.dev := by
  unfold setBank
  split <;> rfl

@[simp] theorem drainBank_dev {h : Nat} {s : State} : (drainBank h s).dev = s.dev := by
  unfold drainBank
  split <;> simp

@[simp] theorem addEval_dev {h idx : Nat} {s : State} : (addEval h idx s).dev = s.dev := by
  unfold addEval
  split <;> rfl

@[simp] theorem fillResident_dev {h bank : Nat} {s : State} : (fillResident h bank s).dev = s.dev := by
  unfold fillResident
  split
  · rfl
  · refine foldl_frame State.dev (fun s r => ?_) _ s
    split
    · split
      · rfl
      · split <;> simp
    · rfl

@[simp] theorem acceptCand_dev {h : Nat} {s : State} : (acceptCand h s).dev = s.dev := by
  unfold acceptCand
  split <;> simp

@[simp] theorem fillStandby_dev {h : Nat} {s : State} : (fillStandby h s).dev = s.dev := by
  unfold fillStandby
  split <;> simp

@[simp] theorem startEval_dev {h ms : Nat} {tok : Option Nat} {s : State} : (startEval h ms tok s).dev = s.dev := by
  unfold startEval
  dsimp only
  split <;> simp

@[simp] theorem evalPassed_dev {h idx sig : Nat} {s : State} : (evalPassed h idx sig s).dev = s.dev := by
  unfold evalPassed
  dsimp only
  split <;> simp

@[simp] theorem swapBank_dev {h : Nat} {s : State} : (swapBank h s).dev = s.dev := by
  unfold swapBank
  split <;> simp

@[simp] theorem bankAfter_dev {id : Nat} {j : Job} {ok : Bool} {s : State} : (bankAfter id j ok s).dev = s.dev := by
  unfold bankAfter
  split <;> simp

@[simp] theorem dropWork_dev {id : Nat} {s : State} : (dropWork id s).dev = s.dev := by simp [dropWork]

@[simp] theorem fillChk_dev {s : State} : (fillChk s).dev = s.dev := by
  unfold fillChk
  split <;> simp

@[simp] theorem dropChk_dev {id : Nat} {s : State} : (dropChk id s).dev = s.dev := by simp [dropChk]

@[simp] theorem freeOld_dev {h : Nat} {s : State} : (freeOld h s).dev = s.dev := by simp [freeOld]

@[simp] theorem finishJob_dev {id st fc epoch cseq : Nat} {s : State} :
    (finishJob id st fc epoch cseq s).dev = s.dev := by
  unfold finishJob
  dsimp only
  (repeat' split) <;> simp

@[simp] theorem dropJobs_dev {f : Job → Bool} {st : Nat} {s : State} : (dropJobs f st s).dev = s.dev := by
  simp [dropJobs]

@[simp] theorem freeCand_dev {h reason st : Nat} {s : State} : (freeCand h reason st s).dev = s.dev := by
  unfold freeCand
  split <;> simp

@[simp] theorem finishInvalid_dev {id fc : Nat} {s : State} : (finishInvalid id fc s).dev = s.dev := by
  unfold finishInvalid
  dsimp only
  (repeat' split) <;> simp

@[simp] theorem noteFrame_dev {h : Nat} {failed : Bool} {s : State} : (noteFrame h failed s).dev = s.dev := by
  simp [noteFrame]

@[simp] theorem failDeps_dev {n : Nat} {s : State} : (failDeps n s).dev = s.dev := by
  induction n generalizing s with
  | zero => rfl
  | succ n ih =>
    unfold failDeps
    split
    · rw [ih]
      simp
    · rfl

@[simp] theorem sweepHeaders_dev {t : Nat} {rs : List Recent} {s : State} : (sweepHeaders t rs s).dev = s.dev := by
  simp [sweepHeaders]

@[simp] theorem sweepProgs_dev {f : Prog → Bool} {s : State} : (sweepProgs f s).dev = s.dev := by simp [sweepProgs]

@[simp] theorem evSafe_dev {phase : Nat} {s : State} : (evSafe phase s).dev = s.dev := by simp [evSafe]

@[simp] theorem dropLoad_dev {st : Nat} {data : List Byte} {l : Load} {s : State} :
    (dropLoad st data l s).dev = s.dev := by
  unfold dropLoad
  split <;> simp

@[simp] theorem abortSubmits_dev {s : State} : (abortSubmits s).dev = s.dev := by simp [abortSubmits]

@[simp] theorem abortAccepted_dev {s : State} : (abortAccepted s).dev = { s.dev with stopTok := none } := by
  simp [abortAccepted]

@[simp] theorem endEvals_dev {s : State} : (endEvals s).dev = s.dev := by simp [endEvals]

@[simp] theorem restartJob_dev {id : Nat} {s : State} : (restartJob id s).dev = s.dev := by
  unfold restartJob
  split <;> simp

/-! ## Passes and writeback -/

@[simp] theorem countNonfin_dev {cl n : Nat} {s : State} : (countNonfin cl n s).dev = s.dev := by simp [countNonfin]

/-! ## Packets at their turn -/

@[simp] theorem replyOnly_dev {op : Nat} {h : Hdr} {st : Nat} {data : List Byte} {s : State} :
    (replyOnly op h st data s).dev = s.dev := by simp [replyOnly]

@[simp] theorem logInternal_dev {c : Cmd} {h : Hdr} {ps : List Byte} {s n : State} :
    (logInternal c h ps s n).dev = n.dev := by
  simp [logInternal]

@[simp] theorem runUnknown_dev {op : Nat} {h : Hdr} {s : State} : (runUnknown op h s).dev = s.dev := by
  unfold runUnknown
  split
  · simp
  · split <;> simp

/-! ## Programs and loads -/

@[simp] theorem evProg_dev {h t kind lc cl tile : Nat} {s : State} : (evProg h t kind lc cl tile s).dev = s.dev := by
  simp [evProg]

@[simp] theorem reserve_dev {l : Load} {s : State} : (reserve l s).dev = s.dev := by simp [reserve]

@[simp] theorem reserveWaiting_dev {l : Load} {s : State} : (reserveWaiting l s).dev = s.dev := by
  simp [reserveWaiting]

@[simp] theorem addWaiting_dev {tok t : Nat} {ps : List Byte} {st : LoadSt} {rep : Option (Nat × Nat)} {s : State} :
    (addWaiting tok t ps st rep s).dev = s.dev := by simp [addWaiting]

@[simp] theorem makeSteps_dev {l : Load} {s : State} : (makeSteps l s).dev = s.dev := by
  unfold makeSteps
  split <;> simp

@[simp] theorem stepLoads_dev {n : Nat} {s : State} : (stepLoads n s).dev = s.dev := by
  induction n generalizing s with
  | zero => rfl
  | succ n ih =>
    unfold stepLoads
    split
    · split
      · rfl
      · rw [ih, makeSteps_dev]
    · rfl

@[simp] theorem runLoads_dev {s : State} : (runLoads s).dev = s.dev := by simp [runLoads]

@[simp] theorem endDrain_dev {l : Load} {s : State} : (endDrain l s).dev = s.dev := by simp [endDrain]

@[simp] theorem dropProgCmds_dev {h : Nat} {p : Prog} {st : Nat} {s : State} : (dropProgCmds h p st s).dev = s.dev := by
  simp [dropProgCmds]

@[simp] theorem removeProg_dev {h jobSt jobFc cmdSt : Nat} {s : State} :
    (removeProg h jobSt jobFc cmdSt s).dev = s.dev := by
  unfold removeProg
  dsimp only
  (repeat' split) <;> simp

@[simp] theorem loseProg_dev {h lc cl tile : Nat} {s : State} : (loseProg h lc cl tile s).dev = s.dev := by
  unfold loseProg
  split <;> simp

@[simp] theorem unloadProg_dev {h : Nat} {s : State} : (unloadProg h s).dev = s.dev := by
  unfold unloadProg
  split <;> simp

@[simp] theorem rebindJob_dev {id old : Nat} {new : Option Nat} {tiles : List Nat} {deg : Bool} {s : State} :
    (rebindJob id old new tiles deg s).dev = s.dev := by
  unfold rebindJob
  split <;> simp

@[simp] theorem rebindJobs_dev {cl t : Nat} {sp : Option Nat} {h no : Nat} {bs : List LcBind} {s : State} :
    (rebindJobs cl t sp h no bs s).dev = s.dev := by
  refine foldl_frame State.dev (fun s id => ?_) _ s
  split
  · simp
  · split
    · split <;> simp
    · rfl

@[simp] theorem retireInOld_dev {cl t : Nat} {sp : Option Nat} {h : Nat} {o : OldImg} {s : State} :
    (retireInOld cl t sp h o s).dev = s.dev := by
  unfold retireInOld
  split <;> simp

@[simp] theorem retireInProg_dev {cl t : Nat} {sp : Option Nat} {h : Nat} {s : State} :
    (retireInProg cl t sp h s).dev = s.dev := by
  unfold retireInProg
  dsimp only
  (repeat' split) <;> simp

@[simp] theorem retireInLoad_dev {cl t : Nat} {sp : Option Nat} {l : Load} {s : State} :
    (retireInLoad cl t sp l s).dev = s.dev := by
  unfold retireInLoad
  split <;> simp

@[simp] theorem wear_dev {kind action cause inst value : Nat} {s : State} :
    (wear kind action cause inst value s).dev = s.dev := by simp [wear]

@[simp] theorem modMap_dev {f : RetMap → RetMap} {s : State} : (modMap f s).dev = s.dev := by simp [modMap]

@[simp] theorem firstCover_dev {h : Nat} {s : State} : (firstCover h s).dev = s.dev := by simp [firstCover]

@[simp] theorem copyWeights_dev {l : Load} {s : State} : (copyWeights l s).dev = s.dev := by simp [copyWeights]

@[simp] theorem clearLost_dev {l : Load} {s : State} : (clearLost l s).dev = s.dev := by simp [clearLost]

/-! ## Tenants -/

@[simp] theorem markSecLive_dev {s : State} : (markSecLive s).dev = s.dev := by simp [markSecLive]

@[simp] theorem resetBwr_dev {t : Nat} {s : State} : (resetBwr t s).dev = s.dev := by simp [resetBwr]

@[simp] theorem releasePages_dev {t : Nat} {s : State} : (releasePages t s).dev = s.dev := by simp [releasePages]

/-! ## Queues and jobs -/

@[simp] theorem wakeVt_dev {t : Nat} {s : State} : (wakeVt t s).dev = s.dev := by
  unfold wakeVt
  split
  · rfl
  · split <;> simp

@[simp] theorem countTaken_dev {t qn : Nat} {s : State} : (countTaken t qn s).dev = s.dev := by
  unfold countTaken
  split <;> rfl

@[simp] theorem takeJob_dev {j : Job} {s : State} : (takeJob j s).dev = s.dev := by simp [takeJob]

@[simp] theorem writeCqHead_dev {tenant queue v : Nat} {s : State} : (writeCqHead tenant queue v s).dev = s.dev := by
  unfold writeCqHead doorbell
  split <;> simp

@[simp] theorem applyLeave_dev {h : Nat} {g : BatchChg} {s : State} : (applyLeave h g s).dev = s.dev := by
  simp [applyLeave]

@[simp] theorem applyJoin_dev {h : Nat} {g : BatchChg} {s : State} : (applyJoin h g s).dev = s.dev := by
  unfold applyJoin
  dsimp only
  (repeat' split) <;> simp

@[simp] theorem batchBoundary_dev {h : Nat} {s : State} : (batchBoundary h s).dev = s.dev := by
  unfold batchBoundary
  split <;> simp

/-! ## Halo buffers and the Colander -/

@[simp] theorem setHalo_dev {b : HaloBuf} {s : State} : (setHalo b s).dev = s.dev := by simp [setHalo]

@[simp] theorem State.setCld_dev {die : Nat} {c : Colander} {s : State} : (s.setCld die c).dev = s.dev := by
  simp [State.setCld]

/-! ## Pixels of a pass -/

@[simp] theorem addNonres_dev {cl n : Nat} {s : State} : (addNonres cl n s).dev = s.dev := by simp [addNonres]

@[simp] theorem convFlags_dev {cl : Nat} {sat : Bool} {nf : Nat} {s : State} : (convFlags cl sat nf s).dev = s.dev := by
  simp [convFlags]

@[simp] theorem blendSamples_dev {e : PassEnv} {p : RPrim} {cl x y : Nat} {ks : List Nat} {cols : List (List Nat)}
    {a : TileMem × State} : (blendSamples e p cl x y ks cols a).2.dev = a.2.dev :=
  foldl_frame (fun a : TileMem × State => a.2.dev)
    (fun a _ => foldl_frame (fun a : TileMem × State => a.2.dev) (fun _ _ => convFlags_dev) _ a) _ a

/-! ## Displays -/

@[simp] theorem evDisplay_dev {k ev : Nat} {s : State} : (evDisplay k ev s).dev = s.dev := by simp [evDisplay]

@[simp] theorem frameCrcs_dev {disp : Nat} {s : State} : (frameCrcs disp s).dev = s.dev := by simp [frameCrcs]

/-! ## Clock maps -/

@[simp] theorem modMapK_dev {k : Nat} {f : ClockMap → ClockMap} {s : State} : (modMapK k f s).dev = s.dev := by
  simp [modMapK]

@[simp] theorem setMst_dev {k n uno : Nat} {s : State} : (setMst k n uno s).dev = s.dev := by simp [setMst]

@[simp] theorem mapUnit_dev {k : Nat} {u : UnitSt} {ok : Bool} {s : State} : (mapUnit k u ok s).dev = s.dev := by
  simp [mapUnit]

@[simp] theorem recordUnit_dev {k : Nat} {u : UnitSt} {ok keep : Bool} {s : State} :
    (recordUnit k u ok keep s).dev = s.dev := by simp [recordUnit]

/-! ## The operands of fusion calls -/

@[simp] theorem callTv_dev {c : FusCtx} {d fb : List Byte} {s : State} : (callTv s c d fb).2.dev = s.dev := by
  unfold callTv
  dsimp only
  (repeat' split) <;> simp

/-! ## Units of streams -/

@[simp] theorem scrambleBuf_dev {c : StreamCtx} {u : UnitSt} {s : State} : (scrambleBuf c u s).dev = s.dev := by
  simp [scrambleBuf]

@[simp] theorem countBad_dev {csi : Bool} {port : Nat} {s : State} : (countBad csi port s).dev = s.dev := by
  simp [countBad]

/-! ## Time, pulses and captures -/

@[simp] theorem State.setDom_dev {d : Nat} {v : Dom} {s : State} : (s.setDom d v).dev = s.dev := by
  simp [State.setDom]

@[simp] theorem modNetPort_dev {p : Nat} {f : NetPort → NetPort} {s : State} : (modNetPort p f s).dev = s.dev := by
  simp [modNetPort]

@[simp] theorem macSend_dev {mac : Nat} {frame : List Byte} {s : State} : (macSend mac frame s).dev = s.dev := by
  simp [macSend]

@[simp] theorem evTime_dev {new prev cause : Nat} {s : State} : (evTime new prev cause s).dev = s.dev := by
  simp [evTime]

@[simp] theorem servo_dev {s : State} : (servo s).dev = s.dev := by simp [servo]

@[simp] theorem stepTime_dev {d : Nat} {s : State} : (stepTime d s).dev = s.dev := by simp [stepTime]

@[simp] theorem autostep_dev {prev : Nat} {s : State} : (autostep prev s).dev = s.dev := by simp [autostep]

@[simp] theorem setActive_dev {n cause : Nat} {s : State} : (setActive n cause s).dev = s.dev := by simp [setActive]

@[simp] theorem reselect_dev {cause : Nat} {s : State} : (reselect cause s).dev = s.dev := by simp [reselect]

@[simp] theorem invalidMac_dev {mac : Nat} {s : State} : (invalidMac mac s).dev = s.dev := by simp [invalidMac]

@[simp] theorem drainTci_dev {k : Nat} {s : State} : (drainTci k s).dev = s.dev := by
  unfold drainTci
  split
  · rfl
  · refine foldl_frame (fun x : State × Nat => x.1.dev) (fun x e => ?_) _ _
    exact offer0_dev ..

/-! ## Fusion -/

@[simp] theorem applyPend_dev {n : Nat} {p : Nat × FusChange} {s : State} : (applyPend n p s).dev = s.dev := by
  unfold applyPend
  split <;> simp

@[simp] theorem applyAll_dev {n : Nat} {s : State} : (applyAll n s).dev = s.dev := by
  unfold applyAll
  split <;> simp

@[simp] theorem pendChange_dev {n tok : Nat} {g : FusChange} {s : State} : (pendChange n tok g s).dev = s.dev := by
  unfold pendChange
  split <;> simp

@[simp] theorem beginCall_dev {n job : Nat} {s : State} : (beginCall n job s).dev = s.dev := by
  unfold beginCall
  split <;> rfl

@[simp] theorem countSat_dev {cl n : Nat} {s : State} : (countSat cl n s).dev = s.dev := by simp [countSat]

/-! ## Render passes -/

@[simp] theorem countDisplaced_dev {p : RPass} {s : State} : (countDisplaced p s).dev = s.dev := by
  unfold countDisplaced
  split
  · rfl
  · exact foldl_frame State.dev (fun s q => by dsimp only; split <;> simp) _ s

@[simp] theorem setRunning_dev {rctx : Nat} {run : RRun} {f : RasCtx → RasCtx} {s : State} :
    (setRunning rctx run f s).dev = s.dev := by
  unfold setRunning
  split <;> rfl

@[simp] theorem endPass_dev {rctx : Nat} {s : State} : (endPass rctx s).dev = s.dev := by
  unfold endPass
  split <;> simp

/-! ## Skink and its checker -/

@[simp] theorem skResult_dev {err : Nat} {d : List Byte} {s : State} : (skResult err d s).dev = s.dev := by
  simp [skResult]

@[simp] theorem sendC0_dev {m : C0Msg} {s : State} : (sendC0 m s).dev = s.dev := by simp [sendC0]

@[simp] theorem evCoverage_dev {h kind due : Nat} {s : State} : (evCoverage h kind due s).dev = s.dev := by
  simp [evCoverage]

@[simp] theorem slotWrite_dev {p : Prog} {lc slot : Nat} {copyB : Bool} {off : Nat} {bs : List Byte} {s : State} :
    (slotWrite p lc slot copyB off bs s).dev = s.dev := by
  unfold slotWrite
  split <;> rfl

/-! ## The dispatcher -/

@[simp] theorem countWait_dev {j : Job} {s : State} : (countWait j s).dev = s.dev := by simp [countWait]

@[simp] theorem askStop_dev {id : Nat} {ts : List Nat} {s : State} : (askStop id ts s).dev = s.dev := by
  simp [askStop]

@[simp] theorem startJob_dev {id : Nat} {s : State} : (startJob id s).dev = s.dev := by
  unfold startJob
  dsimp only
  (repeat' split) <;> simp

@[simp] theorem startGolden_dev {h : Nat} {s : State} : (startGolden h s).dev = s.dev := by
  unfold startGolden
  split <;> simp

@[simp] theorem parkRead_dev {id tile : Nat} {r : Nat × Nat} {s : State} : (parkRead id tile r s).dev = s.dev := by
  simp [parkRead]

@[simp] theorem preemptJob_dev {id : Nat} {s : State} : (preemptJob id s).dev = s.dev := by
  unfold preemptJob
  split <;> simp

@[simp] theorem takeReply_dev {job token : Nat} {data : List Byte} {s : State} :
    (takeReply job token data s).dev = s.dev := by
  unfold takeReply
  split <;> simp

@[simp] theorem holdReply_dev {job port tile token : Nat} {data : List Byte} {s : State} :
    (holdReply job port tile token data s).dev = s.dev := by simp [holdReply]

@[simp] theorem queueChk_dev {id : Nat} {s : State} : (queueChk id s).dev = s.dev := by simp [queueChk]

@[simp] theorem adoptEpoch_dev {s : State} : (adoptEpoch s).dev = s.dev := by
  unfold adoptEpoch
  split <;> simp

/-! ## Control engines -/

@[simp] theorem evControl_dev {ce idx ev st : Nat} {s : State} : (evControl ce idx ev st s).dev = s.dev := by
  simp [evControl]

@[simp] theorem stopLoop_dev {ce k st cause : Nat} {x : Engine × State} :
    (stopLoop ce k st cause x).2.dev = x.2.dev := by
  simp [stopLoop]

@[simp] theorem feAct_dev {ce k : Nat} {x : Engine × State} : (feAct ce k x).2.dev = x.2.dev := by
  unfold feAct
  dsimp only
  split <;> simp

@[simp] theorem evalLoop_dev {ce n bumpMask k : Nat} {x : Engine × State} :
    (evalLoop ce n bumpMask k x).2.dev = x.2.dev := by
  unfold evalLoop
  dsimp only
  split
  · rfl
  · split
    · exact stopLoop_dev
    · split
      · exact feAct_dev
      · rfl

@[simp] theorem turnLoop_dev {ce n bumpMask : Nat} {x : Engine × State} {k : Nat} :
    (turnLoop ce n bumpMask x k).2.dev = x.2.dev := by
  unfold turnLoop
  dsimp only
  split <;> exact evalLoop_dev

@[simp] theorem applySwap_dev {ce n : Nat} {x : Engine × State} {w : Swap} : (applySwap ce n x w).2.dev = x.2.dev := by
  simp [applySwap]

@[simp] theorem beginTick_dev {ce n : Nat} {s : State} : (beginTick ce n s).2.2.dev = s.dev := by
  have hswaps : ∀ (l : List Swap) (e : Engine), (l.foldl (applySwap ce n) (e, s)).2.dev = s.dev := fun l e =>
    foldl_frame (fun x : Engine × State => x.2.dev) (fun _ _ => applySwap_dev) l (e, s)
  unfold beginTick
  dsimp only
  split
  · exact hswaps ..
  · refine (foldl_frame (fun x : Engine × State => x.2.dev) (fun y k => ?_) _ _).trans (hswaps ..)
    split <;> simp

@[simp] theorem applyIo_dev {p : Nat × Nat × List Byte} {s : State} : (applyIo s p).dev = s.dev := by
  unfold applyIo
  split <;> rfl

@[simp] theorem dieTickAt_dev {die n : Nat} {s : State} : (dieTickAt die n s).dev = s.dev := by simp [dieTickAt]

@[simp] theorem writeSp_dev {ce : Nat} {l : List (Nat × Int)} {s : State} : (writeSp ce l s).dev = s.dev := by
  simp [writeSp]

@[simp] theorem ioTake_dev {kind ch : Nat} {o : Option Nat} {s : State} : (ioTake kind ch o s).dev = s.dev := by
  simp [ioTake]

@[simp] theorem markFault_dev {kind ch : Nat} {s : State} : (markFault kind ch s).dev = s.dev := by simp [markFault]

@[simp] theorem sdFault_dev {k : Nat} {s : State} : (sdFault k s).dev = s.dev := by simp [sdFault]

/-! ## The gateway -/

@[simp] theorem countDrops_dev {n : Nat} {s : State} : (countDrops n s).dev = s.dev := by simp [countDrops]

@[simp] theorem evLink_dev {port ev lanes : Nat} {s : State} : (evLink port ev lanes s).dev = s.dev := by
  simp [evLink]

@[simp] theorem enqueue_dev {p : Nat} {f : TxFrame} {s : State} : (enqueue p f s).dev = s.dev := by simp [enqueue]

@[simp] theorem toCan_dev {p prio kind id flags dlc : Nat} {data : List Byte} {s : State} :
    (toCan p prio kind id flags dlc data s).dev = s.dev := by simp [toCan]

@[simp] theorem toMac_dev {p prio kind id : Nat} {f : GFrame} {s : State} : (toMac p prio kind id f s).dev = s.dev := by
  simp [toMac]

@[simp] theorem toSetpt_dev {id : Nat} {f : GFrame} {s : State} : (toSetpt id f s).dev = s.dev := by simp [toSetpt]

@[simp] theorem gotReport_dev {reason outport outdev ident idx tenant : Nat} {s : State} :
    (gotReport reason outport outdev ident idx tenant s).dev = s.dev := by simp [gotReport]

@[simp] theorem reportFail_dev {reason : Nat} {p : Posted} {s : State} : (reportFail reason p s).dev = s.dev := by
  simp [reportFail]

@[simp] theorem modSl_dev {p : Nat} {f : SlPort → SlPort} {s : State} : (modSl p f s).dev = s.dev := by simp [modSl]

@[simp] theorem storeC3_dev {p : Nat} {c : C3Pkt} {s : State} : (storeC3 p c s).dev = s.dev := by simp [storeC3]

@[simp] theorem sendPosted_dev {p : Posted} {s : State} : (sendPosted p s).dev = s.dev := by
  unfold sendPosted
  split
  · simp
  · split <;> simp

@[simp] theorem writeRxdone_dev {ring v : Nat} {s : State} : (writeRxdone ring v s).dev = s.dev := by
  unfold writeRxdone
  split <;> rfl

@[simp] theorem sendFrames_dev {s : State} : (sendFrames s).dev = s.dev := by
  refine foldl_frame State.dev (fun s c => ?_) _ s
  dsimp only
  split
  · simp
  · split
    · split <;> simp
    · split
      · split <;> simp
      · simp

@[simp] theorem sendChain_dev {s : State} : (sendChain s).dev = s.dev := by simp [sendChain]

/-! ## Svajor links and the chain -/

@[simp] theorem send_dev {m : C0Msg} {s : State} : (send m s).dev = s.dev := by simp [send]

@[simp] theorem evChain_dev {ev reason ident : Nat} {s : State} : (evChain ev reason ident s).dev = s.dev := by
  simp [evChain]

@[simp] theorem tryJoin_dev {p : Nat} {s : State} : (tryJoin p s).dev = s.dev := by simp [tryJoin]

@[simp] theorem beginTraining_dev {p : Nat} {s : State} : (beginTraining p s).dev = s.dev := by simp [beginTraining]

@[simp] theorem switchGen_dev {gen lat : Nat} {table : Map Nat} {s : State} :
    (switchGen gen lat table s).dev = s.dev := by simp [switchGen]

@[simp] theorem markPeers_dev {s : State} : (markPeers s).dev = s.dev :=
  foldl_frame State.dev (fun s o => by split <;> simp) _ s

@[simp] theorem knowPeers_dev {g : ChainGen} {new gone : List Nat} {s : State} :
    (knowPeers g new gone s).dev = s.dev := by
  refine foldl_frame State.dev (fun s p => ?_) _ s
  dsimp only
  split
  · rfl
  · split
    · simp
    · split <;> simp

/-! ## Memory -/

@[simp] theorem modEcc_dev {k : Nat} {f : EccSt → EccSt} {s : State} : (modEcc k f s).dev = s.dev := by simp [modEcc]

@[simp] theorem countDrop_dev {why : Nat} {s : State} : (countDrop why s).dev = s.dev := by simp [countDrop]

@[simp] theorem cacheLinesRead_dev {cl : Nat} {secure : Bool} {t a n label : Nat} {s : State} :
    (cacheLinesRead cl secure t a n label s).dev = s.dev := by simp [cacheLinesRead]

@[simp] theorem gotData_dev {d : List Byte} {s : State} : (gotData d s).dev = s.dev := by simp [gotData]

@[simp] theorem setPages_dev {l : List Nat} {f : PageEnt → PageEnt} {s : State} : (setPages l f s).dev = s.dev := by
  simp [setPages]

@[simp] theorem addMemCmd_dev {tok : Nat} {drop : List (Nat × Nat)} {s : State} :
    (addMemCmd tok drop s).dev = s.dev := by simp [addMemCmd]

/-! ## Firmware and its restarts -/

@[simp] theorem countRestart_dev {proc : Nat} {s : State} : (countRestart proc s).dev = s.dev := by
  simp [countRestart]

@[simp] theorem flushRefEvents_dev {s : State} : (flushRefEvents s).dev = s.dev := by
  unfold flushRefEvents
  exact State.foldl_dev fun _ _ => offerBoth_dev ..

@[simp] theorem drainAllTci_dev {s : State} : (drainAllTci s).dev = s.dev := by simp [drainAllTci]

@[simp] theorem endRestart_dev {proc : Nat} {s : State} : (endRestart proc s).dev = s.dev := by
  unfold endRestart
  dsimp only
  split <;> simp

@[simp] theorem proveRefused_dev {st : Nat} {h : Hdr} {s : State} : (proveRefused st h s).dev = s.dev := by
  simp [proveRefused]

@[simp] theorem drainJournal_dev {s : State} : (drainJournal s).dev = s.dev := by simp [drainJournal]

@[simp] theorem secLoss_dev {kind inst tenant : Nat} {s : State} : (secLoss kind inst tenant s).dev = s.dev := by
  simp [secLoss]

/-! ## Wear and retirement -/

@[simp] theorem evPower_dev {ev : Nat} {inst value : Option Nat} {s : State} :
    (evPower ev inst value s).dev = s.dev := rfl

@[simp] theorem withCap_dev {f : State → State} {s : State} (hf : ∀ s, (f s).dev = s.dev) :
    (withCap f s).dev = s.dev := by
  simp [withCap, hf]

@[simp] theorem addUnit_dev {kind inst : Nat} {noSpare : Bool} {s : State} :
    (addUnit kind inst noSpare s).dev = s.dev := by simp [addUnit]

@[simp] theorem noteError_dev {k : Nat} {s : State} : (noteError k s).2.dev = s.dev := by simp [noteError]

@[simp] theorem reloadJob_dev {id : Nat} {s : State} : (reloadJob id s).dev = s.dev := by
  unfold reloadJob
  split <;> simp

@[simp] theorem loseSpareCcc_dev {die cause : Nat} {s : State} : (loseSpareCcc die cause s).dev = s.dev := by
  simp [loseSpareCcc]

@[simp] theorem pageRow_dev {pg : Nat} {s : State} : (pageRow pg s).2.dev = s.dev := by simp [pageRow]

/-! ## Power -/

@[simp] theorem noteClock_dev {s : State} : (noteClock s).dev = s.dev := by simp [noteClock]

@[simp] theorem newWindow_dev {s : State} : (newWindow s).dev = s.dev := by simp [newWindow]

@[simp] theorem modClock_dev {f : Pow → Pow} {s : State} : (modClock f s).dev = s.dev := by
  simp [modClock]

@[simp] theorem restoreCluster_dev {cl : Nat} {t : Temps} {s : State} : (restoreCluster cl t s).dev = s.dev := by
  unfold restoreCluster
  split <;> simp

@[simp] theorem setGate_dev {kind inst mode : Nat} {s : State} : (setGate kind inst mode s).dev = s.dev := by
  simp [setGate]

@[simp] theorem runBlock_dev {kind inst : Nat} {s : State} : (runBlock kind inst s).dev = s.dev := by
  unfold runBlock
  split <;> rfl

/-! ## The device -/

@[simp] theorem deliverNotices_dev {s : State} : (deliverNotices s).dev = s.dev := by
  unfold deliverNotices
  exact State.foldl_dev fun _ _ => offer0_dev ..

@[simp] theorem seclive_dev {s : State} : (seclive s).dev = s.dev := by simp [seclive]

@[simp] theorem evRefclk_dev {ev : Nat} {s : State} : (evRefclk ev s).dev = s.dev := by simp [evRefclk]

/-! ## What registers change -/

@[simp] theorem modCld_dev {d : Nat} {f : Colander → Colander} {s : State} : (modCld d f s).dev = s.dev := by
  simp [modCld]

@[simp] theorem setLabel_dev {k : Nat} {f : Bool × Nat × Bool → Bool × Nat × Bool} {s : State} :
    (setLabel k f s).dev = s.dev := by simp [setLabel]

@[simp] theorem setBwrCfg_dev {t : Nat} {f : Nat × Nat → Nat × Nat} {s : State} : (setBwrCfg t f s).dev = s.dev := by
  simp [setBwrCfg]

@[simp] theorem latchTnow_dev {s : State} : (latchTnow s).dev = s.dev := by simp [latchTnow]

@[simp] theorem modDisp_dev {d : Nat} {f : Disp → Disp} {s : State} : (modDisp d f s).dev = s.dev := by simp [modDisp]

/-! ## The idle tick -/

@[simp] theorem tick_dev {s : State} : (tick s).dev = s.dev := by simp [tick]

@[simp] theorem countHold_dev {s : State} : (countHold s).dev = s.dev := by simp [countHold]

@[simp] theorem idle_dev {s : State} : (idle s).dev = s.dev := by simp [idle]

end Sys2Proof.Machine
end

section
/-! SUPPORT. How faults, checks and retirements can move the device: not at all, from RUN to DEGRADED, or into SAFE
where Table 10 of chapter 02 has such a transition (R57, R333). -/

set_option Elab.async false

namespace Sys2Proof.Machine

/-- What an operation that enters no state on purpose does to the device: it stays, a unit retired with no spare takes
it from RUN to DEGRADED, or SAFE latches. -/
def Dev.Drifts (d e : Dev) : Prop :=
  e.svcFromSafe = d.svcFromSafe
  ∧ (e.st = d.st ∨ (d.st = .run ∧ e.st = .degraded) ∨ (d.st.mayMove .safe = true ∧ e.st = .safe))

theorem Dev.Drifts.refl (d : Dev) : d.Drifts d := ⟨rfl, .inl rfl⟩

theorem Dev.Drifts.trans {d e f : Dev} (hd : d.Drifts e) (he : e.Drifts f) : d.Drifts f := by
  obtain ⟨hsvc, hst⟩ := hd
  obtain ⟨hsvc', hst'⟩ := he
  refine ⟨hsvc'.trans hsvc, ?_⟩
  obtain hst | ⟨hrun, hdeg⟩ | ⟨hmay, hsafe⟩ := hst
  · rwa [hst] at hst'
  · obtain hst' | ⟨hrun', -⟩ | ⟨-, hsafe'⟩ := hst'
    · exact .inr (.inl ⟨hrun, hst'.trans hdeg⟩)
    · rw [hdeg] at hrun'
      contradiction
    · exact .inr (.inr ⟨hrun ▸ rfl, hsafe'⟩)
  · obtain hst' | ⟨hrun', -⟩ | ⟨-, hsafe'⟩ := hst'
    · exact .inr (.inr ⟨hmay, hst'.trans hsafe⟩)
    · rw [hsafe] at hrun'
      contradiction
    · exact .inr (.inr ⟨hmay, hsafe'⟩)

/-- The state's device has at most drifted from what it was. -/
def State.Drifted (s : State) (old : Dev) : Prop := old.Drifts s.dev

theorem State.drifted_self (s : State) : s.Drifted s.dev := .refl s.dev

/-- What an outcome's next state, if there is one, has drifted from. -/
def NextDrifted (old : Dev) (o : Host.Outcome State Fault Refusal) : Prop := ∀ t, o = .next t → t.Drifted old

protected theorem NextDrifted.ite {c : Prop} {_ : Decidable c} {old : Dev} {o p : Host.Outcome State Fault Refusal}
    (ho : NextDrifted old o) (hp : NextDrifted old p) : NextDrifted old (if c then o else p) := by
  split <;> assumption

namespace State.Drifted

variable {old : Dev} {s t : State}

theorem next (hs : s.Drifted old) : NextDrifted old (.next s) := by
  rintro _ ⟨rfl⟩
  exact hs

/-- An operation that leaves the device's state alone. -/
theorem upd (hs : s.Drifted old) (h : t.dev.st = s.dev.st ∧ t.dev.svcFromSafe = s.dev.svcFromSafe := by simp) :
    t.Drifted old :=
  Dev.Drifts.trans hs ⟨h.2, .inl h.1⟩

/-- An operation of which a lemma says that it leaves the device alone. -/
theorem keep (hs : s.Drifted old) (h : t.dev = s.dev) : t.Drifted old := hs.upd (by simp [h])

protected theorem ite {c : Prop} {_ : Decidable c} (hs : s.Drifted old) (ht : t.Drifted old) :
    (if c then s else t).Drifted old := by
  split <;> assumption

protected theorem foldl {α : Type} {l : List α} {f : State → α → State} (hs : s.Drifted old)
    (hf : ∀ {s : State} {x : α}, s.Drifted old → (f s x).Drifted old) : (l.foldl f s).Drifted old := by
  induction l generalizing s with
  | nil => exact hs
  | cons x l ih => exact ih (hf hs)

/-- A fold of which every step leaves the device alone. -/
theorem keepFold {α : Type} {l : List α} {f : State → α → State} (hs : s.Drifted old)
    (hf : ∀ s x, (f s x).dev = s.dev) : (l.foldl f s).Drifted old :=
  hs.keep (State.foldl_dev hf)

/-- A fold that carries a value beside the state. -/
theorem foldlSnd {α β : Type} {l : List α} {f : β × State → α → β × State} {p : β × State} (hs : p.2.Drifted old)
    (hf : ∀ {p : β × State} {x : α}, p.2.Drifted old → (f p x).2.Drifted old) : (l.foldl f p).2.Drifted old := by
  induction l generalizing p with
  | nil => exact hs
  | cons x l ih => exact ih (hf hs)

/-- A fold that carries two values beside the state. -/
theorem foldlSndSnd {α β γ : Type} {l : List α} {f : β × γ × State → α → β × γ × State} {p : β × γ × State}
    (hs : p.2.2.Drifted old) (hf : ∀ {p : β × γ × State} {x : α}, p.2.2.Drifted old → (f p x).2.2.Drifted old) :
    (l.foldl f p).2.2.Drifted old := by
  induction l generalizing p with
  | nil => exact hs
  | cons x l ih => exact ih (hf hs)

end State.Drifted

/-! ## The two operations that move the device -/

/-- SAFE is entered from states alone that have such a transition (R333). -/
theorem mayMove_safe_of_safeFrom {s : State} {cause : Nat} (h : safeFrom s cause = true) :
    s.dev.st.mayMove .safe = true := by
  unfold safeFrom at h
  split at h <;> simp_all [DevSt.mayMove]

namespace State.Drifted

variable {old : Dev} {s : State}

protected theorem retireNoSpare (hs : s.Drifted old) : (retireNoSpare s).Drifted old := by
  unfold retireNoSpare
  dsimp only
  split
  case isTrue hrun => exact Dev.Drifts.trans hs ⟨rfl, .inr (.inl ⟨by simpa using hrun, rfl⟩)⟩
  case isFalse => exact hs.upd

protected theorem latchSafe {cause prog detail : Nat} (hs : s.Drifted old) :
    (latchSafe cause prog detail s).Drifted old := by
  unfold latchSafe
  split
  case isTrue => exact hs
  case isFalse h =>
    obtain ⟨-, hfrom⟩ : s.skk.latched = false ∧ safeFrom s cause = true := by simpa using h
    exact Dev.Drifts.trans hs ⟨by simp, .inr (.inr ⟨mayMove_safe_of_safeFrom hfrom, by simp⟩)⟩

/-! ## Jobs, weight banks and the entry to SAFE -/

protected theorem frameDone {h reason jobseq : Nat} (hs : s.Drifted old) :
    (frameDone h reason jobseq s).Drifted old := by
  unfold frameDone
  split
  · exact hs
  · exact hs.upd.ite (hs.upd.latchSafe.ite hs.upd)

protected theorem endJob {id st fc inv : Nat} (hs : s.Drifted old) : (endJob id st fc inv s).Drifted old := by
  unfold endJob
  split
  · exact hs
  · refine .keep ?_ failDeps_dev
    split
    · exact .ite (.frameDone hs.upd) hs.upd
    · exact hs.upd
    · exact hs.upd

protected theorem endJobs {f : Job → Bool} {st fc : Nat} (hs : s.Drifted old) : (endJobs f st fc s).Drifted old :=
  hs.foldl fun hs => hs.endJob

protected theorem commitAt {id epoch : Nat} {checked : Bool} (hs : s.Drifted old) :
    (commitAt id epoch checked s).Drifted old := by
  unfold commitAt
  split
  · exact hs
  · exact hs.endJob.ite ((hs.keep markRtLock_dev).endJob.ite (.ite (.frameDone hs.upd) hs.upd))

protected theorem commitJob {id : Nat} {checked : Bool} (hs : s.Drifted old) : (commitJob id checked s).Drifted old :=
  hs.commitAt

protected theorem faultTenant {t cause : Nat} (hs : s.Drifted old) : (faultTenant t cause s).Drifted old :=
  hs.upd.endJobs.ite hs

protected theorem violate {c : Acc} {write : Bool} {reason a : Nat} (hs : s.Drifted old) :
    (violate c write reason a s).Drifted old :=
  hs.upd.faultTenant.ite hs.upd

protected theorem checkedWrite {c : Acc} {a : Nat} {bs : List Byte} (hs : s.Drifted old) :
    (checkedWrite c a bs s).Drifted old := by
  unfold checkedWrite
  split
  · exact hs.upd
  · exact hs.violate

protected theorem checkedRead {c : Acc} {a n : Nat} (hs : s.Drifted old) : (checkedRead c a n s).2.Drifted old := by
  unfold checkedRead
  split
  · split
    · exact hs.upd
    · exact hs
  · exact hs.violate

/-! ## Stored operands -/

protected theorem failChecks {cl : Nat} {bad : List PairCheck} (hs : s.Drifted old) :
    (failChecks cl bad s).Drifted old := by
  unfold failChecks
  split
  · exact hs
  · exact hs.upd.foldl fun hs => hs.endJob

protected theorem sramViolate {job : Nat} {write : Bool} {off : Nat} (hs : s.Drifted old) :
    (sramViolate job write off s).Drifted old := by
  unfold sramViolate
  split
  · exact hs
  · exact hs.violate

protected theorem workBytes {job cl : Nat} {unit : Option Nat} {a n : Nat} (hs : s.Drifted old) :
    (workBytes job cl unit a n s).2.Drifted old := by
  unfold workBytes
  split
  · dsimp only
    split
    · exact hs
    · exact hs.sramViolate
  · split
    · exact hs
    · dsimp only
      split
      · split
        · exact hs.endJob
        · split
          · exact hs.upd
          · exact hs
      · exact hs.violate

protected theorem sramWrite {job cl unit off : Nat} {bs : List Byte} (hs : s.Drifted old) :
    (sramWrite job cl unit off bs s).Drifted old :=
  hs.upd.ite hs.sramViolate

protected theorem fetchPairs {job cl : Nat} {t : Streams} {bs : List Nat} (hs : s.Drifted old) :
    (fetchPairs job cl t bs s).2.Drifted old :=
  hs.foldlSnd fun hs => hs.workBytes.workBytes

protected theorem loadRows {job cl tile : Nat} {vec : Bool} {t : Stored} {rs : List Nat} (hs : s.Drifted old) :
    (loadRows job cl tile vec t rs s).2.Drifted old := by
  unfold loadRows
  split
  · dsimp only
    split
    · exact hs.fetchPairs
    · split
      · exact hs.fetchPairs
      · exact hs.fetchPairs.failChecks
  · dsimp only
    split <;> exact hs.foldlSnd (fun hs => hs.workBytes)

/-! ## Passes and writeback -/

protected theorem expand {job cl tile : Nat} {x : Expand} (hs : s.Drifted old) :
    (expand job cl tile x s).2.Drifted old := by
  unfold expand
  dsimp only
  split
  · exact hs.loadRows
  · exact hs.loadRows.foldl fun hs => hs.sramWrite

protected theorem loadPass {job cl tile : Nat} {p : MatPass} (hs : s.Drifted old) :
    (loadPass job cl tile p s).2.Drifted old := by
  unfold loadPass
  dsimp only
  split
  · split
    · exact hs.expand
    · split
      · exact hs.expand.loadRows
      · exact hs.expand.loadRows.loadRows
  · split
    · exact hs
    · split
      · exact hs.loadRows
      · exact hs.loadRows.loadRows

protected theorem loadPasses {job cl tile : Nat} {l : List MatPass} (hs : s.Drifted old) :
    (loadPasses job cl tile l s).2.Drifted old := by
  induction l generalizing s with
  | nil => exact hs
  | cons p t ih =>
    unfold loadPasses
    dsimp only
    split
    · exact hs.loadPass
    · exact ih hs.loadPass

protected theorem loadBlks {job cl tile : Nat} {f : Fam} {l : List AccBlk} (hs : s.Drifted old) :
    (loadBlks job cl tile f l s).2.Drifted old := by
  induction l generalizing s with
  | nil => exact hs
  | cons b t ih =>
    unfold loadBlks
    dsimp only
    split
    · exact hs.loadPasses
    · exact ih hs.loadPasses

protected theorem winRows {job cl tile : Nat} {w : VecWin} (hs : s.Drifted old) :
    (winRows job cl tile w s).2.Drifted old := by
  unfold winRows
  dsimp only
  split
  · exact hs.loadRows
  · split
    · exact hs.loadRows.loadRows
    · exact hs.loadRows

protected theorem loadWide {job cl tile : Nat} {bf : Bool} {t : Stored} (hs : s.Drifted old) :
    (loadWide job cl tile bf t s).2.Drifted old :=
  hs.loadRows

protected theorem optRows {job cl tile : Nat} {o : OptStep} (hs : s.Drifted old) :
    (optRows job cl tile o s).2.Drifted old := by
  unfold optRows
  extract_lets w m v g
  have hm : m.2.Drifted old := hs.loadWide.loadWide
  have hv : v.2.Drifted old := by
    unfold v
    split
    · exact hm
    · exact hm.loadWide
  have hg : g.2.Drifted old := hv.loadWide
  split <;> exact hg

protected theorem vecEvalVec1 {x : State → Option (List (List Nat)) × State} {f : List (List Nat) → List (List Nat)}
    (hs : s.Drifted old) (hx : ∀ {a : State}, a.Drifted old → (x a).2.Drifted old) :
    (vecEval.vec1 x f s).2.Drifted old :=
  hx hs

protected theorem vecEvalVec2 {x y : State → Option (List (List Nat)) × State} {f : Nat → Nat → Nat}
    (hs : s.Drifted old) (hx : ∀ {a : State}, a.Drifted old → (x a).2.Drifted old)
    (hy : ∀ {a : State}, a.Drifted old → (y a).2.Drifted old) :
    (vecEval.vec2 x y f s).2.Drifted old := by
  unfold vecEval.vec2
  dsimp only
  split <;> exact hy (hx hs)

/-- What the vector engine reads keeps the form, operand by operand. -/
protected theorem vecEval {job cl tile : Nat} {e : VecExpr} (hs : s.Drifted old) :
    (vecEval job cl tile e s).2.Drifted old := by
  induction e generalizing s with
  | load bf t => exact hs.loadWide
  | const rows => exact hs
  | add bf x y hx hy => exact hs.vecEvalVec2 hx hy
  | mul bf x y hx hy => exact hs.vecEvalVec2 hx hy
  | div bf x y hx hy => exact hs.vecEvalVec2 hx hy
  | fma bf x y z hx hy hz =>
    unfold vecEval
    dsimp only
    split <;> exact hz (hy (hx hs))
  | sqrt bf x hx => exact hs.vecEvalVec1 hx
  | trans f bf x hx => exact hs.vecEvalVec1 hx
  | sum bf x hx => exact hs.vecEvalVec1 hx
  | win w => exact hs.winRows
  | opt o => exact hs.optRows
  | lossScale n x hx => exact hs.vecEvalVec1 hx

protected theorem jobDramWrite {job cl a : Nat} {bs : List Byte} (hs : s.Drifted old) :
    (jobDramWrite job cl a bs s).Drifted old := by
  unfold jobDramWrite
  split
  · exact hs
  · exact hs.upd.ite (hs.upd.endJob.ite hs.checkedWrite)

protected theorem jobWrite {job cl a : Nat} {bs : List Byte} (hs : s.Drifted old) :
    (jobWrite job cl a bs s).Drifted old :=
  hs.sramWrite.ite hs.jobDramWrite

protected theorem wbWrite {job cl : Nat} {d : WbDest} {w : Nat × List Byte} (hs : s.Drifted old) :
    (wbWrite job cl d w s).Drifted old := by
  unfold wbWrite
  split
  · exact hs.sramWrite
  · exact hs.jobDramWrite

protected theorem wbRows {job cl tile : Nat} {src : WbSrc} (hs : s.Drifted old) :
    (wbRows job cl tile src s).2.Drifted old := by
  unfold wbRows
  split
  case h_1 => exact hs.vecEval
  case h_2 f blks part =>
    have hloaded : (loadBlks job cl tile f blks s).2.Drifted old := hs.loadBlks
    dsimp only
    split
    · exact hloaded
    · split
      · split <;> exact hloaded.upd
      · exact hloaded.upd

protected theorem wbConvert {job cl : Nat} {conv : Conv} {dest : WbDest} {nfmode : Nat} {rows : List (List Nat)}
    (hs : s.Drifted old) :
    (wbConvert job cl conv dest nfmode rows s).Drifted old :=
  hs.upd.endJob.ite (hs.upd.foldl fun hs => hs.wbWrite)

protected theorem execWriteback {job cl tile : Nat} {src : WbSrc} {conv : Conv} {dest : WbDest} (hs : s.Drifted old) :
    NextDrifted old (execWriteback job cl tile src conv dest s) := by
  unfold execWriteback
  split
  · exact hs.next
  · split
    · exact hs.next
    · dsimp only
      split
      · exact hs.wbRows.next
      · exact hs.wbRows.wbConvert.next

protected theorem fetchPair {cl : Nat} {acc : List PairCheck × State} {f : PairFetch} (hs : acc.2.Drifted old) :
    (fetchPair cl acc f).2.Drifted old := by
  unfold fetchPair
  dsimp only
  split
  · exact hs
  · split
    · exact hs
    · split
      · exact hs.workBytes.workBytes
      · split
        · exact hs.workBytes.workBytes
        · split
          · exact hs.workBytes.workBytes.sramWrite.sramWrite
          · exact hs.workBytes.workBytes

protected theorem execBlockPairFetch {cl : Nat} {fs : List PairFetch} (hs : s.Drifted old) :
    NextDrifted old (execBlockPairFetch cl fs s) :=
  (hs.foldlSnd fun hs => hs.fetchPair).failChecks.next

/-! ## Programs and loads -/

protected theorem retireTile {cl t : Nat} (hs : s.Drifted old) : (retireTile cl t s).Drifted old := by
  unfold retireTile
  dsimp only
  exact hs.ite (.ite hs.upd (.ite (.retireNoSpare hs.upd) hs.upd))

/-! ## Tenants -/

protected theorem cancelQueued {t : Nat} (hs : s.Drifted old) : (cancelQueued t s).Drifted old := hs.endJobs

/-! ## Queues and jobs -/

protected theorem writeSqTail {tenant queue v : Nat} (hs : s.Drifted old) :
    (writeSqTail tenant queue v s).Drifted old := by
  unfold writeSqTail doorbell
  split
  · exact .ite (.ite (.faultTenant hs.upd) hs.upd) hs.upd
  · exact hs.upd

protected theorem execSqTailWrite {w : DoorWrite} (hs : s.Drifted old) : NextDrifted old (execSqTailWrite w s) := by
  unfold execSqTailWrite
  split
  · exact hs.writeSqTail.next
  · exact hs.next

protected theorem stopJob {id st fc : Nat} (hs : s.Drifted old) : (stopJob id st fc s).Drifted old := by
  unfold stopJob
  split
  · exact hs
  · split
    · exact hs.endJob
    · exact hs.endJob
    · exact hs.endJob.ite hs.upd
    · exact hs

/-! ## Halo buffers and the Colander -/

protected theorem execHaloEntryRead {job idx copy step waitUs unit off : Nat} (hs : s.Drifted old) :
    NextDrifted old (execHaloEntryRead job idx copy step waitUs unit off s) := by
  unfold execHaloEntryRead
  split
  · exact hs.next
  · split
    · exact hs.next
    · dsimp only
      split
      · exact hs.next
      · exact hs.next.ite (hs.upd.sramWrite.next.ite hs.upd.endJob.next)

protected theorem cdRead {job cl a n : Nat} (hs : s.Drifted old) : (cdRead job cl a n s).2.Drifted old := by
  unfold cdRead
  split <;> exact hs.workBytes

/-- What an NMS call (R163) does once its inputs are read: a fault or its results. -/
protected theorem colanderResults {c d e : Prop} {_ : Decidable c} {_ : Decidable d} {_ : Decidable e}
    {job st fc inv cl a n m st' fc' inv' : Nat} {bs : List Byte} (hs : s.Drifted old) :
    NextDrifted old (if c then .next s else if d then .next (endJob job st fc inv s)
      else if e then .next (endJob job st' fc' inv' (countNonfin cl n s))
      else .next (jobWrite job cl a bs (countNonfin cl m s))) :=
  hs.next.ite (hs.endJob.next.ite (hs.upd.endJob.next.ite hs.upd.jobWrite.next))

protected theorem execColanderCallDone {die : Nat} (hs : s.Drifted old) :
    NextDrifted old (execColanderCallDone die s) := by
  unfold execColanderCallDone
  split
  · exact hs.next
  · dsimp only
    split
    · exact hs.upd.next
    · split
      · split
        · exact hs.upd.cdRead.cdRead.cdRead.cdRead.colanderResults
        · exact hs.upd.cdRead.cdRead.cdRead.colanderResults
      · split
        · exact hs.upd.cdRead.cdRead.cdRead.colanderResults
        · exact hs.upd.cdRead.cdRead.colanderResults

/-! ## Pixels of a pass -/

protected theorem shadeVertex {e : PassEnv} {r : List Byte} {inst v : Nat} (hs : s.Drifted old) :
    (shadeVertex e r inst v s).2.Drifted old :=
  hs.foldlSnd fun hs => hs.cdRead

protected theorem drawIndices {e : PassEnv} {r : List Byte} (hs : s.Drifted old) :
    (drawIndices e r s).2.Drifted old := by
  unfold drawIndices
  split
  · exact hs
  · exact hs.cdRead

protected theorem drawPrims {e : PassEnv} {r : List Byte} (hs : s.Drifted old) : (drawPrims e r s).2.2.Drifted old := by
  unfold drawPrims
  extract_lets ix
  have hix : ix.2.Drifted old := hs.drawIndices
  clear_value ix
  refine foldlSndSnd hix fun {p inst} hp => ?_
  refine foldlSnd hp fun hs => ?_
  exact hs.shadeVertex

protected theorem rasRead {e : PassEnv} {a n : Nat} (hs : s.Drifted old) : (rasRead e a n s).2.Drifted old := by
  unfold rasRead
  split
  · exact hs
  · split
    · split
      · exact hs.endJob
      · split
        · exact hs.upd
        · exact hs
    · exact hs.violate

protected theorem rasWrite {e : PassEnv} {a : Nat} {bs : List Byte} (hs : s.Drifted old) :
    (rasWrite e a bs s).Drifted old := by
  unfold rasWrite
  split
  · exact hs
  · split
    · exact hs.upd.endJob.ite hs.upd
    · exact hs.violate

protected theorem readTile {e : PassEnv} {base pitch bps ns tile : Nat} (hs : s.Drifted old) :
    (readTile e base pitch bps ns tile s).2.Drifted old :=
  hs.foldlSnd fun hs => hs.rasRead

protected theorem writeTile {e : PassEnv} {base pitch bps ns tile : Nat} {codes : List Nat} (hs : s.Drifted old) :
    (writeTile e base pitch bps ns tile codes s).Drifted old :=
  hs.foldl fun hs => hs.rasWrite

protected theorem readFlag {e : PassEnv} {r : List Byte} {tile : Nat} (hs : s.Drifted old) :
    (readFlag e r tile s).2.Drifted old := by
  unfold readFlag
  split
  · exact hs.rasRead
  · exact hs

protected theorem setFlag {e : PassEnv} {r : List Byte} {tile : Nat} {v : Bool} (hs : s.Drifted old) :
    (setFlag e r tile v s).Drifted old :=
  hs.rasRead.rasWrite.ite hs

protected theorem storedTile {e : PassEnv} {r : List Byte} {tile : Nat} (hs : s.Drifted old) :
    (storedTile e r tile s).2.Drifted old := by
  unfold storedTile
  dsimp only
  split <;> exact hs.readTile

protected theorem loadAtt {e : PassEnv} {earlier : Bool} {tile a : Nat} (hs : s.Drifted old) :
    (loadAtt e earlier tile a s).2.Drifted old := by
  unfold loadAtt
  dsimp only
  split
  · exact hs.storedTile
  · split
    · exact hs
    · split
      · exact hs.upd
      · split
        · exact hs.readFlag
        · exact hs.readFlag.storedTile

protected theorem storeAtt {e : PassEnv} {full : Bool} {tile : Nat} {x : Nat × List Nat} (hs : s.Drifted old) :
    (storeAtt e full tile s x).Drifted old :=
  (hs.setFlag.writeTile.ite hs.setFlag.writeTile).ite (hs.setFlag.writeTile.ite hs)

protected theorem untouchedAtt {e : PassEnv} {tile a : Nat} (hs : s.Drifted old) :
    (untouchedAtt e tile s a).Drifted old :=
  hs.setFlag.ite hs.loadAtt.storeAtt

protected theorem lateResolve {e : PassEnv} {tile a : Nat} (hs : s.Drifted old) :
    (lateResolve e tile s a).Drifted old :=
  hs.storedTile.storeAtt.ite hs

protected theorem texResident {e : PassEnv} {x : Texel} (hs : s.Drifted old) : (texResident e x s).2.Drifted old := by
  unfold texResident
  split
  · exact hs
  · exact hs.cdRead

protected theorem texFetch {e : PassEnv} {x : Texel} (hs : s.Drifted old) : (texFetch e x s).2.Drifted old := by
  unfold texFetch
  dsimp only
  split
  · split
    · exact hs
    · exact hs.cdRead
  · split
    · exact hs.cdRead
    · exact hs.cdRead.cdRead

protected theorem texSample {e : PassEnv} {cl : Nat} {t : TexSample} (hs : s.Drifted old) :
    (texSample e cl t s).2.Drifted old := by
  unfold texSample
  refine .keep ?_ addNonres_dev
  refine hs.foldlSndSnd fun hs => ?_
  dsimp only
  split
  · exact hs.texResident.texFetch
  · exact hs.texResident

protected theorem shadeFrag {e : PassEnv} {p : RPrim} {cl : Nat} {t : List WinVtx} {x y n : Nat}
    {got : List (List Nat × Bool)} (hs : s.Drifted old) : (shadeFrag e p cl t x y n got s).2.Drifted old := by
  induction n generalizing got s with
  | zero => exact hs
  | succ n ih =>
    unfold shadeFrag
    split
    · exact hs
    · exact hs
    · exact ih hs.texSample

protected theorem rasPixel {e : PassEnv} {p : RPrim} {cl : Nat} {t : List WinVtx} {a : TileMem × State}
    {q : Nat × Nat}
    (hs : a.2.Drifted old) : (rasPixel e p cl t a q).2.Drifted old := by
  unfold rasPixel
  extract_lets ks early r1
  split
  · exact hs
  · have hf := hs.shadeFrag (e := e) (p := p) (cl := cl) (t := t) (x := q.1) (y := q.2)
      (n := Config.fragRounds e.tbl p.shader) (got := [])
    split <;> rename_i heq <;> rw [heq] at hf
    · exact hf
    · exact hf.upd

protected theorem rasPrim {e : PassEnv} {cl tile : Nat} {a : TileMem × State} {p : RPrim} (hs : a.2.Drifted old) :
    (rasPrim e cl tile a p).2.Drifted old :=
  hs.foldlSnd fun hs => hs.foldlSnd fun hs => hs.rasPixel

protected theorem renderTile {e : PassEnv} {cl : Nat} {earlier full : Bool} {ps : List RPrim} {tile : Nat}
    (hs : s.Drifted old) :
    (renderTile e cl earlier full ps s tile).Drifted old := by
  unfold renderTile
  extract_lets ld r
  have hld : ld.2.Drifted old := foldlSnd hs fun hs => hs.loadAtt
  clear_value ld
  have hr : r.2.Drifted old := foldlSnd hld fun hs => hs.rasPrim
  clear_value r
  exact hr.foldl fun hs => hs.storeAtt

protected theorem renderPhase {e : PassEnv} {cls earlier : List Nat} {full : Bool} {ps : List RPrim}
    (hs : s.Drifted old) :
    (renderPhase e cls earlier full ps s).Drifted old :=
  hs.foldl fun hs => hs.upd.renderTile

protected theorem renderPhases {e : PassEnv} {cls seen : List Nat} {l : List (List RPrim)} (hs : s.Drifted old) :
    (renderPhases e cls seen l s).Drifted old := by
  induction l generalizing seen s with
  | nil => exact hs
  | cons ps rest ih => exact ih hs.renderPhase

protected theorem finishTiles {e : PassEnv} {phases : List (List RPrim)} (hs : s.Drifted old) :
    (finishTiles e phases s).Drifted old :=
  hs.foldl fun hs => (hs.foldl fun hs => hs.untouchedAtt).ite (hs.ite (hs.foldl fun hs => hs.lateResolve))

/-! ## Displays -/

protected theorem scanCheck {disp : Nat} (hs : s.Drifted old) : (scanCheck disp s).Drifted old := by
  unfold scanCheck
  dsimp only
  split
  · exact hs
  · split
    · exact hs.violate
    · exact hs

protected theorem execVblank {disp : Nat} (hs : s.Drifted old) : NextDrifted old (execVblank disp s) := by
  unfold execVblank
  dsimp only
  refine hs.next.ite (.ite (next ?_) (next (keep ?_ rfl))) <;> exact .scanCheck hs.upd

/-! ## The operands of fusion calls -/

protected theorem zqRead {job cl : Nat} {z : ZqSrc} (hs : s.Drifted old) : (zqRead job cl z s).2.Drifted old :=
  hs.cdRead.cdRead

/-! ## Units of streams -/

protected theorem finishUnit {k : Nat} {ok : Bool} {reason tend : Nat} (hs : s.Drifted old) :
    (finishUnit k ok reason tend s).Drifted old := by
  unfold finishUnit
  split
  · exact hs
  · split
    · exact hs
    · exact .ite hs.upd (.violate hs.upd)

protected theorem truncate {k reason : Nat} (hs : s.Drifted old) : (truncate k reason s).Drifted old := hs.finishUnit

protected theorem haltStream {k : Nat} (hs : s.Drifted old) : (haltStream k s).Drifted old := by
  unfold haltStream
  split
  · exact hs
  · exact hs.ite (hs.truncate.keep setCtxSt_dev)

protected theorem syncStreams (hs : s.Drifted old) : (syncStreams s).Drifted old :=
  (hs.foldl fun hs => hs.haltStream).keep startStreams_dev

protected theorem startUnit {k : Nat} {f : Ingress} {err : Int} (hs : s.Drifted old) :
    (startUnit k f err s).Drifted old := by
  have htrunc : (truncate k 2 s).Drifted old := hs.truncate
  unfold startUnit
  split
  · exact hs
  · split
    · exact hs
    · dsimp only
      split
      · exact htrunc
      · exact htrunc.ite (.ite htrunc.upd htrunc.upd)

protected theorem addPacket {k : Nat} {f : Ingress} {err : Int} (hs : s.Drifted old) :
    (addPacket k f err s).Drifted old := by
  unfold addPacket
  split
  · exact hs
  · split
    · exact hs
    · split
      · exact hs.upd
      · split
        · exact hs
        · exact hs.upd.ite (hs.upd.ite (hs.upd.ite hs.upd.checkedWrite))

protected theorem endUnit {k : Nat} {f : Ingress} {err : Int} (hs : s.Drifted old) :
    (endUnit k f err s).Drifted old := by
  unfold endUnit
  split
  · exact hs
  · split
    · split
      · exact hs.upd
      · exact hs
    · split
      · exact hs
      · split
        · exact hs
        · exact hs.finishUnit
        · exact hs.truncate

protected theorem execUnitStart {f : Ingress} {err : Int} (hs : s.Drifted old) :
    NextDrifted old (execUnitStart f err s) :=
  (hs.foldl fun hs => hs.startUnit).next

protected theorem execStreamPacket {f : Ingress} {err : Int} (hs : s.Drifted old) :
    NextDrifted old (execStreamPacket f err s) := by
  unfold execStreamPacket
  split
  · exact hs.upd.next
  · exact (hs.foldl fun hs => hs.addPacket).next

protected theorem execUnitEnd {f : Ingress} {err : Int} (hs : s.Drifted old) : NextDrifted old (execUnitEnd f err s) :=
  (hs.foldl fun hs => hs.endUnit).next

protected theorem execStreamHoldExpiry {ctx : Nat} (hs : s.Drifted old) :
    NextDrifted old (execStreamHoldExpiry ctx s) := by
  unfold execStreamHoldExpiry
  split
  · exact hs.next
  · split
    · dsimp only
      split
      · exact hs.truncate.next
      · exact (hs.truncate.keep setCtxSt_dev).next.ite hs.truncate.next
    · exact hs.upd.next.ite hs.next

/-! ## Time, pulses and captures -/

protected theorem execLaunchEntry {mac : Nat} {busy : Bool} {err : Int} (hs : s.Drifted old) :
    NextDrifted old (execLaunchEntry mac busy err s) := by
  unfold execLaunchEntry
  split
  · exact hs.next
  · split
    · exact hs.next
    case isFalse l _ _ =>
      have hread : (checkedRead (accTenant s l.tenant) (l.base + l.lhead % l.depth * 32) 32 s).2.Drifted old :=
        hs.checkedRead
      dsimp only
      split
      · exact hread.next
      · split
        · exact hread.next
        · exact .ite (.next (.keep (.keep (.checkedRead hread.upd) ownWrite_dev) macSend_dev))
            (.ite (.next (.violate hread.upd)) hread.upd.next)

/-! ## Fusion -/

protected theorem execFusionCall {job cl copy : Nat} {desc : List Byte} (hs : s.Drifted old) :
    NextDrifted old (execFusionCall job cl copy desc s) := by
  unfold execFusionCall
  split
  · exact hs.next
  · split
    · exact hs.next
    · split
      · exact hs.endJob.next
      · exact hs.upd.next

protected theorem execFusionCallStart {die : Nat} (hs : s.Drifted old) :
    NextDrifted old (execFusionCallStart die s) := by
  unfold execFusionCallStart
  split
  · exact hs.next
  · dsimp only
    split
    · exact hs.upd.next
    · split
      · exact hs.upd.next
      · split
        · exact hs.endJob.next
        · exact hs.upd.next

protected theorem readInputs {job cl : Nat} {l : List FusIn} (hs : s.Drifted old) :
    (readInputs job cl l s).2.Drifted old := by
  induction l generalizing s with
  | nil => exact hs
  | cons i r ih =>
    unfold readInputs
    extract_lets cam n a d p m
    have ha : a.2.Drifted old := hs.zqRead
    have hd : d.2.Drifted old := by
      unfold d
      split
      · exact ha.zqRead
      · exact ha
    have hp : p.2.Drifted old := by
      unfold p
      split
      · exact hd
      · exact hd.cdRead
    exact ih hp

protected theorem readDets {job cl : Nat} {d : List Byte} {bufs : List FusBuf} (hs : s.Drifted old) :
    (readDets job cl d bufs s).2.Drifted old := by
  unfold readDets
  split
  · exact hs
  · exact hs.cdRead.cdRead

protected theorem writeFusion {r : FusCall} {o : FusOut} (hs : s.Drifted old) : (writeFusion r o s).Drifted old := by
  have hmask {w : List (Nat × List Byte)} {a : Nat} {bs : List Byte} :
      (jobWrite r.job r.cl a bs (w.foldl (fun s x => jobWrite r.job r.cl x.1 x.2 s) s)).Drifted old :=
    .jobWrite (hs.foldl fun hs => hs.jobWrite)
  have hrecorded {c : Prop} {_ : Decidable c} {a b : Nat} {as bs : List Byte} {f : Job → Job} {m : State}
      (hm : m.Drifted old) : (modJob r.job f (jobWrite r.job r.cl b bs
        (if c then m else jobWrite r.job r.cl a as m))).Drifted old :=
    .keep (.jobWrite (hm.ite hm.jobWrite)) (modJob_dev ..)
  unfold writeFusion
  dsimp only
  split
  · exact .ite ((hrecorded hmask).keep rfl) (hrecorded hmask)
  · exact hrecorded hmask

/-- What the control block and the inputs of a fusion call are read by (R250 to R263). -/
theorem fusionReads {r : FusCall} {a b n m : Nat} {c : FusCtx} {fb : List Byte} {l : List FusIn} {bufs : List FusBuf}
    (hs : s.Drifted old) : (readDets r.job r.cl r.desc bufs (readInputs r.job r.cl l
      (callTv (cdRead r.job r.cl b m (cdRead r.job r.cl a n s).2).2 c r.desc fb).2).2).2.Drifted old :=
  (hs.cdRead.cdRead.keep callTv_dev).readInputs.readDets

protected theorem execFusionCallDone {die : Nat} (hs : s.Drifted old) : NextDrifted old (execFusionCallDone die s) := by
  unfold execFusionCallDone
  dsimp only
  split
  · exact hs.next
  · split
    · split
      · exact .next (.cdRead (.cdRead hs.upd))
      · split
        · exact .next (.endJob (.cdRead (.cdRead hs.upd)))
        · split
          · exact .next (.fusionReads hs.upd)
          · split
            · exact .next (.endJob (.keep (.fusionReads hs.upd) (modCl_dev ..)))
            · exact .ite (.next (.endJob (.keep (.fusionReads hs.upd) countNonfin_dev)))
                (.next (.writeFusion (.keep (.keep (.fusionReads hs.upd) countNonfin_dev) countSat_dev)))
    · exact hs.upd.next

/-! ## Render passes -/

protected theorem fetchDraws {e : PassEnv} (hs : s.Drifted old) : (fetchDraws e s).2.2.Drifted old := by
  unfold fetchDraws
  refine hs.foldlSndSnd fun hs => ?_
  split
  · exact hs
  · dsimp only
    split
    · exact hs.rasRead
    · split
      · exact hs.rasRead.endJob
      · exact hs.rasRead.drawPrims

protected theorem runBinning {rctx : Nat} {p : RPass} {j : Job} {b : List Byte} {pool : Nat} (hs : s.Drifted old) :
    (runBinning rctx p j b pool s).Drifted old := by
  have hread : (fetchDraws (passEnv s rctx p j b) s).2.2.Drifted old := hs.fetchDraws
  exact .ite (hread.keep rfl) ((hread.keep rfl).keep setRunning_dev)

protected theorem execRenderPassStart {rctx : Nat} (hs : s.Drifted old) :
    NextDrifted old (execRenderPassStart rctx s) := by
  unfold execRenderPassStart
  split
  next => exact hs.next
  next p _ =>
    split
    next => exact hs.upd.next
    next =>
      refine hs.next.ite ?_
      split
      next b t hread =>
        have ht := hs.cdRead (job := p.job) (cl := p.cl) (a := u64 p.desc 8) (n := blkLen p)
        rw [hread] at ht
        refine ht.next.ite (ht.endJob.next.ite ?_)
        split
        · exact ht.next
        · exact ht.upd.runBinning.next

protected theorem execRenderPassDone {rctx : Nat} (hs : s.Drifted old) :
    NextDrifted old (execRenderPassDone rctx s) := by
  unfold execRenderPassDone
  split
  · exact hs.next
  · split
    · exact hs.next
    case h_2 r _ _ j _ =>
      have ht : (finishTiles (passEnv s rctx r.pass j r.blk) r.phases (renderPhases (passEnv s rctx r.pass j r.blk)
          (passClusters s r.pass) [] r.phases s)).Drifted old := hs.renderPhases.finishTiles
      exact hs.next.ite (ht.next.ite (.ite ht.upd.next ht.upd.next))

/-! ## Skink and its checker -/

protected theorem commitChain {id : Nat} {checked : Bool} (hs : s.Drifted old) :
    (commitChain id checked s).Drifted old :=
  hs.upd.commitJob

protected theorem passJob {id : Nat} {checked : Bool} (hs : s.Drifted old) : (passJob id checked s).Drifted old := by
  unfold passJob
  split
  · exact hs
  · exact hs.commitJob.ite (hs.upd.ite (hs.upd.commitChain.ite hs.upd))

protected theorem judge {id : Nat} {pass : Bool} (hs : s.Drifted old) : (judge id pass s).Drifted old := by
  unfold judge
  split
  · exact hs
  · split
    · exact hs.endJob
    · split
      · exact hs.upd
      · exact hs.passJob

protected theorem service {f : State → State} (hs : s.Drifted old) (hf : (f s).Drifted old) :
    NextDrifted old (service f s) :=
  .next (hf.ite hs)

protected theorem execSkVerdict {prog jobseq : Nat} {pass : Bool} (hs : s.Drifted old) :
    NextDrifted old (execSkVerdict prog jobseq pass s) := by
  refine hs.service ?_
  split
  · exact hs
  · exact hs.judge

protected theorem execVerdictTimeout {job : Nat} (hs : s.Drifted old) : NextDrifted old (execVerdictTimeout job s) := by
  unfold execVerdictTimeout
  split
  · exact hs.next
  · exact hs.endJob.next.ite hs.next

protected theorem execSkRead {addr len dst : Nat} (hs : s.Drifted old) :
    NextDrifted old (execSkRead addr len dst s) := by
  refine hs.service ?_
  split
  · exact hs.violate.keep skResult_dev
  · exact .ite (hs.violate.keep skResult_dev)
      (.ite (hs.keep skResult_dev) ((hs.checkedRead.keep (modSkk_dev ..)).keep skResult_dev))

protected theorem execSkPath {grid thr : Nat} {rects : List Corridor} (hs : s.Drifted old) :
    NextDrifted old (execSkPath grid thr rects s) := by
  refine hs.service ?_
  split
  · exact hs.upd
  · exact .ite hs.upd (hs.checkedRead.checkedRead.checkedRead.keep skResult_dev)

protected theorem execSkSafe {detail : Nat} (hs : s.Drifted old) : NextDrifted old (execSkSafe detail s) :=
  hs.service hs.latchSafe

protected theorem pairMismatch {id : Nat} (hs : s.Drifted old) : (pairMismatch id s).Drifted old := by
  unfold pairMismatch
  split
  · exact hs
  · dsimp only
    split
    · split
      · exact hs.upd
      · split
        · exact hs.upd
        · exact hs.upd.endJob
    · split
      · exact hs.upd
      · split
        · exact hs.upd
        · exact hs.upd.endJob

protected theorem execWindowClose {job layer window : Nat} {a b : List WinPart} {diff : List (Nat × Byte)}
    {ckpt : Bool} (hs : s.Drifted old) :
    NextDrifted old (execWindowClose job layer window a b diff ckpt s) := by
  unfold execWindowClose
  split
  · exact hs.next
  · exact hs.next.ite
      ((hs.upd.ite hs.upd.pairMismatch).next.ite (hs.upd.next.ite hs.upd.next))

protected theorem goldenDone {id : Nat} (hs : s.Drifted old) : (goldenDone id s).Drifted old := by
  unfold goldenDone
  split
  · exact hs
  · dsimp only
    split
    · exact hs.endJob
    · split
      · exact hs.upd.latchSafe
      · split
        · exact hs.upd
        · exact hs.upd

protected theorem execCoverageDue {prog : Nat} (hs : s.Drifted old) : NextDrifted old (execCoverageDue prog s) := by
  unfold execCoverageDue
  split
  · exact hs.next
  · exact hs.next.ite (hs.latchSafe.next.ite hs.upd.next)

protected theorem execPlacementDeadline {i : Nat} (hs : s.Drifted old) :
    NextDrifted old (execPlacementDeadline i s) := by
  unfold execPlacementDeadline
  split
  · exact hs.next
  · exact hs.next.ite ((hs.upd.latchSafe.ite hs.upd).next)

protected theorem execCoreDissent {core : Nat} {majority : Bool} (hs : s.Drifted old) :
    NextDrifted old (execCoreDissent core majority s) := by
  unfold execCoreDissent
  dsimp only
  exact hs.next.ite (hs.latchSafe.next.ite (.ite hs.upd.next (.next (.retireNoSpare hs.upd))))

protected theorem execSkinkSramError {unc : Bool} (hs : s.Drifted old) : NextDrifted old (execSkinkSramError unc s) :=
  (hs.latchSafe.ite hs.upd).next

protected theorem execSkwdtExpiry (hs : s.Drifted old) : NextDrifted old (execSkwdtExpiry s) :=
  (hs.latchSafe.ite hs).next

protected theorem execPinFeedbackMismatch (hs : s.Drifted old) : NextDrifted old (execPinFeedbackMismatch s) :=
  (hs.latchSafe.ite hs).next

protected theorem execDebuggerAttach {kind inst : Nat} {secure : Bool} (hs : s.Drifted old) :
    NextDrifted old (execDebuggerAttach kind inst secure s) :=
  hs.next.ite (hs.violate.next.ite (hs.upd.next.ite hs.upd.next))

protected theorem execDebugAction {tgt : DbgTarget} {off : Nat} {bytes : List Byte} (hs : s.Drifted old) :
    NextDrifted old (execDebugAction tgt off bytes s) := by
  unfold execDebugAction
  refine hs.next.ite ?_
  cases tgt with
  | slot h lc slot pos copyB =>
    dsimp only
    split
    · exact hs.next
    · exact hs.violate.next.ite (hs.next.ite (hs.upd.next.ite (hs.next.ite hs.upd.next)))
  | replay h =>
    dsimp only
    split
    · exact hs.upd.next
    · exact hs.next
  | skink core => exact hs.violate.next.ite (hs.next.ite hs.upd.next)

/-! ## The dispatcher -/

protected theorem execYieldPointStop {job tile : Nat} {reads : List (Nat × Nat)} {writes : List Nat}
    (hs : s.Drifted old) :
    NextDrifted old (execYieldPointStop job tile reads writes s) := by
  unfold execYieldPointStop
  split
  · exact hs.next
  · split
    · exact hs.next
    · dsimp only
      split
      · exact .ite (.next (.endJob hs.upd)) hs.upd.next
      · exact hs.upd.next

protected theorem execContextSaveDone {job tile : Nat} (hs : s.Drifted old) :
    NextDrifted old (execContextSaveDone job tile s) := by
  unfold execContextSaveDone
  split
  · exact hs.next
  · split
    · exact hs.next
    · dsimp only
      split
      · exact hs.upd.next
      · split
        · exact hs.upd.next
        · split
          · exact hs.upd.endJob.next
          · exact hs.upd.next

protected theorem execJobResume (hs : s.Drifted old) : NextDrifted old (execJobResume s) := by
  unfold execJobResume
  split
  · exact hs.next
  · split
    · exact hs.next
    · split
      · exact hs.next
      · exact hs.next.ite
          ((hs.upd.pairMismatch.ite hs.upd).next)

protected theorem execRemoteWriteDone {job token : Nat} {ok : Bool} (hs : s.Drifted old) :
    NextDrifted old (execRemoteWriteDone job token ok s) := by
  unfold execRemoteWriteDone
  split
  · exact hs.next
  · exact hs.next.ite (hs.upd.next.ite hs.endJob.next)

protected theorem execRemoteTimeout {job port tile token : Nat} {write : Bool} (hs : s.Drifted old) :
    NextDrifted old (execRemoteTimeout job port tile token write s) := by
  unfold execRemoteTimeout
  split
  · exact hs.next
  · exact hs.next.ite ((hs.endJob.next.ite hs.upd.next).ite (hs.next.ite (hs.endJob.next.ite hs.upd.next)))

protected theorem execTlimitExpiry {job : Nat} (hs : s.Drifted old) : NextDrifted old (execTlimitExpiry job s) := by
  unfold execTlimitExpiry
  split
  · exact hs.next
  · exact hs.next.ite (hs.upd.next.ite hs.stopJob.next)

protected theorem execJobSlotsFinished {job : Nat} (hs : s.Drifted old) :
    NextDrifted old (execJobSlotsFinished job s) := by
  unfold execJobSlotsFinished
  split
  · exact hs.next
  · split
    · exact hs.next
    · split
      · exact hs.endJob.next
      · dsimp only
        split
        · exact hs.upd.endJob.next
        · split
          · exact hs.upd.goldenDone.next
          · exact (hs.upd.endJob.ite hs.upd).next
          · exact hs.upd.next.ite hs.upd.passJob.next

protected theorem execChainJobPrepare {job member : Nat} (hs : s.Drifted old) :
    NextDrifted old (execChainJobPrepare job member s) := by
  unfold execChainJobPrepare
  split
  · exact hs.next
  · exact hs.next.ite (hs.upd.commitChain.next.ite hs.upd.next)

protected theorem execChainJobCommit {job epoch : Nat} (hs : s.Drifted old) :
    NextDrifted old (execChainJobCommit job epoch s) := by
  unfold execChainJobCommit
  split
  · exact hs.next
  · exact hs.next.ite ((hs.upd.commitAt.keep adoptEpoch_dev).next)

protected theorem execPrepareTimeout {job : Nat} (hs : s.Drifted old) : NextDrifted old (execPrepareTimeout job s) := by
  unfold execPrepareTimeout
  split
  · exact hs.next
  · exact (hs.endJob.keep adoptEpoch_dev).next.ite hs.next

/-! ## The gateway -/

protected theorem toRing {p prio id : Nat} {f : GFrame} (hs : s.Drifted old) : (toRing p prio id f s).Drifted old := by
  unfold toRing
  split
  · exact hs.upd
  · exact hs.upd.ite (hs.checkedWrite.keep (modGwy_dev ..))

protected theorem deliverAt {port prio kind id : Nat} {f : GFrame} (hs : s.Drifted old) :
    (deliverAt port prio kind id f s).Drifted old :=
  hs.upd.ite (hs.toRing.ite hs.upd)

protected theorem execPostedWrite {p : Posted} (hs : s.Drifted old) : NextDrifted old (execPostedWrite p s) := by
  unfold execPostedWrite
  split
  · exact hs.next
  · split
    · exact hs.upd.next
    · split
      · exact hs.deliverAt.next
      · exact hs.upd.next

protected theorem forward {k : Nat} {e : List Byte} {f : GFrame} (hs : s.Drifted old) :
    (forward k e f s).Drifted old := by
  unfold forward
  dsimp only
  split
  · split
    · exact hs.deliverAt
    · exact hs.upd
  · exact hs.upd

protected theorem actEntry {k : Nat} {f : GFrame} (hs : s.Drifted old) : (actEntry k f s).Drifted old := by
  unfold actEntry
  split
  · exact hs
  · exact hs.upd.ite (hs.upd.ite hs.upd.forward)

protected theorem route {f : GFrame} (hs : s.Drifted old) : (route f s).Drifted old := by
  unfold route
  split
  · exact hs.upd
  · exact hs.foldl fun hs => hs.actEntry

protected theorem execGatewayFrame {f : Ingress} {err : Int} (hs : s.Drifted old) :
    NextDrifted old (execGatewayFrame f err s) := by
  unfold execGatewayFrame
  dsimp only
  split
  · exact hs.next
  · split
    · exact hs.next
    · exact hs.route.next

protected theorem txSlot {k : Nat} (hs : s.Drifted old) : (txSlot k s).Drifted old := by
  unfold txSlot
  split
  · exact hs
  · exact .ite (hs.checkedRead.keep (modGwy_dev ..)) (.ite ((hs.checkedRead.keep (modGwy_dev ..)).keep countDrops_dev)
      (hs.checkedRead.keep (modGwy_dev ..)).route)

protected theorem txSlots {k n : Nat} (hs : s.Drifted old) : (txSlots k n s).Drifted old := by
  induction n generalizing s with
  | zero => exact hs
  | succ n ih => exact ih hs.txSlot

protected theorem writeTxtail {ring v : Nat} (hs : s.Drifted old) : (writeTxtail ring v s).Drifted old := by
  unfold writeTxtail
  split
  · exact hs
  · exact hs.ite (hs.upd.ite hs.upd.txSlots)

protected theorem execTxtailWrite {w : DoorWrite} (hs : s.Drifted old) : NextDrifted old (execTxtailWrite w s) := by
  unfold execTxtailWrite
  split
  · exact hs.writeTxtail.next
  · exact hs.next

/-! ## Svajor links and the chain -/

protected theorem endChainJobs {gone : Nat → Bool} (hs : s.Drifted old) : (endChainJobs gone s).Drifted old :=
  hs.endJobs

protected theorem leftChain {st ev : Nat} (hs : s.Drifted old) : (leftChain st ev s).Drifted old :=
  .keep (.endChainJobs hs.upd) evChain_dev

protected theorem applyChain (hs : s.Drifted old) : (applyChain s).Drifted old := by
  unfold applyChain
  dsimp only
  refine hs.leftChain.ite (.keep (.keepFold (.keepFold (.keepFold (.endChainJobs hs.upd) ?_) ?_) ?_) (modChn_dev ..))
  · exact fun _ _ => evChain_dev
  · exact fun _ _ => evChain_dev
  · exact fun _ _ => complete_dev ..

protected theorem advanceEpoch (hs : s.Drifted old) : (advanceEpoch s).Drifted old :=
  hs.ite (.keep (.ite hs.upd (.applyChain hs.upd)) send_dev)

protected theorem execEpochAdvance {leaves : List Nat} (hs : s.Drifted old) :
    NextDrifted old (execEpochAdvance leaves s) :=
  hs.next.ite ((hs.upd.ite hs.upd.advanceEpoch).next)

protected theorem takeGen {g : ChainGen} (hs : s.Drifted old) : (takeGen g s).Drifted old := by
  unfold takeGen
  dsimp only
  split
  · exact hs.leftChain
  · have hknown {st : Nat → Bool} {new gone : List Nat} {t : State} (ht : t.dev = s.dev) :
        (knowPeers g new gone (endChainJobs st t)).Drifted old := (hs.keep ht).endChainJobs.keep knowPeers_dev
    have htold {a b new gone : List Nat} {st : Nat → Bool} {t : State} (ht : t.dev = s.dev) :
        (b.foldl (fun s k => evChain 3 0 k s) (a.foldl (fun s k => evChain 2 0 k s)
          (knowPeers g new gone (endChainJobs st t)))).Drifted old :=
      ((hknown ht).keepFold fun _ _ => evChain_dev).keepFold fun _ _ => evChain_dev
    exact .ite (.keep (hknown (by simp)) evChain_dev) (.ite (.keep (htold (by simp)) evChain_dev) (htold (by simp)))

protected theorem execAdvance {epoch : Nat} {isOver : Bool} {sw : Option ChainGen} (hs : s.Drifted old) :
    NextDrifted old (execAdvance epoch isOver sw s) := by
  unfold execAdvance
  dsimp only
  split
  · exact hs.next.ite (.next (.ite (.keep (.takeGen hs.upd) evChain_dev) (.takeGen hs.upd)))
  · exact hs.next.ite (.next hs.upd)

protected theorem linkLost {a b : Nat} (hs : s.Drifted old) : (linkLost a b s).Drifted old := by
  have hended {f g : Chn → Chn} {st : Nat → Bool} : (modChn g (endChainJobs st (modChn f s))).Drifted old :=
    .keep (.endChainJobs hs.upd) (modChn_dev ..)
  have hnext {f g : Chn → Chn} {st : Nat → Bool} {sch : Sch} :
      State.Drifted { modChn g (endChainJobs st (modChn f s)) with sch := sch } old := (hended (g := g)).keep rfl
  exact hs.ite (hs.ite (.ite hended (.keep (.applyChain (.keep hnext markPeers_dev)) send_dev)))

protected theorem execPortDownReport {a b : Nat} (hs : s.Drifted old) : NextDrifted old (execPortDownReport a b s) :=
  hs.linkLost.next

protected theorem execMasterLost {by_ : Option Nat} {links : List ChLink} (hs : s.Drifted old) :
    NextDrifted old (execMasterLost by_ links s) := by
  have hended {st : Nat → Bool} {sch : Sch} : State.Drifted { endChainJobs st s with sch := sch } old :=
    hs.endChainJobs.keep rfl
  unfold execMasterLost
  split
  · exact hs.next
  · split
    · exact hs.next.ite hs.upd.next
    · refine .ite (.next (.keep (.keep (.keepFold (.keep (.keep hended (modChn_dev ..)) switchGen_dev) ?_)
        evChain_dev) send_dev)) hs.leftChain.next
      exact fun _ _ => evChain_dev

protected theorem execRemoteRequest {token tenant addr n : Nat} {write : Option (List Byte)} (hs : s.Drifted old) :
    NextDrifted old (execRemoteRequest token tenant addr n write s) := by
  unfold execRemoteRequest
  split
  · exact hs.next
  · dsimp only
    split
    · split
      · exact (hs.checkedWrite.keep (modChn_dev ..)).next
      · exact (hs.violate.keep (modChn_dev ..)).next
    · split
      · exact (hs.checkedRead.keep (modChn_dev ..)).next
      · exact (hs.violate.keep (modChn_dev ..)).next

protected theorem execLinkDown {port : Nat} (hs : s.Drifted old) : NextDrifted old (execLinkDown port s) := by
  unfold execLinkDown
  dsimp only
  exact hs.next.ite (.ite hs.upd.next (.ite (.next (.linkLost hs.upd)) hs.upd.next))

protected theorem retireLane {port lane cause symErr : Nat} (hs : s.Drifted old) :
    (retireLane port lane cause symErr s).Drifted old := by
  unfold retireLane
  dsimp only
  exact hs.ite (.ite (.ite hs.upd hs) (.ite hs.upd (.keep (.retireNoSpare hs.upd) modSl_dev)))

protected theorem execLaneSpare {port lane symErr : Nat} (hs : s.Drifted old) :
    NextDrifted old (execLaneSpare port lane symErr s) :=
  hs.next.ite hs.retireLane.next

/-! ## Memory -/

protected theorem repairRow {stack : Nat} {e : DramErr} {cause value : Nat} (hs : s.Drifted old) :
    (repairRow stack e cause value s).Drifted old :=
  hs.upd.ite (hs.upd.foldl fun hs => hs.ite hs.upd.retireNoSpare)

protected theorem dramError {e : DramErr} (hs : s.Drifted old) : (dramError e s).Drifted old :=
  hs.upd.repairRow.ite (hs.upd.ite hs.upd.repairRow)

protected theorem metBy {err : Option DramErr} {a n : Nat} (hs : s.Drifted old) : (metBy err a n s).Drifted old := by
  unfold metBy
  split
  · exact hs.dramError.ite hs
  · exact hs

protected theorem execPatrolScrub {errs : List DramErr} (hs : s.Drifted old) :
    NextDrifted old (execPatrolScrub errs s) :=
  hs.next.ite ((hs.foldl fun hs => hs.dramError.ite hs).next)

protected theorem putSram {job cl : Nat} {dst : Option (Nat × Nat)} {d : List Byte} (hs : s.Drifted old) :
    (putSram job cl dst d s).Drifted old := by
  unfold putSram
  split
  · exact hs.sramWrite
  · exact hs

protected theorem workRead {job cl a n label : Nat} {j : Job} {err : Option DramErr} (hs : s.Drifted old) :
    (workRead job cl a n label j err s).2.Drifted old := by
  unfold workRead
  dsimp only
  split
  · split
    · exact hs.metBy.endJob
    · split
      · exact (hs.metBy.keep cacheLinesRead_dev).keep (undefBytes_dev (n := n))
      · exact hs.metBy.keep cacheLinesRead_dev
  · exact hs.violate

protected theorem asyncRead {job cl copy a n label : Nat} {j : Job} {dst : Option (Nat × Nat)} {err : Option DramErr}
    (hs : s.Drifted old) :
    (asyncRead job cl copy a n label j dst err s).Drifted old := by
  unfold asyncRead
  split
  · split
    · exact .keep (.putSram hs.upd) gotData_dev
    · dsimp only
      split
      · exact ((hs.workRead.keep (modJob_dev ..)).putSram).keep gotData_dev
      · exact hs.workRead
  · split
    · exact .keep (.putSram hs.upd) gotData_dev
    · exact hs

protected theorem aheadRead {c : Acc} {cl : Option Nat} {a n label : Nat} {err : Option DramErr} (hs : s.Drifted old) :
    (aheadRead c cl a n label err s).Drifted old := by
  have hread {p : Prop} {_ : Decidable p} : (if p then undefBytes n (metBy err a n s)
      else (dramRead (metBy err a n s) a n, metBy err a n s)).2.Drifted old := by
    split
    · exact hs.metBy.keep undefBytes_dev
    · exact hs.metBy
  unfold aheadRead
  split
  · exact hs.upd
  · split
    · dsimp only
      split
      · exact hs.metBy
      · split
        · exact (hread.keep cacheLinesRead_dev).keep gotData_dev
        · exact hread.keep gotData_dev
    · exact hs.violate

protected theorem execDramTransaction {src : DramSrc} {addr label : Nat} {op : DramOp} {dst : Option (Nat × Nat)}
    {async : Bool} {err : Option DramErr} (hs : s.Drifted old) :
    NextDrifted old (execDramTransaction src addr label op dst async err s) := by
  unfold execDramTransaction
  split
  · split
    · exact hs.next
    · split
      · exact hs.next
      · split
        · exact hs.jobDramWrite.next
        · exact hs.aheadRead.next
        · dsimp only
          refine .ite hs.asyncRead.next ?_
          split
          · exact (hs.workRead.putSram.keep gotData_dev).next
          · exact (hs.workRead.keep gotData_dev).next
  · dsimp only
    split
    · exact hs.checkedWrite.next
    · exact hs.aheadRead.next
    · exact ((hs.metBy.ite hs).checkedRead.keep gotData_dev).next

protected theorem hostRead {addr n : Nat} {err : Option DramErr} (hs : s.Drifted old) :
    (hostRead addr n err s).Drifted old := by
  unfold hostRead
  split
  · refine .keep ?_ (modMem_dev ..)
    split
    · exact hs.metBy.keep undefBytes_dev
    · exact hs.metBy
  · exact hs.violate.keep (modMem_dev ..)

protected theorem execHostBar4Access {ep addr : Nat} {op : DramOp} {err : Option DramErr} (hs : s.Drifted old) :
    NextDrifted old (execHostBar4Access ep addr op err s) := by
  unfold execHostBar4Access
  split
  · exact hs.next
  · split
    · exact hs.next.ite hs.checkedWrite.next
    · exact hs.next.ite (hs.upd.next.ite hs.hostRead.next)
    · exact hs.next.ite hs.hostRead.next

/-! ## Firmware and its restarts -/

protected theorem retireTileWear {cl t cause value : Nat} (hs : s.Drifted old) :
    (retireTileWear cl t cause value s).Drifted old := by
  unfold retireTileWear
  dsimp only
  split
  · exact hs
  · refine .retireTile ?_
    split
    · exact hs.upd
    · split <;> exact hs.upd

protected theorem retireCcc {proc cl cause value : Nat} (hs : s.Drifted old) :
    (retireCcc proc cl cause value s).Drifted old :=
  hs.upd.ite (hs.upd.retireNoSpare.foldl fun hs => hs.retireTileWear)

protected theorem beginRestart {proc cause : Nat} (hs : s.Drifted old) : (beginRestart proc cause s).Drifted old := by
  unfold beginRestart
  split
  · exact hs
  · dsimp only
    split
    · exact hs.upd
    · exact hs.upd.ite hs.upd.retireCcc

protected theorem execFwWatchdogExpiry {proc : Nat} (hs : s.Drifted old) :
    NextDrifted old (execFwWatchdogExpiry proc s) :=
  hs.beginRestart.next

protected theorem execFwException {proc : Nat} {memory : Bool} (hs : s.Drifted old) :
    NextDrifted old (execFwException proc memory s) :=
  hs.beginRestart.next

/-! ## Wear and retirement -/

protected theorem clusterLost {cl : Nat} (hs : s.Drifted old) : (clusterLost cl s).Drifted old :=
  hs.endJobs.keepFold fun _ _ => secLoss_dev

protected theorem loseUnit {kind inst cause value : Nat} (hs : s.Drifted old) :
    (loseUnit kind inst cause value s).Drifted old :=
  hs.ite hs.upd.retireNoSpare

protected theorem loseTiles {cl : Nat} (hs : s.Drifted old) : (loseTiles cl s).Drifted old :=
  (hs.clusterLost.foldl fun hs => hs.retireTileWear).keep (modCl_dev ..)

protected theorem losePort {port : Nat} (hs : s.Drifted old) : (losePort port s).Drifted old := by
  unfold losePort
  refine .keep (.keep (.foldl ?_ fun hs => hs.loseUnit) modMap_dev) modSl_dev
  split
  · exact hs.execLinkDown _ ‹_›
  · exact hs

protected theorem railShutdown {r : Nat} (hs : s.Drifted old) : (railShutdown r s).Drifted old := by
  unfold railShutdown
  extract_lets tiles granules cores ports
  have htiles : tiles.Drifted old := (hs.foldl fun hs => hs.loseTiles).ite hs
  have hgranules : granules.Drifted old := (htiles.foldl fun hs => hs.foldl fun hs => hs.loseUnit).ite htiles
  have hcores : cores.Drifted old := (hgranules.foldl fun hs => hs.loseUnit).ite hgranules
  have hports : ports.Drifted old := (hcores.foldl fun hs => hs.losePort).ite hcores
  exact (hports.foldl fun hs => hs.loseUnit).ite hports

protected theorem retirePhase {die p cause : Nat} {fault : Bool} (hs : s.Drifted old) :
    (retirePhase die p cause fault s).Drifted old := by
  unfold retirePhase
  dsimp only
  refine hs.ite ?_
  split
  · exact hs.upd
  · split
    · exact hs.upd
    · have htold {c : Prop} {_ : Decidable c} {t : State} (ht : t.dev = s.dev) :
          (if c then evPower 3 none none (retireNoSpare t) else retireNoSpare t).Drifted old :=
        .ite (.keep (.retireNoSpare (hs.keep ht)) evPower_dev) (.retireNoSpare (hs.keep ht))
      exact .ite (.railShutdown (htold (by simp))) (htold (by simp))

protected theorem execPhaseFault {die phase : Nat} (hs : s.Drifted old) :
    NextDrifted old (execPhaseFault die phase s) :=
  (hs.ite hs.retirePhase).next

protected theorem execWearMeasure {drops : List (Nat × Nat)} (hs : s.Drifted old) :
    NextDrifted old (execWearMeasure drops s) :=
  (hs.ite (hs.foldl fun hs => hs.ite (hs.retireTileWear.ite hs.upd))).next

protected theorem retireGranule {cl g cause value : Nat} {holder : GranHolder} (hs : s.Drifted old) :
    (retireGranule cl g cause value holder s).Drifted old := by
  unfold retireGranule
  dsimp only
  split
  · exact hs.loseUnit.keep trimCache_dev
  · split
    · split
      · exact hs.loseUnit.keep loseProg_dev
      · exact hs.loseUnit
    · exact hs.loseUnit
  · split
    · exact (hs.loseUnit.keep dropLoad_dev).ite hs.loseUnit
    · exact hs.loseUnit

protected theorem repairLine {e : SramErr} {col cause value : Nat} (hs : s.Drifted old) :
    (repairLine e col cause value s).Drifted old :=
  hs.upd.ite (hs.upd.retireGranule.ite hs.upd.retireNoSpare.retireTileWear)

protected theorem execSramEccError {e : SramErr} (hs : s.Drifted old) : NextDrifted old (execSramEccError e s) := by
  unfold execSramEccError
  dsimp only
  refine hs.next.ite (.ite (.next ?_) (.next (.ite (.repairLine hs.upd) (.ite (.repairLine hs.upd) hs.upd))))
  split
  · exact (hs.repairLine.keep reloadJob_dev).ite hs.repairLine
  · exact hs.repairLine

protected theorem retireCccInst {inst cause : Nat} (hs : s.Drifted old) : (retireCccInst inst cause s).Drifted old := by
  unfold retireCccInst
  dsimp only
  split
  · exact hs.retireCcc
  · exact hs.upd

protected theorem retireUnit {kind inst : Nat} (hs : s.Drifted old) : (retireUnit kind inst s).Drifted old := by
  unfold retireUnit
  split
  · exact hs.retireTileWear
  · exact hs.repairLine
  · exact hs.repairLine
  · exact hs.upd.repairRow
  · exact hs.retireLane
  · exact hs.retirePhase
  · exact hs.retireCccInst
  · exact hs.upd.retireNoSpare

/-! ## Power -/

protected theorem execClusterTrip {cl temp : Nat} (hs : s.Drifted old) :
    NextDrifted old (execClusterTrip cl temp s) := by
  unfold execClusterTrip
  dsimp only
  refine hs.next.ite (.next (.keep (.keep (.keep (.keepFold (.keepFold hs.clusterLost.endJobs fun s c => ?_) ?_)
    (State.setCl_dev ..)) (modPow_dev ..)) evPower_dev))
  · split
    · exact loseProg_dev
    · rfl
  · intro s l
    split
    · exact dropLoad_dev
    · rfl

protected theorem cutBlock {kind inst mode : Nat} (hs : s.Drifted old) : (cutBlock kind inst mode s).Drifted old := by
  have hset : (setGate kind inst mode s).Drifted old := hs.upd
  unfold cutBlock
  dsimp only
  split
  · exact hs.upd
  · refine .keep ?_ modSl_dev
    split
    · exact hset.execLinkDown _ ‹_›
    · exact hset
  · exact hs.upd
  · exact hs.upd
  · exact hset

/-! ## The device -/

protected theorem retireFailed {kind inst item : Nat} (hs : s.Drifted old) :
    (retireFailed kind inst item s).Drifted old := by
  unfold retireFailed
  split
  · exact hs.retireTileWear
  · exact hs.repairLine
  · exact hs.repairLine
  · exact hs.retireLane
  · exact hs.retirePhase
  · exact hs.retireCcc
  · exact hs

protected theorem injectFail {f : BistFail} (hs : s.Drifted old) : (injectFail f s).Drifted old := by
  unfold injectFail
  split
  · exact hs.retireFailed.ite hs.upd
  · exact hs.upd

protected theorem execHoldLimitExpiry (hs : s.Drifted old) : NextDrifted old (execHoldLimitExpiry s) :=
  hs.next.ite hs.upd.latchSafe.next

end State.Drifted

end Sys2Proof.Machine
end

section
/-! SUPPORT. Instructions that carry no command and move the device nowhere but by a drift. -/

set_option Elab.async false

namespace Sys2Proof.Machine

namespace State.Drifted

variable {old : Dev} {s : State}

/-! ## Program commands -/

protected theorem execEvalMsExpiry {prog : Nat} (hs : s.Drifted old) : NextDrifted old (execEvalMsExpiry prog s) := by
  unfold execEvalMsExpiry
  split
  · exact hs.upd.next.ite hs.next
  · exact hs.next

protected theorem execProgLoadComplete {i : Nat} (hs : s.Drifted old) : NextDrifted old (execProgLoadComplete i s) := by
  unfold execProgLoadComplete
  split
  · exact hs.next
  · exact hs.upd.next.ite hs.next

protected theorem execProgUnloadDrained {prog : Nat} (hs : s.Drifted old) :
    NextDrifted old (execProgUnloadDrained prog s) := by
  unfold execProgUnloadDrained
  split
  · exact hs.next
  · exact hs.upd.next.ite hs.next

protected theorem execProgReplaceDrained {prog : Nat} (hs : s.Drifted old) :
    NextDrifted old (execProgReplaceDrained prog s) := by
  unfold execProgReplaceDrained
  split
  · exact hs.next.ite hs.upd.next
  · exact hs.next

protected theorem execProgReplaceSwitch {prog : Nat} (hs : s.Drifted old) :
    NextDrifted old (execProgReplaceSwitch prog s) := by
  unfold execProgReplaceSwitch
  split
  · exact hs.next.ite hs.upd.next
  · exact hs.next

/-! ## Tenants -/

protected theorem execTenantQuiesceDrained {t : Nat} (hs : s.Drifted old) :
    NextDrifted old (execTenantQuiesceDrained t s) :=
  hs.upd.next.ite hs.next

protected theorem execTenantCloseDrained {t : Nat} (hs : s.Drifted old) :
    NextDrifted old (execTenantCloseDrained t s) :=
  hs.upd.next.ite hs.next

/-! ## Queues and jobs -/

protected theorem execCqHeadWrite {w : DoorWrite} (hs : s.Drifted old) : NextDrifted old (execCqHeadWrite w s) := by
  unfold execCqHeadWrite
  split
  · exact hs.upd.next
  · exact hs.next

protected theorem execSqEntryTake {tenant queue : Nat} (hs : s.Drifted old) :
    NextDrifted old (execSqEntryTake tenant queue s) := by
  unfold execSqEntryTake
  split
  · exact hs.next
  · split
    · exact hs.next
    · exact hs.next.ite (hs.upd.next.ite hs.upd.next)

/-! ## Halo buffers and the Colander -/

protected theorem execHaloEntryWrite {job idx copy step waitUs : Nat} {rows : List Byte} (hs : s.Drifted old) :
    NextDrifted old (execHaloEntryWrite job idx copy step waitUs rows s) := by
  unfold execHaloEntryWrite
  split
  · exact hs.next
  · split
    · exact hs.next
    · exact hs.next.ite hs.upd.next

protected theorem execColanderCall {job cl : Nat} {desc : List Byte} (hs : s.Drifted old) :
    NextDrifted old (execColanderCall job cl desc s) := by
  unfold execColanderCall
  split
  · exact hs.next
  · exact hs.next.ite hs.upd.next

/-! ## Displays -/

protected theorem execDispTrainingDone {disp : Nat} {ok : Bool} (hs : s.Drifted old) :
    NextDrifted old (execDispTrainingDone disp ok s) := by
  unfold execDispTrainingDone
  dsimp only
  split
  · exact hs.upd.next.ite hs.upd.next
  · exact hs.upd.next.ite hs.next

protected theorem execUnderrun {disp : Nat} {pixels : List (Nat × Nat)} (hs : s.Drifted old) :
    NextDrifted old (execUnderrun disp pixels s) :=
  hs.next.ite (hs.upd.next)

protected theorem execHpdChange {disp : Nat} {plugged : Bool} (hs : s.Drifted old) :
    NextDrifted old (execHpdChange disp plugged s) :=
  hs.next.ite hs.upd.next

protected theorem execDispLinkLoss {disp : Nat} (hs : s.Drifted old) : NextDrifted old (execDispLinkLoss disp s) := by
  unfold execDispLinkLoss
  dsimp only
  split <;> exact hs.next.ite hs.upd.next

/-! ## Units of streams -/

protected theorem execStreamDoneWrite {w : DoorWrite} (hs : s.Drifted old) :
    NextDrifted old (execStreamDoneWrite w s) := by
  unfold execStreamDoneWrite
  split
  · exact hs.upd.next
  · exact hs.next

/-! ## Time, pulses and captures -/

protected theorem execSyncReceived {mac domNum gm : Nat} {offset rate : Int} (hs : s.Drifted old) :
    NextDrifted old (execSyncReceived mac domNum gm offset rate s) := by
  unfold execSyncReceived
  dsimp only
  split
  · exact hs.next
  · exact hs.next.ite hs.upd.next

protected theorem execSyncTimeout {dom : Nat} (hs : s.Drifted old) : NextDrifted old (execSyncTimeout dom s) :=
  hs.upd.next.ite hs.next

protected theorem execEthLinkLoss {mac : Nat} (hs : s.Drifted old) : NextDrifted old (execEthLinkLoss mac s) :=
  hs.upd.next.ite hs.next

protected theorem execEthLinkUp {mac mbps : Nat} (hs : s.Drifted old) : NextDrifted old (execEthLinkUp mac mbps s) :=
  hs.upd.next.ite hs.next

protected theorem execPeerDelayMessage {mac domNum : Nat} {capable : Bool} (hs : s.Drifted old) :
    NextDrifted old (execPeerDelayMessage mac domNum capable s) := by
  unfold execPeerDelayMessage
  dsimp only
  split
  · exact hs.next
  · exact hs.upd.next

protected theorem execDomainRevert (hs : s.Drifted old) : NextDrifted old (execDomainRevert s) :=
  hs.upd.next.ite hs.next

protected theorem execPulseEdge {tpo : Nat} (hs : s.Drifted old) : NextDrifted old (execPulseEdge tpo s) := by
  unfold execPulseEdge
  dsimp only
  split
  · exact hs.next
  · exact (hs.upd.next.ite hs.next).ite (hs.upd.next.ite hs.next)

protected theorem execTciEdge {tci : Nat} {rising : Bool} {err : Int} (hs : s.Drifted old) :
    NextDrifted old (execTciEdge tci rising err s) :=
  hs.upd.next.ite hs.next

protected theorem execLtailWrite {w : DoorWrite} (hs : s.Drifted old) : NextDrifted old (execLtailWrite w s) := by
  unfold execLtailWrite
  split
  · split
    · exact hs.next
    · exact hs.upd.next
  · exact hs.next

/-! ## Fusion -/

protected theorem execFusCloseDone {ctx : Nat} (hs : s.Drifted old) : NextDrifted old (execFusCloseDone ctx s) := by
  unfold execFusCloseDone
  split
  · exact hs.next
  · exact hs.upd.next.ite hs.next

/-! ## Render passes -/

protected theorem execRasCloseDone {rctx : Nat} (hs : s.Drifted old) : NextDrifted old (execRasCloseDone rctx s) := by
  unfold execRasCloseDone
  split
  · exact hs.next
  · exact hs.upd.next.ite hs.next

protected theorem execRenderPassIssue {job cl : Nat} {desc : List Byte} (hs : s.Drifted old) :
    NextDrifted old (execRenderPassIssue job cl desc s) := by
  unfold execRenderPassIssue
  split
  · exact hs.next
  · exact hs.upd.next.ite hs.next

/-! ## Skink and its checker -/

protected theorem execSkKick (hs : s.Drifted old) : NextDrifted old (execSkKick s) := hs.service hs.upd

protected theorem execSkNext (hs : s.Drifted old) : NextDrifted old (execSkNext s) := by
  refine hs.service ?_
  split
  · exact hs
  · split <;> exact hs.upd

protected theorem execSkDispreg {disp region x y w h : Nat} (hs : s.Drifted old) :
    NextDrifted old (execSkDispreg disp region x y w h s) :=
  hs.service hs.upd

protected theorem execSkDispcrc {disp region : Nat} (hs : s.Drifted old) :
    NextDrifted old (execSkDispcrc disp region s) := by
  refine hs.service ?_
  split <;> exact hs.upd

protected theorem execSkMbox (hs : s.Drifted old) : NextDrifted old (execSkMbox s) := hs.service hs.upd

protected theorem execSkTime (hs : s.Drifted old) : NextDrifted old (execSkTime s) := hs.service hs.upd

protected theorem execGoldenEligible {prog : Nat} (hs : s.Drifted old) :
    NextDrifted old (execGoldenEligible prog s) := by
  unfold execGoldenEligible
  split
  · exact hs.next
  · exact hs.upd.next

protected theorem execSweepDone (hs : s.Drifted old) : NextDrifted old (execSweepDone s) :=
  hs.upd.next

protected theorem execHeartbeat (hs : s.Drifted old) : NextDrifted old (execHeartbeat s) :=
  hs.next.ite hs.upd.next

/-! ## The dispatcher -/

protected theorem execJobDispatch (hs : s.Drifted old) : NextDrifted old (execJobDispatch s) := by
  unfold execJobDispatch
  split
  · exact hs.next
  · split
    · exact hs.upd.next
    · split
      · exact hs.upd.next
      · split
        · exact hs.next
        · split
          · exact hs.upd.next
          · exact hs.next

protected theorem execRemoteReply {job port tile token : Nat} {data : List Byte} (hs : s.Drifted old) :
    NextDrifted old (execRemoteReply job port tile token data s) := by
  unfold execRemoteReply
  split
  · exact hs.next
  · dsimp only
    split
    · exact hs.upd.next
    · exact hs.upd.next
    · exact hs.next

protected theorem execParkTimeout {job token : Nat} (hs : s.Drifted old) :
    NextDrifted old (execParkTimeout job token s) := by
  unfold execParkTimeout
  split
  · exact hs.next
  · exact hs.upd.next.ite hs.next

/-! ## Control engines -/

protected theorem execEngineTick {ce : Nat} {skip : Bool} (hs : s.Drifted old) :
    NextDrifted old (execEngineTick ce skip s) := by
  have hbegin {n : Nat} : (beginTick ce n (dieTickAt (ce / 4) n s)).2.2.Drifted old := hs.upd
  unfold execEngineTick
  extract_lets n fresh t
  refine hs.next.ite ?_
  split
  next e bump u heq =>
  have hu : (beginTick ce n t).2.2.Drifted old := hbegin
  rw [heq] at hu
  have hloops : ((List.range 64).foldl (turnLoop ce n bump) (e, u)).2.Drifted old :=
    foldlSnd hu fun hs => hs.keep turnLoop_dev
  exact .ite (.next (hu.keep (State.setCe_dev ..))) (.next (hloops.keep (State.setCe_dev ..)))

protected theorem execFollowingErrorTimeout {ce loop : Nat} (hs : s.Drifted old) :
    NextDrifted old (execFollowingErrorTimeout ce loop s) :=
  hs.upd.next.ite hs.next

protected theorem execTraceDone {ce : Nat} (hs : s.Drifted old) : NextDrifted old (execTraceDone ce s) :=
  hs.upd.next.ite hs.next

protected theorem execSetpointPageWrite {w : DoorWrite} (hs : s.Drifted old) :
    NextDrifted old (execSetpointPageWrite w s) := by
  unfold execSetpointPageWrite
  split
  · exact hs.upd.next.ite hs.next
  · exact hs.next

protected theorem execPwmPeriod {pwm : Nat} (hs : s.Drifted old) : NextDrifted old (execPwmPeriod pwm s) := by
  unfold execPwmPeriod
  dsimp only
  split
  · exact hs.next
  · exact hs.next.ite (hs.upd.next)

protected theorem execSigmaDeltaOutput {sd : Nat} {stream : List Bool} (hs : s.Drifted old) :
    NextDrifted old (execSigmaDeltaOutput sd stream s) :=
  hs.next.ite hs.upd.next

protected theorem execSdClockLoss {sd : Nat} (hs : s.Drifted old) : NextDrifted old (execSdClockLoss sd s) :=
  hs.next.ite hs.upd.next

protected theorem execQuadratureEdge {enc : Nat} {aLeads : Bool} (hs : s.Drifted old) :
    NextDrifted old (execQuadratureEdge enc aLeads s) :=
  hs.upd.next.ite hs.next

protected theorem execEncIllegalTransition {enc : Nat} (hs : s.Drifted old) :
    NextDrifted old (execEncIllegalTransition enc s) :=
  hs.upd.next.ite hs.next

protected theorem execEncIndex {enc : Nat} (hs : s.Drifted old) : NextDrifted old (execEncIndex enc s) :=
  hs.upd.next.ite hs.next

protected theorem execSentMessage {enc sync : Nat} {ticks : List Nat} (hs : s.Drifted old) :
    NextDrifted old (execSentMessage enc sync ticks s) :=
  hs.next.ite (hs.next.ite (hs.upd.next.ite hs.upd.next))

protected theorem execSentTimeout {enc : Nat} (hs : s.Drifted old) : NextDrifted old (execSentTimeout enc s) :=
  hs.upd.next.ite hs.next

protected theorem execCtlTraceDumpDone {ce : Nat} (hs : s.Drifted old) :
    NextDrifted old (execCtlTraceDumpDone ce s) := by
  unfold execCtlTraceDumpDone
  dsimp only
  split
  · exact hs.upd.next
  · exact hs.next

/-! ## The gateway -/

protected theorem execAddressClaim {ctl : Nat} {won : Bool} (hs : s.Drifted old) :
    NextDrifted old (execAddressClaim ctl won s) := by
  unfold execAddressClaim
  split
  · exact hs.next
  · exact (hs.next.ite hs.upd.next).ite
      (hs.upd.next.ite hs.upd.next)

protected theorem execErrorReport {reason outport outdev ident idx tenant : Nat} (hs : s.Drifted old) :
    NextDrifted old (execErrorReport reason outport outdev ident idx tenant s) :=
  hs.upd.next

protected theorem execRxdoneWrite {w : DoorWrite} (hs : s.Drifted old) : NextDrifted old (execRxdoneWrite w s) := by
  unfold execRxdoneWrite
  split
  · exact hs.upd.next
  · exact hs.next

protected theorem execCanTxTimeout {ctl : Nat} (hs : s.Drifted old) : NextDrifted old (execCanTxTimeout ctl s) := by
  unfold execCanTxTimeout
  dsimp only
  split
  · exact hs.next
  · exact hs.next.ite hs.upd.next

/-! ## Svajor links and the chain -/

protected theorem execJoinReq {m : JoinMsg} (hs : s.Drifted old) : NextDrifted old (execJoinReq m s) := by
  unfold execJoinReq
  split
  · split
    · exact hs.next
    · split
      · exact hs.upd.next
      · exact hs.upd.next
  · exact hs.next.ite hs.upd.next

protected theorem execC3Timeout {port : Nat} (hs : s.Drifted old) : NextDrifted old (execC3Timeout port s) := by
  unfold execC3Timeout
  split
  · exact hs.next
  · exact hs.upd.next

protected theorem execChainPacketForward {gen dst : Nat} {upper : Bool} {post : Option Posted} (hs : s.Drifted old) :
    NextDrifted old (execChainPacketForward gen dst upper post s) := by
  unfold execChainPacketForward
  split
  · exact hs.next
  · dsimp only
    split
    · refine State.Drifted.next ?_
      split
      · exact hs.upd
      · exact hs
    · split
      · refine State.Drifted.next ?_
        split
        · exact hs.upd
        · exact hs
      · split
        · exact hs.upd.next
        · exact hs.next

protected theorem execSignalDetected {port : Nat} (hs : s.Drifted old) : NextDrifted old (execSignalDetected port s) :=
  hs.next.ite (hs.upd.next)

protected theorem execLinkRetry {port : Nat} (hs : s.Drifted old) : NextDrifted old (execLinkRetry port s) :=
  hs.upd.next

protected theorem execLinkTrainingTimeout {port : Nat} (hs : s.Drifted old) :
    NextDrifted old (execLinkTrainingTimeout port s) :=
  hs.upd.next

protected theorem execLinkUp {port : Nat} {peer : ChainPeer} {lanes dly : Nat} (hs : s.Drifted old) :
    NextDrifted old (execLinkUp port peer lanes dly s) :=
  hs.next.ite (hs.upd.next.ite hs.upd.next)

protected theorem execLinkdlyMeasure {port dly : Nat} {far : List ChLink} (hs : s.Drifted old) :
    NextDrifted old (execLinkdlyMeasure port dly far s) :=
  hs.next.ite (hs.upd.next.ite (hs.upd.next))

protected theorem execFlitReceived {port corr uncorr : Nat} {ok : Bool} (hs : s.Drifted old) :
    NextDrifted old (execFlitReceived port corr uncorr ok s) :=
  hs.next.ite hs.upd.next

/-! ## Memory -/

protected theorem execMemCommandDone {i : Nat} (hs : s.Drifted old) : NextDrifted old (execMemCommandDone i s) := by
  unfold execMemCommandDone
  split
  · exact hs.next
  · exact hs.next.ite hs.upd.next

protected theorem execBwrPeriod {q iso dev : Nat} {tens : List (Nat × Nat × Bool)} (hs : s.Drifted old) :
    NextDrifted old (execBwrPeriod q iso dev tens s) :=
  hs.upd.next

/-! ## Firmware and its restarts -/

protected theorem execFwRestartDone {proc : Nat} (hs : s.Drifted old) : NextDrifted old (execFwRestartDone proc s) :=
  hs.upd.next

protected theorem execNonceExpiry {p : Port} {proof : Bool} (hs : s.Drifted old) :
    NextDrifted old (execNonceExpiry p proof s) :=
  hs.upd.next

protected theorem execProveLockoutEnd {p : Port} (hs : s.Drifted old) : NextDrifted old (execProveLockoutEnd p s) :=
  hs.upd.next

protected theorem execJournalDrain (hs : s.Drifted old) : NextDrifted old (execJournalDrain s) :=
  hs.next.ite hs.upd.next

/-! ## Power -/

protected theorem execPmcInterval {share : Nat} (hs : s.Drifted old) : NextDrifted old (execPmcInterval share s) :=
  hs.upd.next

protected theorem execFastLimit {vin iin : Nat} (hs : s.Drifted old) : NextDrifted old (execFastLimit vin iin s) :=
  hs.upd.next

protected theorem execVinDroop {mv : Nat} (hs : s.Drifted old) : NextDrifted old (execVinDroop mv s) :=
  hs.upd.next

protected theorem execRailDroop {kind inst permille : Nat} (hs : s.Drifted old) :
    NextDrifted old (execRailDroop kind inst permille s) :=
  hs.upd.next

protected theorem execDroopRelease {island : Option (Nat × Nat)} (hs : s.Drifted old) :
    NextDrifted old (execDroopRelease island s) := by
  unfold execDroopRelease
  refine State.Drifted.next ?_
  split
  · exact hs.upd
  · split
    · exact hs
    · exact hs.upd

protected theorem execThermalSample {t : Temps} (hs : s.Drifted old) : NextDrifted old (execThermalSample t s) := by
  unfold execThermalSample
  dsimp only
  refine hs.next.ite (.next (.keepFold ?_ fun _ _ => restoreCluster_dev))
  split <;> exact hs.upd

protected theorem execPwrGateDone {kind inst : Nat} (hs : s.Drifted old) :
    NextDrifted old (execPwrGateDone kind inst s) := by
  unfold execPwrGateDone
  split
  · exact hs.next
  · exact hs.next.ite hs.upd.next

protected theorem execInputMonitorSample {vin iin : Nat} (hs : s.Drifted old) :
    NextDrifted old (execInputMonitorSample vin iin s) :=
  hs.upd.next

protected theorem execFmeasWindow {freq : Nat} (hs : s.Drifted old) : NextDrifted old (execFmeasWindow freq s) :=
  hs.upd.next

/-! ## The device -/

protected theorem execRefInvalid {missing range : Bool} (hs : s.Drifted old) :
    NextDrifted old (execRefInvalid missing range s) :=
  hs.next.ite (hs.upd.next.ite (hs.upd.next.ite hs.upd.next))

protected theorem execRefRestored (hs : s.Drifted old) : NextDrifted old (execRefRestored s) := by
  unfold execRefRestored
  split <;> exact hs.upd.next

/-! ## The wire -/

protected theorem execReadReply {p : Port} {ph : CmdPhase} {n : Nat} (hs : s.Drifted old) :
    NextDrifted old (execReadReply p ph n s) :=
  hs.upd.next

protected theorem execReadPortStatus {p : Port} {ph : CmdPhase} (hs : s.Drifted old) :
    NextDrifted old (execReadPortStatus p ph s) :=
  hs.upd.next

protected theorem execPortReset {p : Port} {ph : CmdPhase} (hs : s.Drifted old) :
    NextDrifted old (execPortReset p ph s) :=
  hs.upd.next

protected theorem execEvLost {p : Port} (hs : s.Drifted old) : NextDrifted old (execEvLost p s) :=
  hs.upd.next

end State.Drifted

end Sys2Proof.Machine
end

section
/-! SUPPORT. Register accesses leave the device's state alone (R12 to R14, R67). -/

set_option Elab.async false

namespace Sys2Proof.Machine

/-- A function on states that leaves the device alone. -/
def KeepsDev (f : State → State) : Prop := ∀ s : State, (f s).dev = s.dev

/-- A write of any value to the field leaves the device alone. -/
def RField.KeepsDev (f : RField) : Prop := ∀ n, Machine.KeepsDev (f.put n)

/-- Every field of the register leaves the device alone, and so does what an access to the word does besides. -/
def Reg.KeepsDev (r : Reg) : Prop :=
  (∀ f ∈ r.fields, f.KeepsDev) ∧ Machine.KeepsDev r.onRead ∧ Machine.KeepsDev r.onWrite

/-- The register found at an address, if there is one, leaves the device alone. -/
def FoundKeepsDev (o : Option Reg) : Prop := ∀ r, o = some r → r.KeepsDev

theorem keepsDev_id : KeepsDev id := fun _ => rfl

@[simp] theorem foundKeepsDev_none : FoundKeepsDev none := fun _ h => nomatch h

@[simp] theorem foundKeepsDev_some (r : Reg) : FoundKeepsDev (some r) ↔ r.KeepsDev :=
  ⟨fun h => h r rfl, fun h _ e => Option.some.inj e ▸ h⟩

@[simp] theorem foundKeepsDev_ite {c : Prop} [Decidable c] {a b : Option Reg} :
    FoundKeepsDev (if c then a else b) ↔ (c → FoundKeepsDev a) ∧ (¬c → FoundKeepsDev b) := by
  split <;> simp [*]

@[simp] theorem ro_keepsDev (lo w v : Nat) : (ro lo w v).KeepsDev := fun _ _ => rfl

@[simp] theorem ros_keepsDev (lo w v : Nat) : (ros lo w v).KeepsDev := fun _ _ => rfl

@[simp] theorem w1c_keepsDev (lo : Nat) (v : Bool) (f : State → State) :
    (w1c lo v f).KeepsDev ↔ ∀ s, (f s).dev = s.dev :=
  ⟨fun h => h 0, fun h _ => h⟩

@[simp] theorem wo_keepsDev (lo : Nat) (f : State → State) : (wo lo f).KeepsDev ↔ ∀ s, (f s).dev = s.dev :=
  ⟨fun h => h 0, fun h _ => h⟩

@[simp] theorem rw_keepsDev (lo w v : Nat) (f : Nat → State → State) :
    (rw lo w v f).KeepsDev ↔ ∀ n s, (f n s).dev = s.dev := Iff.rfl

@[simp] theorem rwl_keepsDev (lo w v : Nat) (l : Bool) (f : Nat → State → State) :
    (rwl lo w v l f).KeepsDev ↔ ∀ n s, (f n s).dev = s.dev := Iff.rfl

@[simp] theorem keepsDev_withDeny (f : RField) (d : Bool) : RField.KeepsDev { f with deny := d } ↔ f.KeepsDev :=
  Iff.rfl

@[simp] theorem plainReg_keepsDev (fs : List RField) : (plainReg fs).KeepsDev ↔ ∀ f ∈ fs, f.KeepsDev :=
  ⟨fun h => h.1, fun h => ⟨h, keepsDev_id, keepsDev_id⟩⟩

@[simp] theorem roReg_keepsDev (v : Nat) : (roReg v).KeepsDev := by simp [roReg]

@[simp] theorem satReg_keepsDev (v : Nat) : (satReg v).KeepsDev := by simp [satReg]

@[simp] theorem checked_keepsDev (bad : Nat → Bool) (fs : List RField) :
    (checked bad fs).KeepsDev ↔ ∀ f ∈ fs, f.KeepsDev := plainReg_keepsDev fs

@[simp] theorem latchReg_keepsDev (fs : List RField) (f : State → State) :
    (latchReg fs f).KeepsDev ↔ (∀ f ∈ fs, f.KeepsDev) ∧ ∀ s, (f s).dev = s.dev :=
  ⟨fun h => ⟨h.1, h.2.1⟩, fun h => ⟨h.1, h.2, keepsDev_id⟩⟩

@[simp] theorem keepsDev_withDenyAll (r : Reg) (d : Bool) : Reg.KeepsDev { r with denyAll := d } ↔ r.KeepsDev :=
  Iff.rfl

/-- A hidden register (R66) does what the register does. -/
@[simp] theorem hideReg_keepsDev {r : Reg} (hidden : Bool) (h : r.KeepsDev) : (hideReg hidden r).KeepsDev := by
  unfold hideReg
  split
  · refine ⟨fun f hf => ?_, h.2⟩
    obtain ⟨g, hg, rfl⟩ := List.mem_map.mp hf
    exact h.1 g hg
  · exact h

@[simp] theorem foundKeepsDev_map_hideReg {o : Option Reg} (hidden : Bool) (h : FoundKeepsDev o) :
    FoundKeepsDev (o.map (hideReg hidden)) := by
  intro _ hr
  obtain ⟨r, hfound, rfl⟩ := Option.map_eq_some_iff.mp hr
  exact hideReg_keepsDev hidden (h r hfound)

/-! ### The map, block by block -/

theorem idsReg_keepsDev (o : Nat) (s : State) : FoundKeepsDev (idsReg o s) := by
  unfold idsReg
  split <;> simp

theorem cmdReg_keepsDev (o : Nat) (s : State) : FoundKeepsDev (cmdReg o s) := by
  unfold cmdReg
  split <;> simp [cmdStat, cmdCnt]

theorem acctReg_keepsDev (t o : Nat) (s : State) : FoundKeepsDev (acctReg t o s) := by
  unfold acctReg
  dsimp only
  split <;> simp

theorem schReg_keepsDev (v : Viewer) (o : Nat) (s : State) : FoundKeepsDev (schReg v o s) := by
  unfold schReg
  split <;> simp [cldStat, cldCnt, acctReg_keepsDev]

theorem memReg_keepsDev (o : Nat) (s : State) : FoundKeepsDev (memReg o s) := by
  unfold memReg
  dsimp only
  split <;> simp
  split <;> simp

theorem bwrTen_keepsDev (t o : Nat) (s : State) : FoundKeepsDev (bwrTen t o s) := by
  unfold bwrTen
  dsimp only
  split <;> simp

theorem bwrReg_keepsDev (v : Viewer) (o : Nat) (s : State) : FoundKeepsDev (bwrReg v o s) := by
  unfold bwrReg
  dsimp only
  split <;> simp [bwrTen_keepsDev]

theorem domReg_keepsDev (d : Dom) (ofs : Bool) : (domReg d ofs).KeepsDev := by
  cases ofs <;> simp [domReg]

theorem ctxReg_keepsDev (v : Viewer) (k o : Nat) (s : State) : FoundKeepsDev (ctxReg v k o s) := by
  unfold ctxReg
  dsimp only
  split <;> cases s.ctxs.get? k <;> simp

theorem snsReg_keepsDev (v : Viewer) (o : Nat) (s : State) : FoundKeepsDev (snsReg v o s) := by
  unfold snsReg
  split <;> simp [tstatWord, domReg_keepsDev, ctxReg_keepsDev]

theorem fusReg_keepsDev (v : Viewer) (n o : Nat) (s : State) : FoundKeepsDev (fusReg v n o s) := by
  unfold fusReg
  dsimp only
  split <;> split <;> simp

theorem mapReg_keepsDev (v : Viewer) (k o : Nat) (s : State) : FoundKeepsDev (mapReg v k o s) := by
  unfold mapReg
  dsimp only
  split <;> simp

theorem fusBlock_keepsDev (v : Viewer) (o : Nat) (s : State) : FoundKeepsDev (fusBlock v o s) := by
  simp [fusBlock, fusReg_keepsDev, mapReg_keepsDev]

theorem rcReg_keepsDev (v : Viewer) (n o : Nat) (s : State) : FoundKeepsDev (rcReg v n o s) := by
  unfold rcReg
  dsimp only
  split <;> split <;> simp

theorem dispReg_keepsDev (v : Viewer) (d o : Nat) (s : State) : FoundKeepsDev (dispReg v d o s) := by
  unfold dispReg
  dsimp only
  split <;> simp

theorem rasReg_keepsDev (v : Viewer) (o : Nat) (s : State) : FoundKeepsDev (rasReg v o s) := by
  simp [rasReg, rcReg_keepsDev, dispReg_keepsDev]

theorem ceReg_keepsDev (v : Viewer) (e o : Nat) (s : State) : FoundKeepsDev (ceReg v e o s) := by
  unfold ceReg
  dsimp only
  split <;> simp

theorem sdReg_keepsDev (v : Viewer) (c o : Nat) (s : State) : FoundKeepsDev (sdReg v c o s) := by
  unfold sdReg
  dsimp only
  split <;> simp

theorem encReg_keepsDev (v : Viewer) (c o : Nat) (s : State) : FoundKeepsDev (encReg v c o s) := by
  unfold encReg
  dsimp only
  split <;> simp

theorem ctlReg_keepsDev (v : Viewer) (o : Nat) (s : State) : FoundKeepsDev (ctlReg v o s) := by
  simp [ctlReg, ceReg_keepsDev, sdReg_keepsDev, encReg_keepsDev]

theorem skkReg_keepsDev (v : Viewer) (o : Nat) (s : State) : FoundKeepsDev (skkReg v o s) := by
  unfold skkReg
  dsimp only
  split <;> simp [skkStatus]

theorem wdtReg_keepsDev (v : Viewer) (hi lo : Nat) (putHi putLo : Nat → Fws → Fws) :
    (wdtReg v hi lo putHi putLo).KeepsDev := by
  simp [wdtReg]

theorem dbgenReg_keepsDev (v : Viewer) (s : State) : (dbgenReg v s).KeepsDev := by
  simp [dbgenReg]

theorem fwsReg_keepsDev (v : Viewer) (o : Nat) (s : State) : FoundKeepsDev (fwsReg v o s) := by
  unfold fwsReg
  dsimp only
  split <;> simp [wdtReg_keepsDev, dbgenReg_keepsDev]

theorem gwyReg_keepsDev (v : Viewer) (o : Nat) (s : State) : FoundKeepsDev (gwyReg v o s) := by
  unfold gwyReg
  dsimp only
  split <;> simp

theorem slReg_keepsDev (p o : Nat) (s : State) : FoundKeepsDev (slReg p o s) := by
  unfold slReg
  dsimp only
  split <;> simp

theorem chnReg_keepsDev (o : Nat) (s : State) : FoundKeepsDev (chnReg o s) := by
  unfold chnReg
  dsimp only
  split <;> simp [slReg_keepsDev]

theorem pwrCfgReg_keepsDev (s : State) : (pwrCfgReg s).KeepsDev := by
  refine ⟨?_, keepsDev_id, keepsDev_id⟩
  simp only [pwrCfgReg, plainReg, List.forall_mem_cons, rw_keepsDev, rwl_keepsDev, List.not_mem_nil, false_implies,
    implies_true, and_true]
  exact ⟨fun _ _ => withCap_dev (modPow_dev _), fun _ _ => withCap_dev (modPow_dev _), fun _ => modPow_dev _,
    fun _ => modPow_dev _⟩

theorem pwrReg_keepsDev (o : Nat) (s : State) : FoundKeepsDev (pwrReg o s) := by
  have hfsel (r : Reg) (f : Clk → Clk) (h : r.KeepsDev) : Reg.KeepsDev { r with onWrite := modClk f } :=
    ⟨h.1, h.2.1, modClk_dev f⟩
  unfold pwrReg
  dsimp only
  split <;> simp [pwrCfgReg_keepsDev, hfsel]

theorem clReg_keepsDev (n o : Nat) (s : State) : FoundKeepsDev (clReg n o s) := by
  unfold clReg
  dsimp only
  split <;> simp

theorem regAt_keepsDev (v : Viewer) (a : Nat) (s : State) : FoundKeepsDev (regAt v a s) := by
  unfold regAt
  split
  · simp [clReg_keepsDev]
  · split <;> simp [idsReg_keepsDev, cmdReg_keepsDev, schReg_keepsDev, memReg_keepsDev, bwrReg_keepsDev,
      snsReg_keepsDev, fusBlock_keepsDev, rasReg_keepsDev, ctlReg_keepsDev, skkReg_keepsDev, fwsReg_keepsDev,
      gwyReg_keepsDev, chnReg_keepsDev, pwrReg_keepsDev]

/-! ### Reading and writing words (R67) -/

theorem Reg.KeepsDev.write {r : Reg} {mask v : Nat} {s : State} (hr : r.KeepsDev) : (r.write mask v s).dev = s.dev := by
  obtain ⟨hfields, -, hwrite⟩ := hr
  refine (hwrite _).trans ?_
  generalize r.fields = fs at hfields
  induction fs generalizing s with
  | nil => rfl
  | cons f fs ih =>
    rw [List.forall_mem_cons] at hfields
    refine (ih hfields.2).trans ?_
    dsimp only
    split
    · exact hfields.1 _ s
    · rfl

@[simp] theorem readWords_dev {v : Viewer} {l : List Nat} {s : State} : (readWords v l s).2.dev = s.dev := by
  induction l generalizing s with
  | nil => rfl
  | cons a t ih =>
    unfold readWords
    split
    · exact ih
    · exact ih.trans ((regAt_keepsDev v a s _ ‹_›).2.1 s)

@[simp] theorem writeWord_dev {full : Bool} {h : Hdr} {w : WordWrite} {s : State} :
    (writeWord full h s w).dev = s.dev := by
  unfold writeWord
  split
  · rfl
  · simp [(regAt_keepsDev _ _ s _ ‹_›).write]

end Sys2Proof.Machine
end

section
/-! SUPPORT. The moves of Table 10 of chapter 02 that a command makes (R57): what each command's effect does to the
device. -/

set_option Elab.async false

namespace Sys2Proof.Machine

/-- SAFE, or a SERVICE state entered from it. -/
def Dev.SafeHeld (d : Dev) : Prop := d.st = .safe ∨ (d.st = .service ∧ d.svcFromSafe = true)

theorem State.safeHeld_iff {s : State} : s.safeHeld = true ↔ s.dev.SafeHeld := by
  simp [State.safeHeld, Dev.SafeHeld]

/-- The device stays in its state or moves to one that Table 10 lists, and a held SAFE stays held. -/
structure Dev.Moves (d e : Dev) : Prop where
  listed : e.st = d.st ∨ d.st.mayMove e.st = true
  held : d.SafeHeld → e.SafeHeld

theorem Dev.Moves.refl (d : Dev) : d.Moves d := ⟨.inl rfl, id⟩

theorem Dev.Drifts.moves {d e : Dev} (h : d.Drifts e) : d.Moves e := by
  obtain ⟨hsvc, hst | ⟨hrun, hdeg⟩ | ⟨hmay, hsafe⟩⟩ := h
  · exact ⟨.inl hst, by simp [Dev.SafeHeld, hst, hsvc]⟩
  · exact ⟨.inr (by rw [hrun, hdeg]; rfl), by simp [Dev.SafeHeld, hrun]⟩
  · exact ⟨.inr (hsafe ▸ hmay), fun _ => .inl hsafe⟩

/-- A move, then a drift: of what the drift may do, Table 10 has to list SAFE and DEGRADED for the state left. -/
theorem Dev.Moves.drift {d e f : Dev} (h : d.Moves e) (he : e.Drifts f)
    (hsafe : d.st = .safe ∨ d.st.mayMove .safe = true) (hdeg : e.st = .run → d.st.mayMove .degraded = true) :
    d.Moves f := by
  refine ⟨?_, fun hd => he.moves.held (h.held hd)⟩
  obtain ⟨-, hst | ⟨hrun, hst⟩ | ⟨-, hst⟩⟩ := he
  · rw [hst]
    exact h.listed
  · exact .inr (hst ▸ hdeg hrun)
  · rw [hst]
    exact hsafe.imp_left Eq.symm

/-- What an outcome's next state, if there is one, is a move of. -/
def NextMoves (d : Dev) (o : Host.Outcome State Fault Refusal) : Prop := ∀ t, o = .next t → d.Moves t.dev

theorem NextDrifted.moves {d : Dev} {o : Host.Outcome State Fault Refusal} (h : NextDrifted d o) : NextMoves d o :=
  fun t ht => Dev.Drifts.moves (h t ht)

theorem NextMoves.next {d : Dev} {s : State} (h : d.Moves s.dev) : NextMoves d (.next s) := by
  rintro _ ⟨rfl⟩
  exact h

protected theorem NextMoves.ite {c : Prop} {_ : Decidable c} {d : Dev} {o p : Host.Outcome State Fault Refusal}
    (ho : c → NextMoves d o) (hp : ¬c → NextMoves d p) : NextMoves d (if c then o else p) := by
  split
  · exact ho ‹_›
  · exact hp ‹_›

/-- In every state that the command accepts its effect is such a move, and a refusal leaves the device alone. -/
structure Cmd.Moves (c : Cmd) : Prop where
  effect : ∀ {n : Nat} {h : Hdr} {ps : List Byte} {s t : State}, c.states.contains s.dev.st = true →
    c.stateOk h ps s = true → t.dev = s.dev → s.dev.Moves (c.effect n h ps t).dev
  onRefuse : ∀ {n : Nat} {h : Hdr} {ps : List Byte} {s : State}, (c.onRefuse n h ps s).dev = s.dev

/-- A command whose effect is a drift at most. -/
theorem Cmd.Moves.of_drift {c : Cmd}
    (effect : ∀ {n : Nat} {h : Hdr} {ps : List Byte} {s : State} {old : Dev}, s.Drifted old →
      (c.effect n h ps s).Drifted old)
    (onRefuse : c.onRefuse = fun _ _ _ s => s := by rfl) : c.Moves where
  effect _ _ ht := Dev.Drifts.moves (effect (ht ▸ State.drifted_self _))
  onRefuse := by
    intros
    rw [onRefuse]

/-- A command whose effect leaves the device alone. -/
theorem Cmd.Moves.of_keep {c : Cmd} (effect : ∀ n h ps s, (c.effect n h ps s).dev = s.dev)
    (onRefuse : c.onRefuse = fun _ _ _ s => s := by rfl) : c.Moves :=
  .of_drift (fun hs => hs.keep (effect ..)) onRefuse

/-- A query has no effect. -/
theorem Cmd.Moves.of_query {c : Cmd} (effect : c.effect = fun _ _ _ s => s := by rfl)
    (onRefuse : c.onRefuse = fun _ _ _ s => s := by rfl) : c.Moves :=
  .of_keep (by simp [effect]) onRefuse

/-- What the checks of R50 establish about the state of the device. -/
theorem Cmd.accepts_of_verdict {c : Cmd} {h : Hdr} {ps : List Byte} {s : State} (hv : c.verdict h ps s = OK) :
    c.states.contains s.dev.st = true ∧ c.stateOk h ps s = true := by
  unfold Cmd.verdict at hv
  split at hv
  · exact absurd hv (by decide)
  · split at hv
    · exact absurd hv (by decide)
    · split at hv
      · exact absurd hv (by decide)
      · next hstate => simp_all

theorem Cmd.Moves.perform {c : Cmd} {h : Hdr} {ps : List Byte} {s : State} (hc : c.Moves) (ho : c.outcome h ps s = OK) :
    s.dev.Moves (c.perform h ps s).dev := by
  obtain ⟨hst, hok⟩ := Cmd.accepts_of_verdict (Cmd.verdict_of_outcome ho)
  unfold Cmd.perform
  split <;> exact hc.effect hst hok (by simp)

/-- A packet at its turn: answered, refused or carried out (R49 to R51). -/
theorem Cmd.Moves.run {c : Cmd} {h : Hdr} {ps : List Byte} {s : State} (hc : c.Moves) :
    s.dev.Moves (c.run h ps s).dev := by
  have keep {t : State} (ht : t.dev = s.dev) : s.dev.Moves t.dev := ht ▸ .refl s.dev
  unfold Cmd.run
  split
  · split
    next hok => exact hc.perform (by simpa using hok)
    next => exact keep (by simp)
  · split
    · exact keep (by simp)
    · split
      · exact keep (by simp)
      · exact keep (by simp)
      · split
        next hok => exact hc.perform (by simpa using hok)
        next => exact keep (by simp [hc.onRefuse])

theorem Cmd.Moves.exec {c : Cmd} {h : Hdr} {ps : List Byte} {s : State} (hc : c.Moves) :
    NextMoves s.dev (c.exec h ps s) := by
  rintro _ ⟨rfl⟩
  unfold Cmd.arrive
  split
  · exact .refl s.dev
  · dsimp only
    split
    · exact hc.run
    · simpa using Dev.Moves.refl s.dev

/-! ## The device's own commands (R57 to R59) -/

/-- DEV_START: from READY to RUN or DEGRADED. -/
theorem cDevStart_moves : cDevStart.Moves where
  effect {n h ps s t} hst _ ht := by
    have hready : s.dev.st = .ready := by simpa [cDevStart, Cmd.base] using hst
    have hdev : (startDevice t).dev = (setDevSt (if t.dev.retired then .degraded else .run) t).dev := by
      simp [Machine.startDevice]
    have he : (cDevStart.effect n h ps t).dev = (startDevice t).dev := complete_dev ..
    rw [he, hdev, setDevSt_dev, ht]
    refine ⟨.inr ?_, by simp [Dev.SafeHeld, hready]⟩
    rw [hready]
    dsimp only
    split <;> rfl
  onRefuse := rfl

theorem cDevStop_moves : cDevStop.Moves :=
  .of_drift fun hs => .syncStreams (hs.upd ⟨rfl, rfl⟩)

theorem cDevReset_moves : cDevReset.Moves :=
  .of_drift fun hs => hs.upd (by simp [cDevReset])

/-- SERVICE_ENTER: from READY or SAFE to SERVICE, which remembers a SAFE it was entered from. -/
theorem cServiceEnter_moves : cServiceEnter.Moves where
  effect {n h ps s t} hst _ ht := by
    have hu : (journalCmd h 0x0107 0 0 t).dev = s.dev := by simp [ht]
    dsimp only [cServiceEnter]
    generalize journalCmd h 0x0107 0 0 t = u at hu
    rw [hu]
    split
    next => exact ⟨.inl rfl, id⟩
    next hne =>
      have hfrom : s.dev.st = .ready ∨ s.dev.st = .safe := by
        simpa [cServiceEnter, Cmd.base, show s.dev.st ≠ .awaitFw by simpa using hne] using hst
      have henter {v : State} (hv : v.dev = { s.dev with svcFromSafe := s.dev.st == .safe }) :
          s.dev.Moves (setDevSt .service v).dev := by
        refine ⟨.inr ?_, ?_⟩
        · obtain hst | hst := hfrom <;> rw [hst] <;> rfl
        · obtain hst | hst := hfrom <;> simp [Dev.SafeHeld, hst, hv]
      exact (henter rfl).drift (State.drifted_self _).syncStreams (hfrom.elim (fun h => .inr (by rw [h]; rfl)) .inl)
        (by simp)
  onRefuse := rfl

/-- SERVICE_EXIT: from a SERVICE that was not entered from SAFE to READY. -/
theorem cServiceExit_moves : cServiceExit.Moves where
  effect {n h ps s t} hst hok ht := by
    have hsvc : s.dev.st = .service := by simpa [cServiceExit, Cmd.base] using hst
    have hfree : s.dev.svcFromSafe = false := by
      simp only [cServiceExit, Bool.and_eq_true, Bool.not_eq_true'] at hok
      exact hok.1.1
    have hexit : s.dev.Moves (setDevSt .ready t).dev :=
      ⟨.inr (by rw [hsvc]; rfl), by simp [Dev.SafeHeld, hsvc, hfree]⟩
    exact hexit.drift (State.drifted_self _).syncStreams (.inr (by rw [hsvc]; rfl)) (by simp)
  onRefuse := rfl

/-! ## Commands that may drift -/

theorem cProgUnload_moves : cProgUnload.Moves :=
  .of_drift fun hs => .endJobs (hs.keep (modProg_dev ..))

theorem cTenantReset_moves : cTenantReset.Moves :=
  .of_drift fun hs => .keep (.keep (.keep hs.cancelQueued (modTen_dev ..)) setTenSt_dev) startStreams_dev

theorem cTenantClose_moves : cTenantClose.Moves := by
  refine .of_drift fun hs => ?_
  dsimp only [cTenantClose]
  exact .cancelQueued hs.upd

theorem cJobCancel_moves : cJobCancel.Moves := by
  refine .of_drift fun hs => ?_
  dsimp only [cJobCancel]
  split
  · exact hs.stopJob
  · exact hs

theorem cStreamStart_moves : cStreamStart.Moves := .of_drift fun hs => .syncStreams (hs.keep modCtx_dev)

theorem cStreamStop_moves : cStreamStop.Moves := .of_drift fun hs => .syncStreams (hs.keep modCtx_dev)

theorem cSkkSafeReq_moves : cSkkSafeReq.Moves := .of_drift fun hs => hs.latchSafe

theorem cFwRestart_moves : cFwRestart.Moves :=
  .of_drift fun hs => .keep (.beginRestart (hs.keep journalCmd_dev)) endRestart_dev

theorem cFwSecProve_moves : cFwSecProve.Moves where
  effect _ _ ht := by simpa [cFwSecProve, ht] using Dev.Moves.refl _
  onRefuse := by simp [cFwSecProve]

theorem cPwrGate_moves : cPwrGate.Moves := by
  refine .of_drift fun hs => ?_
  dsimp only [cPwrGate]
  exact .keep (.ite hs.upd (.cutBlock hs.upd)) (modPow_dev ..)

theorem cPwrRetire_moves : cPwrRetire.Moves :=
  .of_drift fun hs => .keep (.retireUnit (hs.keep journalCmd_dev)) (complete_dev ..)

/-! ## Commands that leave the device alone -/

theorem cSessionOpen_moves : cSessionOpen.Moves := .of_keep fun _ _ _ _ => by simp [cSessionOpen]

theorem cSessionClose_moves : cSessionClose.Moves := .of_keep fun _ _ _ _ => by simp [cSessionClose]

theorem cNop_moves : cNop.Moves := .of_query

theorem cRegRead_moves : cRegRead.Moves := .of_keep fun _ _ _ _ => by simp [cRegRead]

theorem cRegWrite_moves : cRegWrite.Moves := .of_keep fun _ _ _ _ => by simp [cRegWrite]

theorem cRegModify_moves : cRegModify.Moves := .of_keep fun _ _ _ _ => by simp [cRegModify]

theorem cProgLoad_moves : cProgLoad.Moves := by
  refine .of_keep fun n h ps s => ?_
  dsimp only [cProgLoad]
  (repeat' split) <;> simp

theorem cProgFitcheck_moves : cProgFitcheck.Moves := by
  refine .of_keep fun n h ps s => ?_
  dsimp only [cProgFitcheck]
  (repeat' split) <;> simp

theorem cProgReplace_moves : cProgReplace.Moves := by
  refine .of_keep fun n h ps s => ?_
  dsimp only [cProgReplace]
  (repeat' split) <;> simp

theorem cProgInfo_moves : cProgInfo.Moves := .of_query

theorem cWbankStatus_moves : cWbankStatus.Moves := .of_query

theorem cWbankOpen_moves : cWbankOpen.Moves := .of_keep fun _ _ _ _ => by simp [cWbankOpen]

theorem cWbankSubmit_moves : cWbankSubmit.Moves := .of_keep fun _ _ _ _ => by simp [cWbankSubmit]

theorem cWbankAbandon_moves : cWbankAbandon.Moves := .of_keep fun _ _ _ _ => by simp [cWbankAbandon]

theorem cTenantOpen_moves : cTenantOpen.Moves := .of_keep fun _ _ _ _ => by simp [cTenantOpen]

theorem cTenantQuiesce_moves : cTenantQuiesce.Moves := .of_keep fun _ _ _ _ => by simp [cTenantQuiesce]

theorem cTenantResume_moves : cTenantResume.Moves := .of_keep fun _ _ _ _ => by simp [cTenantResume]

theorem cTenantStatus_moves : cTenantStatus.Moves := .of_query

theorem cQueueCreate_moves : cQueueCreate.Moves := .of_keep fun _ _ _ _ => by simp [cQueueCreate]

theorem cQueueDestroy_moves : cQueueDestroy.Moves := .of_keep fun _ _ _ _ => by simp [cQueueDestroy]

theorem cQueueStatus_moves : cQueueStatus.Moves := .of_query

theorem cQueueRings_moves : cQueueRings.Moves := by
  refine .of_keep fun n h ps s => ?_
  dsimp only [cQueueRings]
  split <;> simp

theorem cJobSubmit_moves : cJobSubmit.Moves := by
  refine .of_keep fun n h ps s => ?_
  dsimp only [cJobSubmit]
  split <;> simp

theorem cJobStatus_moves : cJobStatus.Moves := .of_query

theorem cPartitionSet_moves : cPartitionSet.Moves := .of_keep fun _ _ _ _ => by simp [cPartitionSet]

theorem cPartitionGet_moves : cPartitionGet.Moves := .of_query

theorem cBatchJoin_moves : cBatchJoin.Moves := .of_keep fun _ _ _ _ => by simp [cBatchJoin]

theorem cBatchLeave_moves : cBatchLeave.Moves := .of_keep fun _ _ _ _ => by simp [cBatchLeave]

theorem cBatchStatus_moves : cBatchStatus.Moves := .of_query

theorem cMemAssign_moves : cMemAssign.Moves := .of_keep fun _ _ _ _ => by simp [cMemAssign]

theorem cMemRelease_moves : cMemRelease.Moves := .of_keep fun _ _ _ _ => by simp [cMemRelease]

theorem cMemFlags_moves : cMemFlags.Moves := .of_keep fun _ _ _ _ => by simp [cMemFlags]

theorem cMemQuery_moves : cMemQuery.Moves := .of_query

theorem cStreamOpen_moves : cStreamOpen.Moves := .of_keep fun _ _ _ _ => by simp [cStreamOpen]

theorem cStreamClose_moves : cStreamClose.Moves := .of_keep fun _ _ _ _ => by simp [cStreamClose]

theorem cStreamStatus_moves : cStreamStatus.Moves := .of_query

theorem cTimeCfg_moves : cTimeCfg.Moves := .of_keep fun _ _ _ _ => by simp [cTimeCfg]

theorem cTimeStatus_moves : cTimeStatus.Moves := .of_query

theorem cTimeStep_moves : cTimeStep.Moves := .of_keep fun _ _ _ _ => by simp [cTimeStep]

theorem cPulseArm_moves : cPulseArm.Moves := .of_keep fun _ _ _ _ => by simp [cPulseArm]

theorem cPulseCancel_moves : cPulseCancel.Moves := .of_keep fun _ _ _ _ => by simp [cPulseCancel]

theorem cCaptureCfg_moves : cCaptureCfg.Moves := .of_keep fun _ _ _ _ => by simp [cCaptureCfg]

theorem cLaunchCfg_moves : cLaunchCfg.Moves := .of_keep fun _ _ _ _ => by simp [cLaunchCfg]

theorem cFusMapCfg_moves : cFusMapCfg.Moves := .of_keep fun _ _ _ _ => by simp [cFusMapCfg]

theorem cFusMapStatus_moves : cFusMapStatus.Moves := .of_query

theorem cFusOpen_moves : cFusOpen.Moves := .of_keep fun _ _ _ _ => by simp [cFusOpen]

theorem cFusClose_moves : cFusClose.Moves := by
  refine .of_keep fun n h ps s => ?_
  dsimp only [cFusClose]
  split <;> simp

theorem cFusSensorSet_moves : cFusSensorSet.Moves := .of_keep fun _ _ _ _ => by simp [cFusSensorSet]

theorem cFusCalibReset_moves : cFusCalibReset.Moves := .of_keep fun _ _ _ _ => by simp [cFusCalibReset]

theorem cFusStatus_moves : cFusStatus.Moves := .of_query

theorem cFusSensorStatus_moves : cFusSensorStatus.Moves := .of_query

theorem cRasOpen_moves : cRasOpen.Moves := .of_keep fun _ _ _ _ => by simp [cRasOpen]

theorem cRasClose_moves : cRasClose.Moves := by
  refine .of_keep fun n h ps s => ?_
  dsimp only [cRasClose]
  split <;> simp

theorem cRasStatus_moves : cRasStatus.Moves := .of_query

theorem cDispCfg_moves : cDispCfg.Moves := .of_keep fun _ _ _ _ => by simp [cDispCfg]

theorem cDispOff_moves : cDispOff.Moves := .of_keep fun _ _ _ _ => by simp [cDispOff]

theorem cDispFlip_moves : cDispFlip.Moves := .of_keep fun _ _ _ _ => by simp [cDispFlip]

theorem cDispStatus_moves : cDispStatus.Moves := .of_query

theorem cCtlAssign_moves : cCtlAssign.Moves := .of_keep fun _ _ _ _ => by simp [cCtlAssign]

theorem cCtlBankWrite_moves : cCtlBankWrite.Moves := .of_keep fun _ _ _ _ => by simp [cCtlBankWrite]

theorem cCtlBankRead_moves : cCtlBankRead.Moves := .of_query

theorem cCtlSwap_moves : cCtlSwap.Moves := .of_keep fun _ _ _ _ => by simp [cCtlSwap]

theorem cCtlEnable_moves : cCtlEnable.Moves := .of_keep fun _ _ _ _ => by simp [cCtlEnable]

theorem cCtlDisable_moves : cCtlDisable.Moves := .of_keep fun _ _ _ _ => by simp [cCtlDisable]

theorem cCtlSetpt_moves : cCtlSetpt.Moves := .of_keep fun _ _ _ _ => by simp [cCtlSetpt]

theorem cCtlStatus_moves : cCtlStatus.Moves := .of_query

theorem cCtlIoCfg_moves : cCtlIoCfg.Moves := .of_keep fun _ _ _ _ => by simp [cCtlIoCfg]

theorem cCtlTraceCfg_moves : cCtlTraceCfg.Moves := .of_keep fun _ _ _ _ => by simp [cCtlTraceCfg]

theorem cCtlTraceDump_moves : cCtlTraceDump.Moves := .of_keep fun _ _ _ _ => by simp [cCtlTraceDump]

theorem cSkkArm_moves : cSkkArm.Moves := .of_keep fun _ _ _ _ => by simp [cSkkArm]

theorem cSkkProgCfg_moves : cSkkProgCfg.Moves := .of_keep fun _ _ _ _ => by simp [cSkkProgCfg]

theorem cSkkProgStatus_moves : cSkkProgStatus.Moves := .of_query

theorem cSkkMbox_moves : cSkkMbox.Moves := .of_keep fun _ _ _ _ => by simp [cSkkMbox]

theorem cSkkGoldenNow_moves : cSkkGoldenNow.Moves := .of_keep fun _ _ _ _ => by simp [cSkkGoldenNow]

theorem cSkkBistGet_moves : cSkkBistGet.Moves := .of_keep fun _ _ _ _ => by simp [cSkkBistGet]

theorem cFwBegin_moves : cFwBegin.Moves := .of_keep fun _ _ _ _ => by simp [cFwBegin]

theorem cFwChunk_moves : cFwChunk.Moves := .of_keep fun _ _ _ _ => by simp [cFwChunk]

theorem cFwEnd_moves : cFwEnd.Moves := .of_keep fun _ _ _ _ => by simp [cFwEnd]

theorem cFwInfo_moves : cFwInfo.Moves := .of_query

theorem cFwLogRead_moves : cFwLogRead.Moves := .of_query

theorem cFwSvnCommit_moves : cFwSvnCommit.Moves := .of_keep fun _ _ _ _ => by simp [cFwSvnCommit]

theorem cFwSecChallenge_moves : cFwSecChallenge.Moves := .of_keep fun _ _ _ _ => by simp [cFwSecChallenge]

theorem cFwSskSet_moves : cFwSskSet.Moves := .of_keep fun _ _ _ _ => by simp [cFwSskSet]

theorem cFwAttest_moves : cFwAttest.Moves := .of_keep fun _ _ _ _ => by simp [cFwAttest]

theorem cFwAttestCert_moves : cFwAttestCert.Moves := .of_query

theorem cFwJournalRead_moves : cFwJournalRead.Moves := .of_query

theorem cFwMcounter_moves : cFwMcounter.Moves := .of_keep fun _ _ _ _ => by simp [cFwMcounter]

theorem cFwIntkeyBurn_moves : cFwIntkeyBurn.Moves := .of_keep fun _ _ _ _ => by simp [cFwIntkeyBurn]

theorem cGwRouteSet_moves : cGwRouteSet.Moves := .of_keep fun _ _ _ _ => by simp [cGwRouteSet]

theorem cGwRouteClear_moves : cGwRouteClear.Moves := .of_keep fun _ _ _ _ => by simp [cGwRouteClear]

theorem cGwRouteGet_moves : cGwRouteGet.Moves := .of_query

theorem cGwRingCfg_moves : cGwRingCfg.Moves := .of_keep fun _ _ _ _ => by simp [cGwRingCfg]

theorem cGwPortCfg_moves : cGwPortCfg.Moves := .of_keep fun _ _ _ _ => by simp [cGwPortCfg]

theorem cGwIsoCfg_moves : cGwIsoCfg.Moves := .of_keep fun _ _ _ _ => by simp [cGwIsoCfg]

theorem cChnCfg_moves : cChnCfg.Moves := .of_keep fun _ _ _ _ => by simp [cChnCfg]

theorem cChnLeave_moves : cChnLeave.Moves := .of_keep fun _ _ _ _ => by simp [cChnLeave]

theorem cChnStatus_moves : cChnStatus.Moves := .of_query

theorem cChnMembers_moves : cChnMembers.Moves := .of_query

theorem cChnEvict_moves : cChnEvict.Moves := .of_keep fun _ _ _ _ => by simp [cChnEvict]

theorem cPwrStatus_moves : cPwrStatus.Moves := .of_query

theorem cPwrWearRead_moves : cPwrWearRead.Moves := .of_query

/-- Every command that a packet can name moves the device as Table 10 lists. -/
theorem cmdTable_moves : ∀ c ∈ cmdTable, c.Moves := by
  simp only [cmdTable, List.cons_append, List.nil_append, List.forall_mem_cons, List.not_mem_nil, false_implies,
    implies_true, and_true]
  exact ⟨cSessionOpen_moves, cSessionClose_moves, cNop_moves, cDevStart_moves, cDevStop_moves, cDevReset_moves,
    cServiceEnter_moves, cServiceExit_moves, cRegRead_moves, cRegWrite_moves, cRegModify_moves, cProgLoad_moves,
    cProgFitcheck_moves, cProgUnload_moves, cProgReplace_moves, cProgInfo_moves, cWbankStatus_moves,
    cWbankOpen_moves, cWbankSubmit_moves, cWbankAbandon_moves, cTenantOpen_moves, cTenantQuiesce_moves,
    cTenantResume_moves, cTenantReset_moves, cTenantClose_moves, cTenantStatus_moves, cQueueCreate_moves,
    cQueueDestroy_moves, cQueueStatus_moves, cQueueRings_moves, cJobSubmit_moves, cJobCancel_moves,
    cJobStatus_moves, cPartitionSet_moves, cPartitionGet_moves, cBatchJoin_moves, cBatchLeave_moves,
    cBatchStatus_moves, cMemAssign_moves, cMemRelease_moves, cMemFlags_moves, cMemQuery_moves, cStreamOpen_moves,
    cStreamClose_moves, cStreamStart_moves, cStreamStop_moves, cStreamStatus_moves, cTimeCfg_moves,
    cTimeStatus_moves, cTimeStep_moves, cPulseArm_moves, cPulseCancel_moves, cCaptureCfg_moves, cLaunchCfg_moves,
    cFusMapCfg_moves, cFusMapStatus_moves, cFusOpen_moves, cFusClose_moves, cFusSensorSet_moves,
    cFusCalibReset_moves, cFusStatus_moves, cFusSensorStatus_moves, cRasOpen_moves, cRasClose_moves,
    cRasStatus_moves, cDispCfg_moves, cDispOff_moves, cDispFlip_moves, cDispStatus_moves, cCtlAssign_moves,
    cCtlBankWrite_moves, cCtlBankRead_moves, cCtlSwap_moves, cCtlEnable_moves, cCtlDisable_moves, cCtlSetpt_moves,
    cCtlStatus_moves, cCtlIoCfg_moves, cCtlTraceCfg_moves, cCtlTraceDump_moves, cSkkArm_moves, cSkkProgCfg_moves,
    cSkkProgStatus_moves, cSkkSafeReq_moves, cSkkMbox_moves, cSkkGoldenNow_moves, cSkkBistGet_moves,
    cFwBegin_moves, cFwChunk_moves, cFwEnd_moves, cFwInfo_moves, cFwLogRead_moves, cFwRestart_moves,
    cFwSvnCommit_moves, cFwSecChallenge_moves, cFwSecProve_moves, cFwSskSet_moves, cFwAttest_moves,
    cFwAttestCert_moves, cFwJournalRead_moves, cFwMcounter_moves, cFwIntkeyBurn_moves, cGwRouteSet_moves,
    cGwRouteClear_moves, cGwRouteGet_moves, cGwRingCfg_moves, cGwPortCfg_moves, cGwIsoCfg_moves, cChnCfg_moves,
    cChnLeave_moves, cChnStatus_moves, cChnMembers_moves, cChnEvict_moves, cPwrStatus_moves, cPwrGate_moves,
    cPwrWearRead_moves, cPwrRetire_moves⟩

end Sys2Proof.Machine
end

section
/-! SUPPORT. The start of the device, packets on the wire, every instruction and the idle tick: the moves of Table 10
of chapter 02 (R57). -/

set_option Elab.async false

namespace Sys2Proof.Machine

variable {s : State}

/-! ## Start-up and the end of a stop (R57, R59, R61, R346) -/

/-- The last running job has ended: from RUN or DEGRADED to READY. -/
theorem execDevStopComplete_moves : NextMoves s.dev (execDevStopComplete s) := by
  unfold execDevStopComplete
  split
  · exact .next (.refl _)
  · refine .ite (fun _ => .next (.refl _)) fun hbusy => .next ?_
    have hrun : s.dev.st = .run ∨ s.dev.st = .degraded := by
      simp only [State.running, Bool.or_eq_true, Bool.not_eq_true', Bool.or_eq_false_iff] at hbusy
      by_contra hne
      exact hbusy (.inl (.inr (by simpa using hne)))
    constructor
    · obtain hst | hst := hrun <;> exact .inr (by simp [hst, DevSt.mayMove])
    · obtain hst | hst := hrun <;> simp [Dev.SafeHeld, hst]

/-- Verification ends: from AWAIT_FW to SELF_TEST, or nowhere. -/
theorem execFwVerifyDone_moves : NextMoves s.dev (execFwVerifyDone s) := by
  unfold execFwVerifyDone
  refine .ite (fun _ => .next (.refl _)) fun hne => ?_
  have hst : s.dev.st = .awaitFw := by simpa using hne
  split
  · refine .ite (fun _ => .next ⟨.inr ?_, ?_⟩) fun _ => .next ?_
    · simp [hst, DevSt.mayMove]
    · simp [Dev.SafeHeld, hst]
    · simpa using Dev.Moves.refl s.dev
  · exact .next (.refl _)

theorem execVinValid_moves : NextMoves s.dev (execVinValid s) := by
  refine .ite (fun _ => .next (.refl _)) fun hne => .next ?_
  have hst : s.dev.st = .off := by simpa using hne
  exact ⟨.inr (by rw [hst]; rfl), by simp [Dev.SafeHeld, hst]⟩

theorem execAwaitFwEntry_moves : NextMoves s.dev (execAwaitFwEntry s) := by
  refine .ite (fun _ => .next (.refl _)) fun hne => .next ?_
  have hst : s.dev.st = .init := by
    by_contra h
    exact hne (by simp [h])
  exact ⟨.inr (by rw [hst]; rfl), by simp [Dev.SafeHeld, hst]⟩

/-- The tests are done: from SELF_TEST to READY, SERVICE or SAFE. -/
theorem execSelfTestEnd_moves {fails : List BistFail} : NextMoves s.dev (execSelfTestEnd fails s) := by
  unfold execSelfTestEnd
  refine .ite (fun _ => .next (.refl _)) fun hne => .next ?_
  have hst : s.dev.st = .selfTest := by simpa using hne
  have hnot : ¬s.dev.SafeHeld := by simp [Dev.SafeHeld, hst]
  have htested {l : List BistFail} {t : State} (ht : t.dev = s.dev) :
      (l.foldl (fun s f => injectFail f s) t).Drifted s.dev :=
    (s.drifted_self.keep ht).foldl fun hs => hs.injectFail
  dsimp only
  split
  · exact Dev.Drifts.moves (htested (by simp)).latchSafe
  · split <;> exact ⟨.inr (by simp [hst, DevSt.mayMove]), fun h => absurd h hnot⟩

/-- INIT by DEV_RESET (R62). -/
theorem execDevResetInit_st {t : State} (h : execDevResetInit s = .next t) :
    t.dev = s.dev ∨ (s.dev.resetPend = true ∧ t.dev.st = .init) := by
  unfold execDevResetInit at h
  split at h <;> cases h
  · exact .inl rfl
  · next hpend => exact .inr ⟨by simpa using hpend, rfl⟩

/-- The loss of VIN (R391). -/
theorem execVinLoss_st {t : State} (h : execVinLoss s = .next t) : t.dev = s.dev ∨ t.dev.st = .off := by
  unfold execVinLoss at h
  split at h <;> cases h
  · exact .inl rfl
  · exact .inr rfl

/-- INIT is listed for every state that is not INIT itself. -/
theorem DevSt.mayMove_init (d : DevSt) : .init = d ∨ d.mayMove .init = true := by
  cases d <;> decide

theorem DevSt.mayMove_off (d : DevSt) : d.mayMove .off = true := by
  cases d <;> rfl

/-! ## Packets on the wire (R64) -/

theorem runPkt_held {p : Port} {k : InPkt} (hs : s.dev.SafeHeld) : (runPkt p k s).dev.SafeHeld := by
  unfold runPkt
  split
  · simpa using hs
  · split
    next hfound => exact (cmdTable_moves _ (List.mem_of_find?_eq_some hfound)).run.held hs
    next => simpa using hs

theorem runPkts_held {p : Port} {l : List InPkt} (hs : s.dev.SafeHeld) : (runPkts p l s).dev.SafeHeld := by
  induction l generalizing s with
  | nil => exact hs
  | cons k t ih => exact ih (runPkt_held (by simpa using hs))

theorem execWritePacket_held {p : Port} {ph : CmdPhase} {data : List Byte} {t : State} (hs : s.dev.SafeHeld)
    (h : execWritePacket p ph data s = .next t) : t.dev.SafeHeld := by
  unfold execWritePacket at h
  split at h <;> cases h
  · exact hs
  · rw [modPort_dev]
    exact runPkts_held (by simpa using hs)

/-! ## Every instruction -/

/-- Every instruction but three moves the device as Table 10 lists and keeps SAFE; the three are a transaction of
several packets, and the two that lead to INIT and to OFF. -/
theorem exec_moves {i : Instr} (hwire : ∀ p ph d, i ≠ .writePacket p ph d) (hinit : i ≠ .devResetInit)
    (hoff : i ≠ .vinLoss) : NextMoves s.dev (exec i s) := by
  have hs := s.drifted_self
  cases i with
  | writePacket => exact absurd rfl (hwire _ _ _)
  | readReply => exact hs.execReadReply.moves
  | readPortStatus => exact hs.execReadPortStatus.moves
  | portReset => exact hs.execPortReset.moves
  | sessionOpen => exact cSessionOpen_moves.exec
  | sessionClose => exact cSessionClose_moves.exec
  | nop => exact cNop_moves.exec
  | devStart => exact cDevStart_moves.exec
  | devStop => exact cDevStop_moves.exec
  | devStopComplete => exact execDevStopComplete_moves
  | devReset => exact cDevReset_moves.exec
  | devResetInit => exact absurd rfl hinit
  | serviceEnter => exact cServiceEnter_moves.exec
  | serviceExit => exact cServiceExit_moves.exec
  | regRead => exact cRegRead_moves.exec
  | regWrite => exact cRegWrite_moves.exec
  | regModify => exact cRegModify_moves.exec
  | evLost => exact hs.execEvLost.moves
  | vinValid => exact execVinValid_moves
  | vinLoss => exact absurd rfl hoff
  | awaitFwEntry => exact execAwaitFwEntry_moves
  | selfTestEnd => exact execSelfTestEnd_moves
  | refInvalid => exact hs.execRefInvalid.moves
  | refRestored => exact hs.execRefRestored.moves
  | holdLimitExpiry => exact hs.execHoldLimitExpiry.moves
  | tenantOpen => exact cTenantOpen_moves.exec
  | tenantQuiesce => exact cTenantQuiesce_moves.exec
  | tenantQuiesceDrained => exact hs.execTenantQuiesceDrained.moves
  | tenantResume => exact cTenantResume_moves.exec
  | tenantReset => exact cTenantReset_moves.exec
  | tenantClose => exact cTenantClose_moves.exec
  | tenantCloseDrained => exact hs.execTenantCloseDrained.moves
  | tenantStatus => exact cTenantStatus_moves.exec
  | queueCreate => exact cQueueCreate_moves.exec
  | queueDestroy => exact cQueueDestroy_moves.exec
  | queueStatus => exact cQueueStatus_moves.exec
  | wbankStatus => exact cWbankStatus_moves.exec
  | wbankOpen => exact cWbankOpen_moves.exec
  | wbankSubmit => exact cWbankSubmit_moves.exec
  | wbankAbandon => exact cWbankAbandon_moves.exec
  | evalMsExpiry => exact hs.execEvalMsExpiry.moves
  | writeback => exact hs.execWriteback.moves
  | blockPairFetch => exact hs.execBlockPairFetch.moves
  | progLoad => exact cProgLoad_moves.exec
  | progLoadComplete => exact hs.execProgLoadComplete.moves
  | progFitcheck => exact cProgFitcheck_moves.exec
  | progUnload => exact cProgUnload_moves.exec
  | progUnloadDrained => exact hs.execProgUnloadDrained.moves
  | progReplace => exact cProgReplace_moves.exec
  | progReplaceDrained => exact hs.execProgReplaceDrained.moves
  | progReplaceSwitch => exact hs.execProgReplaceSwitch.moves
  | progInfo => exact cProgInfo_moves.exec
  | haloEntryWrite => exact hs.execHaloEntryWrite.moves
  | haloEntryRead => exact hs.execHaloEntryRead.moves
  | colanderCall => exact hs.execColanderCall.moves
  | colanderCallDone => exact hs.execColanderCallDone.moves
  | queueRings => exact cQueueRings_moves.exec
  | sqTailWrite => exact hs.execSqTailWrite.moves
  | cqHeadWrite => exact hs.execCqHeadWrite.moves
  | sqEntryTake => exact hs.execSqEntryTake.moves
  | jobSubmit => exact cJobSubmit_moves.exec
  | jobCancel => exact cJobCancel_moves.exec
  | jobStatus => exact cJobStatus_moves.exec
  | partitionSet => exact cPartitionSet_moves.exec
  | partitionGet => exact cPartitionGet_moves.exec
  | batchJoin => exact cBatchJoin_moves.exec
  | batchLeave => exact cBatchLeave_moves.exec
  | batchStatus => exact cBatchStatus_moves.exec
  | jobDispatch => exact hs.execJobDispatch.moves
  | yieldPointStop => exact hs.execYieldPointStop.moves
  | contextSaveDone => exact hs.execContextSaveDone.moves
  | jobResume => exact hs.execJobResume.moves
  | remoteReply => exact hs.execRemoteReply.moves
  | remoteWriteDone => exact hs.execRemoteWriteDone.moves
  | parkTimeout => exact hs.execParkTimeout.moves
  | tlimitExpiry => exact hs.execTlimitExpiry.moves
  | jobSlotsFinished => exact hs.execJobSlotsFinished.moves
  | loWordRead => exact cRegRead_moves.exec
  | schTnnActlClr => exact cRegWrite_moves.exec
  | schEpochLoRead => exact cRegRead_moves.exec
  | dramTransaction => exact hs.execDramTransaction.moves
  | hostBar4Access => exact hs.execHostBar4Access.moves
  | patrolScrub => exact hs.execPatrolScrub.moves
  | memAssign => exact cMemAssign_moves.exec
  | memRelease => exact cMemRelease_moves.exec
  | memFlags => exact cMemFlags_moves.exec
  | memQuery => exact cMemQuery_moves.exec
  | memCommandDone => exact hs.execMemCommandDone.moves
  | bwrPeriod => exact hs.execBwrPeriod.moves
  | bwrTnnBloRead => exact cRegRead_moves.exec
  | streamOpen => exact cStreamOpen_moves.exec
  | streamClose => exact cStreamClose_moves.exec
  | streamStart => exact cStreamStart_moves.exec
  | streamStop => exact cStreamStop_moves.exec
  | streamStatus => exact cStreamStatus_moves.exec
  | unitStart => exact hs.execUnitStart.moves
  | streamPacket => exact hs.execStreamPacket.moves
  | unitEnd => exact hs.execUnitEnd.moves
  | streamHoldExpiry => exact hs.execStreamHoldExpiry.moves
  | streamDoneWrite => exact hs.execStreamDoneWrite.moves
  | snsTnowLoRead => exact cRegRead_moves.exec
  | timeCfg => exact cTimeCfg_moves.exec
  | timeStatus => exact cTimeStatus_moves.exec
  | timeStep => exact cTimeStep_moves.exec
  | syncReceived => exact hs.execSyncReceived.moves
  | syncTimeout => exact hs.execSyncTimeout.moves
  | ethLinkLoss => exact hs.execEthLinkLoss.moves
  | domainRevert => exact hs.execDomainRevert.moves
  | pulseArm => exact cPulseArm_moves.exec
  | pulseCancel => exact cPulseCancel_moves.exec
  | pulseEdge => exact hs.execPulseEdge.moves
  | captureCfg => exact cCaptureCfg_moves.exec
  | tciEdge => exact hs.execTciEdge.moves
  | launchCfg => exact cLaunchCfg_moves.exec
  | ltailWrite => exact hs.execLtailWrite.moves
  | launchEntry => exact hs.execLaunchEntry.moves
  | fusMapCfg => exact cFusMapCfg_moves.exec
  | fusMapStatus => exact cFusMapStatus_moves.exec
  | fusOpen => exact cFusOpen_moves.exec
  | fusClose => exact cFusClose_moves.exec
  | fusCloseDone => exact hs.execFusCloseDone.moves
  | fusSensorSet => exact cFusSensorSet_moves.exec
  | fusStatus => exact cFusStatus_moves.exec
  | fusSensorStatus => exact cFusSensorStatus_moves.exec
  | fusCalibReset => exact cFusCalibReset_moves.exec
  | fusionCall => exact hs.execFusionCall.moves
  | fusionCallStart => exact hs.execFusionCallStart.moves
  | fusionCallDone => exact hs.execFusionCallDone.moves
  | rasOpen => exact cRasOpen_moves.exec
  | rasClose => exact cRasClose_moves.exec
  | rasCloseDone => exact hs.execRasCloseDone.moves
  | rasStatus => exact cRasStatus_moves.exec
  | renderPassIssue => exact hs.execRenderPassIssue.moves
  | renderPassStart => exact hs.execRenderPassStart.moves
  | renderPassDone => exact hs.execRenderPassDone.moves
  | dispCfg => exact cDispCfg_moves.exec
  | dispTrainingDone => exact hs.execDispTrainingDone.moves
  | dispOff => exact cDispOff_moves.exec
  | dispFlip => exact cDispFlip_moves.exec
  | dispStatus => exact cDispStatus_moves.exec
  | vblank => exact hs.execVblank.moves
  | underrun => exact hs.execUnderrun.moves
  | hpdChange => exact hs.execHpdChange.moves
  | dispLinkLoss => exact hs.execDispLinkLoss.moves
  | ctlAssign => exact cCtlAssign_moves.exec
  | ctlBankWrite => exact cCtlBankWrite_moves.exec
  | ctlBankRead => exact cCtlBankRead_moves.exec
  | ctlSwap => exact cCtlSwap_moves.exec
  | ctlEnable => exact cCtlEnable_moves.exec
  | ctlDisable => exact cCtlDisable_moves.exec
  | ctlSetpt => exact cCtlSetpt_moves.exec
  | setpointPageWrite => exact hs.execSetpointPageWrite.moves
  | ctlStatus => exact cCtlStatus_moves.exec
  | ctlIoCfg => exact cCtlIoCfg_moves.exec
  | ctlTraceCfg => exact cCtlTraceCfg_moves.exec
  | ctlTraceDump => exact cCtlTraceDump_moves.exec
  | ctlTraceDumpDone => exact hs.execCtlTraceDumpDone.moves
  | engineTick => exact hs.execEngineTick.moves
  | followingErrorTimeout => exact hs.execFollowingErrorTimeout.moves
  | traceDone => exact hs.execTraceDone.moves
  | pwmPeriod => exact hs.execPwmPeriod.moves
  | sigmaDeltaOutput => exact hs.execSigmaDeltaOutput.moves
  | sdClockLoss => exact hs.execSdClockLoss.moves
  | encIllegalTransition => exact hs.execEncIllegalTransition.moves
  | encIndex => exact hs.execEncIndex.moves
  | sentMessage => exact hs.execSentMessage.moves
  | sentTimeout => exact hs.execSentTimeout.moves
  | channelFaultClear => exact cRegModify_moves.exec
  | skkArm => exact cSkkArm_moves.exec
  | skkProgCfg => exact cSkkProgCfg_moves.exec
  | skkProgStatus => exact cSkkProgStatus_moves.exec
  | skkSafeReq => exact cSkkSafeReq_moves.exec
  | sweepDone => exact hs.execSweepDone.moves
  | skkMbox => exact cSkkMbox_moves.exec
  | skkGoldenNow => exact cSkkGoldenNow_moves.exec
  | skkBistGet => exact cSkkBistGet_moves.exec
  | skkLtimeLoRead => exact cRegRead_moves.exec
  | skKick => exact hs.execSkKick.moves
  | skNext => exact hs.execSkNext.moves
  | skVerdict => exact hs.execSkVerdict.moves
  | skRead => exact hs.execSkRead.moves
  | skPath => exact hs.execSkPath.moves
  | skDispreg => exact hs.execSkDispreg.moves
  | skDispcrc => exact hs.execSkDispcrc.moves
  | skMbox => exact hs.execSkMbox.moves
  | skTime => exact hs.execSkTime.moves
  | skSafe => exact hs.execSkSafe.moves
  | verdictTimeout => exact hs.execVerdictTimeout.moves
  | windowClose => exact hs.execWindowClose.moves
  | goldenEligible => exact hs.execGoldenEligible.moves
  | coverageDue => exact hs.execCoverageDue.moves
  | placementDeadline => exact hs.execPlacementDeadline.moves
  | coreDissent => exact hs.execCoreDissent.moves
  | skinkSramError => exact hs.execSkinkSramError.moves
  | skwdtExpiry => exact hs.execSkwdtExpiry.moves
  | pinFeedbackMismatch => exact hs.execPinFeedbackMismatch.moves
  | debuggerAttach => exact hs.execDebuggerAttach.moves
  | debugAction => exact hs.execDebugAction.moves
  | heartbeat => exact hs.execHeartbeat.moves
  | fwBegin => exact cFwBegin_moves.exec
  | fwChunk => exact cFwChunk_moves.exec
  | fwEnd => exact cFwEnd_moves.exec
  | fwVerifyDone => exact execFwVerifyDone_moves
  | fwInfo => exact cFwInfo_moves.exec
  | fwLogRead => exact cFwLogRead_moves.exec
  | fwRestart => exact cFwRestart_moves.exec
  | fwWatchdogExpiry => exact hs.execFwWatchdogExpiry.moves
  | fwException => exact hs.execFwException.moves
  | fwRestartDone => exact hs.execFwRestartDone.moves
  | fwSvnCommit => exact cFwSvnCommit_moves.exec
  | fwSecChallenge => exact cFwSecChallenge_moves.exec
  | fwSecProve => exact cFwSecProve_moves.exec
  | nonceExpiry => exact hs.execNonceExpiry.moves
  | proveLockoutEnd => exact hs.execProveLockoutEnd.moves
  | fwSskSet => exact cFwSskSet_moves.exec
  | fwAttest => exact cFwAttest_moves.exec
  | fwAttestCert => exact cFwAttestCert_moves.exec
  | fwJournalRead => exact cFwJournalRead_moves.exec
  | fwMcounter => exact cFwMcounter_moves.exec
  | fwIntkeyBurn => exact cFwIntkeyBurn_moves.exec
  | journalDrain => exact hs.execJournalDrain.moves
  | fwsDbgenWrite => exact cRegWrite_moves.exec
  | gatewayFrame => exact hs.execGatewayFrame.moves
  | postedWrite => exact hs.execPostedWrite.moves
  | errorReport => exact hs.execErrorReport.moves
  | canTxTimeout => exact hs.execCanTxTimeout.moves
  | txtailWrite => exact hs.execTxtailWrite.moves
  | rxdoneWrite => exact hs.execRxdoneWrite.moves
  | addressClaim => exact hs.execAddressClaim.moves
  | c3Timeout => exact hs.execC3Timeout.moves
  | chainPacketForward => exact hs.execChainPacketForward.moves
  | flitReceived => exact hs.execFlitReceived.moves
  | linkUp => exact hs.execLinkUp.moves
  | linkTrainingTimeout => exact hs.execLinkTrainingTimeout.moves
  | linkRetry => exact hs.execLinkRetry.moves
  | linkdlyMeasure => exact hs.execLinkdlyMeasure.moves
  | linkDown => exact hs.execLinkDown.moves
  | laneSpare => exact hs.execLaneSpare.moves
  | joinReq => exact hs.execJoinReq.moves
  | portDownReport => exact hs.execPortDownReport.moves
  | epochAdvance => exact hs.execEpochAdvance.moves
  | advance => exact hs.execAdvance.moves
  | masterLost => exact hs.execMasterLost.moves
  | remoteTimeout => exact hs.execRemoteTimeout.moves
  | prepareTimeout => exact hs.execPrepareTimeout.moves
  | gwRouteSet => exact cGwRouteSet_moves.exec
  | gwRouteClear => exact cGwRouteClear_moves.exec
  | gwRouteGet => exact cGwRouteGet_moves.exec
  | gwRingCfg => exact cGwRingCfg_moves.exec
  | gwPortCfg => exact cGwPortCfg_moves.exec
  | gwIsoCfg => exact cGwIsoCfg_moves.exec
  | chnCfg => exact cChnCfg_moves.exec
  | chnLeave => exact cChnLeave_moves.exec
  | chnStatus => exact cChnStatus_moves.exec
  | chnMembers => exact cChnMembers_moves.exec
  | chnEvict => exact cChnEvict_moves.exec
  | vinDroop => exact hs.execVinDroop.moves
  | railDroop => exact hs.execRailDroop.moves
  | droopRelease => exact hs.execDroopRelease.moves
  | pmcInterval => exact hs.execPmcInterval.moves
  | fastLimit => exact hs.execFastLimit.moves
  | phaseFault => exact hs.execPhaseFault.moves
  | thermalSample => exact hs.execThermalSample.moves
  | clusterTrip => exact hs.execClusterTrip.moves
  | wearMeasure => exact hs.execWearMeasure.moves
  | sramEccError => exact hs.execSramEccError.moves
  | pwrStatus => exact cPwrStatus_moves.exec
  | pwrGate => exact cPwrGate_moves.exec
  | pwrGateDone => exact hs.execPwrGateDone.moves
  | pwrWearRead => exact cPwrWearRead_moves.exec
  | pwrRetire => exact cPwrRetire_moves.exec
  | pwrCfgCap => exact cRegModify_moves.exec
  | pwrCfgCapmax => exact cRegModify_moves.exec
  | pwrCfgDramrate => exact cRegModify_moves.exec
  | pwrFselWrite => exact cRegWrite_moves.exec
  | fmeasWindow => exact hs.execFmeasWindow.moves
  | pwrPowerRead => exact cRegRead_moves.exec
  | clrcntWrite => exact cRegModify_moves.exec
  | halostatClrwait => exact cRegModify_moves.exec
  | quadratureEdge => exact hs.execQuadratureEdge.moves
  | remoteRequest => exact hs.execRemoteRequest.moves
  | chainJobPrepare => exact hs.execChainJobPrepare.moves
  | chainJobCommit => exact hs.execChainJobCommit.moves
  | signalDetected => exact hs.execSignalDetected.moves
  | ethLinkUp => exact hs.execEthLinkUp.moves
  | peerDelayMessage => exact hs.execPeerDelayMessage.moves
  | inputMonitorSample => exact hs.execInputMonitorSample.moves

end Sys2Proof.Machine
end

section
/-! The statement on the device's states. -/

namespace Sys2Proof.Machine

/-- R57 for an instruction that is no transaction of packets. -/
theorem exec_listed {i : Instr} {s s' : State} (hwire : ∀ p ph d, i ≠ .writePacket p ph d) (h : exec i s = .next s') :
    s'.dev.st = s.dev.st ∨ s.dev.st.mayMove s'.dev.st = true := by
  by_cases hinit : i = .devResetInit
  · subst hinit
    obtain hdev | ⟨-, hst⟩ := execDevResetInit_st h
    · exact .inl (hdev ▸ rfl)
    · exact hst ▸ DevSt.mayMove_init _
  · by_cases hoff : i = .vinLoss
    · subst hoff
      obtain hdev | hst := execVinLoss_st h
      · exact .inl (hdev ▸ rfl)
      · exact .inr (hst ▸ DevSt.mayMove_off _)
    · exact (exec_moves hwire hinit hoff _ h).listed

/-- SAFE is left only through INIT (R57). -/
theorem exec_held {i : Instr} {s s' : State} (hs : s.dev.SafeHeld) (h : exec i s = .next s') :
    s'.dev.SafeHeld ∨ (i = .devResetInit ∧ s.dev.resetPend = true ∧ s'.dev.st = .init)
    ∨ (i = .vinLoss ∧ s'.dev.st = .off) := by
  by_cases hwire : ∃ p ph d, i = .writePacket p ph d
  · obtain ⟨p, ph, d, rfl⟩ := hwire
    exact .inl (execWritePacket_held hs h)
  · by_cases hinit : i = .devResetInit
    · subst hinit
      obtain hdev | hreset := execDevResetInit_st h
      · exact .inl (hdev ▸ hs)
      · exact .inr (.inl ⟨rfl, hreset⟩)
    · by_cases hoff : i = .vinLoss
      · subst hoff
        obtain hdev | hst := execVinLoss_st h
        · exact .inl (hdev ▸ hs)
        · exact .inr (.inr ⟨rfl, hst⟩)
      · exact .inl ((exec_moves (fun p ph d hi => hwire ⟨p, ph, d, hi⟩) hinit hoff _ h).held hs)

/-- A tick with no command waiting leaves the device alone. -/
theorem step_dev_of_idle {s s' : State} (hidle : s.pending = []) (h : step s = .next s') : s'.dev = s.dev := by
  rw [step, hidle] at h
  cases h
  exact idle_dev

/-- In SAFE, and in a SERVICE state entered from it, the pins are asserted. -/
theorem deasserted_of_safeHeld {s : State} (hs : s.safeHeld = true) : s.deasserted = false := by
  have hrun : s.running = false := by
    obtain hst | ⟨hst, -⟩ := State.safeHeld_iff.mp hs <;> simp [State.running, hst]
  simp [State.deasserted, hrun]

/-- Settles O60, by one lemma for each function of the model: whatever enters no state on purpose leaves the device's
state alone, degrades RUN or latches SAFE (`Dev.Drifts`), and the commands and rows that do enter one start from a state
of which Table 10 lists the transition. -/
theorem deviceMovesOnlyByItsTransitions : Obligations.DeviceMovesOnlyByItsTransitions := by
  refine ⟨fun i s s' hwire h => exec_listed hwire h, fun c h ps s hc => (cmdTable_moves c hc).run.listed,
    fun s s' hidle h => step_dev_of_idle hidle h ▸ rfl, fun i s s' hs h => ?held, fun s hs => ?pins⟩
  case held =>
    rw [State.safeHeld_iff] at hs ⊢
    exact exec_held hs h
  case pins => simp [State.safeN, State.safeP, deasserted_of_safeHeld hs]

end Sys2Proof.Machine
end

section
/-! SUPPORT. The scale byte of an extent and the codes under it (R82, R85, R87, R88). -/

namespace Sys2Proof.Machine

/-- cmax under scale byte `c` reaches m × 2^e. -/
def scaleReaches (w m : Nat) (e : Int) (c : Nat) : Bool := dyLe m e ((scaleVal c).1 * cmaxOf w) (scaleVal c).2

/-- The first of the bytes from 1 that satisfies a test, 0xFF where none does. -/
def firstByte (test : Nat → Bool) : Nat := ((List.range' 1 255).find? test).getD 0xFF

theorem scaleByte_of_fin {amax m : Nat} {n : Bool} {e : Int} (w : Nat) (hne : amax ≠ 0)
    (hfin : fdecode fp32 amax = .fin n m e) : scaleByte w amax = firstByte (scaleReaches w m e) := by
  have hbytes : (List.range 255).map (· + 1) = List.range' 1 255 := by
    simp only [List.range'_eq_map_range, Nat.add_comm]
  rw [scaleByte, if_neg hne, hfin, hbytes]
  rfl

/-- The first byte that satisfies a test is one from 1 to 0xFF, those before it fail the test, and it passes unless it
is the last. -/
theorem firstByte_spec (test : Nat → Bool) :
    1 ≤ firstByte test ∧ firstByte test ≤ 0xFF ∧ (∀ c, 1 ≤ c → c < firstByte test → test c = false)
    ∧ (firstByte test < 0xFF → test (firstByte test) = true) := by
  unfold firstByte
  cases hfind : (List.range' 1 255).find? test with
  | none =>
    have hfails := List.find?_range'_eq_none.mp hfind
    exact ⟨by decide, le_rfl, fun c h1 hc => by simpa using hfails c h1 (Nat.lt_of_lt_of_le hc (by decide)),
      fun hlt => absurd hlt (lt_irrefl _)⟩
  | some b =>
    obtain ⟨hpass, hmem, hfails⟩ := List.find?_range'_eq_some.mp hfind
    obtain ⟨h1, hlt⟩ := List.mem_range'_1.mp hmem
    exact ⟨h1, Nat.le_of_lt_succ hlt, fun c hc hcb => by simpa using hfails c hc hcb, fun _ => hpass⟩

/-- A magnitude within a bound is within it on either side with a sign. -/
theorem signed_within (neg : Bool) {k c : Nat} (hk : k ≤ c) :
    -(c : Int) ≤ (if neg then -1 else 1) * (k : Int) ∧ (if neg then -1 else 1) * (k : Int) ≤ (c : Int) := by
  split_ifs <;> omega

/-- Under scale byte 0x00 every code is 0 (R85). -/
theorem quantOne_zero (w x : Nat) : quantOne w 0 x = (0, false) := rfl

/-- A code is clamped to cmax (R88); an infinity has the code cmax, a NaN the code 0 (R89). -/
theorem quantOne_within (w sb x : Nat) :
    -(cmaxOf w : Int) ≤ (quantOne w sb x).1 ∧ (quantOne w sb x).1 ≤ (cmaxOf w : Int) := by
  have hzero : -(cmaxOf w : Int) ≤ 0 ∧ (0 : Int) ≤ cmaxOf w := by omega
  by_cases hsb : sb = 0
  · subst hsb
    exact hzero
  · rw [quantOne, if_neg hsb]
    cases fdecode fp32 x with
    | nan neg => exact hzero
    | inf neg => exact signed_within neg le_rfl
    | fin neg m e => exact signed_within neg (Nat.min_le_right _ _)

/-- Settles O27: the scale byte of a finite amax is the first of the bytes from 1 that reaches it, and each kind of
value has its code within cmax. -/
theorem quantiserPicksSmallestScale : Obligations.QuantiserPicksSmallestScale := by
  refine fun w amax _ => ⟨rfl, fun n m e hne hfin => ?scale, quantOne_zero w, quantOne_within w⟩
  rw [scaleByte_of_fin w hne hfin]
  exact firstByte_spec (scaleReaches w m e)

end Sys2Proof.Machine
end

section
/-! SUPPORT. The standby bank of a program (R105, R107, R109, R110, Table 13 of chapter 03). -/

namespace Sys2Proof.Machine

section

variable {h : Hdr} {ps : List Byte} {s : State} {g : Nat} {p : Prog}

theorem modProg_of_get? (hp : s.progs.get? g = some p) (f : Prog → Prog) :
    modProg g f s = { s with progs := s.progs.set g (f p) } := by
  simp only [modProg, hp]

/-- A transition leaves the bank in the state it names. -/
theorem setBank_get? (hp : s.progs.get? g = some p) (b : BankSt) (reason : Nat) :
    (setBank g b reason s).progs.get? g = some { p with sb := b, reason := reason } := by
  simp only [setBank, hp, offer0_progs, Map.get?_set_self]

theorem consumed_progs (h : Hdr) (s : State) : (consumed h s).progs = s.progs := by
  simp [consumed]

theorem execWbankStatus_of_taken (hp : s.progs.get? (u16 ps 0) = some p) (ht : cWbankStatus.taken h ps s = true) :
    execWbankStatus h ps s = .next (okReply 0x0260 h
      (leBytes 1 p.live ++ leBytes 1 p.sb.code ++ leBytes 1 p.reason ++ [0x00] ++ leBytes 4 p.gen
        ++ leBytes 1 (b2n p.cand.isSome) ++ zeros 3) s) := by
  rw [execWbankStatus, Cmd.exec_now ht]
  simp only [cWbankStatus, consumed_progs, hp]
  rfl

theorem execWbankOpen_of_taken (hp : s.progs.get? (u16 ps 0) = some p) (ht : cWbankOpen.taken h ps s = true) :
    execWbankOpen h ps s = .next (setBank (u16 ps 0) .writing 0
      { okReply 0x0261 h [] s with progs := s.progs.set (u16 ps 0) { p with sbHost := true } }) := by
  have hreply : (okReply 0x0261 h [] s).progs.get? (u16 ps 0) = some p := by rwa [okReply_progs]
  rw [execWbankOpen, Cmd.exec_now ht, ← okReply_progs 0x0261 h [] s]
  exact congrArg (fun t => Host.Outcome.next (setBank _ .writing 0 t)) (modProg_of_get? hreply _)

/-- EVAL_MS ends nothing but an evaluation (R105). -/
theorem execEvalMsExpiry_of_evaluating (hp : s.progs.get? g = some p) (hb : p.sb = .evaluating) :
    execEvalMsExpiry g s = .next (freeCand g 2 TIMEOUT s) := by
  simp [execEvalMsExpiry, hp, hb]

end

/-- Settles O26: each command is its effect on the state with its reply. Reason 0 of the transition to WRITING, in
EV_WBANK and as the last reason, is the model's choice (log 20). -/
theorem weightBankCommands : Obligations.WeightBankCommands :=
  fun _ _ _ => ⟨fun _ hp => ⟨execWbankStatus_of_taken hp, execWbankOpen_of_taken hp, fun ht => Cmd.exec_later ht,
      fun ht => Cmd.exec_now ht⟩,
    fun _ _ hp hb => execEvalMsExpiry_of_evaluating hp hb, fun _ r _ hp => ⟨_, setBank_get? hp .writing r, rfl⟩⟩

end Sys2Proof.Machine
end

section
/-! SUPPORT. WRITEBACK (R78, R89, R92, R124) and BLOCK_PAIR_FETCH (R96, R97, R100). -/

namespace Sys2Proof.Machine

/-! ## WRITEBACK -/

section

variable {s u : State} {job cl tile : Nat} {src : WbSrc} {conv : Conv} {dest : WbDest} {j : Job}
  {rows : List (List Nat)} {nfmode : Nat}

/-- The non-finite values that a conversion meets (R89). -/
def nonfinMet (conv : Conv) (rows : List (List Nat)) : Nat :=
  if convTakesFloat conv = true then (rows.flatten.filter fnonfin).length else 0

/-- The output of a conversion: its saturated and non-finite values counted in the cluster, then its bytes written. -/
def storeConverted (job cl : Nat) (conv : Conv) (dest : WbDest) (rows : List (List Nat)) (s : State) : State :=
  let r := convWrites conv dest rows
  r.1.foldl (fun s w => wbWrite job cl dest w s) (modCl cl (fun c => { c with
    ocsat := c.ocsat || r.2.1, qsat := c.qsat || decide (r.2.2 ≠ 0), qsatCnt := min 0xFFFF (c.qsatCnt + r.2.2) })
    (countNonfin cl (nonfinMet conv rows) s))

theorem wbConvert_eq : wbConvert job cl conv dest nfmode rows s =
    if (nonfinMet conv rows != 0 && nfmode == 0) = true then endJob job FAULT 1 0 (countNonfin cl 1 s)
    else storeConverted job cl conv dest rows s := rfl

/-- NFMODE 0: a non-finite value ends the job (R89). -/
theorem wbConvert_of_nonfin (hnf : nonfinMet conv rows ≠ 0) (hmode : nfmode = 0) :
    wbConvert job cl conv dest nfmode rows s = endJob job FAULT 1 0 (countNonfin cl 1 s) := by
  rw [wbConvert_eq, if_pos (by simp [hnf, hmode])]

/-- Without a non-finite value, or under another NFMODE, the rows are converted (R92). -/
theorem wbConvert_of_convertible (hnf : nonfinMet conv rows = 0 ∨ nfmode ≠ 0) :
    wbConvert job cl conv dest nfmode rows s = storeConverted job cl conv dest rows s := by
  rw [wbConvert_eq, if_neg (by simpa [imp_iff_not_or] using hnf)]

section

variable (hj : s.jobs.get? job = some j) (hrun : j.st = .running) (hfit : wbFits src conv dest = true)
  (hrole : roleOk s j dest = true)

include hj hrun hfit hrole

theorem execWriteback_of_no_rows (hrows : wbRows job cl tile src s = (none, u)) :
    execWriteback job cl tile src conv dest s = .next u := by
  simp [execWriteback, hj, hrun, hfit, hrole, hrows]

theorem execWriteback_of_rows (hrows : wbRows job cl tile src s = (some rows, u)) :
    execWriteback job cl tile src conv dest s = .next (wbConvert job cl conv dest (jobNfmode s j) rows u) := by
  simp [execWriteback, hj, hrun, hfit, hrole, hrows]

end

/-- Blocks without a partial sum: the accumulator store keeps each, and their rows stand side by side (R78). -/
theorem wbRows_of_blocks {f : Fam} {blks : List AccBlk} {vs : List (Nat × List (List Nat) × Bool)}
    (hload : loadBlks job cl tile f blks s = (some vs, u)) :
    wbRows job cl tile (.acc f blks none) s = (some (joinBlks (vs.map (fun v => v.2.1))),
      modCl cl (fun c => { c with accsat := c.accsat || vs.any (fun v => v.2.2) }) (modCl cl (fun c => { c with
        acc := vs.foldl (fun m v => m.set (tile * 16 + v.1) v.2.1.flatten) c.acc }) u)) := by
  simp only [wbRows, hload]

end

/-! ## BLOCK_PAIR_FETCH -/

/-- Of some checks the first is one of those of least rank (R100). -/
theorem firstCheck_of_ne_nil {bad : List PairCheck} (hbad : bad ≠ []) :
    ∃ c, firstCheck bad = some c ∧ c ∈ bad ∧ ∀ d ∈ bad, pairRank c ≤ pairRank d := by
  induction bad with
  | nil => exact absurd rfl hbad
  | cons x t ih =>
    by_cases ht : t = []
    · subst ht
      exact ⟨x, rfl, by simp, by simp⟩
    · obtain ⟨d, hd, hmem, hmin⟩ := ih ht
      by_cases hrank : pairRank x ≤ pairRank d
      · exact ⟨x, by simp [firstCheck, hd, hrank], by simp,
          List.forall_mem_cons.mpr ⟨le_rfl, fun e he => hrank.trans (hmin e he)⟩⟩
      · exact ⟨d, by simp [firstCheck, hd, hrank], by simp [hmem],
          List.forall_mem_cons.mpr ⟨le_of_not_ge hrank, hmin⟩⟩

section

variable {s : State} {cl : Nat}

/-- A check of least rank is recorded, and every job concerned ends with SCALE_SKEW (R97, R100). -/
theorem failChecks_of_firstCheck {bad : List PairCheck} {c : PairCheck} (hfirst : firstCheck bad = some c) :
    failChecks cl bad s
      = bad.foldl (fun s c => endJob c.job SCALE_SKEW 0 0 s) (s.setCl cl (logSkew c (s.cl cl))) := by
  simp only [failChecks, hfirst, modCl]

/-- The failed checks of the pairs of a fetch, in the order asked for, and the state after all are read. -/
def fetchAll (cl : Nat) (fs : List PairFetch) (s : State) : List PairCheck × State := fs.foldl (fetchPair cl) ([], s)

theorem execBlockPairFetch_eq (cl : Nat) (fs : List PairFetch) (s : State) :
    execBlockPairFetch cl fs s = .next (failChecks cl (fetchAll cl fs s).1 (fetchAll cl fs s).2) := rfl

theorem execBlockPairFetch_of_all_pass {fs : List PairFetch} (hpass : (fetchAll cl fs s).1 = []) :
    execBlockPairFetch cl fs s = .next (fetchAll cl fs s).2 := by
  rw [execBlockPairFetch_eq, hpass]
  rfl

theorem execBlockPairFetch_of_failures {fs : List PairFetch} (hfail : (fetchAll cl fs s).1 ≠ []) :
    ∃ c ∈ (fetchAll cl fs s).1, (∀ d ∈ (fetchAll cl fs s).1, pairRank c ≤ pairRank d)
    ∧ execBlockPairFetch cl fs s = .next ((fetchAll cl fs s).1.foldl (fun s c => endJob c.job SCALE_SKEW 0 0 s)
        ((fetchAll cl fs s).2.setCl cl (logSkew c ((fetchAll cl fs s).2.cl cl)))) := by
  obtain ⟨c, hfirst, hmem, hmin⟩ := firstCheck_of_ne_nil hfail
  exact ⟨c, hmem, hmin, (execBlockPairFetch_eq cl fs s).trans (congrArg _ (failChecks_of_firstCheck hfirst))⟩

/-! ### One pair of a running job -/

/-- The bytes of a pair's data block, and the state after they are read. -/
def pairData (cl : Nat) (f : PairFetch) (s : State) : List Byte × State :=
  workBytes f.job cl f.src.unit (dataAt f.src f.blk) (dataLen f.src f.blk) s

/-- The bytes of its scale block, read after the data block. -/
def pairScale (cl : Nat) (f : PairFetch) (s : State) : List Byte × State :=
  workBytes f.job cl f.src.unit (scaleAt f.src f.blk) 64 (pairData cl f s).2

/-- The check of a pair as it is read. -/
def pairCheck (cl : Nat) (f : PairFetch) (s : State) : PairCheck :=
  pairCheckOf f.job f.tiles f.dma f.gen f.src f.blk (pairData cl f s).1 (pairScale cl f s).1

variable {f : PairFetch} {j : Job} (acc : List PairCheck) (hj : s.jobs.get? f.job = some j) (hrun : j.st = .running)
  (hlive : ((pairScale cl f s).2.jobs.get? f.job).isSome = true)

include hj hrun hlive

theorem fetchPair_of_fails (hfail : pairFails (pairCheck cl f s) = true) :
    fetchPair cl (acc, s) f = (acc ++ [pairCheck cl f s], (pairScale cl f s).2) := by
  simp only [pairCheck, pairScale, pairData] at hlive hfail ⊢
  simp [fetchPair, hj, hrun, Option.isNone_eq_false_iff.mpr hlive, hfail]

theorem fetchPair_of_passes (hpass : pairFails (pairCheck cl f s) = false) {u a b : Nat}
    (hdst : f.dst = some (u, a, b)) : fetchPair cl (acc, s) f = (acc, sramWrite f.job cl u b (pairScale cl f s).1
      (sramWrite f.job cl u a (pairData cl f s).1 (pairScale cl f s).2)) := by
  simp only [pairCheck, pairScale, pairData] at hlive hpass ⊢
  simp [fetchPair, hj, hrun, Option.isNone_eq_false_iff.mpr hlive, hpass, hdst]

end

/-- Settles O29: a writeback loads its rows and converts them, a fetch judges its pairs one by one, and of the failed
checks `firstCheck` names one of least rank. -/
theorem tileResultsAndSkew : Obligations.TileResultsAndSkew := by
  refine fun s => ⟨fun job cl tile src conv dest j hj hrun hfit hrole =>
    ⟨fun u hrows => execWriteback_of_no_rows hj hrun hfit hrole hrows,
      fun rows u hrows => ⟨fun hnf hmode => ?stops, fun hnf => ?writes⟩, fun f blks vs u => wbRows_of_blocks⟩,
    fun cl fs => ⟨execBlockPairFetch_of_all_pass, execBlockPairFetch_of_failures⟩,
    fun cl f j acc hj hrun => ⟨fetchPair_of_fails acc hj hrun,
      fun hlive hpass u a b => fetchPair_of_passes acc hj hrun hlive hpass⟩⟩
  case stops =>
    exact (execWriteback_of_rows hj hrun hfit hrole hrows).trans (congrArg _ (wbConvert_of_nonfin hnf hmode))
  case writes =>
    exact (execWriteback_of_rows hj hrun hfit hrole hrows).trans (congrArg _ (wbConvert_of_convertible hnf))

end Sys2Proof.Machine
end

section
/-! SUPPORT. The loader's commands and rows as equations (R119, R123, R134, R135, R137, R411). -/

namespace Sys2Proof.Machine

section

variable {h : Hdr} {ps : List Byte} {s : State}

/-! ## What an accepted command's reply leaves to the loader's checks -/

theorem acceptedReply_dramRead (op : Nat) (h : Hdr) (n : Nat) (s : State) (a k : Nat) :
    dramRead (acceptedReply op h n s).2 a k = dramRead s a k := by
  rw [dramRead, acceptedReply_mem, dramRead]

theorem acceptedReply_nAssignable (op : Nat) (h : Hdr) (n : Nat) (s : State) :
    (acceptedReply op h n s).2.nAssignable = s.nAssignable := by
  unfold State.nAssignable State.nPages State.nHbm
  rw [acceptedReply_part]

theorem acceptedReply_dramOff (op : Nat) (h : Hdr) (n : Nat) (s : State) :
    (acceptedReply op h n s).2.dramOff = s.dramOff := by
  have hrail : (acceptedReply op h n s).2.railOff = s.railOff := by
    funext r
    unfold State.railOff State.railIn
    rw [acceptedReply_larder]
  rw [State.dramOff, hrail, State.dramOff]

theorem acceptedReply_pageOf (op : Nat) (h : Hdr) (n : Nat) (s : State) (pg : Nat) :
    (acceptedReply op h n s).2.pageOf pg = s.pageOf pg := by
  unfold State.pageOf
  rw [acceptedReply_nAssignable, acceptedReply_mem, acceptedReply_larder, acceptedReply_dramOff]

theorem acceptedReply_step1Ok (op : Nat) (h : Hdr) (n : Nat) (s : State) (t : Nat) (ps : List Byte) :
    step1Ok (acceptedReply op h n s).2 t ps = step1Ok s t ps := by
  simp only [step1Ok, ownedBy, acceptedReply_dramRead, acceptedReply_nAssignable, acceptedReply_pageOf]

theorem acceptedReply_loadsWait (op : Nat) (h : Hdr) (n : Nat) (s : State) :
    loadsWait (acceptedReply op h n s).2 = loadsWait s := by
  rw [loadsWait, acceptedReply_loads, loadsWait]

/-- Whether a load waits is judged alike before and after the reply (R119). -/
theorem acceptedReply_waits (op : Nat) (h : Hdr) (n : Nat) (s : State) (t : Nat) (ps : List Byte) :
    (loadsWait (acceptedReply op h n s).2 && step1Ok (acceptedReply op h n s).2 t ps)
      = (loadsWait s && step1Ok s t ps) := by
  rw [acceptedReply_loadsWait, acceptedReply_step1Ok]

/-! ## PROG_LOAD and PROG_FITCHECK -/

section

variable {tok : Nat} {img : Image} {bs : List LcBind} {cs : List (Nat × Nat × Nat)} {st : Nat} {d : List Byte}

section

variable (hw : (loadsWait s && step1Ok s h.tenant.toNat ps) = true)

include hw

theorem cProgLoad_effect_of_waits :
    cProgLoad.effect tok h ps s = addWaiting tok h.tenant.toNat ps .waitLoad none s := by
  simp only [cProgLoad, hw, if_true]

theorem cProgFitcheck_effect_of_waits :
    cProgFitcheck.effect tok h ps s = addWaiting tok h.tenant.toNat ps .waitFit none s := by
  simp only [cProgFitcheck, hw, if_true]

end

section

variable (hw : (loadsWait s && step1Ok s h.tenant.toNat ps) = false)

include hw

theorem cProgLoad_effect_of_fit (hfit : fitCheck s h.tenant.toNat ps false = .fit img bs cs) :
    cProgLoad.effect tok h ps s = reserve (mkLoad tok h.tenant.toNat ps .copying img bs cs
      (imgBytes (dramRead s (u64 ps 0) 256)) none) s := by
  simp only [cProgLoad, hw, hfit, Bool.false_eq_true, if_false]

theorem cProgLoad_effect_of_fail (hfail : fitCheck s h.tenant.toNat ps false = .fail st d) :
    cProgLoad.effect tok h ps s = complete tok st d s := by
  simp only [cProgLoad, hw, hfail, Bool.false_eq_true, if_false]

theorem cProgFitcheck_effect_of_fit (hfit : fitCheck s h.tenant.toNat ps false = .fit img bs cs) :
    cProgFitcheck.effect tok h ps s = complete tok OK (bindData 0 img bs) s := by
  simp only [cProgFitcheck, hw, hfit, Bool.false_eq_true, if_false]

theorem cProgFitcheck_effect_of_fail (hfail : fitCheck s h.tenant.toNat ps false = .fail st d) :
    cProgFitcheck.effect tok h ps s = complete tok st d s := by
  simp only [cProgFitcheck, hw, hfail, Bool.false_eq_true, if_false]

end

theorem execProgLoad_of_taken (ht : cProgLoad.taken h ps s = true) :
    execProgLoad h ps s = .next (cProgLoad.effect s.sch.nTok h ps (acceptedReply 0x0201 h 28 s).2) := by
  rw [execProgLoad, Cmd.exec_later ht, show cProgLoad.opcode = 0x0201 from rfl]

theorem execProgFitcheck_of_taken (ht : cProgFitcheck.taken h ps s = true) :
    execProgFitcheck h ps s = .next (cProgFitcheck.effect s.sch.nTok h ps (acceptedReply 0x0202 h 28 s).2) := by
  rw [execProgFitcheck, Cmd.exec_later ht, show cProgFitcheck.opcode = 0x0202 from rfl]

end

/-! ## The end of copying (R134, R411) -/

/-- Copying the initial weights changes memory and the clusters' cache lines alone. -/
theorem copyWeights_field {β : Type} (g : State → β) (hg : ∀ s m c, g { s with mem := m, cls := c } = g s) (l : Load)
    (s : State) : g (copyWeights l s) = g s := by
  refine foldl_frame g (fun t c => ?_) l.copies s
  unfold dramWrite
  split
  · rfl
  · exact hg t _ _

theorem copyWeights_loads (l : Load) (s : State) : (copyWeights l s).loads = s.loads :=
  copyWeights_field State.loads (fun _ _ _ => rfl) l s

theorem copyWeights_progs (l : Load) (s : State) : (copyWeights l s).progs = s.progs :=
  copyWeights_field State.progs (fun _ _ _ => rfl) l s

theorem copyWeights_sch (l : Load) (s : State) : (copyWeights l s).sch = s.sch :=
  copyWeights_field State.sch (fun _ _ _ => rfl) l s

theorem copyWeights_running (l : Load) (s : State) : (copyWeights l s).running = s.running := by
  rw [State.running, copyWeights_dev, State.running]

theorem execProgLoadComplete_of_copying {i : Nat} {l : Load} (hl : s.loads[i]? = some l) (hst : l.st = .copying)
    (hnew : l.replace = none) (hsch : s.fwDown fwSch = false) : execProgLoadComplete i s = .next
      (let k := nextHandle s
       let n := { copyWeights l s with
         loads := s.loads.filter (fun x => x.tok != l.tok), progs := s.progs.set k (newProg l s.sch.nImages),
         sch := { s.sch with lastHandle := k, nImages := s.sch.nImages + 1 } }
       complete l.tok OK (bindData k l.img l.binds)
         (fillResident k 0 (clearLost l (if s.running = true then firstCover k n else n)))) := by
  have hturn : (l.st == .copying && l.replace.isNone && !s.fwDown fwSch) = true := by simp [hst, hnew, hsch]
  simp only [execProgLoadComplete, hl, hturn, if_true, copyWeights_loads, copyWeights_progs, copyWeights_sch]
  simp only [State.running, copyWeights_dev]

/-! ## PROG_UNLOAD and PROG_INFO (R135, R137) -/

theorem execProgUnload_of_taken {p : Prog} (hp : s.progs.get? (u16 ps 0) = some p)
    (ht : cProgUnload.taken h ps s = true) : execProgUnload h ps s = .next
      (endJobs (fun j => j.prog == u16 ps 0 && j.st == .queued && j.role == .user) STATE 0
        { (acceptedReply 0x0203 h 0 s).2 with
          progs := s.progs.set (u16 ps 0) { p with stopped := true, unloadTok := some s.sch.nTok } }) := by
  have hreply : (acceptedReply 0x0203 h 0 s).2.progs.get? (u16 ps 0) = some p := by rwa [acceptedReply_progs]
  rw [execProgUnload, Cmd.exec_later ht]
  simp only [cProgUnload, modProg_of_get? hreply, acceptedReply_progs]

theorem execProgUnloadDrained_of_drained {g : Nat} {p : Prog} (hp : s.progs.get? g = some p)
    (htok : p.unloadTok.isSome = true) (hbusy : progBusy s g = false) (hsch : s.fwDown fwSch = false) :
    execProgUnloadDrained g s = .next (completeOpt p.unloadTok OK []
      (unloadProg g { s with progs := s.progs.set g { p with unloadTok := none } })) := by
  simp only [execProgUnloadDrained, hp, htok, hbusy, hsch, modProg_of_get? hp]
  rfl

theorem consumed_storeUsed (h : Hdr) (s : State) : (consumed h s).storeUsed = s.storeUsed := by
  simp only [State.storeUsed, consumed, State.setPort_progs, State.setPort_loads, State.setPort_fctxs]

theorem execProgInfo_of_prog {p : Prog} (hp : s.progs.get? (u16 ps 0) = some p) (hten : h.tenant ≠ 0xFF)
    (ht : cProgInfo.taken h ps s = true) :
    execProgInfo h ps s = .next (okReply 0x0205 h (progInfo (u16 ps 0) p) s) := by
  have hprog : (h.tenant == 0xFF) = false := beq_eq_false_iff_ne.mpr hten
  rw [execProgInfo, Cmd.exec_now ht]
  simp only [cProgInfo, Cmd.base, consumed_progs, hp, hprog, okReply, Bool.false_eq_true, if_false]

theorem execProgInfo_of_store (hten : h.tenant = 0xFF) (ht : cProgInfo.taken h ps s = true) :
    execProgInfo h ps s = .next (okReply 0x0205 h (padTo 60 (leBytes 4 fmtMajors
      ++ leBytes 4 ((2 ^ 30 - s.storeUsed) / 2 ^ 20) ++ leBytes 2 s.progs.cells.length)) s) := by
  have hstore : (h.tenant == 0xFF) = true := beq_iff_eq.mpr hten
  rw [execProgInfo, Cmd.exec_now ht]
  simp only [cProgInfo, Cmd.base, consumed_progs, consumed_storeUsed, hstore, okReply, storeSize, if_true]

end

/-- Settles O24: each command is its effect on the state with its reply, and each row its equation. That the steps of
R119 are made in the command's turn, or when the waits of earlier loads end, is the model's reading (log 19). -/
theorem programLoadAndInfo : Obligations.ProgramLoadAndInfo := by
  refine ⟨fun h ps s => ⟨fun img bs cs ht hw hfit => ?load, fun st d ht hw hfail => ?loadFails, fun ht hw => ?loadWaits,
    fun img bs cs ht hw hfit => ?fit, fun st d ht hw hfail => ?fitFails, fun ht hw => ?fitWaits,
    fun p => execProgUnload_of_taken, fun p => execProgInfo_of_prog, execProgInfo_of_store⟩,
    fun s hsch => ⟨fun i l hl hst hnew => ?copied,
      fun g p hp htok hbusy => execProgUnloadDrained_of_drained hp htok hbusy hsch⟩⟩
  case load =>
    exact (execProgLoad_of_taken ht).trans (by
      rw [cProgLoad_effect_of_fit ((acceptedReply_waits ..).trans hw) hfit, acceptedReply_dramRead])
  case loadFails =>
    exact (execProgLoad_of_taken ht).trans (by rw [cProgLoad_effect_of_fail ((acceptedReply_waits ..).trans hw) hfail])
  case loadWaits =>
    exact (execProgLoad_of_taken ht).trans (by
      rw [cProgLoad_effect_of_waits ((acceptedReply_waits ..).trans hw), addWaiting, acceptedReply_loads])
  case fit =>
    exact (execProgFitcheck_of_taken ht).trans (by
      rw [cProgFitcheck_effect_of_fit ((acceptedReply_waits ..).trans hw) hfit])
  case fitFails =>
    exact (execProgFitcheck_of_taken ht).trans (by
      rw [cProgFitcheck_effect_of_fail ((acceptedReply_waits ..).trans hw) hfail])
  case fitWaits =>
    exact (execProgFitcheck_of_taken ht).trans (by
      rw [cProgFitcheck_effect_of_waits ((acceptedReply_waits ..).trans hw), addWaiting, acceptedReply_loads])
  case copied => exact ⟨execProgLoadComplete_of_copying hl hst hnew hsch, rfl, rfl, rfl, rfl, rfl, rfl⟩

end Sys2Proof.Machine
end

section
/-! SUPPORT. Replacing a program in its two modes, the drain and the switch (R119, R138, R412). -/

namespace Sys2Proof.Machine

/-! ## PROG_REPLACE -/

section

variable {h : Hdr} {ps : List Byte} {s : State} {p : Prog} {tok : Nat}

theorem execProgReplace_of_taken (ht : cProgReplace.taken h ps s = true) :
    execProgReplace h ps s = .next (cProgReplace.effect s.sch.nTok h ps (acceptedReply 0x0204 h 28 s).2) := by
  rw [execProgReplace, Cmd.exec_later ht, show cProgReplace.opcode = 0x0204 from rfl]

section

variable (hp : s.progs.get? (u16 ps 40) = some p)

include hp

/-- A command that waits marks its program and holds the load. -/
theorem modProg_addWaiting {t : Nat} {st : LoadSt} {rep : Option (Nat × Nat)} (f : Prog → Prog) :
    modProg (u16 ps 40) f (addWaiting tok t ps st rep s) = { s with
      progs := s.progs.set (u16 ps 40) (f p), loads := s.loads ++ [waitLoad tok t ps st rep s] } :=
  modProg_of_get? (s := addWaiting tok t ps st rep s) hp f

theorem cProgReplace_effect_of_drains (hm : u8 ps 42 = 1) (h1 : step1Ok s h.tenant.toNat ps = true) :
    cProgReplace.effect tok h ps s = { s with
      progs := s.progs.set (u16 ps 40) { p with replacing := true },
      loads := s.loads ++ [waitLoad tok h.tenant.toNat ps .draining (some (u16 ps 40, 1)) s] } := by
  simp only [cProgReplace, hp, hm, h1, modProg_addWaiting hp, beq_self_eq_true, if_true]

theorem cProgReplace_effect_of_denied (hm : u8 ps 42 = 1) (h1 : step1Ok s h.tenant.toNat ps = false) :
    cProgReplace.effect tok h ps s = complete tok DENIED [] s := by
  simp only [cProgReplace, hp, hm, h1, beq_self_eq_true, if_true, Bool.false_eq_true, if_false]

section

variable (hm : u8 ps 42 = 0)

include hm

theorem cProgReplace_effect_of_waits (hw : (loadsWait s && step1Ok s h.tenant.toNat ps) = true) :
    cProgReplace.effect tok h ps s = { s with
      progs := s.progs.set (u16 ps 40) { p with replacing := true },
      loads := s.loads ++ [waitLoad tok h.tenant.toNat ps .waitLoad (some (u16 ps 40, 0)) s] } := by
  simp only [cProgReplace, hp, hm, Nat.reduceBEq, hw, modProg_addWaiting hp, Bool.false_eq_true, if_false, if_true]

variable (hw : (loadsWait s && step1Ok s h.tenant.toNat ps) = false)

include hw

theorem cProgReplace_effect_of_fit {img : Image} {bs : List LcBind} {cs : List (Nat × Nat × Nat)}
    (hfit : replaceCheck s h.tenant.toNat p ps = .fit img bs cs) :
    cProgReplace.effect tok h ps s = reserve (mkLoad tok h.tenant.toNat ps .copying img bs cs
      (imgBytes (dramRead s (u64 ps 0) 256)) (some (u16 ps 40, 0)))
      { s with progs := s.progs.set (u16 ps 40) { p with replacing := true } } := by
  simp only [cProgReplace, hp, hm, Nat.reduceBEq, hw, hfit, modProg_of_get? hp, Bool.false_eq_true, if_false]

theorem cProgReplace_effect_of_fail {st : Nat} {d : List Byte}
    (hfail : replaceCheck s h.tenant.toNat p ps = .fail st d) :
    cProgReplace.effect tok h ps s = complete tok st d s := by
  simp only [cProgReplace, hp, hm, Nat.reduceBEq, hw, hfail, Bool.false_eq_true, if_false]

end

end

end

/-! ## The drain: waiting loads make their steps (R119, R138) -/

section

variable {s : State} {g : Nat} {p : Prog} {l : Load}

theorem trimCache_loads (s : State) (cl : Nat) : (trimCache s cl).loads = s.loads := by
  unfold trimCache
  dsimp only
  split <;> rfl

theorem reserveWaiting_loads (l : Load) (s : State) :
    (reserveWaiting l s).loads = s.loads.map (fun x => if x.tok == l.tok then l else x) :=
  foldl_frame State.loads trimCache_loads _ _

/-- Where every load is being copied, none has steps to make. -/
theorem stepLoads_of_copying {n : Nat} (hall : ∀ x ∈ s.loads, x.st = .copying) : stepLoads n s = s := by
  have hnone : s.loads.find? (fun l => l.st != .copying) = none :=
    List.find?_eq_none.mpr fun x hx => by simp [hall x hx]
  cases n with
  | zero => rfl
  | succ n => simp only [stepLoads, hnone]

/-- The first load that waits makes its steps; where the others are being copied then, that is all. -/
theorem runLoads_of_last (hfirst : s.loads.find? (fun x => x.st != .copying) = some l) (hst : l.st ≠ .draining)
    (hall : ∀ x ∈ (makeSteps l s).loads, x.st = .copying) : runLoads s = makeSteps l s := by
  obtain ⟨n, hn⟩ := Nat.exists_eq_succ_of_ne_zero
    (List.length_pos_of_mem (List.mem_of_find?_eq_some hfirst)).ne'
  have hdrain : (l.st == .draining) = false := beq_eq_false_iff_ne.mpr hst
  rw [runLoads, hn]
  simp only [stepLoads, hfirst, hdrain, Bool.false_eq_true, if_false]
  exact stepLoads_of_copying hall

theorem makeSteps_of_fit {img : Image} {bs : List LcBind} {cs : List (Nat × Nat × Nat)} (hst : l.st ≠ .waitFit)
    (hfit : stepsOf l s = .fit img bs cs) : makeSteps l s
      = reserveWaiting { l with st := .copying, img := img, binds := bs, copies := cs } s := by
  have hload : (l.st == .waitFit) = false := beq_eq_false_iff_ne.mpr hst
  simp only [makeSteps, hfit, hload, Bool.false_eq_true, if_false]

theorem stepsOf_of_inPlace (hrep : l.replace = some (g, 1)) (hp : s.progs.get? g = some p) :
    stepsOf l s = replaceCheck (asFree g p s) l.tenant p l.params := by
  simp only [stepsOf, hrep, hp, beq_self_eq_true, if_true]

/-- A load as it waits once its program's jobs have drained. -/
def drained (l : Load) : Load := { l with st := .waitLoad }

/-- What the end of the drain makes of a load. -/
def afterDrain (l x : Load) : Load := if x.tok == l.tok then drained x else x

theorem endDrain_loads (l : Load) (s : State) : (endDrain l s).loads = s.loads.map (afterDrain l) := rfl

theorem copying_or_of_all (hothers : s.loads.all (fun x => x.tok == l.tok || x.st == .copying) = true) {x : Load}
    (hx : x ∈ s.loads) : x.tok = l.tok ∨ x.st = .copying := by
  simpa using List.all_eq_true.mp hothers x hx

section

variable (hothers : s.loads.all (fun x => x.tok == l.tok || x.st == .copying) = true)

include hothers

/-- Alone in waiting, the load is the first that waits after the drain. -/
theorem find?_endDrain_loads (honly : s.loads.filter (fun x => x.tok == l.tok) = [l]) :
    (endDrain l s).loads.find? (fun x => x.st != .copying) = some (drained l) := by
  have hwaits : ∀ x ∈ s.loads, ((fun x => x.st != .copying) ∘ afterDrain l) x = (x.tok == l.tok) := by
    intro x hx
    by_cases htok : x.tok = l.tok
    · simp [afterDrain, drained, htok]
    · simp [afterDrain, htok, (copying_or_of_all hothers hx).resolve_left htok]
  have hself : afterDrain l l = drained l := if_pos (beq_self_eq_true _)
  rw [endDrain_loads, List.find?_map, ← List.head?_filter, List.filter_congr hwaits, honly, List.head?_cons,
    Option.map_some, hself]

/-- Once its copying has begun too, every load is being copied. -/
theorem copying_of_mem_reserveWaiting {c : Load} (hst : c.st = .copying) (htok : c.tok = l.tok) :
    ∀ x ∈ (reserveWaiting c (endDrain l s)).loads, x.st = .copying := by
  intro x hx
  rw [reserveWaiting_loads, endDrain_loads, List.map_map, htok] at hx
  obtain ⟨y, hy, rfl⟩ := List.mem_map.mp hx
  by_cases hy' : y.tok = l.tok
  · simp [afterDrain, drained, hy', hst]
  · simp [afterDrain, hy', (copying_or_of_all hothers hy).resolve_left hy']

/-- A MODE 1 image that fits, alone in waiting, is copied on what its program gave up. -/
theorem runLoads_endDrain_of_fit {img : Image} {bs : List LcBind} {cs : List (Nat × Nat × Nat)}
    (honly : s.loads.filter (fun x => x.tok == l.tok) = [l]) (hrep : l.replace = some (g, 1))
    (hp : s.progs.get? g = some p)
    (hfit : replaceCheck (asFree g p (endDrain l s)) l.tenant p l.params = .fit img bs cs) :
    runLoads (endDrain l s)
      = reserveWaiting { l with st := .copying, img := img, binds := bs, copies := cs } (endDrain l s) := by
  have hmake : makeSteps (drained l) (endDrain l s)
      = reserveWaiting { l with st := .copying, img := img, binds := bs, copies := cs } (endDrain l s) :=
    makeSteps_of_fit (l := drained l) (by simp [drained])
      ((stepsOf_of_inPlace (l := drained l) (s := endDrain l s) hrep hp).trans hfit)
  rw [← hmake]
  refine runLoads_of_last (find?_endDrain_loads hothers honly) (by simp [drained]) ?_
  rw [hmake]
  exact copying_of_mem_reserveWaiting hothers rfl rfl

end

theorem execProgReplaceDrained_of_drained (hl : loadOf s g .draining = some l) (hbusy : progBusy s g = false)
    (hsch : s.fwDown fwSch = false) : execProgReplaceDrained g s = .next (runLoads (endDrain l s)) := by
  simp only [execProgReplaceDrained, hl, hbusy, hsch, Bool.or_self, Bool.false_eq_true, if_false]

/-! ## The switch (R138) -/

/-- The state in which the new image takes over: its weights are copied and the standby bank is free. -/
def switchFrom (g : Nat) (p : Prog) (l : Load) (s : State) : State :=
  if p.sb = .free then copyWeights l s else freeCand g 5 STATE (copyWeights l s)

/-- The program with its new image; the former one stays while jobs of state `f` run on it. -/
def switchProg (g : Nat) (p : Prog) (l : Load) (f : State) : State :=
  let used := f.jobs.any (fun _ j => j.prog == g && j.inFlight && j.image == p.imageNo)
  modProg g (fun q => { q with
    img := l.img, imageNo := f.sch.nImages, regBase := l.regBase, regSize := l.regSize, batch := l.batch,
    binds := l.binds, old := if used = true then p.old ++ [(⟨p.imageNo, p.img, p.binds⟩ : OldImg)] else p.old,
    live := 0, gen := (q.gen + 1) % 2 ^ 32, expected := l.img.golden, gNext := 0, replacing := false }) f

theorem execProgReplaceSwitch_of_copied (hp : s.progs.get? g = some p) (hl : loadOf s g .copying = some l)
    (hsch : s.fwDown fwSch = false) : execProgReplaceSwitch g s = .next
      (let r := switchProg g p l (switchFrom g p l s)
       complete l.tok OK (bindData g l.img l.binds)
        (evProg g p.tenant 4 0xFF 0xFF 0xFF (fillResident g 0 { r with
          loads := r.loads.filter (fun x => x.tok != l.tok),
          sch := { r.sch with nImages := r.sch.nImages + 1 } }))) := by
  simp only [execProgReplaceSwitch, hp, hl, hsch, Bool.false_eq_true, if_false, beq_iff_eq]
  rfl

end

/-- Settles O25: PROG_REPLACE is its effect on the state with its reply; the end of the drain lets the waiting loads
make their steps, and alone in waiting a MODE 1 image that fits is copied. When it is judged, what counts as free for
it, and how long the former image stays are the model's reading (log 19). -/
theorem programReplacement : Obligations.ProgramReplacement := by
  have hprogs : ∀ {h k s} {p : Prog}, s.progs.get? k = some p →
      (acceptedReply 0x0204 h 28 s).2.progs.get? k = some p := fun hp => by rwa [acceptedReply_progs]
  refine ⟨fun h ps s p hp ht => ⟨fun hm h1 => ?drains, fun hm h1 => ?denied, fun hm hw => ?waits, fun hm hw =>
    ⟨fun img bs cs hfit => ?fit, fun st d hfail => ?fail⟩⟩, fun s g p l hp hsch => ⟨fun hl hbusy =>
    ⟨execProgReplaceDrained_of_drained hl hbusy hsch, fun img bs cs hrep honly hothers hfit => ?fits⟩,
    fun hl => execProgReplaceSwitch_of_copied hp hl hsch⟩⟩
  case drains =>
    exact (execProgReplace_of_taken ht).trans (by rw [cProgReplace_effect_of_drains (hprogs hp) hm
      ((acceptedReply_step1Ok ..).trans h1), acceptedReply_loads, acceptedReply_progs])
  case denied =>
    exact (execProgReplace_of_taken ht).trans (by rw [cProgReplace_effect_of_denied (hprogs hp) hm
      ((acceptedReply_step1Ok ..).trans h1)])
  case waits =>
    exact (execProgReplace_of_taken ht).trans (by rw [cProgReplace_effect_of_waits (hprogs hp) hm
      ((acceptedReply_waits ..).trans hw), acceptedReply_loads, acceptedReply_progs])
  case fit =>
    exact (execProgReplace_of_taken ht).trans (by rw [cProgReplace_effect_of_fit (hprogs hp) hm
      ((acceptedReply_waits ..).trans hw) hfit, acceptedReply_dramRead, acceptedReply_progs])
  case fail =>
    exact (execProgReplace_of_taken ht).trans (by rw [cProgReplace_effect_of_fail (hprogs hp) hm
      ((acceptedReply_waits ..).trans hw) hfail])
  case fits =>
    exact (execProgReplaceDrained_of_drained hl hbusy hsch).trans
      (congrArg _ (runLoads_endDrain_of_fit hothers honly hrep hp hfit))

end Sys2Proof.Machine
end

section
/-! SUPPORT. The checker's services (Table 3 of chapter 12) and invasive debugging (R339, R340, R362) as equations. -/

namespace Sys2Proof.Machine

/-! ## Services -/

section

variable {s : State}

/-- While the checker runs a service has its effect. -/
theorem service_of_on (hon : s.checkerOn = true) (f : State → State) : service f s = .next (f s) := by
  rw [service, if_pos hon]

theorem judge_of_fail {id : Nat} {j : Job} (hj : s.jobs.get? id = some j) :
    judge id false s = endJob id INVALID_OUTPUT 0 1 s := by
  simp only [judge, hj, Bool.not_false, Bool.true_or, if_true]

theorem judge_of_frame {id : Nat} {j : Job} (hj : s.jobs.get? id = some j) (hrole : j.role = .user) :
    judge id true s = passJob id true s := by
  simp only [judge, hj, Job.isEval, hrole, Bool.not_true, Bool.and_false, Bool.or_self, Bool.false_eq_true, if_false]

/-- A golden input's output that passes is accepted, except while DEBUG is in force (R107, R339). -/
theorem judge_of_eval {id i : Nat} {j : Job} (hj : s.jobs.get? id = some j) (hrole : j.role = .eval i)
    (hdebug : s.skk.debug = false) :
    judge id true s = evalPassed j.prog i (frameSig j) (finishJob id OK 0 0 0 s) := by
  simp only [judge, hj, hrole, hdebug, Bool.not_true, Bool.false_and, Bool.or_self, Bool.false_eq_true, if_false]

section

variable (hon : s.checkerOn = true)

include hon

theorem execSkNext_of_request {id : Nat} {t : List Nat} {j : Job} {p : Prog} (hq : s.skk.chkq = id :: t)
    (hj : s.jobs.get? id = some j) (hp : s.progs.get? j.prog = some p) : execSkNext s = .next
      (skResult 0 (leBytes 2 j.prog ++ leBytes 1 p.chkId ++ leBytes 4 j.jobseq ++ leBytes 4 j.gen
          ++ extents j.outs ++ extents j.ins)
        (modJob id (fun j => { j with chk := .taken }) (fillChk { s with skk := { s.skk with chkq := t } }))) := by
  rw [execSkNext, service_of_on hon]
  simp only [hq, hj, hp, modSkk]

theorem execSkVerdict_of_found {g n id : Nat} {j : Job} (pass : Bool) (hfind : s.jobs.cells.find? (fun c =>
      c.2.prog == g && c.2.jobseq == n && underCheck c.2) = some (id, j)) :
    execSkVerdict g n pass s = .next (judge id pass s) := by
  rw [execSkVerdict, service_of_on hon]
  simp only [hfind]

/-! ### READ -/

section

variable {a n dst : Nat}

theorem execSkRead_of_outside (hr : (readable s).find? (fun r => r.2.1 ≤ a && a + n ≤ r.2.1 + r.2.2) = none) :
    execSkRead a n dst s = .next (skResult 1 [] (violate (accDev true 0xFE) false 2 a s)) := by
  rw [execSkRead, service_of_on hon]
  simp only [hr]

variable {t b m : Nat} (hr : (readable s).find? (fun r => r.2.1 ≤ a && a + n ≤ r.2.1 + r.2.2) = some (t, b, m))

include hr

theorem execSkRead_of_refused (hwhy : skReason s t a n ≠ 0) : execSkRead a n dst s = .next
    (skResult 1 [] (violate (accDev true t) false (skReason s t a n) a s)) := by
  rw [execSkRead, service_of_on hon]
  simp only [hr, bne_iff_ne.mpr hwhy, if_true]

theorem execSkRead_of_permitted (hwhy : skReason s t a n = 0) (hlen : n ≤ 65536) (hdst : dst + n ≤ 2 ^ 21) :
    execSkRead a n dst s = .next (let d := checkedRead (accDev true t) a n s
      skResult 0 [] { d.2 with skk := { d.2.skk with sram := d.2.skk.sram.writeN dst d.1 } }) := by
  have hroom : (decide (65536 < n) || decide (2 ^ 21 < dst + n)) = false := by simpa [hlen] using hdst
  rw [execSkRead, service_of_on hon]
  simp only [hr, hwhy, hroom, bne_self_eq_false, Bool.false_eq_true, if_false, modSkk]

end

/-! ### PATH (R323) -/

section

variable {grid thr : Nat} {rs : List Corridor}

theorem execSkPath_of_unknown (hf : (pathGrids s).find? (fun g => g.2.data == grid) = none) :
    execSkPath grid thr rs s = .next (skResult 1 [] s) := by
  rw [execSkPath, service_of_on hon]
  simp only [hf]

theorem execSkPath_of_grid (hsome : rs.isEmpty = false) (hlen : rs.length ≤ 32) {t : Nat} {g : GridRef}
    (hf : (pathGrids s).find? (fun g => g.2.data == grid) = some (t, g)) : execSkPath grid thr rs s = .next
      (let n := g.gx * g.gy
       let d := checkedRead (accDev true t) g.data (ZqSrc.dataBytes ⟨g.data, g.scale, n⟩) s
       let c := checkedRead (accDev true t) g.scale (ZqSrc.blocks ⟨g.data, g.scale, n⟩ * 64) d.2
       let m := checkedRead (accDev true t) g.mask n c.2
       let r := (List.range n).foldl (pathCell g ⟨n, d.1, c.1⟩ m.1 thr rs) (0, 0, 0, f32inf)
       skResult 0 (leBytes 4 r.1 ++ leBytes 4 r.2.1 ++ leBytes 4 r.2.2.1 ++ leBytes 4 r.2.2.2) m.2) := by
  have hcount : (rs.isEmpty || decide (32 < rs.length)) = false := by simp [hsome, hlen]
  rw [execSkPath, service_of_on hon]
  simp only [hf, hcount, Bool.false_eq_true, if_false]

end

/-! ### Displays (R324) -/

theorem execSkDispreg_of_region {d r : Nat} (x y w h : Nat) (hd : d < s.nDisp) (hr : r ≤ 3) :
    execSkDispreg d r x y w h s = .next (skResult 0 []
      { s with skk := { s.skk with regions := s.skk.regions.set (d * 4 + r) ⟨x, y, w, h⟩ } }) := by
  have hrange : (decide (s.nDisp ≤ d) || decide (3 < r)) = false := by simp [hd, hr]
  rw [execSkDispreg, service_of_on hon]
  simp only [hrange, Bool.false_eq_true, if_false, modSkk]

theorem execSkDispcrc_of_crc {d r c : Nat} (hc : s.skk.crcs.get? (d * 4 + r) = some c) :
    execSkDispcrc d r s = .next (skResult 0 (leBytes 8 c ++ leBytes 4 (s.disp d).frames) s) := by
  rw [execSkDispcrc, service_of_on hon]
  simp only [hc]

end

end

/-! ## Debugging -/

section

variable {s : State}

/-! ### Attaching -/

section

variable {kind inst : Nat} {sec : Bool} (hup : s.portsUp = true)

include hup

theorem execDebuggerAttach_of_disabled (hinv : dbgInvasive s sec = false) : execDebuggerAttach kind inst sec s = .next
    (violate (accDev sec 0xFE) false 5 0 s) := by
  simp only [execDebuggerAttach, hup, hinv, Bool.not_true, Bool.not_false, Bool.false_eq_true, if_false, if_true]

/-- A debugger that attaches to a unit that sets DEBUG does so once, in READY, RUN or DEGRADED (R339). -/
theorem execDebuggerAttach_of_enabled (hinv : dbgInvasive s sec = true) : execDebuggerAttach kind inst sec s = .next
    (let t := { s with fws := { s.fws with attached := (kind, inst, sec) :: s.fws.attached } }
     if (dbgSets kind inst && (s.dev.st == .ready || s.running) && !s.skk.debug) = true then
       offerBoth evDebugOp (leBytes 1 kind ++ leBytes 1 inst ++ leBytes 1 (b2n sec) ++ [0x00] ++ leBytes 4 s.time.ns)
         { t with skk := { s.skk with debug := true } }
     else t) := by
  simp only [execDebuggerAttach, hup, hinv, Bool.not_true, Bool.false_eq_true, if_false]
  exact (apply_ite Host.Outcome.next _ _ _).symm

end

/-! ### Actions in SERVICE (R340) -/

section

variable {g lc slot pos off : Nat} {bs : List Byte} {p : Prog} (hup : s.portsUp = true)
  (hp : s.progs.get? g = some p) (hinv : dbgInvasive s (s.ten p.tenant).secure = true)

include hup hp hinv

/-- Copy B refuses every access. -/
theorem execDebugAction_of_copyB (hsvc : s.dev.st = .service) :
    execDebugAction (.slot g lc slot pos true) off bs s = .next s := by
  simp [execDebugAction, hup, hp, hinv, hsvc]

variable (hreach : slotReached s p lc slot false = true)

include hreach

/-- An action on a slot of copy A that the debugger reaches writes its tile. -/
theorem execDebugAction_of_slot_single (hpair : p.img.paired = false) :
    execDebugAction (.slot g lc slot pos false) off bs s = .next (slotWrite p lc slot false off bs s) := by
  simp [execDebugAction, hup, hp, hinv, hreach, hpair]

/-- A pair's action is logged for copy B while the log has room. -/
theorem execDebugAction_of_slot_pair (hsvc : s.dev.st = .service) (hpair : p.img.paired = true)
    (hlog : (s.skk.replay.getD g []).length < 4096) :
    execDebugAction (.slot g lc slot pos false) off bs s = .next
      (modSkk (fun k => { k with replay := k.replay.set g (s.skk.replay.getD g [] ++ [⟨lc, slot, pos, off, bs⟩]) })
        (slotWrite p lc slot false off bs s)) := by
  simp [execDebugAction, hup, hp, hinv, hreach, hpair, hsvc, hlog]

end

/-- The replay of an entry writes the slot of copy B that runs its schedule, and takes it from the log (R126, R340). -/
theorem execDebugAction_of_replay {g : Nat} {p : Prog} {e : DbgLog} {l : List DbgLog} (off : Nat) (bs : List Byte)
    (hup : s.portsUp = true) (hp : s.progs.get? g = some p) (hlog : s.skk.replay.getD g [] = e :: l) :
    execDebugAction (.replay g) off bs s = .next
      (modSkk (fun k => { k with replay := if l.isEmpty then k.replay.erase g else k.replay.set g l })
        (slotWrite p e.lc (mirrorSlot p e.lc e.slot) true e.off e.bytes s)) := by
  simp [execDebugAction, hup, hp, hlog]

/-- Of Skink's cores a debugger reaches core 0 in SERVICE, in the secure world (R340, R362). -/
theorem execDebugAction_of_skink {off : Nat} {bs : List Byte} (hup : s.portsUp = true)
    (hinv : dbgInvasive s true = true) (hatt : dbgAttached s 4 0 true = true) :
    execDebugAction (.skink 0) off bs s = .next { s with skk := { s.skk with sram := s.skk.sram.writeN off bs } } := by
  simp [execDebugAction, hup, hinv, hatt, modSkk]

end

/-- Settles O49: each service and each action is its effect on the state. The result as an error byte and its data,
READ's limits and the world of Skink's accesses are the model's reading (log 25). -/
theorem skinkServicesAndDebug : Obligations.SkinkServicesAndDebug := by
  refine fun s => ⟨fun hon => ⟨service_of_on hon _, fun id t j p => execSkNext_of_request hon,
    fun g n pass id j => execSkVerdict_of_found hon pass,
    fun id j hj => ⟨judge_of_fail hj, judge_of_frame hj, fun i => judge_of_eval hj⟩,
    fun a n dst => ⟨execSkRead_of_outside hon, fun t b m hr => ⟨execSkRead_of_refused hon hr,
      execSkRead_of_permitted hon hr⟩⟩,
    fun grid thr rs hsome hlen => ⟨execSkPath_of_unknown hon, fun t g => execSkPath_of_grid hon hsome hlen⟩,
    fun d r x y w h => execSkDispreg_of_region hon x y w h, fun d r c => execSkDispcrc_of_crc hon,
    service_of_on hon _, service_of_on hon _, fun d => service_of_on hon _⟩,
    fun kind inst sec hup => ⟨execDebuggerAttach_of_disabled hup, execDebuggerAttach_of_enabled hup⟩,
    fun hsvc hup => ⟨fun g lc slot pos off bs p hp hinv => ⟨fun hreach =>
      ⟨execDebugAction_of_slot_single hup hp hinv hreach, execDebugAction_of_slot_pair hup hp hinv hreach hsvc⟩,
      execDebugAction_of_copyB hup hp hinv hsvc⟩, fun g off bs p e l hp hlog => execDebugAction_of_replay off bs hup hp hlog,
    fun off bs hinv hatt => execDebugAction_of_skink hup hinv hatt⟩⟩

end Sys2Proof.Machine
end

section
/-! SUPPORT. Work on the SRAM that a job's program holds (R115, R207) and the halo rows (R149, R150, R152, R154). -/

namespace Sys2Proof.Machine

section

variable {s : State} {job cl unit off : Nat} {bs : List Byte}

/-- Within the granules that the job's program holds, a write stores its bytes (R115). -/
theorem sramWrite_of_held (hfit : off + bs.length ≤ (sramSpan s job cl unit).2) :
    sramWrite job cl unit off bs s
      = modCl cl (fun c => { c with sram := c.sram.writeN ((sramSpan s job cl unit).1 + off) bs }) s := by
  rw [sramWrite, if_pos hfit]

/-- Past them it fails its check (R207). -/
theorem sramWrite_of_not_held (hout : (sramSpan s job cl unit).2 < off + bs.length) :
    sramWrite job cl unit off bs s = sramViolate job true off s := by
  rw [sramWrite, if_neg (Nat.not_le_of_lt hout)]

end

section

variable {s : State} {job idx copy step waitUs : Nat} {j : Job} {d : HaloDecl}
  (hj : s.jobs.get? job = some j) (hd : haloDecl s j idx = some d) (hrun : j.st = .running)

include hj hd hrun

/-- A producer with a space credit appends its entry and is charged its stall (R150, R154). -/
theorem execHaloEntryWrite_of_credit (rows : List Byte) (hspace : (haloBuf s job idx copy d.depth).space ≠ 0) :
    execHaloEntryWrite job idx copy step waitUs rows s = .next
      (let b := haloBuf s job idx copy d.depth
       modCl (slotCluster s j copy d.producer) (fun c => { c with haloSw := satAdd 0xFFFFFFFF c.haloSw waitUs })
        (setHalo { b with
          entries := b.entries ++ [(step % 65536, jobTag j, rows)], space := b.space - 1 } s)) := by
  simp [execHaloEntryWrite, hj, hd, hrun, hspace]

/-- The oldest entry is judged once the consumer's stall is counted: STEP and JOBTAG as expected, its rows are copied
and its credit returns; else the job ends (R150, R152, R154). -/
theorem execHaloEntryRead_of_entry (unit off : Nat) {st tag : Nat} {rows : List Byte}
    {t : List (Nat × Nat × List Byte)}
    (hb : (haloBuf s job idx copy d.depth).entries = (st, tag, rows) :: t) :
    execHaloEntryRead job idx copy step waitUs unit off s = .next
      (let b := haloBuf s job idx copy d.depth
       let cl := slotCluster s j copy d.consumer
       let s1 := modCl cl (fun c => { c with haloDw := satAdd 0xFFFFFFFF c.haloDw waitUs }) s
       if st = step % 65536 ∧ tag = jobTag j then
         sramWrite job cl unit off rows (setHalo { b with entries := t, space := b.space + 1 } s1)
       else endJob job FAULT 2 0 (modCl cl (fun c => { c with stale := true }) s1)) := by
  simp only [execHaloEntryRead, hj, hd, hb, hrun, bne_self_eq_false, Bool.false_eq_true, if_false,
    Bool.and_eq_true, beq_iff_eq]
  exact (apply_ite Host.Outcome.next _ _ _).symm

end

/-- Settles O30: a row with its credit or entry is its effect on the state, and a write to SRAM is judged by the span
that the job's program holds. JOBTAG as the low 8 bits of the job's number in the order of dispatch is the model's
reading of R149 (log 17); granules are addressed from 0 (log 11). -/
theorem haloCreditsAndStaleRows : Obligations.HaloCreditsAndStaleRows := by
  refine ⟨fun job idx copy step waitUs j d s hj hd hrun => ⟨fun rows => execHaloEntryWrite_of_credit hj hd hrun rows,
    fun unit off rows t hb => ?fresh, fun unit off st tag rows t hb hstale => ?stale⟩,
    fun job cl unit off bs s => ⟨sramWrite_of_held, sramWrite_of_not_held⟩⟩
  case fresh =>
    exact (execHaloEntryRead_of_entry hj hd hrun unit off hb).trans (congrArg _ (if_pos ⟨rfl, rfl⟩))
  case stale =>
    exact (execHaloEntryRead_of_entry hj hd hrun unit off hb).trans
      (congrArg _ (if_neg (not_and_or.mpr hstale)))

end Sys2Proof.Machine
end

section
/-! SUPPORT. Colander calls (R160, R164, R165, R168) and the size of a call's output area. -/

namespace Sys2Proof.Machine

/-! ## The queue of a die (R168) -/

section

variable {s : State} {job cl : Nat} {desc : List Byte} {j : Job} {r : ClCall}
  (hj : s.jobs.get? job = some j) (hrun : j.st = .running)

include hj hrun

/-- A call waits behind a running call, unless it is latency-critical and the running one is not. -/
theorem execColanderCall_of_waits
    (hwaits : ∀ r, (s.cld (dieOf cl)).running = some r → (j.lc && !r.lc) = false) :
    execColanderCall job cl desc s = .next (let c := s.cld (dieOf cl)
      s.setCld (dieOf cl) (startCall { c with queue := c.queue ++ [⟨job, cl, j.lc, desc⟩] })) := by
  cases hr : (s.cld (dieOf cl)).running with
  | none => simp [execColanderCall, hj, hrun, hr]
  | some r => simp [execColanderCall, hj, hrun, hr, hwaits r hr]

/-- A latency-critical call takes the engine from a best-effort one, which keeps its place. -/
theorem execColanderCall_of_preempts (hr : (s.cld (dieOf cl)).running = some r) (hlc : (j.lc && !r.lc) = true) :
    execColanderCall job cl desc s = .next (let c := s.cld (dieOf cl)
      s.setCld (dieOf cl) (startCall { c with
        queue := c.queue ++ [⟨job, cl, j.lc, desc⟩], running := none, saved := some r, preempted := true,
        preempts := satAdd 0xFFFF c.preempts 1 })) := by
  simp only [execColanderCall, hj, hrun, hr, hlc, bne_self_eq_false, Bool.false_eq_true, if_false, if_true]

end

/-! ## The end of a call -/

theorem jobImage_congr {s t : State} (hp : t.progs = s.progs) (j : Job) : jobImage t j = jobImage s j := by
  simp only [jobImage, hp]

theorem jobNfmode_congr {s t : State} (hp : t.progs = s.progs) (j : Job) : jobNfmode t j = jobNfmode s j := by
  simp only [jobNfmode, jobImage_congr hp]

theorem sramSpan_congr {s t : State} (hj : t.jobs = s.jobs) (hp : t.progs = s.progs) (job cl unit : Nat) :
    sramSpan t job cl unit = sramSpan s job cl unit := by
  simp only [sramSpan, hj, jobImage_congr hp]

@[simp] theorem State.setCld_jobs {die : Nat} {c : Colander} {s : State} : (s.setCld die c).jobs = s.jobs := by
  simp only [State.setCld]
  split <;> rfl

@[simp] theorem State.setCld_progs {die : Nat} {c : Colander} {s : State} : (s.setCld die c).progs = s.progs := by
  simp only [State.setCld]
  split <;> rfl

@[simp] theorem State.setCld_cl {die : Nat} {c : Colander} {s : State} (n : Nat) : (s.setCld die c).cl n = s.cl n := by
  simp only [State.setCld]
  split <;> rfl

/-- Bytes at `a`, as addresses from 2^48 on name them (log 11), of the cluster SRAM that the job of a call holds. -/
def callSram (s : State) (r : ClCall) (a n : Nat) : List Byte :=
  (s.cl r.cl).sram.readN ((sramSpan s r.job r.cl 13).1 + (a - 2 ^ 48)) n

/-- An input in held cluster SRAM is read whatever the Colander of a die does, and the read changes nothing. -/
theorem cdRead_setCld {s : State} {r : ClCall} {a n : Nat} (ha : 2 ^ 48 ≤ a)
    (hfit : a - 2 ^ 48 + n ≤ (sramSpan s r.job r.cl 13).2) (die : Nat) (c : Colander) :
    cdRead r.job r.cl a n (s.setCld die c) = (callSram s r a n, s.setCld die c) := by
  have hspan : sramSpan (s.setCld die c) r.job r.cl 13 = sramSpan s r.job r.cl 13 :=
    sramSpan_congr State.setCld_jobs State.setCld_progs ..
  simp only [cdRead, if_pos ha, workBytes, hspan, if_pos hfit, State.setCld_cl, callSram]

/-- The state once a die's running call is counted and its next call has started. -/
def callEnded (die : Nat) (s : State) : State :=
  let c := s.cld die
  s.setCld die (startCall { c with running := none, calls := (c.calls + 1) % 65536 })

/-- What a call computes from plain boxes and scores in cluster SRAM (R161 to R165). -/
def plainRun (s : State) (r : ClCall) : List Byte × Nat :=
  cdRun r.desc (callSram s r (u64 r.desc 56) (cdN r.desc * 4 * cdElem r.desc)) []
    (callSram s r (u64 r.desc 72) (cdN r.desc * cdC r.desc * cdElem r.desc)) []

/-- A call with plain boxes and a fixed threshold ends with its output, or with its job under NFMODE 0 (R165). -/
theorem execColanderCallDone_of_plain {s : State} {die : Nat} {r : ClCall} {j : Job}
    (hr : (s.cld die).running = some r) (hj : s.jobs.get? r.job = some j)
    (hplain : cdMode r.desc 0 = false) (hfixed : cdMode r.desc 4 = false)
    (hba : 2 ^ 48 ≤ u64 r.desc 56) (hsa : 2 ^ 48 ≤ u64 r.desc 72)
    (hbox : u64 r.desc 56 - 2 ^ 48 + cdN r.desc * 4 * cdElem r.desc ≤ (sramSpan s r.job r.cl 13).2)
    (hscore : u64 r.desc 72 - 2 ^ 48 + cdN r.desc * cdC r.desc * cdElem r.desc ≤ (sramSpan s r.job r.cl 13).2) :
    execColanderCallDone die s = .next (let o := plainRun s r
      if o.2 ≠ 0 ∧ jobNfmode s j = 0 then endJob r.job FAULT 1 0 (countNonfin r.cl 1 (callEnded die s))
      else jobWrite r.job r.cl (u64 r.desc 88) o.1 (countNonfin r.cl o.2 (callEnded die s))) := by
  have hthr : thrOk r.desc [] = true := by simp [thrOk, hfixed]
  simp only [execColanderCallDone, hr, hj, hplain, hfixed, State.setCld_jobs, cdRead_setCld hba hbox,
    cdRead_setCld hsa hscore, hthr, jobNfmode_congr State.setCld_progs, plainRun, callEnded, Option.isNone_some,
    Bool.not_true, Bool.false_eq_true, if_false, Bool.and_eq_true, bne_iff_ne, beq_iff_eq]
  exact (apply_ite Host.Outcome.next _ _ _).symm

/-! ## The output area (R164) -/

@[simp] theorem length_leBytes (n v : Nat) : (leBytes n v).length = n := by
  induction n generalizing v with
  | zero => rfl
  | succ n ih => simp [leBytes, ih]

@[simp] theorem length_zeros (n : Nat) : (zeros n).length = n := List.length_replicate

theorem leNat_leBytes (n v : Nat) : leNat (leBytes n v) = v % 256 ^ n := by
  induction n generalizing v with
  | zero => simp [leBytes, leNat, Nat.mod_one]
  | succ n ih => rw [leBytes, leNat, ih, pow_succ', Nat.mod_mul, BitVec.toNat_ofNat]

/-- Each box has the four values of its corners, whatever decodes and clips it. -/
theorem cdBox_length (d boxes anch : List Byte) (n : Nat) : (cdBox d boxes anch n).length = 4 := by
  have hdecode : (cdDecode d boxes anch n).length = 4 := by
    simp only [cdDecode]; split <;> rfl
  simp only [cdBox]
  split
  · rw [List.length_mapIdx, hdecode]
  · exact hdecode

/-- A box of four values fills one record. -/
theorem cdRecord_length {x : Surv} (hx : x.box.length = 4) : (cdRecord x).length = 32 := by
  simp [cdRecord, List.length_flatMap, hx]

/-- Survivors that each have a box of four values. -/
def Boxed (l : List Surv) : Prop := ∀ x ∈ l, x.box.length = 4

theorem Boxed.candidate {d boxes anch scores : List Byte} {a : ColAcc} (ha : Boxed a.surv) (n : Nat) :
    Boxed (cdCand d boxes anch scores a n).surv := by
  simp only [cdCand]
  split
  · exact ha
  · split
    · exact ha
    · refine List.forall_mem_append.mpr ⟨ha, fun x hx => ?_⟩
      obtain ⟨p, -, rfl⟩ := List.mem_map.mp hx
      exact cdBox_length d boxes anch n

theorem Boxed.candidates {d boxes anch scores : List Byte} (ns : List Nat) {a : ColAcc} (ha : Boxed a.surv) :
    Boxed (ns.foldl (cdCand d boxes anch scores) a).surv := by
  induction ns generalizing a with
  | nil => exact ha
  | cons n ns ih => exact ih (ha.candidate n)

theorem survInsert_perm (x : Surv) (l : List Surv) : (survInsert x l).Perm (x :: l) := by
  induction l with
  | nil => exact .refl _
  | cons y t ih =>
    rw [survInsert]
    split
    · exact .refl _
    · exact (ih.cons y).trans (.swap x y t)

/-- Sorting loses and adds no survivor. -/
theorem survSort_perm (l : List Surv) : (survSort l).Perm l := by
  induction l with
  | nil => exact .refl _
  | cons x t ih => exact (survInsert_perm x _).trans (ih.cons x)

/-- A kept box of its class, or of any under class-agnostic suppression, overlaps `x` beyond the limit (R163). -/
def cdSuppressed (d thr : List Byte) (x : Surv) (kept : List Surv) : Bool :=
  (kept.filter (fun k => cdMode d 1 || k.cls == x.cls)).any
    (fun k => flt (if cdMode d 4 then u32 thr (4 * x.cls) else u32 d 20) (cdIou x.box k.box))

/-- As many boxes of its class as a call may keep are kept (R163). -/
def cdClassFull (d : List Byte) (x : Surv) (kept : List Surv) : Bool :=
  !cdMode d 1 && u16 d 8 ≤ (kept.filter (fun k => cdMode d 1 || k.cls == x.cls)).length

theorem cdWalk_cons (d thr : List Byte) (x : Surv) (t kept : List Surv) (sup cut : Nat) :
    cdWalk d thr (x :: t) kept sup cut =
      if cdMaxKeep d ≤ kept.length then (kept, sup, cut + t.length + 1)
      else if cdSuppressed d thr x kept then cdWalk d thr t kept (sup + 1) cut
      else if cdClassFull d x kept then cdWalk d thr t kept sup (cut + 1)
      else cdWalk d thr t (x :: kept) sup cut := rfl

/-- The walk keeps survivors only, and no more than MAXKEEP of them (R163). -/
theorem cdWalk_kept {d thr : List Byte} (l : List Surv) {kept : List Surv} (sup cut : Nat) (hl : Boxed l)
    (hkept : Boxed kept) (hlen : kept.length ≤ cdMaxKeep d) :
    Boxed (cdWalk d thr l kept sup cut).1 ∧ (cdWalk d thr l kept sup cut).1.length ≤ cdMaxKeep d := by
  induction l generalizing kept sup cut with
  | nil => exact ⟨hkept, hlen⟩
  | cons x t ih =>
    obtain ⟨hx, ht⟩ := List.forall_mem_cons.mp hl
    rw [cdWalk_cons]
    split
    case isTrue hfull => exact ⟨hkept, hlen⟩
    case isFalse hroom =>
      split
      · exact ih _ _ ht hkept hlen
      · split
        · exact ih _ _ ht hkept hlen
        · exact ih _ _ ht (List.forall_mem_cons.mpr ⟨hx, hkept⟩) (Nat.lt_of_not_le hroom)

/-- The candidates' counts and survivors, as decoding and thresholding leave them. -/
def cdSurvivors (d boxes anch scores : List Byte) : ColAcc :=
  (List.range (cdN d)).foldl (cdCand d boxes anch scores) ⟨0, 0, 0, []⟩

/-- The walk of a call over its best TOPK survivors. -/
def cdOutcome (d boxes anch scores thr : List Byte) : List Surv × Nat × Nat :=
  cdWalk d thr ((survSort (cdSurvivors d boxes anch scores).surv).take (u32 d 12)) [] 0 0

theorem cdOutcome_kept (d boxes anch scores thr : List Byte) :
    Boxed (cdOutcome d boxes anch scores thr).1 ∧ (cdOutcome d boxes anch scores thr).1.length ≤ cdMaxKeep d := by
  have hsurv : Boxed (cdSurvivors d boxes anch scores).surv := Boxed.candidates _ (List.forall_mem_nil _)
  have htop : Boxed ((survSort (cdSurvivors d boxes anch scores).surv).take (u32 d 12)) :=
    fun x hx => hsurv x ((survSort_perm _).mem_iff.mp (List.mem_of_mem_take hx))
  exact cdWalk_kept _ 0 0 htop (List.forall_mem_nil _) (Nat.zero_le _)

/-- The counts of the header after the first, and its 36 bytes of zeros (R164). -/
def cdCounts (d boxes anch scores thr : List Byte) : List Byte :=
  let a := cdSurvivors d boxes anch scores
  let w := cdOutcome d boxes anch scores thr
  leBytes 4 w.2.1 ++ leBytes 4 a.below ++ leBytes 4 a.degen
    ++ leBytes 4 ((survSort a.surv).length - ((survSort a.surv).take (u32 d 12)).length)
    ++ leBytes 4 w.2.2 ++ leBytes 4 a.nonfin ++ zeros 36

theorem cdCounts_length (d boxes anch scores thr : List Byte) : (cdCounts d boxes anch scores thr).length = 60 := by
  simp [cdCounts]

/-- The output area: how many boxes are kept, the rest of the header, a record for each box kept, and zeros in place of
the others. -/
theorem cdRun_area (d boxes anch scores thr : List Byte) :
    (cdRun d boxes anch scores thr).1 = let ks := (cdOutcome d boxes anch scores thr).1.reverse
      leBytes 4 ks.length ++ (cdCounts d boxes anch scores thr
        ++ (ks.flatMap cdRecord ++ zeros (32 * (cdMaxKeep d - ks.length)))) := by
  simp only [cdCounts, ← List.append_assoc]
  rfl

theorem records_length {ks : List Surv} (hks : Boxed ks) : (ks.flatMap cdRecord).length = 32 * ks.length := by
  induction ks with
  | nil => rfl
  | cons x t ih =>
    obtain ⟨hx, ht⟩ := List.forall_mem_cons.mp hks
    rw [List.flatMap_cons, List.length_append, cdRecord_length hx, ih ht, List.length_cons]
    omega

theorem cdRun_length (d boxes anch scores thr : List Byte) :
    (cdRun d boxes anch scores thr).1.length = 64 + 32 * cdMaxKeep d := by
  obtain ⟨hboxed, hmax⟩ := cdOutcome_kept d boxes anch scores thr
  have hrecords := records_length (ks := (cdOutcome d boxes anch scores thr).1.reverse)
    fun x hx => hboxed x (List.mem_reverse.mp hx)
  simp only [cdRun_area, List.length_append, length_leBytes, cdCounts_length, hrecords, length_zeros, List.length_reverse]
  omega

/-- The first four bytes are the number of boxes kept. -/
theorem cdRun_count_le (d boxes anch scores thr : List Byte) :
    leNat ((cdRun d boxes anch scores thr).1.take 4) ≤ cdMaxKeep d := by
  rw [cdRun_area, List.take_left' (length_leBytes 4 _), leNat_leBytes, List.length_reverse]
  exact (Nat.mod_le _ _).trans (cdOutcome_kept d boxes anch scores thr).2

/-- Settles O31: a call and its end are their effect on the state, and the area of a call follows from what the walk
keeps. Addresses from 2^48 on name cluster SRAM (log 11). -/
theorem colanderCallsAndRecords : Obligations.ColanderCallsAndRecords := by
  refine ⟨⟨fun job cl desc j s hj hrun => ⟨?idle, ?waits, fun r => execColanderCall_of_preempts hj hrun⟩,
    fun die r j s hr hj hplain hfixed hba hsa hbox hscore => ⟨fun hnf => ?writes, fun hnf hmode => ?stops⟩⟩,
    fun d boxes anch scores thr => ⟨cdRun_length .., cdRun_count_le ..⟩⟩
  case idle =>
    exact fun hidle => execColanderCall_of_waits hj hrun fun r hr => nomatch hidle.symm.trans hr
  case waits =>
    refine fun r hr hlc => execColanderCall_of_waits hj hrun fun r' hr' => ?_
    obtain rfl : r = r' := Option.some.inj (hr.symm.trans hr')
    exact hlc
  case writes =>
    exact (execColanderCallDone_of_plain hr hj hplain hfixed hba hsa hbox hscore).trans
      (congrArg _ (if_neg fun ⟨hsome, hmode⟩ => hnf.elim hsome fun hother => hother hmode))
  case stops =>
    exact (execColanderCallDone_of_plain hr hj hplain hfixed hba hsa hbox hscore).trans
      (congrArg _ (if_pos ⟨hnf, hmode⟩))

end Sys2Proof.Machine
end

section
/-! SUPPORT. JOB_SUBMIT, JOB_CANCEL and JOB_STATUS (R172, R176, R177, R196). -/

namespace Sys2Proof.Machine

section

variable {h : Hdr} {ps : List Byte} {s : State} {q : Queue} {id : Nat} {j : Job}

theorem execJobSubmit_of_taken (hq : s.queues.get? (qkey h.tenant.toNat h.queue.toNat) = some q)
    (ht : cJobSubmit.taken h ps s = true) : execJobSubmit h ps s = .next
      (takeJob (jobOf (acceptedReply 0x0320 h 64 s).2 h.tenant.toNat h.queue.toNat q ps (some s.sch.nTok))
        (acceptedReply 0x0320 h 64 s).2) := by
  have hq' : (acceptedReply 0x0320 h 64 s).2.queue? h.tenant.toNat h.queue.toNat = some q := by
    rw [State.queue?, acceptedReply_queues, hq]
  rw [execJobSubmit, Cmd.exec_later ht]
  simp only [cJobSubmit, Cmd.base, hq']

theorem okReply_findJob (op : Nat) (h : Hdr) (d : List Byte) (s : State) (t qn seq : Nat) :
    findJob (okReply op h d s) t qn seq = findJob s t qn seq := by
  rw [findJob, okReply_jobs, findJob]

theorem consumed_findJob (h : Hdr) (s : State) (t qn seq : Nat) :
    findJob (consumed h s) t qn seq = findJob s t qn seq := by
  simp [findJob, consumed]

/-- JOB_CANCEL after its reply. -/
theorem execJobCancel_of_taken (ht : cJobCancel.taken h ps s = true) : execJobCancel h ps s = .next
    (match findJob s h.tenant.toNat h.queue.toNat (u32 ps 0) with
     | some (id, _) => stopJob id FAULT 3 (okReply 0x0321 h [] s)
     | none => okReply 0x0321 h [] s) := by
  rw [execJobCancel, Cmd.exec_now ht, ← okReply_findJob 0x0321 h [] s]
  rfl

theorem execJobStatus_of_listed (hj : findJob s h.tenant.toNat h.queue.toNat (u32 ps 0) = some (id, j))
    (ht : cJobStatus.taken h ps s = true) : execJobStatus h ps s = .next
      (okReply 0x0322 h (leBytes 1 j.st.code ++ [0x00] ++ leBytes 2 (min 0xFFFF j.preempts)) s) := by
  rw [execJobStatus, Cmd.exec_now ht]
  simp only [cJobStatus, consumed_findJob, hj]
  rfl

/-- A job that has ended answers state 4 with the pre-emptions its queue remembers. -/
theorem execJobStatus_of_ended (hq : s.queues.get? (qkey h.tenant.toNat h.queue.toNat) = some q)
    (hj : findJob s h.tenant.toNat h.queue.toNat (u32 ps 0) = none) (ht : cJobStatus.taken h ps s = true) :
    execJobStatus h ps s = .next (okReply 0x0322 h
      ([0x04, 0x00] ++ leBytes 2 ((q.outcomes.get? (u32 ps 0)).elim 0 (fun x => x.2))) s) := by
  have hq' : s.queue? h.tenant.toNat h.queue.toNat = some q := hq
  have helim : ((q.outcomes.get? (u32 ps 0)).map (·.2)).getD 0 = (q.outcomes.get? (u32 ps 0)).elim 0 (fun x => x.2) := by
    cases q.outcomes.get? (u32 ps 0) <;> rfl
  rw [execJobStatus, Cmd.exec_now ht, ← helim]
  simp only [cJobStatus, consumed_findJob, consumed_queue?, hj, hq']
  rfl

end

/-- Settles O19: each command is its effect on the state with its reply, which lists the same jobs and queues. A job
that is COMMITTING is listed and left alone by its cancellation, as `stopJob` has it (R196). -/
theorem jobCommands : Obligations.JobCommands := by
  refine fun h ps s => ⟨fun q hq => execJobSubmit_of_taken hq, fun id j hj ht => ?listed, fun hj ht => ?ended,
    fun id j hj => execJobStatus_of_listed hj, fun q hq hj => execJobStatus_of_ended hq hj⟩
  case listed => exact (execJobCancel_of_taken ht).trans (by rw [hj])
  case ended => exact (execJobCancel_of_taken ht).trans (by rw [hj])

end Sys2Proof.Machine
end

section
/-! SUPPORT. Partitions and sequence batches (R192 to R195, Table 11 of chapter 06). -/

namespace Sys2Proof.Machine

/-- A table filled key after key holds at each of the keys what was put there. -/
theorem Map.get?_foldl_set {α : Type} (f : Nat → α) (l : List Nat) (m : Map α) (k : Nat) :
    (l.foldl (fun m c => m.set c (f c)) m).get? k = if k ∈ l then some (f k) else m.get? k := by
  induction l generalizing m with
  | nil => rfl
  | cons c l ih =>
    rw [List.foldl_cons, ih, Map.get?_set]
    by_cases hk : k = c <;> simp [hk]

section

variable {h : Hdr} {ps : List Byte} {s : State} {p : Prog}

/-- The tile masks and cluster SRAM allowances that PARTITION_SET gives, cluster by cluster. -/
def setTiles (s : State) (ps : List Byte) : Map Nat :=
  (List.range 12).foldl (fun m c => m.set c (keepMask s c (psMask ps c))) Map.empty
def setCsram (ps : List Byte) : Map Nat := (List.range 12).foldl (fun m c => m.set c (psCsram ps c)) Map.empty

theorem setTiles_getD {c : Nat} (hc : c < 12) : (setTiles s ps).getD c 0 = keepMask s c (psMask ps c) := by
  rw [setTiles, Map.getD, Map.get?_foldl_set (fun c => keepMask s c (psMask ps c)), if_pos (List.mem_range.mpr hc)]
  rfl

theorem setCsram_getD {c : Nat} (hc : c < 12) : (setCsram ps).getD c 0 = psCsram ps c := by
  rw [setCsram, Map.getD, Map.get?_foldl_set (psCsram ps), if_pos (List.mem_range.mpr hc)]
  rfl

theorem okReply_rolledTile (op : Nat) (h : Hdr) (d : List Byte) (s : State) :
    (okReply op h d s).rolledTile = s.rolledTile := by
  funext c i
  simp only [State.rolledTile, State.tileMap, okReply_larder]

theorem okReply_keepMask (op : Nat) (h : Hdr) (d : List Byte) (s : State) (c m : Nat) :
    keepMask (okReply op h d s) c m = keepMask s c m :=
  congrArg (fun r : Nat → Nat → Bool =>
    (List.range 13).foldl (fun a i => a + (if bit m i && r c i then 2 ^ i else 0)) 0) (okReply_rolledTile op h d s)

theorem okReply_setTiles (op : Nat) (h : Hdr) (d : List Byte) (s : State) (ps : List Byte) :
    setTiles (okReply op h d s) ps = setTiles s ps := by
  simp only [setTiles, okReply_keepMask]

theorem execPartitionSet_of_taken (ht : cPartitionSet.taken h ps s = true) : execPartitionSet h ps s = .next
    (modTen h.tenant.toNat (fun v => { v with part := ⟨setTiles s ps, setCsram ps, u16 ps 36, u16 ps 38⟩ })
      (journalCmd h 0x0330 0 (u32 ps 36) (okReply 0x0330 h [] s))) := by
  rw [execPartitionSet, Cmd.exec_now ht, ← okReply_setTiles 0x0330 h [] s]
  rfl

theorem execPartitionGet_of_taken (ht : cPartitionGet.taken h ps s = true) : execPartitionGet h ps s = .next
    (okReply 0x0331 h (partBytes (if (s.ten h.tenant.toNat).st = .closed then Partition.none
      else (s.ten h.tenant.toNat).part)) s) := by
  rw [execPartitionGet, Cmd.exec_now ht]
  simp only [cPartitionGet, consumed_ten, beq_iff_eq]
  rfl

theorem execBatchJoin_of_taken (hp : s.progs.get? (u16 ps 0) = some p) (ht : cBatchJoin.taken h ps s = true) :
    execBatchJoin h ps s = .next { (acceptedReply 0x0350 h 2 s).2 with
      progs := s.progs.set (u16 ps 0) { p with changes := p.changes ++ [⟨true, u32 ps 4, u16 ps 2, s.sch.nTok⟩] } } := by
  have hreply : (acceptedReply 0x0350 h 2 s).2.progs.get? (u16 ps 0) = some p := by rwa [acceptedReply_progs]
  rw [execBatchJoin, Cmd.exec_later ht, ← acceptedReply_progs 0x0350 h 2 s]
  exact congrArg _ (modProg_of_get? hreply _)

theorem execBatchLeave_of_taken (hp : s.progs.get? (u16 ps 0) = some p) (ht : cBatchLeave.taken h ps s = true) :
    execBatchLeave h ps s = .next { (acceptedReply 0x0351 h 0 s).2 with
      progs := s.progs.set (u16 ps 0) { p with changes := p.changes ++ [⟨false, u32 ps 4, 0, s.sch.nTok⟩] } } := by
  have hreply : (acceptedReply 0x0351 h 0 s).2.progs.get? (u16 ps 0) = some p := by rwa [acceptedReply_progs]
  rw [execBatchLeave, Cmd.exec_later ht, ← acceptedReply_progs 0x0351 h 0 s]
  exact congrArg _ (modProg_of_get? hreply _)

theorem execBatchStatus_of_taken (hp : s.progs.get? (u16 ps 0) = some p) (ht : cBatchStatus.taken h ps s = true) :
    execBatchStatus h ps s = .next (okReply 0x0352 h (leBytes 2 p.members.length
      ++ leBytes 2 (p.storePages - p.usedPages.length) ++ leBytes 4 p.steps) s) := by
  rw [execBatchStatus, Cmd.exec_now ht]
  simp only [cBatchStatus, consumed_progs, hp]
  rfl

end

/-- Settles O20: each command is its effect on the state with its reply. OBJECT 0 and VALUE, bytes 36 to 39, of the
journal entry of PARTITION_SET are log 26. -/
theorem partitionAndBatchCommands : Obligations.PartitionAndBatchCommands := by
  refine fun h ps s => ⟨fun ht => ⟨setTiles s ps, setCsram ps, execPartitionSet_of_taken ht,
    fun c hc => ⟨setCsram_getD hc, setTiles_getD hc⟩⟩, fun ht hst => ?opened, fun ht hst => ?closed,
    fun p hp => execBatchJoin_of_taken hp, fun p hp => execBatchLeave_of_taken hp, fun p hp => execBatchStatus_of_taken hp⟩
  case opened => exact (execPartitionGet_of_taken ht).trans (by rw [if_neg hst])
  case closed => exact (execPartitionGet_of_taken ht).trans (by rw [if_pos hst]; rfl)

end Sys2Proof.Machine
end

section
/-! SUPPORT. Stops at yield points, saved contexts, remote waits and time limits (R185 to R190, R196, R386). -/

namespace Sys2Proof.Machine

/-! ## Tables -/

theorem Map.insert_insert {α : Type} (l : List (Nat × α)) (k : Nat) (v w : α) :
    Map.insert (Map.insert l k v) k w = Map.insert l k w := by
  induction l with
  | nil => simp [Map.insert]
  | cons c t ih =>
    obtain ⟨i, x⟩ := c
    simp only [Map.insert]
    split
    · simp [Map.insert]
    · split
      · simp [Map.insert]
      · simp [Map.insert, *]

/-- The later of two values put under a key is the one that stays. -/
@[simp] theorem Map.set_set {α : Type} (m : Map α) (k : Nat) (v w : α) : (m.set k v).set k w = m.set k w :=
  congrArg Map.mk (Map.insert_insert m.cells k v w)

section

variable {id tile port token : Nat} {j : Job} {s : State}

theorem modJob_of_get? (hj : s.jobs.get? id = some j) (f : Job → Job) :
    modJob id f s = { s with jobs := s.jobs.set id (f j) } := by
  simp only [modJob, hj]

/-! ## Stops -/

theorem execYieldPointStop_of_stopReq (hj : s.jobs.get? id = some j) (hst : j.st = .running) (hreq : j.stopReq = true)
    (hend : j.endAt = none) (hhold : (j.hold.get? tile).isSome = true) (hstop : tile ∉ j.stopped) (ws : List Nat) :
    execYieldPointStop id tile [] ws s = .next { s with jobs := s.jobs.set id { j with
      stopped := tile :: j.stopped, writes := j.writes ++ ws.map (fun w => ⟨w, false⟩) } } := by
  have hgo : (j.st != .running || !(j.stopReq || j.endAt.isSome) || (j.hold.get? tile).isNone
      || j.stopped.contains tile) = false := by
    simpa [hst, hreq, hstop] using hhold
  have hrow : execYieldPointStop id tile [] ws s = .next
      (modJob id (fun j => { j with writes := j.writes ++ ws.map (fun w => ⟨w, false⟩) })
        (modJob id (fun j => { j with stopped := tile :: j.stopped }) s)) := by
    simp only [execYieldPointStop, hj, hgo, Bool.false_eq_true, if_false]
    simp only [hend, List.foldl_nil]
  rw [hrow, modJob_of_get? hj, modJob_of_get? (Map.get?_set_self ..), Map.set_set]

/-- A job that holds one tile and gives it up is charged for the time since it took it. -/
theorem releaseTiles_of_only {t0 : Nat} (hj : s.jobs.get? id = some j) (hhold : j.hold = ⟨[(tile, t0)]⟩) :
    releaseTiles id (fun t => t == tile) s = chargeTen j.tenant (j.lc || j.golden) (s.time.ns - t0) { s with
      jobs := s.jobs.set id { j with hold := ⟨[]⟩, etime := j.etime + (s.time.ns - t0) } } := by
  simp [releaseTiles, hj, hhold, Map.sum, Map.filter, Job.lcTime]

theorem preemptJob_of_get? (hj : s.jobs.get? id = some j) : preemptJob id s = modTen j.tenant
    (fun v => { v with acct := { v.acct with pre := min 0xFFFFFFFF (v.acct.pre + 1) } })
    { s with jobs := s.jobs.set id { j with
      st := .preempted, stopReq := false, stopped := [], waitTiles := [], preempts := j.preempts + 1 } } := by
  simp only [preemptJob, hj, modJob_of_get? hj]
  rfl

/-- The last context of a job is saved: its tile is given up, and the job ends or is PREEMPTED. -/
theorem execContextSaveDone_of_last {k : Job} (hj : s.jobs.get? id = some j) (hst : j.st = .running)
    (hreq : j.stopReq = true) (hstop : tile ∈ j.stopped) (hw : j.writes = [])
    (hk : (releaseTiles id (fun t => t == tile) s).jobs.get? id = some k) (hhold : k.hold = ⟨[]⟩) :
    execContextSaveDone id tile s = .next (match k.endAt with
      | some (st, fc) => endJob id st fc 0 (releaseTiles id (fun t => t == tile) s)
      | none => grantTiles (preemptJob id (releaseTiles id (fun t => t == tile) s))) := by
  have hgo : (j.st != .running || !j.stopReq || !j.stopped.contains tile || !j.writes.isEmpty) = false := by
    simp [hst, hreq, hstop, hw]
  simp only [execContextSaveDone, hj, hgo, hk, hhold]
  cases k.endAt <;> rfl

/-! ## Remote reads and writes -/

theorem execRemoteReply_of_running (hj : s.jobs.get? id = some j) (hst : j.st = .running) (data : List Byte) :
    execRemoteReply id port tile token data s = .next
      (if j.reads.any (fun r => r.token == token && (r.parked || r.reissue)) then holdReply id port tile token data s
       else takeReply id token data s) := by
  simp only [execRemoteReply, hj, hst]

theorem execRemoteReply_of_preempted (hj : s.jobs.get? id = some j) (hst : j.st = .preempted) (data : List Byte) :
    execRemoteReply id port tile token data s = .next (holdReply id port tile token data s) := by
  simp only [execRemoteReply, hj, hst]

/-- A reply to a job of an unpaired program goes to its slot and nowhere else. -/
theorem takeReply_of_unpaired {p : Prog} (hj : s.jobs.get? id = some j) (hp : s.progs.get? j.prog = some p)
    (hpair : p.img.paired = false) (data : List Byte) : takeReply id token data s = { s with jobs := s.jobs.set id { j with
      reads := j.reads.filter (fun r => r.token != token), got := (token, data) :: j.got } } := by
  simp [takeReply, hj, hp, hpair, modJob_of_get? hj]

theorem holdReply_of_get? (hj : s.jobs.get? id = some j) (data : List Byte) :
    holdReply id port tile token data s = { s with jobs := s.jobs.set id { j with
      reads := j.reads.map (fun r => if r.token = token ∧ r.port = port ∧ r.tile = tile ∧ r.parked = true
        then { r with held := some data } else r) } } := by
  simp [holdReply, modJob_of_get? hj, and_assoc]

theorem execRemoteWriteDone_of_inFlight (hj : s.jobs.get? id = some j) (hin : j.inFlight = true) (ok : Bool) :
    execRemoteWriteDone id token ok s = .next (if ok then { s with
      jobs := s.jobs.set id { j with writes := j.writes.filter (fun w => w.token != token) } }
      else endJob id FAULT 5 0 s) := by
  cases ok <;> simp [execRemoteWriteDone, hj, hin, modJob_of_get? hj]

theorem execParkTimeout_of_parked (hj : s.jobs.get? id = some j) (hin : j.inFlight = true)
    (hpark : j.reads.any (fun r => r.token == token && r.parked) = true) : execParkTimeout id token s = .next { s with
      jobs := s.jobs.set id { j with reads := j.reads.map (fun r =>
        if r.token = token ∧ r.parked = true then { r with parked := false, held := none, reissue := true } else r) },
      sch := { s.sch with parkExp := min 0xFFFF (s.sch.parkExp + 1) } } := by
  simp only [execParkTimeout, hj, hin, hpark, Bool.and_self, if_true, modJob_of_get? hj, Bool.and_eq_true, beq_iff_eq]
  rfl

/-- A read without an answer for the time limit: left while it is parked, reissued once, then the end of its job. -/
theorem execRemoteTimeout_of_read (hj : s.jobs.get? id = some j) (hin : j.inFlight = true) :
    execRemoteTimeout id port tile token false s = .next
      (if j.reads.any (fun r => r.token == token && r.parked) then s
       else if j.reads.any (fun r => r.token == token && r.again) then endJob id FAULT 0x0B01 0 s
       else { s with jobs := s.jobs.set id { j with
         reads := j.reads.filter (fun r => r.token != token) ++ [⟨port, token, tile, false, none, false, true⟩] } }) := by
  simp only [execRemoteTimeout, hj, hin, modJob_of_get? hj, apply_ite Host.Outcome.next]
  rfl

theorem execRemoteTimeout_of_write_again (hj : s.jobs.get? id = some j) (hin : j.inFlight = true)
    (hagain : j.writes.any (fun w => w.token == token && w.again) = true) :
    execRemoteTimeout id port tile token true s = .next (endJob id FAULT 5 0 s) := by
  simp [execRemoteTimeout, hj, hin, hagain]

/-! ## Time limits -/

theorem execTlimitExpiry_of_not_committing (hj : s.jobs.get? id = some j) (hin : j.inFlight = true) (hl : j.tlimit ≠ 0)
    (hst : j.st ≠ .committing) : execTlimitExpiry id s = .next (stopJob id TIMEOUT 0 s) := by
  simp [execTlimitExpiry, hj, hin, hl, hst]

theorem execTlimitExpiry_of_committing (hj : s.jobs.get? id = some j) (hl : j.tlimit ≠ 0) (hst : j.st = .committing)
    (hend : j.endAt = none) : execTlimitExpiry id s = .next { s with
      jobs := s.jobs.set id { j with endAt := some (TIMEOUT, 0) } } := by
  have hin : j.inFlight = true := by simp [Job.inFlight, hst]
  simp [execTlimitExpiry, hj, hin, hl, hst, hend, modJob_of_get? hj]

end

/-- Settles O22, by one equation for each row in each case it tells apart: what a slot leaves at its stop, whether a reply
meets a read that was left, whether an answer failed to come once or twice, and whether the job is COMMITTING. -/
theorem preemptionEvents : Obligations.PreemptionEvents := by
  intro id tile j s hj
  refine ⟨fun ws hst hreq hend hhold hstop => execYieldPointStop_of_stopReq hj hst hreq hend hhold hstop ws,
    fun t0 hst hreq hstop hw hhold => ?saved, fun port token data => ⟨fun p hp hpair hst hleft => ?delivered, ?held⟩,
    fun token hin => execRemoteWriteDone_of_inFlight hj hin true,
    fun token hin => execRemoteWriteDone_of_inFlight hj hin false,
    fun token hin hpark => execParkTimeout_of_parked hj hin hpark, fun port token hin hfresh => ?reissued,
    fun port token hin hpark hagain => ?failed, fun port token hin hagain => execRemoteTimeout_of_write_again hj hin hagain,
    fun hin hl hst => execTlimitExpiry_of_not_committing hj hin hl hst,
    fun hl hst hend => execTlimitExpiry_of_committing hj hl hst hend⟩
  case saved =>
    have hr := releaseTiles_of_only hj hhold
    have hk : (releaseTiles id (fun t => t == tile) s).jobs.get? id
        = some { j with hold := ⟨[]⟩, etime := j.etime + (s.time.ns - t0) } := by
      rw [hr]
      exact Map.get?_set_self ..
    have hlast := execContextSaveDone_of_last hj hst hreq hstop hw hk rfl
    refine ⟨hr, fun hend => ?_, fun st fc hend => ?_⟩
    · refine hlast.trans ?_
      simp only [hend, preemptJob_of_get? hk]
    · exact hlast.trans (by simp only [hend])
  case delivered =>
    refine (execRemoteReply_of_running hj hst data).trans ?_
    rw [if_neg (by simpa using hleft), takeReply_of_unpaired hj hp hpair]
  case held =>
    rintro (hst | ⟨hst, hleft⟩)
    · exact (execRemoteReply_of_preempted hj hst data).trans (by rw [holdReply_of_get? hj])
    · exact (execRemoteReply_of_running hj hst data).trans (by rw [if_pos hleft, holdReply_of_get? hj])
  case reissued =>
    have hsplit : j.reads.any (fun r => r.token == token && r.parked) = false
        ∧ j.reads.any (fun r => r.token == token && r.again) = false := by
      simp only [List.any_eq_false, Bool.and_eq_true, Bool.or_eq_true] at hfresh ⊢
      exact ⟨fun r hr hp => hfresh r hr ⟨hp.1, .inl hp.2⟩, fun r hr ha => hfresh r hr ⟨ha.1, .inr ha.2⟩⟩
    refine (execRemoteTimeout_of_read hj hin).trans ?_
    simp only [hsplit.1, hsplit.2]
    rfl
  case failed =>
    refine (execRemoteTimeout_of_read hj hin).trans ?_
    simp only [hpark, hagain]
    rfl

end Sys2Proof.Machine
end

section
/-! SUPPORT. The end of a job's slots, and the commits of a chain job (R188, R191, R320, R382). -/

namespace Sys2Proof.Machine

section

variable {id : Nat} {j : Job} {s : State}

/-- A job whose slots have finished and that is to end ends. -/
theorem execJobSlotsFinished_of_endAt {st fc : Nat} (hj : s.jobs.get? id = some j) (hst : j.st = .running)
    (hwait : j.waitTiles = []) (hend : j.endAt = some (st, fc)) :
    execJobSlotsFinished id s = .next (endJob id st fc 0 s) := by
  simp [execJobSlotsFinished, hj, hst, hwait, hend]

/-- The state in which a job has reached COMMITTING. -/
def committing (id : Nat) (j : Job) (s : State) : State :=
  { s with jobs := s.jobs.set id { j with st := .committing, stopReq := false, stopped := [] } }

/-- What becomes of a job that has reached COMMITTING, by its chain and its role. -/
def committed (id : Nat) (j : Job) (c : State) : State :=
  if j.parts ≠ [] ∧ c.chn.st ≠ 3 then endJob id TIMEOUT 0 0 c
  else match j.role with
    | .golden _ => goldenDone id c
    | .eval _ => if c.skk.debug then endJob id INVALID_OUTPUT 0 0 c else queueChk id c
    | .user => if isFrame c j && c.skk.chkrun && !c.skk.debug then queueChk id c else passJob id false c

theorem execJobSlotsFinished_of_commits (hj : s.jobs.get? id = some j) (hst : j.st = .running)
    (hwait : j.waitTiles = []) (hend : j.endAt = none) :
    execJobSlotsFinished id s = .next (committed id j (committing id j s)) := by
  have hc : modJob id (fun j => { j with st := .committing, stopReq := false, stopped := [] }) s = committing id j s :=
    modJob_of_get? hj _
  have hgo : (j.st != .running || !j.waitTiles.isEmpty) = false := by simp [hst, hwait]
  cases hrole : j.role <;>
    simp only [execJobSlotsFinished, hj, hgo, hend, hc, committed, hrole, Bool.false_eq_true, if_false,
      apply_ite Host.Outcome.next, Bool.and_eq_true, Bool.not_eq_true', List.isEmpty_eq_false_iff, bne_iff_ne]

theorem committed_of_no_chain {c : State} (hparts : j.parts ≠ []) (hchn : c.chn.st ≠ 3) :
    committed id j c = endJob id TIMEOUT 0 0 c :=
  if_pos ⟨hparts, hchn⟩

theorem committed_of_user (c : State) (hchain : j.parts = [] ∨ c.chn.st = 3) (hrole : j.role = .user) :
    committed id j c
      = if (isFrame c j && c.skk.chkrun && !c.skk.debug) = true then queueChk id c else passJob id false c := by
  rw [committed, if_neg fun h => hchain.elim h.1 h.2]
  simp only [hrole]

theorem committed_of_golden (c : State) {i : Nat} (hchain : j.parts = [] ∨ c.chn.st = 3) (hrole : j.role = .golden i) :
    committed id j c = goldenDone id c := by
  rw [committed, if_neg fun h => hchain.elim h.1 h.2]
  simp only [hrole]

theorem committed_of_eval (c : State) {i : Nat} (hchain : j.parts = [] ∨ c.chn.st = 3) (hrole : j.role = .eval i) :
    committed id j c = if c.skk.debug = true then endJob id INVALID_OUTPUT 0 0 c else queueChk id c := by
  rw [committed, if_neg fun h => hchain.elim h.1 h.2]
  simp only [hrole]

/-! ## Chain commits -/

theorem execChainJobPrepare_of_master (hj : s.jobs.get? id = some j) (hrole : s.chn.role = 1) (hst : s.chn.st = 3)
    (hin : j.inFlight = true) (m : Nat) : execChainJobPrepare id m s = .next
      (if (j.prepared && j.parts.all (fun p => p == m || j.reported.contains p)) = true then
        commitChain id j.checked { s with jobs := s.jobs.set id { j with reported := m :: j.reported } }
       else { s with jobs := s.jobs.set id { j with reported := m :: j.reported } }) := by
  have hgo : (s.chn.role != 1 || s.chn.st != 3 || !j.inFlight) = false := by simp [hrole, hst, hin]
  simp only [execChainJobPrepare, hj, hgo, modJob_of_get? hj, apply_ite Host.Outcome.next]
  rfl

theorem execChainJobCommit_of_prepared (hj : s.jobs.get? id = some j) (hp : j.prepared = true) {e : Nat}
    (he : s.sch.epoch ≤ e) : execChainJobCommit id e s = .next
      (adoptEpoch (commitAt id e j.checked { s with sch := { s.sch with epoch := e } })) := by
  simp [execChainJobCommit, hj, hp, he.not_gt]

theorem execPrepareTimeout_of_chain_job (hj : s.jobs.get? id = some j) (hin : j.inFlight = true) (hparts : j.parts ≠ []) :
    execPrepareTimeout id s = .next (adoptEpoch (endJob id TIMEOUT 0 0 s)) := by
  simp [execPrepareTimeout, hj, hin, hparts]

end

/-- Settles O23, by the way of a job from the end of its slots: it ends, or it is COMMITTING and its chain and its role
say what follows; and by one equation for each row of a chain commit. That an epoch received is adopted at a commit or
time-out is log 28, that DEBUG is judged at the end of the slots log 25. -/
theorem jobsFinish : Obligations.JobsFinish := by
  intro id j s hj
  refine ⟨fun hst hwait => ⟨fun st fc hend => execJobSlotsFinished_of_endAt hj hst hwait hend, fun hend => ?commits⟩,
    fun m hrole hst hin => execChainJobPrepare_of_master hj hrole hst hin m,
    fun e hp he => execChainJobCommit_of_prepared hj hp he, fun hin hparts => execPrepareTimeout_of_chain_job hj hin hparts⟩
  have hrow := execJobSlotsFinished_of_commits hj hst hwait hend
  refine ⟨fun hparts hchn => hrow.trans (congrArg _ (committed_of_no_chain hparts hchn)), fun hchain =>
    ⟨fun hrole hframe => hrow.trans (congrArg _ ((committed_of_user (committing id j s) hchain hrole).trans ?frame)),
      fun hrole hframe => hrow.trans (congrArg _ ((committed_of_user (committing id j s) hchain hrole).trans ?other)),
      fun i hrole => hrow.trans (congrArg _ (committed_of_golden (committing id j s) hchain hrole)),
      fun i hrole hdebug => hrow.trans (congrArg _ ((committed_of_eval (committing id j s) hchain hrole).trans ?eval)),
      fun i hrole hdebug => hrow.trans (congrArg _ ((committed_of_eval (committing id j s) hchain hrole).trans ?debug))⟩⟩
  case frame => exact if_pos hframe
  case other => exact if_neg (Bool.eq_false_iff.mp hframe)
  case eval => exact if_neg (Bool.eq_false_iff.mp hdebug)
  case debug => exact if_pos hdebug

end Sys2Proof.Machine
end

section
/-! SUPPORT. The order of dispatch, the start of a job and its resumption (R182 to R187, R319). -/

namespace Sys2Proof.Machine

/-! ## Bank transitions touch programs and HP0 only -/

theorem modProg_frame (g : Nat) (f : Prog → Prog) (s : State) : { modProg g f s with progs := s.progs } = s := by
  unfold modProg
  split <;> rfl

theorem setBank_frame (g : Nat) (b : BankSt) (r : Nat) (s : State) :
    { setBank g b r s with progs := s.progs, hp0 := s.hp0 } = s := by
  unfold setBank
  split <;> rfl

theorem drainBank_frame (g : Nat) (s : State) : { drainBank g s with progs := s.progs, hp0 := s.hp0 } = s := by
  unfold drainBank
  split
  · split
    · exact setBank_frame ..
    · rfl
  · rfl

theorem swapBank_frame (g : Nat) (s : State) : { swapBank g s with progs := s.progs, hp0 := s.hp0 } = s := by
  unfold swapBank
  split
  · rfl
  · split
    · rfl
    · refine (congrArg (fun t : State => { t with progs := s.progs, hp0 := s.hp0 }) (drainBank_frame _ _)).trans ?_
      refine (congrArg (fun t : State => { t with progs := s.progs, hp0 := s.hp0 }) (setBank_frame _ _ _ _)).trans ?_
      exact congrArg (fun t : State => { t with hp0 := s.hp0 }) (modProg_frame _ _ s)

theorem swapBank_jobs (g : Nat) (s : State) : (swapBank g s).jobs = s.jobs := by
  have h := congrArg State.jobs (swapBank_frame g s)
  exact h

theorem swapBank_sch (g : Nat) (s : State) : (swapBank g s).sch = s.sch := by
  have h := congrArg State.sch (swapBank_frame g s)
  exact h

theorem swapBank_time (g : Nat) (s : State) : (swapBank g s).time = s.time := by
  have h := congrArg State.time (swapBank_frame g s)
  exact h

theorem swapBank_mem (g : Nat) (s : State) : (swapBank g s).mem = s.mem := by
  have h := congrArg State.mem (swapBank_frame g s)
  exact h

/-- Where a loaded program is bound, none where no program has the handle. -/
def State.bindsOf (s : State) (k : Nat) : Option (List LcBind) := (s.progs.get? k).map (·.binds)

theorem modProg_bindsOf {f : Prog → Prog} (hf : ∀ p, (f p).binds = p.binds) (g k : Nat) (s : State) :
    (modProg g f s).bindsOf k = s.bindsOf k := by
  simp only [State.bindsOf, modProg_get?]
  split <;> simp [Function.comp_def, hf]

theorem setBank_bindsOf (g : Nat) (b : BankSt) (r : Nat) (s : State) (k : Nat) :
    (setBank g b r s).bindsOf k = s.bindsOf k := by
  have hprogs : (setBank g b r s).progs = (modProg g (fun p => { p with sb := b, reason := r }) s).progs := by
    unfold setBank modProg
    split <;> rfl
  rw [State.bindsOf, hprogs]
  exact modProg_bindsOf (fun _ => by rfl) g k s

theorem drainBank_bindsOf (g : Nat) (s : State) (k : Nat) : (drainBank g s).bindsOf k = s.bindsOf k := by
  unfold drainBank
  split
  · split
    · exact setBank_bindsOf ..
    · rfl
  · rfl

theorem swapBank_bindsOf (g : Nat) (s : State) (k : Nat) : (swapBank g s).bindsOf k = s.bindsOf k := by
  unfold swapBank
  split
  · rfl
  · split
    · rfl
    · exact (drainBank_bindsOf ..).trans ((setBank_bindsOf ..).trans (modProg_bindsOf (fun _ => by rfl) ..))

/-! ## The start of a job -/

/-- A map over the cells of a table that leaves a key's cells alone leaves what is read there alone. -/
theorem Map.lookup_map {α : Type} {f : Nat × α → Nat × α} (hkey : ∀ c, (f c).1 = c.1) {k : Nat}
    (hk : ∀ c, c.1 = k → f c = c) (l : List (Nat × α)) : Map.lookup (l.map f) k = Map.lookup l k := by
  induction l with
  | nil => rfl
  | cons c l ih =>
    obtain ⟨i, v⟩ := c
    by_cases hi : k = i
    · simp [hk (i, v) hi.symm, Map.lookup, hi]
    · have hstep : Map.lookup (f (i, v) :: l.map f) k = Map.lookup (l.map f) k := by
        simp only [Map.lookup, hkey, if_neg hi]
      rw [List.map_cons, hstep, ih, Map.lookup, if_neg hi]

/-- A job that starts does not stop itself. -/
theorem askStop_get?_self (id : Nat) (ts : List Nat) (s : State) :
    (askStop id ts s).jobs.get? id = s.jobs.get? id := by
  refine Map.lookup_map (fun c => ?_) (fun c hc => ?_) s.jobs.cells
  · split <;> rfl
  · simp [hc]

section

variable {id : Nat} {j : Job} {s : State} {p : Prog}

/-- A user's inference job as it starts in a state, bound to its program as it then is. -/
def startedJob (j : Job) (p : Prog) (s : State) : Job :=
  { j with
    st := .running, dispNo := s.sch.nDisp, tDispatch := some s.time.ns, tiles := newTiles p,
    hold := ((newTiles p).filter (fun t => !tileHeld s t)).foldl (fun m t => m.set t s.time.ns) Map.empty,
    waitTiles := (newTiles p).filter (tileHeld s), bank := p.live, gen := p.gen, image := p.imageNo,
    parts := p.img.parts, degraded := p.binds.any (·.degraded) }

theorem startJob_of_inference (hj : s.jobs.get? id = some j) (hkind : j.kind = 0) (hrole : j.role = .user)
    (hp : (swapBank j.prog s).progs.get? j.prog = some p) : startJob id s = countWait j
      (askStop id (startedJob j p (swapBank j.prog s)).waitTiles { swapBank j.prog s with
        jobs := (swapBank j.prog s).jobs.set id (startedJob j p (swapBank j.prog s)),
        sch := { (swapBank j.prog s).sch with nDisp := (swapBank j.prog s).sch.nDisp + 1 } }) := by
  have heval : j.isEval = false := by simp only [Job.isEval, hrole]
  simp [startJob, hj, hkind, hrole, heval, hp, startedJob]

/-- What a user's inference job is once it has started, and what its start leaves alone. -/
theorem startJob_started (hj : s.jobs.get? id = some j) (hp : s.progs.get? j.prog = some p) (hkind : j.kind = 0)
    (hrole : j.role = .user) : ∃ q : Prog, q.binds = p.binds ∧ (startJob id s).jobs.get? id = some (startedJob j q s)
      ∧ (startJob id s).sch.nDisp = s.sch.nDisp + 1 ∧ (startJob id s).mem.dram = s.mem.dram := by
  have hbinds : (swapBank j.prog s).bindsOf j.prog = some p.binds := by
    rw [swapBank_bindsOf, State.bindsOf, hp]
    rfl
  obtain ⟨q, hq, hqbinds⟩ := Option.map_eq_some_iff.mp hbinds
  have hheld : tileHeld (swapBank j.prog s) = tileHeld s := by
    funext t
    rw [tileHeld, swapBank_jobs, tileHeld]
  have hstarted : startedJob j q (swapBank j.prog s) = startedJob j q s := by
    simp only [startedJob, swapBank_sch, swapBank_time, hheld]
  refine ⟨q, hqbinds, ?_, ?_, ?_⟩ <;> rw [startJob_of_inference hj hkind hrole hq]
  · exact (askStop_get?_self ..).trans ((Map.get?_set_self ..).trans (congrArg some hstarted))
  · exact congrArg (fun c : Sch => c.nDisp + 1) (swapBank_sch ..)
  · exact congrArg MemSt.dram (swapBank_mem ..)

theorem startedJob_hold (q : Prog) (t : Nat) : ((startedJob j q s).hold.get? t).isSome = true ↔
    t ∈ newTiles q ∧ tileHeld s t = false := by
  rw [startedJob, Map.get?_foldl_set (fun _ => s.time.ns)]
  split <;> simp_all [List.mem_filter]

/-! ## Dispatch decisions and resumption -/

theorem execJobDispatch_of_lc (hmay : mayDispatch s = true) (hlc : pickLc s = some id) :
    execJobDispatch s = .next (startJob id s) := by
  simp [execJobDispatch, hmay, hlc]

theorem execJobDispatch_of_golden {k : Nat} (hmay : mayDispatch s = true) (hlc : pickLc s = none)
    (hgold : pickGolden s = some k) : execJobDispatch s = .next (startGolden k s) := by
  simp [execJobDispatch, hmay, hlc, hgold]

theorem execJobDispatch_of_be (hmay : mayDispatch s = true) (hlc : pickLc s = none) (hgold : pickGolden s = none)
    (hres : pickResume s = none) (hbe : pickBe s = some id) : execJobDispatch s = .next (startJob id s) := by
  simp [execJobDispatch, hmay, hlc, hgold, hres, hbe]

/-- The state in which a pre-empted job runs again on its tiles, its held replies still to be delivered. -/
def resumed (id : Nat) (j : Job) (s : State) : State :=
  { s with jobs := s.jobs.set id { j with
    st := .running, hold := j.tiles.foldl (fun m t => m.set t s.time.ns) Map.empty,
    reads := (j.reads.filter (fun r => r.held.isNone)).map (fun r => { r with parked := false, reissue := false }) } }

/-- The replies held for a job, in the order of its reads. -/
def heldReplies (j : Job) : List (Nat × List Byte) := j.reads.filterMap (fun r => r.held.map (fun d => (r.token, d)))

theorem execJobResume_of_next (hrun : (s.running || s.dev.st == .service) = true) (hres : pickResume s = some id)
    (hj : s.jobs.get? id = some j) (hold : olderWork s id = false) : execJobResume s = .next
      (let u := (heldReplies j).foldl (fun s r => takeReply id r.1 r.2 s) (resumed id j s)
       if j.pendMis = true then pairMismatch id u else u) := by
  simp only [execJobResume, hrun, hres, hj, hold, modJob_of_get? hj]
  rfl

end

/-- Settles O21: a dispatch starts the first job of the order of R182 that can start, and a start or a resumption is its
effect on the state. That TDISPATCH is taken at selection, tiles still awaited, is log 17. -/
theorem dispatchOrder : Obligations.DispatchOrder := by
  refine fun s => ⟨fun hmay => ⟨fun id hlc => execJobDispatch_of_lc hmay hlc,
    fun k hlc hgold => execJobDispatch_of_golden hmay hlc hgold,
    fun id hlc hgold hres hbe => execJobDispatch_of_be hmay hlc hgold hres hbe⟩, fun id j p hj hp hkind hrole => ?start,
    fun id j hrun hres hj hold => execJobResume_of_next hrun hres hj hold⟩
  obtain ⟨q, hbinds, hget, hdisp, hdram⟩ := startJob_started hj hp hkind hrole
  exact ⟨startedJob j q s, hget, rfl, rfl, congrArg progTiles hbinds, rfl, startedJob_hold q, hdisp, hdram⟩

end Sys2Proof.Machine
end

section
/-! SUPPORT. The chain: configuration, joins and departures, the epoch, a lost master and remote requests (R191, R372,
R379 to R385, R389). -/

namespace Sys2Proof.Machine

/-! ## CHN_CFG, CHN_LEAVE and CHN_EVICT -/

/-- The ports after CHN_CFG: those it does not enable are DOWN, those with a signal train. -/
def configurePorts (s : State) : State :=
  (List.range s.nSl).foldl (fun s p =>
    if !s.slEnabled p then modSl p (fun l => { l with lstate := 0 }) s
    else if (s.sl p).lstate == 0 && (s.sl p).signal then beginTraining p s else s) s

/-- The chain after CHN_CFG: DISABLED, the master of a chain of itself, or SEEKING. -/
def configureChain (ps : List Byte) (s : State) : State :=
  if !ccEnable ps then modChn (fun c => { c with st := 0 }) s
  else if ccRole ps == 1 then
    let id := if ccReqId ps == 0xFFFF then 0 else ccReqId ps
    modChn (fun c => { c with
      st := 3, devid := id, master := id, members := Map.empty.set id 1, links := [], table := Map.empty,
      old := Map.empty, lat := 0, pend := [] }) s
  else
    let d := modChn (fun c => { c with st := 1, members := Map.empty, links := [], table := Map.empty }) s
    (List.range d.nSl).foldl (fun s p => tryJoin p s) d

theorem configureChain_disabled {ps : List Byte} (hen : ccEnable ps = false) (s : State) :
    configureChain ps s = modChn (fun c => { c with st := 0 }) s :=
  if_pos (by simp [hen])

theorem configureChain_master {ps : List Byte} (hen : ccEnable ps = true) (hrole : ccRole ps = 1) (s : State) :
    configureChain ps s =
      (let id := if ccReqId ps = 0xFFFF then 0 else ccReqId ps
       modChn (fun c => { c with
         st := 3, devid := id, master := id, members := Map.empty.set id 1, links := [], table := Map.empty,
         old := Map.empty, lat := 0, pend := [] }) s) := by
  simp only [configureChain, hen, hrole, beq_iff_eq]
  rfl

theorem configureChain_seeking {ps : List Byte} (hen : ccEnable ps = true) (hrole : ccRole ps ≠ 1) (s : State) :
    configureChain ps s =
      (let d := modChn (fun c => { c with st := 1, members := Map.empty, links := [], table := Map.empty }) s
       (List.range d.nSl).foldl (fun s p => tryJoin p s) d) :=
  (if_neg (by simp [hen])).trans (if_neg (by simpa using hrole))

section

variable {h : Hdr} {ps : List Byte} {s : State}

theorem execChnCfg_of_taken (ht : cChnCfg.taken h ps s = true) : execChnCfg h ps s = .next
    (configureChain ps (configurePorts (modChn (fun c => { c with cfg := ps, role := ccRole ps })
      (journalCmd h 0x0B30 (ccMask ps) (ccChainId ps) (okReply 0x0B30 h [] s))))) :=
  Cmd.exec_now ht

theorem execChnLeave_of_taken (ht : cChnLeave.taken h ps s = true) : execChnLeave h ps s = .next
    (let t := modChn (fun c => { c with leaveTok := some s.sch.nTok })
        (journalCmd h 0x0B31 s.chn.devid 0 (acceptedReply 0x0B31 h 0 s).2)
     if s.chn.role = 1 then modChn (fun c => { c with pend := .remove c.devid :: c.pend }) t
     else send (.leave t.chn.devid) t) := by
  rw [execChnLeave, Cmd.exec_later ht, ← acceptedReply_chn 0x0B31 h 0 s]
  exact congrArg Host.Outcome.next (if_congr beq_iff_eq rfl rfl)

end

/-! ## Joins -/

section

variable {s : State} {via port dly cid role ep rq st : Nat}

theorem isMaster_iff : isMaster s = true ↔ s.isMember = true ∧ s.chn.role = 1 := by
  simp [isMaster]

theorem execJoinReq_of_accepted {id : Nat} (hm : isMaster s = true) (hvia : ((planned s).1.get? via).isSome = true)
    (hreason : joinReason s via dly cid rq st = 0) (hid : joinId (planned s).1 rq = some id) :
    execJoinReq (.request via port dly cid role ep rq st) s = .next
      (modChn (fun c => { c with pend := c.pend ++ [.join id role via port dly ep] }) s) := by
  obtain ⟨hmem, hrole⟩ := isMaster_iff.mp hm
  have hgo : (!s.isMember || s.chn.role != 1 || ((planned s).1.get? via).isNone) = false := by
    simpa [hmem, hrole] using hvia
  simp only [execJoinReq, hgo, hreason, hid]
  rfl

theorem execJoinReq_of_refused (hm : isMaster s = true) (hvia : ((planned s).1.get? via).isSome = true)
    (hreason : joinReason s via dly cid rq st ≠ 0) :
    execJoinReq (.request via port dly cid role ep rq st) s = .next
      (send (.refused via (joinReason s via dly cid rq st)) s) := by
  obtain ⟨hmem, hrole⟩ := isMaster_iff.mp hm
  have hgo : (!s.isMember || s.chn.role != 1 || ((planned s).1.get? via).isNone) = false := by
    simpa [hmem, hrole] using hvia
  simp only [execJoinReq, hgo, Bool.false_eq_true, if_false]
  split
  · exact absurd ‹_› hreason
  · rfl

theorem execJoinReq_of_answer (hst : s.chn.st = 2) (reason : Nat) : execJoinReq (.refused reason) s = .next
    (evChain 8 reason 0 (modChn (fun c => { c with st := 1 }) s)) := by
  simp [execJoinReq, hst]

/-! ## The epoch -/

/-- The state in which the leave requests that have reached the master wait with its other changes. -/
def withLeaves (leaves : List Nat) (s : State) : State :=
  modChn (fun c => { c with
    pend := (leaves.filter (fun k => (c.members.get? k).isSome)).map ChainOp.remove ++ c.pend }) s

theorem execEpochAdvance_of_master (hm : isMaster s = true) (leaves : List Nat) : execEpochAdvance leaves s = .next
    (if (withLeaves leaves s).jobs.any (fun _ j => j.prepared) = true then withLeaves leaves s
     else advanceEpoch (markPeers (withLeaves leaves s))) := by
  obtain ⟨hmem, hrole⟩ := isMaster_iff.mp hm
  exact if_neg (by simp [hmem, hrole])

theorem advanceEpoch_of_none_prepared (hnone : s.jobs.any (fun _ j => j.prepared) = false) : advanceEpoch s =
    (let e := max s.sch.epoch (maxOf (joinEpochs s.chn.pend)) + 1
     let v := { s with sch := { s.sch with epoch := e } }
     let w := if v.chn.pend.isEmpty then v else applyChain v
     send (.advance e w.chn.gen) w) :=
  if_neg (by simp [hnone])

theorem adoptEpoch_of_prepared {e : Nat} (hadv : s.chn.advTo = some e)
    (hp : s.jobs.any (fun _ j => j.prepared) = true) : adoptEpoch s = s := by
  simp only [adoptEpoch, hadv, hp, if_true]

theorem adoptEpoch_of_none_prepared {e : Nat} (hadv : s.chn.advTo = some e)
    (hp : s.jobs.any (fun _ j => j.prepared) = false) : adoptEpoch s = { s with
      sch := { s.sch with epoch := max s.sch.epoch e },
      chn := { s.chn with advTo := none, sent := s.chn.sent ++ [.ack e] } } := by
  simp only [adoptEpoch, hadv, hp, Bool.false_eq_true, if_false]

theorem execAdvance_of_member (hmem : s.isMember = true) (hrole : s.chn.role ≠ 1) (e : Nat) (isOver : Bool)
    (sw : Option ChainGen) : execAdvance e isOver sw s = .next
      (let t := adoptEpoch (modChn (fun c => { c with advTo := some (max e (c.advTo.getD 0)) }) s)
       let u := sw.elim t (fun g => takeGen g t)
       if isOver = true then evChain 7 0 u.chn.master u else u) := by
  cases sw <;> exact if_neg (by simp [hmem, hrole])

/-! ## Lost links and a lost master -/

/-- The link between two members, from either of them. -/
def between (a b : Nat) (l : ChLink) : Bool := (l.a == a && l.b == b) || (l.a == b && l.b == a)

theorem linkLost_of_unknown {a b : Nat} (hlinks : s.chn.links.any (between a b) = false) : linkLost a b s = s := by
  have hnot : (!s.chn.links.any (between a b)) = true := by rw [hlinks]; rfl
  unfold linkLost
  split
  · rfl
  · exact if_pos hnot

/-- What the master does on the loss of a link it knows, before it advances the epoch. -/
def dropLink (a b : Nat) (s : State) : State :=
  let s1 := modChn (fun c => { c with links := c.links.filter (fun l => !between a b l) }) s
  let gone := s1.chn.members.keys.filter (fun k => k != s1.chn.devid && !reaches s1.chn.links s1.chn.devid k)
  modChn (fun c => { c with pend := gone.map ChainOp.remove ++ .reroute :: c.pend }) (endChainJobs gone.contains s1)

theorem linkLost_of_known {a b : Nat} (hm : isMaster s = true) (hlinks : s.chn.links.any (between a b) = true) :
    linkLost a b s =
      (let d := dropLink a b s
       let e := max d.sch.epoch (maxOf (joinEpochs d.chn.pend)) + 1
       if d.jobs.any (fun _ j => j.prepared) = true then d
       else send (.advance e (d.chn.gen + 1)) (applyChain (markPeers { d with sch := { d.sch with epoch := e } }))) := by
  obtain ⟨hmem, hrole⟩ := isMaster_iff.mp hm
  have hknown : ¬ (!s.chn.links.any (between a b)) = true := by rw [hlinks]; decide
  exact (if_neg (by simp [hmem, hrole])).trans (if_neg hknown)

/-- Not the master: the guard of a lost master is passed. -/
theorem masterLost_guard (hmem : s.isMember = true) (hrole : s.chn.role ≠ 1) :
    ¬ (!s.isMember || s.chn.role == 1) = true := by
  simp [hmem, hrole]

theorem execMasterLost_of_orphan (hmem : s.isMember = true) (hrole : s.chn.role ≠ 1) (hbackup : s.chn.role ≠ 2)
    (links : List ChLink) : execMasterLost none links s = .next (leftChain 4 5 s) :=
  (if_neg (masterLost_guard hmem hrole)).trans (if_neg (by simpa using hbackup))

theorem execMasterLost_of_new_master {m : Nat} (hmem : s.isMember = true) (hrole : s.chn.role ≠ 1)
    (hbackup : s.chn.role ≠ 2) (hm : m ≠ s.chn.devid) (links : List ChLink) :
    execMasterLost (some m) links s = .next (evChain 6 0 m (modChn (fun c => { c with master := m }) s)) :=
  (if_neg (masterLost_guard hmem hrole)).trans (if_neg (by simp [hbackup, hm]))

/-! ## Remote requests -/

theorem execRemoteRequest_read (hgwy : s.gwyRuns = true) (hmem : s.isMember = true) (tok t a n : Nat) :
    execRemoteRequest tok t a n none s = .next
      (if accessCheck s (accTenant s t) a n = 0 then
        let r := checkedRead (accTenant s t) a n s
        modChn (fun c => { c with answer := some (tok, true, r.1) }) r.2
       else modChn (fun c => { c with answer := some (tok, false, zeros n) })
        (violate (accTenant s t) false (accessCheck s (accTenant s t) a n) a s)) := by
  refine (if_neg (by simp [hgwy, hmem])).trans ?_
  dsimp only
  split <;> simp_all

theorem execRemoteRequest_write (hgwy : s.gwyRuns = true) (hmem : s.isMember = true) (tok t a n : Nat) (d : List Byte) :
    execRemoteRequest tok t a n (some d) s = .next
      (if accessCheck s (accTenant s t) a d.length = 0 then
        modChn (fun c => { c with answer := some (tok, true, []) }) (checkedWrite (accTenant s t) a d s)
       else modChn (fun c => { c with answer := some (tok, false, []) })
        (violate (accTenant s t) true (accessCheck s (accTenant s t) a d.length) a s)) := by
  refine (if_neg (by simp [hgwy, hmem])).trans ?_
  dsimp only
  split <;> simp_all

end

/-- Settles O54, by the effect of each command on the state with its reply and one equation for each row in each case it
tells apart. That the leaves of an epoch advance are operands, event 7 at a member, identifier 0 by default, an orphan's
event 4 and the adoption of an epoch received are log 28. -/
theorem chainMembersAndEpoch : Obligations.ChainMembersAndEpoch := by
  refine ⟨fun h ps s => ⟨fun ht => ⟨fun hen => ?disabled, fun hen hrole => ?alone, fun hen hrole => ?seeking⟩,
      execChnLeave_of_taken, fun ht => Cmd.exec_later ht⟩,
    fun s => ⟨fun hm => ⟨fun via port dly cid role ep rq st hvia =>
        ⟨fun id => execJoinReq_of_accepted hm hvia, execJoinReq_of_refused hm hvia⟩,
        fun leaves => ⟨fun hp => ?waits, fun hp hnone => ?advances⟩,
        fun a b => ⟨fun hlinks => congrArg _ (linkLost_of_unknown hlinks),
          fun hlinks => congrArg _ (linkLost_of_known hm hlinks)⟩⟩,
      fun reason hst => execJoinReq_of_answer hst reason,
      fun hmem hrole => ⟨fun e isOver sw => ?advance, fun links hbackup => ?backup,
        fun links hbackup => ⟨execMasterLost_of_orphan hmem hrole hbackup links,
          fun m hne => execMasterLost_of_new_master hmem hrole hbackup hne links⟩⟩,
      fun e hadv => ⟨adoptEpoch_of_prepared hadv, adoptEpoch_of_none_prepared hadv⟩,
      fun tok t a hgwy hmem => ⟨fun n hacc => ?read, fun n hacc => ?readFails, fun n d hacc => ?write,
        fun n d hacc => ?writeFails⟩⟩⟩
  case disabled => exact (execChnCfg_of_taken ht).trans (congrArg _ (configureChain_disabled hen _))
  case alone => exact (execChnCfg_of_taken ht).trans (congrArg _ (configureChain_master hen hrole _))
  case seeking => exact (execChnCfg_of_taken ht).trans (congrArg _ (configureChain_seeking hen hrole _))
  case waits => exact (execEpochAdvance_of_master hm leaves).trans (congrArg _ (if_pos hp))
  case advances =>
    refine (execEpochAdvance_of_master hm leaves).trans (congrArg _ ((if_neg ?_).trans ?_))
    · exact Bool.eq_false_iff.mp hp
    · exact advanceEpoch_of_none_prepared hnone
  case advance =>
    refine (execAdvance_of_member hmem hrole e isOver sw).trans ?_
    cases sw <;> rfl
  case backup => exact (if_neg (masterLost_guard hmem hrole)).trans (if_pos (by simpa using hbackup))
  case read => exact (execRemoteRequest_read hgwy hmem tok t a n).trans (congrArg _ (if_pos hacc))
  case readFails => exact (execRemoteRequest_read hgwy hmem tok t a n).trans (congrArg _ (if_neg hacc))
  case write => exact (execRemoteRequest_write hgwy hmem tok t a n d).trans (congrArg _ (if_pos hacc))
  case writeFails => exact (execRemoteRequest_write hgwy hmem tok t a n d).trans (congrArg _ (if_neg hacc))

end Sys2Proof.Machine
end

section
/-! SUPPORT. The register rows: addresses, one word read, one word written (R12, R13, R67, R197, R306, R361 to R363, R392). -/

namespace Sys2Proof.Machine

/-! ## Parameters of one word -/

theorem fieldAt_leBytes_append {n v : Nat} (hv : v < 256 ^ n) (t : List Byte) : fieldAt (leBytes n v ++ t) 0 n = v := by
  rw [fieldAt, List.drop_zero, List.take_append_of_le_length (length_leBytes n v).ge,
    List.take_of_length_le (length_leBytes n v).le, leNat_leBytes, Nat.mod_eq_of_lt hv]

theorem fieldAt_append {l : List Byte} {k : Nat} (hl : l.length = k) (t : List Byte) (n : Nat) :
    fieldAt (l ++ t) k n = fieldAt t 0 n := by
  subst hl
  rw [fieldAt, List.drop_left, fieldAt, List.drop_zero]

theorem u32_leBytes_append {a : Nat} (ha : a < 2 ^ 32) (t : List Byte) : u32 (leBytes 4 a ++ t) 0 = a :=
  fieldAt_leBytes_append ha t

/-- The addresses that the read of one word names. -/
theorem wordAddrs_readPs {a : Nat} (ha : a < 2 ^ 32) : wordAddrs (u32 (readPs a) 0) (regCount (readPs a)) = [a] := by
  have haddr : u32 (readPs a) 0 = a := by
    rw [readPs, List.append_assoc, u32_leBytes_append ha]
  have hcount : regCount (readPs a) = 1 := by
    rw [regCount, readPs, List.append_assoc]
    exact fieldAt_append (length_leBytes 4 a) _ 2
  rw [haddr, hcount]
  rfl

/-- The word that the write of one word names. -/
theorem writesOf_writePs {a v : Nat} (ha : a < 2 ^ 32) (hv : v < 2 ^ 32) :
    writesOf (writePs a v) = [⟨a, 0xFFFFFFFF, v⟩] := by
  have hps : writePs a v = leBytes 4 a ++ (leBytes 2 1 ++ leBytes 2 0 ++ leBytes 4 v) := by
    simp only [writePs, List.append_assoc]
  have haddr : u32 (writePs a v) 0 = a := by rw [hps, u32_leBytes_append ha]
  have hcount : regCount (writePs a v) = 1 := by
    rw [regCount, hps]
    exact fieldAt_append (length_leBytes 4 a) _ 2
  have hval : u32 (writePs a v) 8 = v := by
    rw [u32, writePs, fieldAt_append (by simp)]
    simpa using fieldAt_leBytes_append (n := 4) hv []
  rw [writesOf, hcount, haddr]
  exact congrArg (fun w => [(⟨a, 0xFFFFFFFF, w⟩ : WordWrite)]) hval

theorem modifyOf_modPs {a mask v : Nat} (ha : a < 2 ^ 32) (hm : mask < 2 ^ 32) (hv : v < 2 ^ 32) :
    modifyOf (modPs a mask v) = ⟨a, mask, v⟩ := by
  have haddr : u32 (modPs a mask v) 0 = a := by rw [modPs, List.append_assoc, u32_leBytes_append ha]
  have hmask : u32 (modPs a mask v) 4 = mask := by
    rw [u32, modPs, List.append_assoc, fieldAt_append (length_leBytes 4 a)]
    exact fieldAt_leBytes_append hm _
  have hval : u32 (modPs a mask v) 8 = v := by
    rw [u32, modPs, fieldAt_append (by simp)]
    simpa using fieldAt_leBytes_append (n := 4) hv []
  rw [modifyOf, haddr, hmask, hval]

/-! ## States that differ in their ports -/

/-- A state with other ports: what the packet of a command leaves besides the command's effect. -/
def State.onPorts (s : State) (p : PortSt × PortSt) : State := { s with hp0 := p.1, hp1 := p.2 }

theorem exists_consumed_eq (h : Hdr) (s : State) : ∃ p, consumed h s = s.onPorts p := by
  obtain ⟨port, _⟩ := h
  cases port
  · exact ⟨(_, s.hp1), rfl⟩
  · exact ⟨(s.hp0, _), rfl⟩

theorem exists_okReply_eq (op : Nat) (h : Hdr) (d : List Byte) (s : State) : ∃ p, okReply op h d s = s.onPorts p := by
  obtain ⟨port, _⟩ := h
  cases port
  · exact ⟨(_, s.hp1), rfl⟩
  · exact ⟨(s.hp0, _), rfl⟩

section

variable {h : Hdr} {s : State} {a : Nat}

/-- A read-only word of one field reads as the low 32 bits of its value. -/
theorem latchReg_word (n : Nat) (f : State → State) : (latchReg [ro 0 32 n] f).word = n % 2 ^ 32 := by
  simp [latchReg, Reg.word, ro, fld]

/-- The read of one word: its reply holds the word, then its latch acts. -/
theorem execRegRead_word {n m : Nat} {latch : State → State} (ha : a < 2 ^ 32)
    (hreg : ∀ p, regAt (viewer h s) a (s.onPorts p) = some (latchReg [ro 0 32 n] latch)) (hm : n % 2 ^ 32 = m)
    (ht : cRegRead.taken h (readPs a) s = true) :
    execRegRead h (readPs a) s = .next (latch (okReply 0x0110 h (leBytes 4 m) s)) := by
  obtain ⟨p, hp⟩ := exists_consumed_eq h s
  obtain ⟨q, hq⟩ := exists_okReply_eq 0x0110 h (leBytes 4 m) s
  rw [execRegRead_of_taken ht]
  dsimp only
  rw [wordAddrs_readPs ha, hp, readWords_cons (hreg p), latchReg_word, hm]
  simp only [readWords, List.append_nil]
  rw [hq, hreg q]
  rfl

end

/-! ## Addresses of the register map -/

section

variable {v : Viewer} {s : State} {t o : Nat}

theorem regAt_sch (ht : t < 64) (ho : o < 0x100) :
    regAt v (0x00104000 + t * 0x100 + o) s = (acctReg t o s).map (hideReg (hides v t s)) := by
  have hblock : (0x00104000 + t * 0x100 + o) / 0x100000 = 0x1 := by omega
  have hword : (0x00104000 + t * 0x100 + o) % 0x100000 = 0x4000 + t * 0x100 + o := by omega
  have hten : (0x4000 + t * 0x100 + o - 0x4000) / 0x100 = t := by omega
  have hofs : (0x4000 + t * 0x100 + o) % 0x100 = o := by omega
  rw [regAt, if_neg (by omega), hblock, hword]
  change schReg v (0x4000 + t * 0x100 + o) s = _
  unfold schReg
  split
  case h_11 => rw [if_pos (by simp only [Bool.and_eq_true, decide_eq_true_eq]; omega), hten, hofs]
  all_goals omega

theorem regAt_bwr (ht : t < 64) (ho : o < 0x10) :
    regAt v (0x00301000 + t * 0x10 + o) s = (bwrTen t o s).map (hideReg (hides v t s)) := by
  have hblock : (0x00301000 + t * 0x10 + o) / 0x100000 = 0x3 := by omega
  have hword : (0x00301000 + t * 0x10 + o) % 0x100000 = 0x1000 + t * 0x10 + o := by omega
  have hten : (0x1000 + t * 0x10 + o - 0x1000) / 0x10 = t := by omega
  have hofs : (0x1000 + t * 0x10 + o) % 0x10 = o := by omega
  rw [regAt, if_neg (by omega), hblock, hword]
  change bwrReg v (0x1000 + t * 0x10 + o) s = _
  unfold bwrReg
  dsimp only
  split
  case h_4 => rw [if_neg (by simp only [Bool.and_eq_true, decide_eq_true_eq]; omega), if_pos (by simp only [Bool.and_eq_true, decide_eq_true_eq]; omega), hten, hofs]
  all_goals omega

theorem regAt_cl (ht : t < 12) (ho : o < 0x100000) : regAt v (clBase t + o) s = clReg t o s := by
  have hcl : (clBase t + o - 0x01000000) / 0x100000 = t := by
    unfold clBase
    omega
  have hofs : (clBase t + o) % 0x100000 = o := by
    unfold clBase
    omega
  have hin : 0x01000000 ≤ clBase t + o ∧ clBase t + o < 0x01C00000 := by
    unfold clBase
    omega
  rw [regAt, if_pos hin.1, if_pos hin.2, hcl, hofs]

theorem regAt_sd (ht : t < 64) : regAt v (chanStat false t) s = if 16 * s.edies ≤ t then none else sdReg v t 0 s := by
  have hblock : (0x00702000 + t * 0x10) / 0x100000 = 0x7 := by omega
  have hword : (0x00702000 + t * 0x10) % 0x100000 = 0x2000 + t * 0x10 := by omega
  have hchan : (0x2000 + t * 0x10 - 0x2000) / 0x10 = t := by omega
  have hofs : (0x2000 + t * 0x10) % 0x10 = 0 := by omega
  change regAt v (0x00702000 + t * 0x10) s = _
  rw [regAt, if_neg (by omega), hblock, hword]
  change ctlReg v (0x2000 + t * 0x10) s = _
  rw [ctlReg, if_neg (by omega), if_pos (by simp only [Bool.and_eq_true, decide_eq_true_eq]; omega), hchan, hofs]

theorem regAt_enc (ht : t < 32) : regAt v (chanStat true t) s = if 8 * s.edies ≤ t then none else encReg v t 0 s := by
  have hblock : (0x00703000 + t * 0x10) / 0x100000 = 0x7 := by omega
  have hword : (0x00703000 + t * 0x10) % 0x100000 = 0x3000 + t * 0x10 := by omega
  have hchan : (0x3000 + t * 0x10 - 0x3000) / 0x10 = t := by omega
  have hofs : (0x3000 + t * 0x10) % 0x10 = 0 := by omega
  change regAt v (0x00703000 + t * 0x10) s = _
  rw [regAt, if_neg (by omega), hblock, hword]
  change ctlReg v (0x3000 + t * 0x10) s = _
  rw [ctlReg, if_neg (by omega), if_neg (by simp only [Bool.and_eq_true, decide_eq_true_eq]; omega),
    if_pos (by simp only [Bool.and_eq_true, decide_eq_true_eq]; omega), hchan, hofs]

end

/-! ## Rows that read one word -/

section

variable {h : Hdr} {s : State} {t : Nat}

theorem hides_onPorts (v : Viewer) (t : Nat) (s : State) (p : PortSt × PortSt) : hides v t (s.onPorts p) = hides v t s := rfl

/-- The count in whole us that a tenant's engine-time registers show. -/
def engineUs (ns : Nat) : Nat := min (ns / 1000) (2 ^ 64 - 1)

/-- The read of ETLC_LO (`word` 0) or ETBE_LO: the low word of a count in ns, shown in us, and what its latch does to the
tenant's accounts. -/
theorem execLoWordRead_of_latch {word ofs ns : Nat} {latch : Acct → Acct} (ht : t < 64) (hofs : ofs < 0x100)
    (hid : hides (viewer h s) t s = false) (hword : (if word = 0 then 0x00 else 0x08) = ofs)
    (hacct : ∀ p, acctReg t ofs (s.onPorts p) = some (latchReg [ro 0 32 (loWord (ns / 1000))]
      (modTen t (fun v => { v with acct := latch v.acct }))))
    (htaken : cRegRead.taken h (readPs (0x00104000 + t * 0x100 + ofs)) s = true) : execLoWordRead h t word s = .next
      ((okReply 0x0110 h (leBytes 4 (engineUs ns % 2 ^ 32)) s).setTen t
        { s.ten t with acct := latch (s.ten t).acct }) := by
  have hreg : ∀ p, regAt (viewer h s) (0x00104000 + t * 0x100 + ofs) (s.onPorts p)
      = some (latchReg [ro 0 32 (loWord (ns / 1000))] (modTen t (fun v => { v with acct := latch v.acct }))) := by
    intro p
    rw [regAt_sch ht hofs, hides_onPorts, hid, hacct p]
    rfl
  subst hword
  exact (execRegRead_word (by omega) hreg (Nat.mod_mod _ _) htaken).trans (congrArg _ (modTen_eq (okReply_ten ..) _))

theorem execBwrTnnBloRead_of_taken (ht : t < 64) (hid : hides (viewer h s) t s = false)
    (htaken : cRegRead.taken h (readPs (0x00301004 + t * 0x10)) s = true) : execBwrTnnBloRead h t s = .next
      { okReply 0x0110 h (leBytes 4 (s.bwr.beats.getD t 0 % 2 ^ 32)) s with
        bwr := { s.bwr with beatsHi := s.bwr.beatsHi.set t (s.bwr.beats.getD t 0 / 2 ^ 32) } } := by
  have haddr : 0x00301004 + t * 0x10 = 0x00301000 + t * 0x10 + 0x4 := by omega
  have hreg : ∀ p, regAt (viewer h s) (0x00301000 + t * 0x10 + 0x4) (s.onPorts p)
      = some (latchReg [ro 0 32 (s.bwr.beats.getD t 0)]
        (modBwr (fun b => { b with beatsHi := b.beatsHi.set t (b.beats.getD t 0 / 2 ^ 32) }))) := by
    intro p
    rw [regAt_bwr ht (by decide), hides_onPorts, hid]
    rfl
  rw [haddr] at htaken
  refine (execRegRead_word (by omega) hreg rfl htaken).trans ?_
  simp only [modBwr, okReply_bwr]

theorem execSchEpochLoRead_of_taken (htaken : cRegRead.taken h (readPs 0x00100030) s = true) :
    execSchEpochLoRead h s = .next { okReply 0x0110 h (leBytes 4 (s.sch.epoch % 2 ^ 32)) s with
      sch := { s.sch with epochHi := s.sch.epoch / 2 ^ 32 % 65536 } } := by
  have hreg : ∀ p, regAt (viewer h s) 0x00100030 (s.onPorts p) = some (latchReg [ro 0 32 s.sch.epoch]
      (modSch (fun c => { c with epochHi := c.epoch / 2 ^ 32 % 65536 }))) := fun _ => rfl
  refine (execRegRead_word (by decide) hreg rfl htaken).trans ?_
  simp only [modSch, okReply_sch]

theorem execSnsTnowLoRead_of_taken (htaken : cRegRead.taken h (readPs 0x00400000) s = true) :
    execSnsTnowLoRead h s = .next { okReply 0x0110 h (leBytes 4 (s.time.ns % 2 ^ 32)) s with
      time := { s.time with latHi := s.time.ns / 2 ^ 32 % 2 ^ 32, latFr := tnowFr s } } := by
  have hreg : ∀ p, regAt (viewer h s) 0x00400000 (s.onPorts p) = some (latchReg [ro 0 32 s.time.ns] latchTnow) :=
    fun _ => rfl
  refine (execRegRead_word (by decide) hreg rfl htaken).trans ?_
  simp only [latchTnow, tnowFr, okReply_time, okReply_clk]

theorem execSkkLtimeLoRead_of_taken (htaken : cRegRead.taken h (readPs 0x00800014) s = true) :
    execSkkLtimeLoRead h s = .next { okReply 0x0110 h (leBytes 4 (s.skk.ltime % 2 ^ 32)) s with
      skk := { s.skk with ltimeHi := s.skk.ltime / 2 ^ 32 % 2 ^ 32 } } := by
  have hreg : ∀ p, regAt (viewer h s) 0x00800014 (s.onPorts p) = some (latchReg [ro 0 32 s.skk.ltime]
      (modSkk (fun k => { k with ltimeHi := k.ltime / 2 ^ 32 % 2 ^ 32 }))) := fun _ => rfl
  refine (execRegRead_word (by decide) hreg rfl htaken).trans ?_
  simp only [modSkk, okReply_skk]

/-- The two halves of PWR_POWER are its two fields. -/
theorem leBytes_pwrPower (s : State) : leBytes 4 (pwrPower s % 2 ^ 32) = leBytes 2 s.pow.mean ++ leBytes 2 s.pow.peak := by
  have hbyte : ∀ a b, a % 256 = b % 256 → BitVec.ofNat 8 a = BitVec.ofNat 8 b :=
    fun a b hab => BitVec.eq_of_toNat_eq (by simpa using hab)
  simp only [pwrPower, fld, leBytes, List.cons_append, List.nil_append, List.cons.injEq, and_true]
  exact ⟨hbyte _ _ (by omega), hbyte _ _ (by omega), hbyte _ _ (by omega), hbyte _ _ (by omega)⟩

theorem execPwrPowerRead_of_taken (htaken : cRegRead.taken h (readPs 0x00C0000C) s = true) :
    execPwrPowerRead h s = .next { okReply 0x0110 h (leBytes 2 s.pow.mean ++ leBytes 2 s.pow.peak) s with
      pow := { s.pow with peak := 0 } } := by
  have hreg : ∀ p, regAt (viewer h s) 0x00C0000C (s.onPorts p) = some (latchReg [ro 0 32 (pwrPower s)]
      (modPow (fun w => { w with peak := 0 }))) := fun _ => rfl
  refine (execRegRead_word (by decide) hreg rfl htaken).trans ?_
  rw [leBytes_pwrPower]
  simp only [modPow, okReply_pow]

end

end Sys2Proof.Machine
end

section
/-! SUPPORT. The rows that write one register field (R13, R67, R306, R361 to R363, R392). -/

namespace Sys2Proof.Machine

/-! ## One word written -/

/-- A taken command's parameters have passed step 8 of R50. -/
theorem Cmd.paramOk_of_taken {c : Cmd} {h : Hdr} {ps : List Byte} {s : State} (ht : c.taken h ps s = true) :
    c.paramOk h ps s = true := by
  have hv := verdict_of_taken ht
  unfold verdict at hv
  split at hv
  · exact absurd hv (by decide)
  · split at hv
    · exact absurd hv (by decide)
    · split at hv
      · exact absurd hv (by decide)
      · split at hv
        · exact absurd hv (by decide)
        · simp_all

section

variable {h : Hdr} {s : State} {a mask v : Nat} {full : Bool}

theorem execRegWrite_word (ha : a < 2 ^ 32) (hv : v < 2 ^ 32) (ht : cRegWrite.taken h (writePs a v) s = true) :
    execRegWrite h (writePs a v) s = .next (writeWord true h (okReply 0x0111 h [] s) ⟨a, 0xFFFFFFFF, v⟩) := by
  rw [execRegWrite, Cmd.exec_now ht]
  simp only [cRegWrite, writesOf_writePs ha hv]
  rfl

/-- A word that a taken REG_WRITE writes names a register that lets the session change what it changes. -/
theorem exists_reg_of_write_taken (ha : a < 2 ^ 32) (hv : v < 2 ^ 32) (ht : cRegWrite.taken h (writePs a v) s = true) :
    ∃ r, regAt (viewer h s) a s = some r ∧ r.denied true 0xFFFFFFFF v = false := by
  have hparam := Cmd.paramOk_of_taken ht
  have hdenied := Cmd.denied_of_taken ht
  simp only [cRegWrite, writesParam, writesDenied, writesOf_writePs ha hv, writesOk, WordWrite.test, List.all_cons,
    List.all_nil, List.any_cons, List.any_nil, Bool.and_eq_true, Bool.or_eq_false_iff] at hparam hdenied
  obtain ⟨-, ⟨⟨haligned, hsome⟩, -⟩, -⟩ := hparam
  obtain ⟨-, -, hallowed⟩ := hdenied
  obtain ⟨r, hr⟩ := Option.isSome_iff_exists.mp hsome
  rw [haligned, hsome, hr] at hallowed
  exact ⟨r, hr, by simpa using hallowed⟩

theorem exists_reg_of_modify_taken (ha : a < 2 ^ 32) (hm : mask < 2 ^ 32) (hv : v < 2 ^ 32)
    (ht : cRegModify.taken h (modPs a mask v) s = true) : ∃ r, regAt (viewer h s) a s = some r := by
  have hparam := Cmd.paramOk_of_taken ht
  simp only [cRegModify, writesParam, writesOk, modifyOf_modPs ha hm hv, List.all_cons, Bool.and_eq_true] at hparam
  exact Option.isSome_iff_exists.mp hparam.1.1.2

theorem writeWord_of_reg {u : State} {r : Reg} (hr : regAt (viewer h u) a u = some r) :
    writeWord full h u ⟨a, mask, v⟩ = if recorded full a r mask v then
      journalCmd h (if full then 0x0111 else 0x0112) a (wordAt (viewer h u) a (r.write mask v u)) (r.write mask v u)
      else r.write mask v u := by
  simp only [writeWord, hr]

/-- A REG_MODIFY that the journal does not record: the word as it then reads, and what it writes. -/
theorem execRegModify_of_unrecorded {r : Reg} {w : Nat} (ha : a < 2 ^ 32) (hm : mask < 2 ^ 32) (hv : v < 2 ^ 32)
    (hreg : ∀ p, regAt (viewer h s) a (s.onPorts p) = some r) (hrec : recorded false a r mask v = false)
    (hword : ∀ p, wordAt (viewer h s) a (r.write mask v (s.onPorts p)) = w)
    (ht : cRegModify.taken h (modPs a mask v) s = true) : execRegModify h (modPs a mask v) s = .next
      (r.write mask v (okReply 0x0112 h (leBytes 4 w) s)) := by
  have hwrite : ∀ u p, u = s.onPorts p → viewer h u = viewer h s → writeWord false h u ⟨a, mask, v⟩ = r.write mask v u := by
    rintro u p rfl hview
    rw [writeWord_of_reg ((congrArg (regAt · a _) hview).trans (hreg p)), hrec]
    rfl
  have haddr : u32 (modPs a mask v) 0 = a := congrArg WordWrite.addr (modifyOf_modPs ha hm hv)
  obtain ⟨p, hp⟩ := exists_consumed_eq h s
  obtain ⟨q, hq⟩ := exists_okReply_eq 0x0112 h (leBytes 4 w) s
  rw [execRegModify_of_taken ht, modifyOf_modPs ha hm hv, haddr, hwrite _ p hp (viewer_consumed h s), hp, hword p,
    hwrite _ q hq (viewer_okReply ..)]

/-- A REG_MODIFY that the journal records, of a register that the journal itself leaves alone. -/
theorem execRegModify_of_recorded {r : Reg} {w : Nat} (ha : a < 2 ^ 32) (hm : mask < 2 ^ 32) (hv : v < 2 ^ 32)
    (hreg : ∀ p, regAt (viewer h s) a (s.onPorts p) = some r) (hrec : recorded false a r mask v = true)
    (hword : ∀ p, wordAt (viewer h s) a (r.write mask v (s.onPorts p)) = w)
    (hjournal : ∀ n u, wordAt (viewer h s) a (journalCmd h 0x0112 a n u) = wordAt (viewer h s) a u)
    (ht : cRegModify.taken h (modPs a mask v) s = true) : execRegModify h (modPs a mask v) s = .next
      (journalCmd h 0x0112 a w (r.write mask v (okReply 0x0112 h (leBytes 4 w) s))) := by
  have hwrite : ∀ u p, u = s.onPorts p → viewer h u = viewer h s →
      writeWord false h u ⟨a, mask, v⟩ = journalCmd h 0x0112 a w (r.write mask v u) := by
    rintro u p rfl hview
    rw [writeWord_of_reg ((congrArg (regAt · a _) hview).trans (hreg p)), hrec, hview, hword p]
    rfl
  have haddr : u32 (modPs a mask v) 0 = a := congrArg WordWrite.addr (modifyOf_modPs ha hm hv)
  obtain ⟨p, hp⟩ := exists_consumed_eq h s
  obtain ⟨q, hq⟩ := exists_okReply_eq 0x0112 h (leBytes 4 w) s
  rw [execRegModify_of_taken ht, modifyOf_modPs ha hm hv, haddr, hwrite _ p hp (viewer_consumed h s), hjournal, hp, hword p,
    hwrite _ q hq (viewer_okReply ..)]

end

/-! ## One field written -/

/-- What a write of a word under a mask does with one of its fields. -/
def RField.write (f : RField) (mask v : Nat) (s : State) : State :=
  match f.change mask v with
  | some n => f.put n s
  | none => s

theorem Reg.write_eq (r : Reg) (mask v : Nat) (s : State) :
    r.write mask v s = r.onWrite (r.fields.foldl (fun s f => f.write mask v s) s) := rfl

section

variable {f : RField} {mask v : Nat} {s : State}

theorem RField.write_of_unchanged (h : f.change mask v = none) : f.write mask v s = s := by
  rw [write, h]

/-- A field outside the mask keeps its value. -/
theorem RField.change_of_outside (hm : bits mask f.lo f.w = 0) (hval : f.val < 2 ^ f.w) : f.change mask v = none := by
  simp only [change, hm, Nat.and_zero, Nat.or_zero, Nat.sub_zero, Nat.and_two_pow_sub_one_eq_mod, Nat.mod_eq_of_lt hval]
  cases f.acc <;> simp

/-- A field inside the mask takes the bits of the word. -/
theorem RField.change_of_covered (hacc : f.acc = .rw ∨ f.acc = .rwl) (hm : bits mask f.lo f.w = 2 ^ f.w - 1) :
    f.change mask v = if bits v f.lo f.w = f.val then none else some (bits v f.lo f.w) := by
  have hlt : bits v f.lo f.w < 2 ^ f.w := Nat.mod_lt _ (Nat.two_pow_pos _)
  rcases hacc with h | h <;>
    simp only [change, h, hm, Nat.sub_self, Nat.and_zero, Nat.zero_or, Nat.and_two_pow_sub_one_eq_mod,
      Nat.mod_eq_of_lt hlt, beq_iff_eq]

theorem RField.write_of_covered (hacc : f.acc = .rw ∨ f.acc = .rwl) (hm : bits mask f.lo f.w = 2 ^ f.w - 1) :
    f.write mask v s = if bits v f.lo f.w = f.val then s else f.put (bits v f.lo f.w) s := by
  rw [write, change_of_covered hacc hm]
  split_ifs <;> rfl

end

@[simp] theorem write_ro (lo w n mask v : Nat) (s : State) : (ro lo w n).write mask v s = s :=
  RField.write_of_unchanged (RField.change_of_ro rfl)

/-- A flag is cleared where it is set and both words hold 1 at it. -/
@[simp] theorem write_w1c (lo : Nat) (b : Bool) (clear : State → State) (mask v : Nat) (s : State) :
    (w1c lo b clear).write mask v s = if b && mask.testBit lo && v.testBit lo then clear s else s := by
  have hset := RField.isSome_change_of_w1c (f := w1c lo b clear) (mask := mask) (v := v) rfl rfl
  have hval : (w1c lo b clear).val ≠ 0 ↔ b = true := by cases b <;> simp [w1c, b2n]
  rw [hval, ← and_assoc, ← Bool.and_eq_true, ← Bool.and_eq_true] at hset
  rw [RField.write]
  split
  · next n hn => exact (if_pos (hset.mp (by rw [hn]; rfl))).symm
  · next hn => exact (if_neg (fun hb => by simpa [hn] using hset.mpr hb)).symm

/-- An action bit acts where both words hold 1 at it. -/
@[simp] theorem write_wo (lo : Nat) (act : State → State) (mask v : Nat) (s : State) :
    (wo lo act).write mask v s = if mask.testBit lo && v.testBit lo then act s else s := by
  have hset := RField.isSome_change_of_wo (f := wo lo act) (mask := mask) (v := v) rfl rfl
  rw [← Bool.and_eq_true] at hset
  rw [RField.write]
  split
  · next n hn => exact (if_pos (hset.mp (by rw [hn]; rfl))).symm
  · next hn => exact (if_neg (fun hb => by simpa [hn] using hset.mpr hb)).symm

/-- A flag as a field. -/
@[simp] theorem fld_b2n (b : Bool) (lo : Nat) : fld (b2n b) lo 1 = b2n b * 2 ^ lo := by
  cases b <;> simp [fld, b2n]

theorem fld_of_lt {v w : Nat} (hv : v < 2 ^ w) (lo : Nat) : fld v lo w = v * 2 ^ lo := by
  rw [fld, Nat.mod_eq_of_lt hv]

/-! ## Clusters (CLRCNT and CLRWAIT) -/

section

variable {h : Hdr} {s : State} {n : Nat}

/-- A cluster's registers are not journaled (R361). -/
theorem recorded_clBase (full : Bool) (n o : Nat) (r : Reg) (mask v : Nat) :
    recorded full (clBase n + o) r mask v = false := by
  have hbase : 0x01000000 ≤ clBase n + o := by
    unfold clBase
    omega
  simp [recorded, unjournaledBlock, hbase]

/-- A REG_MODIFY of bit 31 alone of a cluster's register, whose action changes nothing that the word shows. -/
theorem execRegModify_clAction {o : Nat} {r : Reg} {f : Cluster → Cluster} {word : Cluster → Nat} (hn : n < 12)
    (ho : o < 0x100000) (hr : clReg n o s = some r) (hwrite : ∀ u, r.write 0x80000000 0x80000000 u = modCl n f u)
    (hword : ∀ v u, wordAt v (clBase n + o) u = word (u.cl n)) (hsame : ∀ c, word (f c) = word c)
    (hreg : ∀ p, clReg n o (s.onPorts p) = clReg n o s)
    (ht : cRegModify.taken h (modPs (clBase n + o) 0x80000000 0x80000000) s = true) :
    execRegModify h (modPs (clBase n + o) 0x80000000 0x80000000) s = .next
      ((okReply 0x0112 h (leBytes 4 (word (s.cl n))) s).setCl n (f (s.cl n))) := by
  have hlt : clBase n + o < 2 ^ 32 := by
    unfold clBase
    omega
  have hafter : ∀ p, wordAt (viewer h s) (clBase n + o) (r.write 0x80000000 0x80000000 (s.onPorts p)) = word (s.cl n) := by
    intro p
    rw [hwrite, hword, modCl, State.cl_setCl, if_pos rfl, hsame]
    rfl
  obtain ⟨q, hq⟩ := exists_okReply_eq 0x0112 h (leBytes 4 (word (s.cl n))) s
  rw [execRegModify_of_unrecorded hlt (by decide) (by decide) (fun p => ((regAt_cl hn ho).trans (hreg p)).trans hr)
    (recorded_clBase ..) hafter ht, hwrite, hq]
  rfl

/-- The flags that a cluster's status word shows. -/
def clFlags (c : Cluster) : Nat :=
  16 * b2n c.nonfin + 8 * b2n c.ocsat + 4 * b2n c.accsat + 2 * b2n c.qsat + b2n c.skew

theorem wordAt_clStat (v : Viewer) (hn : n < 12) (s : State) : wordAt v (clBase n + 0x400) s = clFlags (s.cl n) := by
  rw [wordAt, regAt_cl hn (by decide)]
  simp only [clReg, Reg.word, plainReg, wo, w1c, List.foldl_cons, List.foldl_nil, fld_b2n, clFlags]
  simp
  omega

theorem wordAt_haloStat (v : Viewer) (hn : n < 12) (s : State) : wordAt v (clBase n + 0x420) s = b2n (s.cl n).stale := by
  rw [wordAt, regAt_cl hn (by decide)]
  simp only [clReg, Reg.word, plainReg, wo, w1c, List.foldl_cons, List.foldl_nil, fld_b2n]
  simp

theorem execClrcntWrite_of_taken (hn : n < 12)
    (ht : cRegModify.taken h (modPs (0x01000400 + n * 0x100000) 0x80000000 0x80000000) s = true) :
    execClrcntWrite h n s = .next ((okReply 0x0112 h (leBytes 4 (clFlags (s.cl n))) s).setCl n
      { s.cl n with nonfinCnt := 0, qsatCnt := 0 }) := by
  have haddr : 0x01000400 + n * 0x100000 = clBase n + 0x400 := by
    unfold clBase
    omega
  have hset : (0x80000000).testBit 31 = true := by decide
  have hclear : ∀ i, i < 5 → (0x80000000).testBit i = false := by decide
  rw [haddr] at ht
  exact execRegModify_clAction (f := fun c => { c with nonfinCnt := 0, qsatCnt := 0 }) (word := clFlags) hn (by decide) rfl
    (fun u => by simp [Reg.write_eq, plainReg, hset, hclear]) (fun v u => wordAt_clStat v hn u) (fun _ => rfl)
    (fun _ => rfl) ht

theorem execHalostatClrwait_of_taken (hn : n < 12)
    (ht : cRegModify.taken h (modPs (0x01000420 + n * 0x100000) 0x80000000 0x80000000) s = true) :
    execHalostatClrwait h n s = .next ((okReply 0x0112 h (leBytes 4 (b2n (s.cl n).stale)) s).setCl n
      { s.cl n with haloDw := 0, haloSw := 0 }) := by
  have haddr : 0x01000420 + n * 0x100000 = clBase n + 0x420 := by
    unfold clBase
    omega
  have hset : (0x80000000).testBit 31 = true := by decide
  have hclear : (0x80000000).testBit 0 = false := by decide
  rw [haddr] at ht
  exact execRegModify_clAction (f := fun c => { c with haloDw := 0, haloSw := 0 }) (word := fun c => b2n c.stale) hn
    (by decide) rfl (fun u => by simp [Reg.write_eq, plainReg, hset, hclear]) (fun v u => wordAt_haloStat v hn u)
    (fun _ => rfl) (fun _ => rfl) ht

end

end Sys2Proof.Machine
end

section
/-! SUPPORT. FAULT of a sigma-delta or encoder channel (R306, R353). -/

namespace Sys2Proof.Machine

/-! ## A status word with one flag to clear -/

/-- A status word of read-only fields, a fault flag at bit 1 and whether the channel is owned at bit 0. -/
def faultReg (front : List RField) (fault : Bool) (clear : State → State) (owned : Bool) : Reg :=
  plainReg (front ++ [w1c 1 fault clear, ro 0 1 (b2n owned)])

section

variable {front : List RField} {fault owned : Bool} {clear : State → State} {a mask v : Nat} {s : State}

theorem foldl_write_of_unchanged {l : List RField} (hl : ∀ f ∈ l, f.change mask v = none) (s : State) :
    l.foldl (fun s f => f.write mask v s) s = s := by
  induction l with
  | nil => rfl
  | cons f l ih =>
    rw [List.foldl_cons, RField.write_of_unchanged (hl f (List.mem_cons_self ..))]
    exact ih fun g hg => hl g (List.mem_cons_of_mem _ hg)

theorem faultReg_write (hro : ∀ f ∈ front, f.acc = .ro) (s : State) :
    (faultReg front fault clear owned).write 2 2 s = if fault then clear s else s := by
  have hset : (2).testBit 1 = true := by decide
  rw [Reg.write_eq]
  simp only [faultReg, plainReg, id, List.foldl_append,
    foldl_write_of_unchanged (mask := 2) (v := 2) (fun f hf => RField.change_of_ro (hro f hf))]
  simp [hset]

/-- A hidden status word changes nothing: its fields read zero (R66, R353). -/
theorem hidden_faultReg_write (hro : ∀ f ∈ front, f.acc = .ro) (s : State) :
    (hideReg true (faultReg front fault clear owned)).write 2 2 s = s := by
  rw [Reg.write_eq]
  refine foldl_write_of_unchanged (fun f hf => ?_) s
  obtain ⟨g, hg, rfl⟩ := List.mem_map.mp hf
  rcases List.mem_append.mp hg with hg | hg
  · exact RField.change_of_ro (hro g hg)
  · rcases List.mem_pair.mp hg with rfl | rfl
    · simp [RField.change, w1c]
    · exact RField.change_of_ro rfl

/-- A hidden register reads zero. -/
theorem hidden_word (r : Reg) : (hideReg true r).word = 0 := by
  have hfold : ∀ (l : List RField) (n : Nat), (l.map (fun f => { f with val := 0 })).foldl
      (fun a f => a + (if f.acc == .wo then 0 else fld f.val f.lo f.w)) n = n := by
    intro l
    induction l with
    | nil => exact fun n => rfl
    | cons f l ih =>
      intro n
      rw [List.map_cons, List.foldl_cons, ih]
      simp [fld]
  exact hfold r.fields 0

/-- Neither read-only fields nor flags cleared by writing 1 are journaled (R361). -/
theorem faultReg_not_journaled (hro : ∀ f ∈ front, f.acc = .ro) :
    (faultReg front fault clear owned).journaled mask v = false := by
  have hfront : front.any (fun f => f.acc != .w1c && (f.change mask v).isSome) = false :=
    List.any_eq_false.mpr fun f hf => by simp [RField.change_of_ro (hro f hf)]
  simp only [Reg.journaled, faultReg, plainReg, List.any_append, hfront]
  simp [w1c, RField.change_of_ro, ro]

theorem hidden_faultReg_not_journaled (hro : ∀ f ∈ front, f.acc = .ro) :
    (hideReg true (faultReg front fault clear owned)).journaled mask v = false := by
  refine List.any_eq_false.mpr fun f hf => ?_
  obtain ⟨g, hg, rfl⟩ := List.mem_map.mp hf
  rcases List.mem_append.mp hg with hg | hg
  · simp [RField.change_of_ro, hro g hg]
  · rcases List.mem_pair.mp hg with rfl | rfl
    · simp [w1c]
    · simp [RField.change_of_ro, ro]

theorem recorded_of_not_journaled {r : Reg} (hr : r.journaled mask v = false) (ha : a < 0x00C00000) :
    recorded false a r mask v = false := by
  simp [recorded, hr, inPwr, ha.not_ge]

end

theorem chanStat_lt {isEnc : Bool} {c : Nat} (hc : c < 64) : chanStat isEnc c < 0x00C00000 := by
  unfold chanStat
  split <;> omega

section

variable {h : Hdr} {s : State} {c : Nat} {isEnc : Bool} {front : List RField} {fault owned : Bool}
  {clear : State → State}

/-- A W1C write of the fault flag of a channel that the session sees. -/
theorem execChannelFaultClear_of_shown {w : Nat} (hc : c < 64) (hro : ∀ f ∈ front, f.acc = .ro)
    (hreg : ∀ p, regAt (viewer h s) (chanStat isEnc c) (s.onPorts p) = some (faultReg front fault clear owned))
    (hword : ∀ p, wordAt (viewer h s) (chanStat isEnc c) (if fault then clear (s.onPorts p) else s.onPorts p) = w)
    (ht : cRegModify.taken h (modPs (chanStat isEnc c) 2 2) s = true) : execChannelFaultClear h isEnc c s = .next
      (if fault then clear (okReply 0x0112 h (leBytes 4 w) s) else okReply 0x0112 h (leBytes 4 w) s) := by
  have hlt := chanStat_lt (isEnc := isEnc) hc
  refine (execRegModify_of_unrecorded (by omega) (by decide) (by decide) hreg
    (recorded_of_not_journaled (faultReg_not_journaled hro) hlt)
    (fun p => (congrArg _ (faultReg_write hro _)).trans (hword p)) ht).trans ?_
  rw [faultReg_write hro]

/-- A W1C write of the fault flag of a channel hidden from the session changes nothing. -/
theorem execChannelFaultClear_of_hidden (hc : c < 64) (hro : ∀ f ∈ front, f.acc = .ro)
    (hreg : ∀ p, regAt (viewer h s) (chanStat isEnc c) (s.onPorts p)
      = some (hideReg true (faultReg front fault clear owned)))
    (ht : cRegModify.taken h (modPs (chanStat isEnc c) 2 2) s = true) :
    execChannelFaultClear h isEnc c s = .next (okReply 0x0112 h (leBytes 4 0) s) := by
  have hlt := chanStat_lt (isEnc := isEnc) hc
  have hword : ∀ p, wordAt (viewer h s) (chanStat isEnc c)
      ((hideReg true (faultReg front fault clear owned)).write 2 2 (s.onPorts p)) = 0 := by
    intro p
    rw [hidden_faultReg_write hro, wordAt, hreg p]
    exact hidden_word _
  refine (execRegModify_of_unrecorded (by omega) (by decide) (by decide) hreg
    (recorded_of_not_journaled (hidden_faultReg_not_journaled hro) hlt) hword ht).trans ?_
  rw [hidden_faultReg_write hro]

end

/-! ## Sigma-delta and encoder channels -/

/-- What clearing the fault flag of a channel does, unless its cause persists. -/
def clearSd (c : Nat) (s : State) : State :=
  if (s.sd c).bad then s else { s with sds := s.sds.set c { s.sd c with fault := false } }
def clearEnc (c : Nat) (s : State) : State :=
  if (s.enc c).bad then s else { s with encs := s.encs.set c { s.enc c with fault := false } }

/-- The read-only fields in front of a channel's fault flag. -/
def sdFront (x : SdCh) : List RField := [ros 16 16 x.errs]
def encFront (x : EncCh) : List RField := [ros 16 16 x.errs, ro 8 1 (b2n x.homed)]

theorem sdFront_ro (x : SdCh) : ∀ f ∈ sdFront x, f.acc = .ro := by simp [sdFront, ros, ro]
theorem encFront_ro (x : EncCh) : ∀ f ∈ encFront x, f.acc = .ro := by simp [encFront, ros, ro]

/-- What a channel's status word shows. -/
def sdWord (x : SdCh) : Nat := min x.errs 0xFFFF * 2 ^ 16 + 2 * b2n x.fault + b2n x.owner.isSome
def encWord (x : EncCh) : Nat :=
  min x.errs 0xFFFF * 2 ^ 16 + 2 ^ 8 * b2n x.homed + 2 * b2n x.fault + b2n x.owner.isSome

section

variable {v : Viewer} {s : State} {c : Nat}

theorem regAt_sd_shown (hc : c < 64) (hpresent : ¬ 16 * s.edies ≤ c)
    (hshown : ∀ o, (s.sd c).owner = some o → hides v o s = false) : regAt v (chanStat false c) s
      = some (faultReg (sdFront (s.sd c)) (s.sd c).fault (clearSd c) (s.sd c).owner.isSome) := by
  rw [regAt_sd hc, if_neg hpresent]
  cases howner : (s.sd c).owner with
  | none => simp only [sdReg, howner]; rfl
  | some o => simp only [sdReg, howner, hshown o howner]; rfl

theorem regAt_enc_shown (hc : c < 32) (hpresent : ¬ 8 * s.edies ≤ c)
    (hshown : ∀ o, (s.enc c).owner = some o → hides v o s = false) : regAt v (chanStat true c) s
      = some (faultReg (encFront (s.enc c)) (s.enc c).fault (clearEnc c) (s.enc c).owner.isSome) := by
  rw [regAt_enc hc, if_neg hpresent]
  cases howner : (s.enc c).owner with
  | none => simp only [encReg, howner]; rfl
  | some o => simp only [encReg, howner, hshown o howner]; rfl

theorem regAt_sd_hidden {o : Nat} (hc : c < 64) (hpresent : ¬ 16 * s.edies ≤ c) (howner : (s.sd c).owner = some o)
    (hid : hides v o s = true) : regAt v (chanStat false c) s
      = some (hideReg true (faultReg (sdFront (s.sd c)) (s.sd c).fault (clearSd c) true)) := by
  rw [regAt_sd hc, if_neg hpresent]
  simp only [sdReg, howner, hid]
  rfl

theorem regAt_enc_hidden {o : Nat} (hc : c < 32) (hpresent : ¬ 8 * s.edies ≤ c) (howner : (s.enc c).owner = some o)
    (hid : hides v o s = true) : regAt v (chanStat true c) s
      = some (hideReg true (faultReg (encFront (s.enc c)) (s.enc c).fault (clearEnc c) true)) := by
  rw [regAt_enc hc, if_neg hpresent]
  simp only [encReg, howner, hid]
  rfl

theorem wordAt_sd (hc : c < 64) (hpresent : ¬ 16 * s.edies ≤ c)
    (hshown : ∀ o, (s.sd c).owner = some o → hides v o s = false) :
    wordAt v (chanStat false c) s = sdWord (s.sd c) := by
  have herrs : min (s.sd c).errs 0xFFFF < 2 ^ 16 := by omega
  rw [wordAt, regAt_sd_shown hc hpresent hshown]
  simp only [Reg.word, faultReg, plainReg, sdFront, List.cons_append, List.nil_append, List.foldl_cons, List.foldl_nil, ros,
    ro, w1c, fld_b2n, sdWord]
  simp [fld_of_lt herrs]
  omega

theorem wordAt_enc (hc : c < 32) (hpresent : ¬ 8 * s.edies ≤ c)
    (hshown : ∀ o, (s.enc c).owner = some o → hides v o s = false) :
    wordAt v (chanStat true c) s = encWord (s.enc c) := by
  have herrs : min (s.enc c).errs 0xFFFF < 2 ^ 16 := by omega
  rw [wordAt, regAt_enc_shown hc hpresent hshown]
  simp only [Reg.word, faultReg, plainReg, encFront, List.cons_append, List.nil_append, List.foldl_cons, List.foldl_nil, ros,
    ro, w1c, fld_b2n, encWord]
  simp [fld_of_lt herrs]
  omega

theorem State.onPorts_sd (s : State) (p : PortSt × PortSt) (c : Nat) : (s.onPorts p).sd c = s.sd c := rfl
theorem State.onPorts_enc (s : State) (p : PortSt × PortSt) (c : Nat) : (s.onPorts p).enc c = s.enc c := rfl

/-- A state with one channel replaced. -/
def State.setSd (s : State) (c : Nat) (x : SdCh) : State := { s with sds := s.sds.set c x }
def State.setEnc (s : State) (c : Nat) (x : EncCh) : State := { s with encs := s.encs.set c x }

@[simp] theorem State.sd_setSd (s : State) (c : Nat) (x : SdCh) : (s.setSd c x).sd c = x := Map.getD_set_self ..
@[simp] theorem State.enc_setEnc (s : State) (c : Nat) (x : EncCh) : (s.setEnc c x).enc c = x := Map.getD_set_self ..

/-- The flag is cleared where its cause is gone. -/
theorem clearSd_eq (c : Nat) (s : State) : (if (s.sd c).fault then clearSd c s else s)
    = if (s.sd c).fault = ((s.sd c).fault && (s.sd c).bad) then s
      else s.setSd c { s.sd c with fault := false } := by
  rw [clearSd]
  cases (s.sd c).fault <;> cases (s.sd c).bad <;> rfl

theorem clearEnc_eq (c : Nat) (s : State) : (if (s.enc c).fault then clearEnc c s else s)
    = if (s.enc c).fault = ((s.enc c).fault && (s.enc c).bad) then s
      else s.setEnc c { s.enc c with fault := false } := by
  rw [clearEnc]
  cases (s.enc c).fault <;> cases (s.enc c).bad <;> rfl

/-- The channel as its status word shows it after the write. -/
theorem wordAt_clearSd (hc : c < 64) (hpresent : ¬ 16 * s.edies ≤ c)
    (hshown : ∀ o, (s.sd c).owner = some o → hides v o s = false) :
    wordAt v (chanStat false c) (if (s.sd c).fault then clearSd c s else s)
      = sdWord { s.sd c with fault := (s.sd c).fault && (s.sd c).bad } := by
  rw [clearSd_eq]
  split
  · next hf => rw [wordAt_sd hc hpresent hshown, ← hf]
  · next hf =>
    have hbad : ((s.sd c).fault && (s.sd c).bad) = false := by
      cases h : (s.sd c).fault <;> cases h' : (s.sd c).bad <;> simp_all
    have hafter : ∀ o, ((s.setSd c { s.sd c with fault := false }).sd c).owner = some o → hides v o s = false := by
      rwa [State.sd_setSd]
    rw [wordAt_sd (s := s.setSd c { s.sd c with fault := false }) hc hpresent hafter, State.sd_setSd, hbad]

theorem wordAt_clearEnc (hc : c < 32) (hpresent : ¬ 8 * s.edies ≤ c)
    (hshown : ∀ o, (s.enc c).owner = some o → hides v o s = false) :
    wordAt v (chanStat true c) (if (s.enc c).fault then clearEnc c s else s)
      = encWord { s.enc c with fault := (s.enc c).fault && (s.enc c).bad } := by
  rw [clearEnc_eq]
  split
  · next hf => rw [wordAt_enc hc hpresent hshown, ← hf]
  · next hf =>
    have hbad : ((s.enc c).fault && (s.enc c).bad) = false := by
      cases h : (s.enc c).fault <;> cases h' : (s.enc c).bad <;> simp_all
    have hafter : ∀ o, ((s.setEnc c { s.enc c with fault := false }).enc c).owner = some o → hides v o s = false := by
      rwa [State.enc_setEnc]
    rw [wordAt_enc (s := s.setEnc c { s.enc c with fault := false }) hc hpresent hafter, State.enc_setEnc, hbad]

end

section

variable {h : Hdr} {s : State} {c o : Nat}

/-- A taken write names a channel that the part has. -/
theorem sd_present (hc : c < 64) (ht : cRegModify.taken h (modPs (chanStat false c) 2 2) s = true) :
    ¬ 16 * s.edies ≤ c := by
  intro habsent
  have hlt := chanStat_lt (isEnc := false) hc
  obtain ⟨r, hr⟩ := exists_reg_of_modify_taken (by omega) (by decide) (by decide) ht
  rw [regAt_sd hc, if_pos habsent] at hr
  cases hr

theorem enc_present (hc : c < 32) (ht : cRegModify.taken h (modPs (chanStat true c) 2 2) s = true) :
    ¬ 8 * s.edies ≤ c := by
  intro habsent
  have hlt := chanStat_lt (isEnc := true) (c := c) (by omega)
  obtain ⟨r, hr⟩ := exists_reg_of_modify_taken (by omega) (by decide) (by decide) ht
  rw [regAt_enc hc, if_pos habsent] at hr
  cases hr

/-- The state after a reply differs in its ports only, so a channel's flag is cleared in it as in the state before. -/
theorem clearSd_okReply (c w : Nat) (h : Hdr) (s : State) :
    (if (s.sd c).fault then clearSd c (okReply 0x0112 h (leBytes 4 w) s) else okReply 0x0112 h (leBytes 4 w) s)
      = if (s.sd c).fault = ((s.sd c).fault && (s.sd c).bad) then okReply 0x0112 h (leBytes 4 w) s
        else { okReply 0x0112 h (leBytes 4 w) s with sds := s.sds.set c { s.sd c with fault := false } } := by
  obtain ⟨q, hq⟩ := exists_okReply_eq 0x0112 h (leBytes 4 w) s
  have heq := clearSd_eq c (s.onPorts q)
  rw [State.onPorts_sd] at heq
  rw [hq]
  exact heq

theorem clearEnc_okReply (c w : Nat) (h : Hdr) (s : State) :
    (if (s.enc c).fault then clearEnc c (okReply 0x0112 h (leBytes 4 w) s) else okReply 0x0112 h (leBytes 4 w) s)
      = if (s.enc c).fault = ((s.enc c).fault && (s.enc c).bad) then okReply 0x0112 h (leBytes 4 w) s
        else { okReply 0x0112 h (leBytes 4 w) s with encs := s.encs.set c { s.enc c with fault := false } } := by
  obtain ⟨q, hq⟩ := exists_okReply_eq 0x0112 h (leBytes 4 w) s
  have heq := clearEnc_eq c (s.onPorts q)
  rw [State.onPorts_enc] at heq
  rw [hq]
  exact heq

theorem execChannelFaultClear_sd_shown (hc : c < 64) (ht : cRegModify.taken h (modPs (chanStat false c) 2 2) s = true)
    (hshown : ∀ o, (s.sd c).owner = some o → hides (viewer h s) o s = false) : execChannelFaultClear h false c s = .next
      (let f := (s.sd c).fault && (s.sd c).bad
       let r := okReply 0x0112 h (leBytes 4 (sdWord { s.sd c with fault := f })) s
       if (s.sd c).fault = f then r else { r with sds := s.sds.set c { s.sd c with fault := false } }) := by
  have hpresent := sd_present hc ht
  have hreg : ∀ p, regAt (viewer h s) (chanStat false c) (s.onPorts p)
      = some (faultReg (sdFront (s.sd c)) (s.sd c).fault (clearSd c) (s.sd c).owner.isSome) :=
    fun p => regAt_sd_shown (s := s.onPorts p) hc hpresent hshown
  have hword : ∀ p, wordAt (viewer h s) (chanStat false c)
      (if (s.sd c).fault then clearSd c (s.onPorts p) else s.onPorts p)
      = sdWord { s.sd c with fault := (s.sd c).fault && (s.sd c).bad } :=
    fun p => wordAt_clearSd (s := s.onPorts p) hc hpresent hshown
  rw [execChannelFaultClear_of_shown hc (sdFront_ro (s.sd c)) hreg hword ht, clearSd_okReply]

theorem execChannelFaultClear_enc_shown (hc : c < 32) (ht : cRegModify.taken h (modPs (chanStat true c) 2 2) s = true)
    (hshown : ∀ o, (s.enc c).owner = some o → hides (viewer h s) o s = false) : execChannelFaultClear h true c s = .next
      (let f := (s.enc c).fault && (s.enc c).bad
       let r := okReply 0x0112 h (leBytes 4 (encWord { s.enc c with fault := f })) s
       if (s.enc c).fault = f then r else { r with encs := s.encs.set c { s.enc c with fault := false } }) := by
  have hpresent := enc_present hc ht
  have hreg : ∀ p, regAt (viewer h s) (chanStat true c) (s.onPorts p)
      = some (faultReg (encFront (s.enc c)) (s.enc c).fault (clearEnc c) (s.enc c).owner.isSome) :=
    fun p => regAt_enc_shown (s := s.onPorts p) hc hpresent hshown
  have hword : ∀ p, wordAt (viewer h s) (chanStat true c)
      (if (s.enc c).fault then clearEnc c (s.onPorts p) else s.onPorts p)
      = encWord { s.enc c with fault := (s.enc c).fault && (s.enc c).bad } :=
    fun p => wordAt_clearEnc (s := s.onPorts p) hc hpresent hshown
  rw [execChannelFaultClear_of_shown (by omega) (encFront_ro (s.enc c)) hreg hword ht, clearEnc_okReply]

theorem execChannelFaultClear_sd_hidden (hc : c < 64) (howner : (s.sd c).owner = some o)
    (hid : hides (viewer h s) o s = true) (ht : cRegModify.taken h (modPs (chanStat false c) 2 2) s = true) :
    execChannelFaultClear h false c s = .next (okReply 0x0112 h (leBytes 4 0) s) := by
  have hpresent := sd_present hc ht
  have hreg : ∀ p, regAt (viewer h s) (chanStat false c) (s.onPorts p)
      = some (hideReg true (faultReg (sdFront (s.sd c)) (s.sd c).fault (clearSd c) true)) :=
    fun p => regAt_sd_hidden (s := s.onPorts p) hc hpresent howner hid
  exact execChannelFaultClear_of_hidden hc (sdFront_ro (s.sd c)) hreg ht

theorem execChannelFaultClear_enc_hidden (hc : c < 32) (howner : (s.enc c).owner = some o)
    (hid : hides (viewer h s) o s = true) (ht : cRegModify.taken h (modPs (chanStat true c) 2 2) s = true) :
    execChannelFaultClear h true c s = .next (okReply 0x0112 h (leBytes 4 0) s) := by
  have hpresent := enc_present hc ht
  have hreg : ∀ p, regAt (viewer h s) (chanStat true c) (s.onPorts p)
      = some (hideReg true (faultReg (encFront (s.enc c)) (s.enc c).fault (clearEnc c) true)) :=
    fun p => regAt_enc_hidden (s := s.onPorts p) hc hpresent howner hid
  exact execChannelFaultClear_of_hidden (by omega) (encFront_ro (s.enc c)) hreg ht

end

end Sys2Proof.Machine
end

section
/-! SUPPORT. ACTL_CLR and PWR_FSEL (R36, R197, R361). -/

namespace Sys2Proof.Machine

section

variable {h : Hdr} {s : State} {a n v : Nat}

/-- A REG_WRITE of one word, with its journal entry where it is recorded. -/
theorem execRegWrite_of_reg {r : Reg} {w : Nat} (ha : a < 2 ^ 32) (hv : v < 2 ^ 32)
    (hreg : ∀ p, regAt (viewer h s) a (s.onPorts p) = some r)
    (hword : ∀ p, wordAt (viewer h s) a (r.write 0xFFFFFFFF v (s.onPorts p)) = w)
    (ht : cRegWrite.taken h (writePs a v) s = true) : execRegWrite h (writePs a v) s = .next
      (if recorded true a r 0xFFFFFFFF v then
        journalCmd h 0x0111 a w (r.write 0xFFFFFFFF v (okReply 0x0111 h [] s))
       else r.write 0xFFFFFFFF v (okReply 0x0111 h [] s)) := by
  have hview : viewer h (okReply 0x0111 h [] s) = viewer h s := viewer_okReply ..
  obtain ⟨q, hq⟩ := exists_okReply_eq 0x0111 h [] s
  rw [execRegWrite_word ha hv ht]
  rw [hq] at hview ⊢
  rw [writeWord_of_reg ((congrArg (regAt · a _) hview).trans (hreg q)), hview, hword q]
  rfl

/-! ## ACTL_CLR -/

/-- The register of ACTL_CLR. -/
def actlReg (n : Nat) : Reg := plainReg [wo 0 (modTen n (fun v => { v with acct := Acct.zero }))]

theorem regAt_actl (vw : Viewer) (hn : n < 64) (s : State) :
    regAt vw (0x00104000 + n * 0x100 + 0x1C) s = some (hideReg (hides vw n s) (actlReg n)) :=
  regAt_sch hn (by decide)

theorem actlReg_word (hidden : Bool) (n : Nat) : (hideReg hidden (actlReg n)).word = 0 := by
  cases hidden <;> rfl

theorem execSchTnnActlClr_of_taken (hn : n < 64)
    (ht : cRegWrite.taken h (writePs (0x0010401C + n * 0x100) 1) s = true) : execSchTnnActlClr h n s = .next
      (journalCmd h 0x0111 (0x0010401C + n * 0x100) 0
        ((okReply 0x0111 h [] s).setTen n { s.ten n with acct := Acct.zero })) := by
  have haddr : 0x0010401C + n * 0x100 = 0x00104000 + n * 0x100 + 0x1C := by omega
  rw [haddr] at ht ⊢
  have hshown : hides (viewer h s) n s = false := by
    obtain ⟨r, hr, hallowed⟩ := exists_reg_of_write_taken (by omega) (by decide) ht
    rw [regAt_actl _ hn] at hr
    cases hr
    by_contra hhid
    rw [Bool.not_eq_false] at hhid
    rw [hhid] at hallowed
    exact absurd hallowed (by simp [Reg.denied, hideReg])
  have hreg : ∀ p, regAt (viewer h s) (0x00104000 + n * 0x100 + 0x1C) (s.onPorts p) = some (actlReg n) := by
    intro p
    rw [regAt_actl _ hn, hides_onPorts, hshown]
    rfl
  have hwrite : ∀ u, (actlReg n).write 0xFFFFFFFF 1 u = modTen n (fun v => { v with acct := Acct.zero }) u := by
    intro u
    have hset : (0xFFFFFFFF).testBit 0 = true := by decide
    simp [Reg.write_eq, actlReg, plainReg, hset]
  have hrec : recorded true (0x00104000 + n * 0x100 + 0x1C) (actlReg n) 0xFFFFFFFF 1 = true := by
    have hbit : (0xFFFFFFFF).testBit 0 = true := by decide
    have hbit' : (1).testBit 0 = true := by decide
    have hset : ((wo 0 (modTen n (fun v => { v with acct := Acct.zero }))).change 0xFFFFFFFF 1).isSome = true :=
      (RField.isSome_change_of_wo rfl rfl).mpr ⟨hbit, hbit'⟩
    have hjournal : (actlReg n).journaled 0xFFFFFFFF 1 = true := by
      rw [Reg.journaled, actlReg, plainReg, List.any_cons, hset]
      rfl
    have hblock : unjournaledBlock (0x00104000 + n * 0x100 + 0x1C) = false := by
      simp only [unjournaledBlock, Bool.or_eq_false_iff, decide_eq_false_iff_not]
      omega
    rw [recorded, hblock, hjournal]
    rfl
  have hword : ∀ p, wordAt (viewer h s) (0x00104000 + n * 0x100 + 0x1C)
      ((actlReg n).write 0xFFFFFFFF 1 (s.onPorts p)) = 0 := by
    intro p
    rw [wordAt, regAt_actl _ hn]
    exact actlReg_word ..
  refine (execRegWrite_of_reg (by omega) (by decide) hreg hword ht).trans ?_
  rw [hrec, hwrite, modTen_eq (okReply_ten ..)]
  rfl

/-! ## PWR_FSEL -/

/-- A field inside the mask takes the bits of the word. -/
theorem rw_write_of_covered {lo w m mask : Nat} {put : Nat → State → State} (hm : bits mask lo w = 2 ^ w - 1) :
    (rw lo w m put).write mask v s = if bits v lo w = m then s else put (bits v lo w) s :=
  RField.write_of_covered (.inl rfl) hm

theorem rwl_write_of_covered {lo w m mask : Nat} {locked : Bool} {put : Nat → State → State}
    (hm : bits mask lo w = 2 ^ w - 1) :
    (rwl lo w m locked put).write mask v s = if bits v lo w = m then s else put (bits v lo w) s :=
  RField.write_of_covered (.inr rfl) hm

/-- PWR_FSEL with a selection. -/
def fselReg (k : Clk) : Reg :=
  { plainReg [rw 8 4 k.fselKind (fun n => modClk (fun k => { k with fselKind := n })),
      rw 0 8 k.fselInst (fun n => modClk (fun k => { k with fselInst := n }))] with
    onWrite := modClk (fun k => { k with fmValid := false, fmArmed := false }) }

/-- The clock after a write of PWR_FSEL. -/
def selected (v : Nat) (k : Clk) : Clk :=
  { k with fselKind := v / 2 ^ 8 % 16, fselInst := v % 256, fmValid := false, fmArmed := false }

theorem fselReg_write (v : Nat) (s : State) :
    (fselReg s.clk).write 0xFFFFFFFF v s = { s with clk := selected v s.clk } := by
  have hkind : bits v 8 4 = v / 2 ^ 8 % 16 := rfl
  have hinst : bits v 0 8 = v % 256 := by simp [bits]
  rw [Reg.write_eq]
  simp only [fselReg, plainReg, List.foldl_cons, List.foldl_nil]
  rw [rw_write_of_covered (by decide), rw_write_of_covered (by decide), hkind, hinst]
  split_ifs with h1 h2 h2
  · simp only [modClk, selected, h1, h2]
  · simp only [modClk, selected, h1]
  · simp only [modClk, selected, h2]
  · rfl

theorem execPwrFselWrite_of_taken (hv : v < 2 ^ 32) (ht : cRegWrite.taken h (writePs 0x00C00110 v) s = true) :
    execPwrFselWrite h v s = .next (journalCmd h 0x0111 0x00C00110 (v / 2 ^ 8 % 16 * 2 ^ 8 + v % 256)
      { okReply 0x0111 h [] s with clk := selected v s.clk }) := by
  have hreg : ∀ p, regAt (viewer h s) 0x00C00110 (s.onPorts p) = some (fselReg s.clk) := fun _ => rfl
  have hword : ∀ p, wordAt (viewer h s) 0x00C00110 ((fselReg s.clk).write 0xFFFFFFFF v (s.onPorts p))
      = v / 2 ^ 8 % 16 * 2 ^ 8 + v % 256 := by
    intro p
    have hclk : regAt (viewer h s) 0x00C00110 { s.onPorts p with clk := selected v s.clk }
        = some (fselReg (selected v s.clk)) := rfl
    have hwrite := fselReg_write v (s.onPorts p)
    rw [show (s.onPorts p).clk = s.clk from rfl] at hwrite
    rw [hwrite, wordAt, hclk]
    simp [Reg.word, fselReg, plainReg, rw, fld, selected]
  have hrec : recorded true 0x00C00110 (fselReg s.clk) 0xFFFFFFFF v = true := by
    simp [recorded, unjournaledBlock, inPwr]
  refine (execRegWrite_of_reg (by decide) hv hreg hword ht).trans ?_
  have hwrite := fselReg_write v (okReply 0x0111 h [] s)
  rw [okReply_clk] at hwrite
  rw [if_pos hrec, hwrite]

end

end Sys2Proof.Machine
end

section
/-! SUPPORT. The fields of PWR_CFG (R392, R395, R408). -/

namespace Sys2Proof.Machine

/-! ## Fields under a mask -/

section

variable {lo w n mask v : Nat} {locked : Bool} {put : Nat → State → State} {s : State}

theorem rw_write_of_outside (hm : bits mask lo w = 0) (hn : n < 2 ^ w) : (rw lo w n put).write mask v s = s :=
  RField.write_of_unchanged (RField.change_of_outside hm hn)

theorem rwl_write_of_outside (hm : bits mask lo w = 0) (hn : n < 2 ^ w) : (rwl lo w n locked put).write mask v s = s :=
  RField.write_of_unchanged (RField.change_of_outside hm hn)

theorem bits_mul_two_pow (hv : v < 2 ^ w) : bits (v * 2 ^ lo) lo w = v := by
  rw [bits, Nat.mul_div_cancel _ (Nat.two_pow_pos lo), Nat.mod_eq_of_lt hv]

/-- A field written alone takes the value given. -/
theorem rw_write_alone (hm : bits mask lo w = 2 ^ w - 1) (hv : v < 2 ^ w) :
    (rw lo w n put).write mask (v * 2 ^ lo) s = if v = n then s else put v s := by
  rw [rw_write_of_covered hm, bits_mul_two_pow hv]

theorem rwl_write_alone (hm : bits mask lo w = 2 ^ w - 1) (hv : v < 2 ^ w) :
    (rwl lo w n locked put).write mask (v * 2 ^ lo) s = if v = n then s else put v s := by
  rw [rwl_write_of_covered hm, bits_mul_two_pow hv]

end

theorem b2n_lt_two (b : Bool) : b2n b < 2 := by cases b <;> decide

/-! ## The cap in force -/

theorem evPower_pow {ev : Nat} {inst value : Option Nat} {s : State} : (evPower ev inst value s).pow = s.pow := rfl

theorem withCap_eq (f : State → State) (s : State) :
    withCap f s = if capW (f s) = capW s then f s else evPower 1 none (some (capW (f s))) (f s) := by
  simp only [withCap, beq_iff_eq]

theorem withCap_pow (f : State → State) (s : State) : (withCap f s).pow = (f s).pow := by
  rw [withCap_eq]
  split
  · rfl
  · exact evPower_pow

/-! ## PWR_CFG -/

theorem Pow.inFields_iff (w : Pow) : w.inFields = true ↔ w.cap < 256 ∧ w.capmax < 256 ∧ w.dramRate < 4 := by
  simp [inFields, and_assoc]

/-- The word that PWR_CFG reads. -/
def pwrCfgWord (w : Pow) : Nat := w.cap * 2 ^ 24 + w.capmax * 2 ^ 16 + w.dramRate * 2 ^ 8 + b2n w.lockCfg

section

variable {h : Hdr} {s : State} {v mask val : Nat}

theorem regAt_pwrCfg (vw : Viewer) (s : State) : regAt vw 0x00C00004 s = some (pwrCfgReg s) := rfl

theorem wordAt_pwrCfg (vw : Viewer) (hf : s.pow.inFields = true) : wordAt vw 0x00C00004 s = pwrCfgWord s.pow := by
  obtain ⟨hcap, hmax, hrate⟩ := (Pow.inFields_iff _).mp hf
  have hlock : fld (b2n s.pow.lockCfg) 0 1 = b2n s.pow.lockCfg := by simp
  rw [wordAt, regAt_pwrCfg]
  simp only [Reg.word, pwrCfgReg, plainReg, rw, rwl, List.foldl_cons, List.foldl_nil]
  rw [fld_of_lt hcap, fld_of_lt hmax, fld_of_lt hrate, hlock, pwrCfgWord]
  simp

/-- A REG_MODIFY of PWR_CFG: what it does to the fields, and the word as it then reads. -/
theorem execRegModify_pwrCfg {change : State → State} {w : Pow} (hm : mask < 2 ^ 32) (hval : val < 2 ^ 32)
    (hwrite : ∀ u, (pwrCfgReg s).write mask val u = change u) (hpow : ∀ p, (change (s.onPorts p)).pow = w)
    (hf : w.inFields = true) (ht : cRegModify.taken h (modPs 0x00C00004 mask val) s = true) :
    execRegModify h (modPs 0x00C00004 mask val) s = .next (journalCmd h 0x0112 0x00C00004 (pwrCfgWord w)
      (change (okReply 0x0112 h (leBytes 4 (pwrCfgWord w)) s))) := by
  have hreg : ∀ p, regAt (viewer h s) 0x00C00004 (s.onPorts p) = some (pwrCfgReg s) := fun _ => rfl
  have hrec : recorded false 0x00C00004 (pwrCfgReg s) mask val = true := by simp [recorded, unjournaledBlock, inPwr]
  have hword : ∀ p, wordAt (viewer h s) 0x00C00004 ((pwrCfgReg s).write mask val (s.onPorts p)) = pwrCfgWord w := by
    intro p
    rw [hwrite, wordAt_pwrCfg _ (by rwa [hpow p]), hpow p]
  have hjournal : ∀ n u, wordAt (viewer h s) 0x00C00004 (journalCmd h 0x0112 0x00C00004 n u)
      = wordAt (viewer h s) 0x00C00004 u := fun _ _ => rfl
  rw [execRegModify_of_recorded (by decide) hm hval hreg hrec hword hjournal ht, hwrite]

theorem pwrCfgReg_write_cap (hf : s.pow.inFields = true) (hv : v < 256) (u : State) :
    (pwrCfgReg s).write 0xFF000000 (v * 2 ^ 24) u
      = if v = s.pow.cap then u else withCap (modPow (fun p => { p with cap := v })) u := by
  obtain ⟨-, hmax, hrate⟩ := (Pow.inFields_iff _).mp hf
  rw [Reg.write_eq]
  simp only [pwrCfgReg, plainReg, List.foldl_cons, List.foldl_nil, id]
  rw [rwl_write_of_outside (by decide) (b2n_lt_two _), rwl_write_of_outside (by decide) hrate,
    rwl_write_of_outside (by decide) hmax, rw_write_alone (by decide) hv]

theorem pwrCfgReg_write_capmax (hf : s.pow.inFields = true) (hv : v < 256) (u : State) :
    (pwrCfgReg s).write 0x00FF0000 (v * 2 ^ 16) u = if v = s.pow.capmax then u
      else withCap (modPow (fun p => { p with capmax := v, cap := min p.cap v })) u := by
  obtain ⟨hcap, -, hrate⟩ := (Pow.inFields_iff _).mp hf
  rw [Reg.write_eq]
  simp only [pwrCfgReg, plainReg, List.foldl_cons, List.foldl_nil, id]
  rw [rwl_write_of_outside (by decide) (b2n_lt_two _), rwl_write_of_outside (by decide) hrate,
    rwl_write_alone (by decide) hv, rw_write_of_outside (by decide) hcap]

theorem pwrCfgReg_write_dramRate (hf : s.pow.inFields = true) (hv : v < 4) (u : State) :
    (pwrCfgReg s).write 0x00000300 (v * 2 ^ 8) u
      = if v = s.pow.dramRate then u else modPow (fun p => { p with dramRate := v }) u := by
  obtain ⟨hcap, hmax, -⟩ := (Pow.inFields_iff _).mp hf
  rw [Reg.write_eq]
  simp only [pwrCfgReg, plainReg, List.foldl_cons, List.foldl_nil, id]
  rw [rwl_write_of_outside (by decide) (b2n_lt_two _), rwl_write_alone (by decide) hv,
    rwl_write_of_outside (by decide) hmax, rw_write_of_outside (by decide) hcap]

theorem execPwrCfgCap_of_taken (hv : v < 256) (hf : s.pow.inFields = true)
    (ht : cRegModify.taken h (modPs 0x00C00004 0xFF000000 (v * 2 ^ 24)) s = true) :
    let w := pwrCfgWord { s.pow with cap := v }
    execPwrCfgCap h v s = .next (journalCmd h 0x0112 0x00C00004 w
      (if v = s.pow.cap then okReply 0x0112 h (leBytes 4 w) s
       else withCap (modPow (fun p => { p with cap := v })) (okReply 0x0112 h (leBytes 4 w) s))) := by
  obtain ⟨-, hmax, hrate⟩ := (Pow.inFields_iff _).mp hf
  have hpow : ∀ p, (if v = s.pow.cap then s.onPorts p
      else withCap (modPow (fun p => { p with cap := v })) (s.onPorts p)).pow = { s.pow with cap := v } := by
    intro p
    split
    · next heq => rw [heq]; rfl
    · rw [withCap_pow]; rfl
  rw [execPwrCfgCap, fld_of_lt (show v < 2 ^ 8 from hv)]
  exact execRegModify_pwrCfg (by decide) (by omega) (pwrCfgReg_write_cap hf hv) hpow
    ((Pow.inFields_iff _).mpr ⟨hv, hmax, hrate⟩) ht

theorem execPwrCfgCapmax_of_taken (hv : v < 256) (hf : s.pow.inFields = true)
    (ht : cRegModify.taken h (modPs 0x00C00004 0x00FF0000 (v * 2 ^ 16)) s = true) :
    let w := pwrCfgWord { s.pow with cap := if v = s.pow.capmax then s.pow.cap else min s.pow.cap v, capmax := v }
    execPwrCfgCapmax h v s = .next (journalCmd h 0x0112 0x00C00004 w
      (if v = s.pow.capmax then okReply 0x0112 h (leBytes 4 w) s
       else withCap (modPow (fun p => { p with capmax := v, cap := min s.pow.cap v }))
        (okReply 0x0112 h (leBytes 4 w) s))) := by
  obtain ⟨hcap, -, hrate⟩ := (Pow.inFields_iff _).mp hf
  have hkept : (if v = s.pow.capmax then s.pow.cap else min s.pow.cap v) < 256 := by split <;> omega
  have hpow : ∀ p, (if v = s.pow.capmax then s.onPorts p
      else withCap (modPow (fun p => { p with capmax := v, cap := min p.cap v })) (s.onPorts p)).pow
      = { s.pow with cap := if v = s.pow.capmax then s.pow.cap else min s.pow.cap v, capmax := v } := by
    intro p
    split
    · next heq => rw [heq]; rfl
    · rw [withCap_pow]; rfl
  have hown : ∀ u, u.pow = s.pow → withCap (modPow (fun p => { p with capmax := v, cap := min p.cap v })) u
      = withCap (modPow (fun p => { p with capmax := v, cap := min s.pow.cap v })) u := by
    intro u hu
    simp only [withCap, modPow, hu]
  dsimp only
  rw [execPwrCfgCapmax, fld_of_lt (show v < 2 ^ 8 from hv), ← hown _ (okReply_pow ..)]
  exact execRegModify_pwrCfg (by decide) (by omega) (pwrCfgReg_write_capmax hf hv) hpow
    ((Pow.inFields_iff _).mpr ⟨hkept, hv, hrate⟩) ht

theorem execPwrCfgDramrate_of_taken (hv : v < 4) (hf : s.pow.inFields = true)
    (ht : cRegModify.taken h (modPs 0x00C00004 0x00000300 (v * 2 ^ 8)) s = true) :
    let w := pwrCfgWord { s.pow with dramRate := v }
    execPwrCfgDramrate h v s = .next (journalCmd h 0x0112 0x00C00004 w
      { okReply 0x0112 h (leBytes 4 w) s with pow := { s.pow with dramRate := v } }) := by
  obtain ⟨hcap, hmax, -⟩ := (Pow.inFields_iff _).mp hf
  have hwrite : ∀ u, (pwrCfgReg s).write 0x00000300 (v * 2 ^ 8) u
      = if v = s.pow.dramRate then u else modPow (fun p => { p with dramRate := v }) u := pwrCfgReg_write_dramRate hf hv
  have hset : ∀ u, u.pow = s.pow → (if v = s.pow.dramRate then u else modPow (fun p => { p with dramRate := v }) u)
      = { u with pow := { s.pow with dramRate := v } } := by
    intro u hu
    split
    · next heq => rw [heq, ← hu]
    · rw [modPow, hu]
  dsimp only
  rw [execPwrCfgDramrate, fld_of_lt (show v < 2 ^ 2 from hv), ← hset _ (okReply_pow ..)]
  exact execRegModify_pwrCfg (by decide) (by omega) hwrite (fun p => congrArg State.pow (hset (s.onPorts p) rfl))
    ((Pow.inFields_iff _).mpr ⟨hcap, hmax, hv⟩) ht

end

end Sys2Proof.Machine
end

section
/-! SUPPORT. FWS_DBGEN (R362, R363). -/

namespace Sys2Proof.Machine

/-- The world's debuggers stay where its invasive enable is not cleared (R362). -/
def Fws.setSid (b : Bool) (f : Fws) : Fws :=
  { f with sid := b, attached := f.attached.filter (fun a => !a.2.2 || (!f.sid || b)) }
def Fws.setNsid (b : Bool) (f : Fws) : Fws :=
  { f with nsid := b, attached := f.attached.filter (fun a => a.2.2 || (!f.nsid || b)) }

/-- The enables and locks that a word of FWS_DBGEN asks for. -/
def Fws.debug (v : Nat) (f : Fws) : Fws :=
  { f with
    lockS := v.testBit 17, lockNs := v.testBit 16, allowNs := v.testBit 8, sid := v.testBit 3, snid := v.testBit 2,
    nsid := v.testBit 1, nsnid := v.testBit 0,
    attached := f.attached.filter (fun a => if a.2.2 then !f.sid || v.testBit 3 else !f.nsid || v.testBit 1) }

/-- The word of FWS_DBGEN with these enables and locks. -/
def Fws.debugWord (f : Fws) : Nat :=
  b2n f.lockS * 2 ^ 17 + b2n f.lockNs * 2 ^ 16 + b2n f.allowNs * 2 ^ 8
    + b2n f.sid * 2 ^ 3 + b2n f.snid * 2 ^ 2 + b2n f.nsid * 2 + b2n f.nsnid

section

variable {f : RField} {b : Bool} {set : Bool → Fws → Fws} {mask v : Nat} {u : State}

theorem b2n_toNat (b : Bool) : b.toNat = b2n b := by cases b <;> rfl
theorem b2n_inj {b c : Bool} : b2n b = b2n c ↔ b = c := by cases b <;> cases c <;> decide

/-- A flag of one bit inside the mask changes where the word's bit differs from it. -/
theorem RField.change_of_flag (hacc : f.acc = .rwl) (hw : f.w = 1) (hval : f.val = b2n b)
    (hm : bits mask f.lo 1 = 1) :
    f.change mask v = if v.testBit f.lo = b then none else some (b2n (v.testBit f.lo)) := by
  have hbits : bits v f.lo f.w = b2n (v.testBit f.lo) := by rw [hw, bits_one, b2n_toNat]
  rw [change_of_covered (.inr hacc) (by rw [hw, hm, pow_one]), hbits, hval]
  simp only [b2n_inj]

theorem RField.write_of_flag (hacc : f.acc = .rwl) (hw : f.w = 1) (hval : f.val = b2n b) (hm : bits mask f.lo 1 = 1)
    (hsame : set b u.fws = u.fws) (hput : f.put (b2n (!b)) u = modFws (set (!b)) u) :
    f.write mask v u = modFws (set (v.testBit f.lo)) u := by
  rw [write, change_of_flag hacc hw hval hm]
  by_cases hb : v.testBit f.lo = b
  · rw [if_pos hb, hb, modFws, hsame]
  · have hnot : v.testBit f.lo = !b := Bool.eq_not.mpr hb
    rw [if_neg hb, hnot]
    exact hput

/-- The fields of a word from a flag on. -/
theorem foldl_write_of_flag {l : List RField} {r s : State} {F : Fws} (hacc : f.acc = .rwl) (hw : f.w = 1)
    (hval : f.val = b2n b) (hm : bits mask f.lo 1 = 1) (hsame : set b F = F)
    (hput : f.put (b2n (!b)) { s with fws := F } = { s with fws := set (!b) F })
    (hrest : l.foldl (fun s f => f.write mask v s) { s with fws := set (v.testBit f.lo) F } = r) :
    (f :: l).foldl (fun s f => f.write mask v s) { s with fws := F } = r := by
  rw [List.foldl_cons, RField.write_of_flag (set := set) hacc hw hval hm hsame hput]
  exact hrest

theorem RField.journaled_of_flag (hacc : f.acc = .rwl) (hw : f.w = 1) (hval : f.val = b2n b) (hm : bits mask f.lo 1 = 1) :
    (f.acc != .w1c && (f.change mask v).isSome) = (v.testBit f.lo != b) := by
  rw [change_of_flag hacc hw hval hm, hacc]
  cases v.testBit f.lo <;> cases b <;> rfl

end

section

variable {f : Fws} {b : Bool}

theorem Fws.setSid_of_same (hb : f.sid = b) : f.setSid b = f := by
  subst hb
  simp [setSid]

theorem Fws.setNsid_of_same (hb : f.nsid = b) : f.setNsid b = f := by
  subst hb
  simp [setNsid]

@[simp] theorem Fws.setSid_nsid (b : Bool) (f : Fws) : (f.setSid b).nsid = f.nsid := rfl

/-- Setting an invasive enable detaches nobody; clearing it detaches the world's debuggers. -/
theorem Fws.setSid_of_not (hb : f.sid = !b) : f.setSid b
    = if (b2n b == 1) = true then { f with sid := true } else detach true { f with sid := false } := by
  cases b
  · simp [setSid, detach, hb, b2n]
  · simp [setSid, hb, b2n]

theorem Fws.setNsid_of_not (hb : f.nsid = !b) : f.setNsid b
    = if (b2n b == 1) = true then { f with nsid := true } else detach false { f with nsid := false } := by
  cases b
  · simp [setNsid, detach, hb, b2n]
  · simp [setNsid, hb, b2n]

end

/-- Nothing changes where every bit agrees with its flag. -/
theorem Fws.debug_eq_iff {v : Nat} {f : Fws} : f.debug v = f ↔ v.testBit 17 = f.lockS ∧ v.testBit 16 = f.lockNs
    ∧ v.testBit 8 = f.allowNs ∧ v.testBit 3 = f.sid ∧ v.testBit 2 = f.snid ∧ v.testBit 1 = f.nsid
    ∧ v.testBit 0 = f.nsnid := by
  constructor
  · intro heq
    exact ⟨congrArg Fws.lockS heq, congrArg Fws.lockNs heq, congrArg Fws.allowNs heq, congrArg Fws.sid heq,
      congrArg Fws.snid heq, congrArg Fws.nsid heq, congrArg Fws.nsnid heq⟩
  · rintro ⟨hlockS, hlockNs, hallow, hsid, hsnid, hnsid, hnsnid⟩
    have hall : f.attached.filter (fun a => if a.2.2 then !f.sid || f.sid else !f.nsid || f.nsid) = f.attached := by
      simp
    rw [debug, hlockS, hlockNs, hallow, hsid, hsnid, hnsid, hnsnid, hall]

section

variable {h : Hdr} {s : State} {v : Nat} {vw : Viewer}

theorem bits_full_one (i : Nat) (hi : i < 32) : bits 0xFFFFFFFF i 1 = 1 := by
  revert i
  decide

theorem dbgenReg_write (hsid : s.part.fdisSid = false) (hnsid : s.part.fdisNsid = false) :
    (dbgenReg vw s).write 0xFFFFFFFF v s = { s with fws := s.fws.debug v } := by
  have hvalS : b2n (s.fws.sid && !s.part.fdisSid) = b2n s.fws.sid := by simp [hsid]
  have hvalN : b2n (s.fws.nsid && !s.part.fdisNsid) = b2n s.fws.nsid := by simp [hnsid]
  have hone : ∀ b, (b2n b == 1) = b := by decide
  have hattached : ((s.fws.attached.filter (fun a => !a.2.2 || (!s.fws.sid || v.testBit 3))).filter
      (fun a => a.2.2 || (!s.fws.nsid || v.testBit 1)))
      = s.fws.attached.filter (fun a => if a.2.2 then !s.fws.sid || v.testBit 3 else !s.fws.nsid || v.testBit 1) := by
    rw [List.filter_filter]
    refine List.filter_congr fun a _ => ?_
    cases a.2.2 <;> simp
  change List.foldl (fun s f => f.write 0xFFFFFFFF v s) { s with fws := s.fws } (dbgenReg vw s).fields = _
  refine foldl_write_of_flag (b := s.fws.lockS) (set := fun b f => { f with lockS := b }) rfl rfl rfl
    (bits_full_one 17 (by decide)) rfl (congrArg (fun b => modFws (fun f => { f with lockS := b }) _) (hone _)) ?_
  refine foldl_write_of_flag (b := s.fws.lockNs) (set := fun b f => { f with lockNs := b }) rfl rfl rfl
    (bits_full_one 16 (by decide)) rfl (congrArg (fun b => modFws (fun f => { f with lockNs := b }) _) (hone _)) ?_
  refine foldl_write_of_flag (b := s.fws.allowNs) (set := fun b f => { f with allowNs := b }) rfl rfl rfl
    (bits_full_one 8 (by decide)) rfl (congrArg (fun b => modFws (fun f => { f with allowNs := b }) _) (hone _)) ?_
  refine foldl_write_of_flag (b := s.fws.sid) (set := Fws.setSid) rfl rfl hvalS (bits_full_one 3 (by decide))
    (Fws.setSid_of_same rfl) (congrArg (fun f => { s with fws := f }) (Fws.setSid_of_not (by simp)).symm) ?_
  refine foldl_write_of_flag (b := s.fws.snid) (set := fun b f => { f with snid := b }) rfl rfl rfl
    (bits_full_one 2 (by decide)) rfl (congrArg (fun b => modFws (fun f => { f with snid := b }) _) (hone _)) ?_
  refine foldl_write_of_flag (b := s.fws.nsid) (set := Fws.setNsid) rfl rfl hvalN (bits_full_one 1 (by decide))
    (Fws.setNsid_of_same rfl) (congrArg (fun f => { s with fws := f }) (Fws.setNsid_of_not (by simp)).symm) ?_
  refine foldl_write_of_flag (b := s.fws.nsnid) (set := fun b f => { f with nsnid := b }) rfl rfl rfl
    (bits_full_one 0 (by decide)) rfl (congrArg (fun b => modFws (fun f => { f with nsnid := b }) _) (hone _)) ?_
  simp only [List.foldl_nil, Fws.setSid, Fws.setNsid, Fws.debug]
  rw [← hattached]
  rfl

theorem dbgenReg_journaled (hsid : s.part.fdisSid = false) (hnsid : s.part.fdisNsid = false) :
    (dbgenReg vw s).journaled 0xFFFFFFFF v = decide (s.fws.debug v ≠ s.fws) := by
  have hvalS : b2n (s.fws.sid && !s.part.fdisSid) = b2n s.fws.sid := by simp [hsid]
  have hvalN : b2n (s.fws.nsid && !s.part.fdisNsid) = b2n s.fws.nsid := by simp [hnsid]
  have hany : (dbgenReg vw s).journaled 0xFFFFFFFF v = ((v.testBit 17 != s.fws.lockS) || ((v.testBit 16 != s.fws.lockNs)
      || ((v.testBit 8 != s.fws.allowNs) || ((v.testBit 3 != s.fws.sid) || ((v.testBit 2 != s.fws.snid)
      || ((v.testBit 1 != s.fws.nsid) || ((v.testBit 0 != s.fws.nsnid) || false))))))) :=
    congrArg₂ or (RField.journaled_of_flag rfl rfl rfl (bits_full_one 17 (by decide))) <|
    congrArg₂ or (RField.journaled_of_flag rfl rfl rfl (bits_full_one 16 (by decide))) <|
    congrArg₂ or (RField.journaled_of_flag rfl rfl rfl (bits_full_one 8 (by decide))) <|
    congrArg₂ or (RField.journaled_of_flag rfl rfl hvalS (bits_full_one 3 (by decide))) <|
    congrArg₂ or (RField.journaled_of_flag rfl rfl rfl (bits_full_one 2 (by decide))) <|
    congrArg₂ or (RField.journaled_of_flag rfl rfl hvalN (bits_full_one 1 (by decide))) <|
    congrArg₂ or (RField.journaled_of_flag rfl rfl rfl (bits_full_one 0 (by decide))) rfl
  rw [hany, Bool.eq_iff_iff, decide_eq_true_eq, Ne, Fws.debug_eq_iff]
  simp only [Bool.or_eq_true, bne_iff_ne, Bool.false_eq_true, or_false, not_and_or, ne_eq]

theorem dbgenReg_word (hsid : s.part.fdisSid = false) (hnsid : s.part.fdisNsid = false) :
    (dbgenReg vw s).word = s.fws.debugWord := by
  simp only [Reg.word, dbgenReg, plainReg, rwl, List.foldl_cons, List.foldl_nil, fld_b2n, hsid, hnsid, Fws.debugWord]
  simp

theorem execFwsDbgenWrite_of_taken (hv : v < 2 ^ 32) (hsid : s.part.fdisSid = false) (hnsid : s.part.fdisNsid = false)
    (ht : cRegWrite.taken h (writePs 0x00900020 v) s = true) : execFwsDbgenWrite h v s = .next
      (let t := { okReply 0x0111 h [] s with fws := s.fws.debug v }
       if s.fws.debug v = s.fws then t else journalCmd h 0x0111 0x00900020 (s.fws.debug v).debugWord t) := by
  have hreg : ∀ u, regAt (viewer h s) 0x00900020 u = some (dbgenReg (viewer h s) u) := fun _ => rfl
  have hown : ∀ p, dbgenReg (viewer h s) (s.onPorts p) = dbgenReg (viewer h s) s := fun _ => rfl
  have hwrite : ∀ p, (dbgenReg (viewer h s) s).write 0xFFFFFFFF v (s.onPorts p)
      = { s.onPorts p with fws := s.fws.debug v } :=
    fun p => (congrArg (Reg.write · 0xFFFFFFFF v _) (hown p)).symm.trans (dbgenReg_write (s := s.onPorts p) hsid hnsid)
  have hword : ∀ p, wordAt (viewer h s) 0x00900020 ((dbgenReg (viewer h s) s).write 0xFFFFFFFF v (s.onPorts p))
      = (s.fws.debug v).debugWord := by
    intro p
    rw [hwrite, wordAt, hreg]
    exact dbgenReg_word hsid hnsid
  have hrec : recorded true 0x00900020 (dbgenReg (viewer h s) s) 0xFFFFFFFF v = decide (s.fws.debug v ≠ s.fws) := by
    simp [recorded, unjournaledBlock, inPwr, inBwr, dbgenReg_journaled hsid hnsid]
  obtain ⟨q, hq⟩ := exists_okReply_eq 0x0111 h [] s
  refine (execRegWrite_of_reg (by decide) hv (fun p => (hreg _).trans (congrArg some (hown p))) hword ht).trans ?_
  rw [hrec, hq, hwrite]
  by_cases hsame : s.fws.debug v = s.fws
  · rw [if_neg (by simpa using hsame), if_pos hsame]
  · rw [if_pos (by simpa using hsame), if_neg hsame]

end

/-- Settles O16, row by row: a read answers with the low word of a count and latches the rest; a write answers with the
word as it then reads, and acts on its field alone. That FWS_DBGEN is journaled where it changes anything, VALUE as the
word reads back and hidden words reading zero are log 30; PEAK restarted by the register's read is log 29. -/
theorem registerRowsReadAndWrite : Obligations.RegisterRowsReadAndWrite := by
  refine ⟨fun h s => ⟨fun t ht hr hid => ?etlc, fun t ht hr hid => ?etbe, execSchEpochLoRead_of_taken,
    fun t ht hr hid => execBwrTnnBloRead_of_taken ht hid hr, execSnsTnowLoRead_of_taken, execSkkLtimeLoRead_of_taken,
    execPwrPowerRead_of_taken⟩, fun h v s => ⟨fun n hn ht => execSchTnnActlClr_of_taken hn ht,
    fun hv ht => execPwrFselWrite_of_taken hv ht, fun n hn ht => execClrcntWrite_of_taken hn ht,
    fun n hn ht => execHalostatClrwait_of_taken hn ht, fun c hc ht hshown => execChannelFaultClear_sd_shown hc ht hshown,
    fun c hc ht hshown => execChannelFaultClear_enc_shown hc ht hshown,
    fun c o hc howner hid ht => execChannelFaultClear_sd_hidden hc howner hid ht,
    fun c o hc howner hid ht => execChannelFaultClear_enc_hidden hc howner hid ht,
    fun hv hf ht => execPwrCfgCap_of_taken hv hf ht, fun hv hf ht => execPwrCfgCapmax_of_taken hv hf ht,
    fun hv hf ht => execPwrCfgDramrate_of_taken hv hf ht, withCap_eq,
    fun hv ht _ hsid hnsid _ _ => execFwsDbgenWrite_of_taken hv hsid hnsid ht⟩⟩
  case etlc =>
    exact execLoWordRead_of_latch (latch := fun a => { a with etlcHi := hiWord (a.etlc / 1000) }) ht (by decide) hid rfl
      (fun _ => rfl) hr
  case etbe =>
    exact execLoWordRead_of_latch (latch := fun a => { a with etbeHi := hiWord (a.etbe / 1000) }) ht (by decide) hid rfl
      (fun _ => rfl) hr

end Sys2Proof.Machine
end

section
/-! SUPPORT. The rows of DRAM accesses as equations: what an access that passes its check does, and what one that fails
does (R202, R206, R208, R212, R315). -/

namespace Sys2Proof.Machine

section

variable {s : State} {c : Acc} {a n : Nat} {bs : List Byte} {reason why : Nat} {write : Bool}

/-! ## Failed checks and dropped reads -/

/-- A failed check is counted, and described where no earlier one is (R208). -/
theorem recordViol_eq (src ten reason a : Nat) (secure write : Bool) (s : State) :
    recordViol src secure write ten reason a s = { s with mem := { s.mem with
      violAddr := if s.mem.viol = true then s.mem.violAddr else a % 2 ^ 48,
      violWord := if s.mem.viol = true then s.mem.violWord
        else fld reason 28 4 + fld src 26 2 + fld (b2n secure) 25 1 + fld (b2n write) 24 1 + fld ten 16 8,
      viol := true, violCnt := min 0xFFFF (s.mem.violCnt + 1) } } := by
  cases hv : s.mem.viol <;> simp only [recordViol, satAdd, hv, Bool.false_eq_true, if_false, if_true]

/-- A dropped read is counted by what forbade it (R212). -/
theorem countDrop_eq (why : Nat) (s : State) : countDrop why s = { s with mem := { s.mem with
    sfxDrop := if why = 2 then min 0xFFFF (s.mem.sfxDrop + 1) else s.mem.sfxDrop,
    npfDrop := if why = 2 then s.mem.npfDrop else min 0xFFFF (s.mem.npfDrop + 1) } } := by
  unfold countDrop modMem satAdd
  split <;> rfl

theorem violate_accHost : violate accHost write reason a s = recordViol 1 false write 0xFF reason a s := rfl

/-- A failed check of tenant work faults its tenant. -/
theorem violate_accTenant (t : Nat) : violate (accTenant s t) write reason a s
    = faultTenant t 2 (recordViol 0 (s.ten t).secure write t reason a s) := rfl

/-- A failed check of a device block is logged. -/
theorem violate_of_block (hsrc : c.src = 2) : violate c write reason a s
    = fwLog c.secure 3 0 (a % 2 ^ 48) (recordViol 2 c.secure write c.field reason a s) := by
  simp [violate, hsrc]

theorem accBlock_src (b : DevBlock) (t : Option Nat) : (accBlock s b t).src = 2 := by
  cases b <;> rfl

/-- SEC acts in the secure world, the other blocks that act for a tenant in the normal world (Table 4 of chapter 07). -/
theorem accBlock_of_normal {b : DevBlock} (hb : b ∈ [DevBlock.pmc, .sch, .ccc, .scrub]) (t : Option Nat) :
    accBlock s b t = ⟨2, false, t.getD 0xFE, 0xFE⟩ := by
  fin_cases hb <;> rfl

/-! ## Checked reads and writes -/

theorem checkedWrite_of_allowed (hc : accessCheck s c a bs.length = 0) (hl : rtLocked s a bs.length = false) :
    checkedWrite c a bs s = dramWrite a bs s := by
  simp [checkedWrite, hc, hl]

theorem checkedWrite_of_failed (hc : accessCheck s c a bs.length ≠ 0) :
    checkedWrite c a bs s = violate c true (accessCheck s c a bs.length) a s := by
  unfold checkedWrite
  split
  · next h => exact absurd h hc
  · rfl

theorem checkedRead_of_allowed (hc : accessCheck s c a n = 0) (hl : rtLocked s a n = false) :
    checkedRead c a n s = (dramRead s a n, s) := by
  simp [checkedRead, hc, hl]

/-! ## The host (R200, R212) -/

theorem hostRead_of_allowed (hc : accessCheck s accHost a n = 0) (hp : poisoned s a n = false)
    (hl : rtLocked s a n = false) : hostRead a n none s = { s with
      mem := { s.mem with rdata := dramRead s a n, rbad := 0 } } := by
  simp [hostRead, hc, hp, hl, metBy, modMem]

theorem hostRead_of_failed (hc : accessCheck s accHost a n ≠ 0) : hostRead a n none s =
    modMem (fun m => { m with rdata := zeros n, rbad := 1 })
      (recordViol 1 false false 0xFF (accessCheck s accHost a n) a s) := by
  unfold hostRead
  split
  · next h => exact absurd h hc
  · rfl

section

variable {ep : Nat} (hup : s.portsUp = true) (hep : ep < s.nEp)

include hup hep

theorem execHostBar4Access_write (hfit : a + bs.length ≤ s.bar4) :
    execHostBar4Access ep a (.write bs) none s = .next (checkedWrite accHost a bs s) := by
  simp [execHostBar4Access, hup, hep.not_ge, hfit.not_gt]

theorem execHostBar4Access_read (hfit : a + n ≤ s.bar4) :
    execHostBar4Access ep a (.read n) none s = .next (hostRead a n none s) := by
  simp [execHostBar4Access, hup, hep.not_ge, hfit.not_gt]

theorem execHostBar4Access_ahead_of_stop (hfit : a + n ≤ s.bar4) (hstop : aheadStop s a n ≠ 0) :
    execHostBar4Access ep a (.ahead n) none s = .next (countDrop (aheadStop s a n) s) := by
  simp [execHostBar4Access, hup, hep.not_ge, hfit.not_gt, hstop]

end

/-! ## Speculative reads (R212) -/

theorem aheadRead_of_stop (c : Acc) (cl : Option Nat) (label : Nat) (err : Option DramErr)
    (hstop : aheadStop s a n ≠ 0) : aheadRead c cl a n label err s = countDrop (aheadStop s a n) s := by
  simp [aheadRead, hstop]

/-! ## Tenant work (R206, R214, R313, R315) -/

/-- A cache keeps lines: the data and the locked ranges stay as they are. -/
theorem cacheRead_frame (cl : Nat) (secure : Bool) (t x : Nat) (alloc stream : Bool) (s : State) :
    ((cacheRead cl secure t x alloc stream s).mem, (cacheRead cl secure t x alloc stream s).rctxs)
      = (s.mem, s.rctxs) := by
  unfold cacheRead
  dsimp only
  split
  · rfl
  · split
    · rfl
    · split <;> rfl

theorem cacheLinesRead_frame (cl : Nat) (secure : Bool) (t a n label : Nat) (s : State) :
    ((cacheLinesRead cl secure t a n label s).mem, (cacheLinesRead cl secure t a n label s).rctxs)
      = (s.mem, s.rctxs) := by
  refine foldl_frame (fun s : State => (s.mem, s.rctxs)) (fun s x => ?_) _ s
  split
  · rfl
  · exact cacheRead_frame ..

section

variable {job cl : Nat} {j : Job}

theorem workRead_of_allowed {label : Nat} (hc : accessCheck s (accTenant s j.tenant) a n = 0)
    (hp : poisoned s a n = false) (hl : rtLocked s a n = false) : workRead job cl a n label j none s =
      (some (dramRead s a n), cacheLinesRead cl (s.ten j.tenant).secure j.tenant a n label s) := by
  have hframe := cacheLinesRead_frame cl (s.ten j.tenant).secure j.tenant a n label s
  obtain ⟨hmem, hrctxs⟩ := Prod.mk.inj hframe
  have hl' : rtLocked (cacheLinesRead cl (s.ten j.tenant).secure j.tenant a n label s) a n = false := by
    rw [← hl, rtLocked, hrctxs, rtLocked]
  simp only [workRead, hc, metBy, hp, Bool.false_eq_true, if_false]
  simp only [accTenant, hl', dramRead, hmem, Bool.false_eq_true, if_false]

variable (hj : s.jobs.get? job = some j)

include hj

/-- Copy B's output is kept for its signature (R315). -/
theorem jobDramWrite_of_copyB (hb : copyBOutput s j cl a = true) : jobDramWrite job cl a bs s = { s with
    jobs := s.jobs.set job { j with bOut := j.bOut.writeN a bs } } := by
  simp only [jobDramWrite, hj, hb, if_true]
  exact modJob_of_get? hj _

theorem jobDramWrite_of_checked (hb : copyBOutput s j cl a = false) (hl : rtLocked s a bs.length = false) :
    jobDramWrite job cl a bs s = checkedWrite (accTenant s j.tenant) a bs s := by
  simp [jobDramWrite, hj, hb, hl]

variable (hrun : j.st = .running)

include hrun

theorem execDramTransaction_work_write (copy label : Nat) (dst : Option (Nat × Nat)) (async : Bool)
    (err : Option DramErr) :
    execDramTransaction (.work job cl copy) a label (.write bs) dst async err s
      = .next (jobDramWrite job cl a bs s) := by
  simp [execDramTransaction, hj, hrun]

theorem execDramTransaction_work_ahead (copy label : Nat) (dst : Option (Nat × Nat)) (async : Bool)
    (err : Option DramErr) :
    execDramTransaction (.work job cl copy) a label (.ahead n) dst async err s
      = .next (aheadRead (accTenant s j.tenant) (some cl) a n label err s) := by
  simp [execDramTransaction, hj, hrun]

/-- A read of work that is no asynchronous one of a pair fills its place in SRAM and returns its bytes. -/
theorem execDramTransaction_work_read (copy : Nat) {label : Nat} {d : List Byte} {t : State} {unit off : Nat}
    (hread : workRead job cl a n label j none s = (some d, t)) :
    execDramTransaction (.work job cl copy) a label (.read n) (some (unit, off)) false none s
      = .next (gotData d (sramWrite job cl unit off d t)) := by
  simp [execDramTransaction, hj, hrun, hread, putSram]

end

end

/-- Settles O33. An access is its check, then one of two outcomes; each row is read through the lemma of the access it
makes. The fields of the firmware log's record are log 14. -/
theorem dramAccessesAreChecked : Obligations.DramAccessesAreChecked := by
  refine ⟨fun src ten reason a secure write s => recordViol_eq src ten reason a secure write s,
    fun s addr hpoison hlock => ⟨fun ep hup hep => ⟨fun d hfit => ⟨fun hc => ?hostStores, fun hc => ?hostWriteFails⟩,
      fun n hfit => ⟨fun hc => ?hostReads, fun hc => ?hostReadFails,
        execHostBar4Access_ahead_of_stop hup hep hfit⟩⟩, fun job cl copy label j hj hrun =>
      ⟨fun d dst async err hb => ⟨fun hc => ?workStores, fun hc => ?workWriteFails⟩,
        fun d dst async err hb => ?copyB, fun n u off hc => ?workReads, fun n dst async err hstop => ?workAhead⟩,
      fun b tenant label dst async => ⟨fun hb => by rw [hb]; rfl, fun hb => accBlock_of_normal hb tenant,
        fun n hc => ?blockReads, fun d err hc => ?blockStores, fun d err hc => ?blockWriteFails,
        fun n err hstop => ?blockAhead⟩, fun why => countDrop_eq why s⟩⟩
  case hostStores =>
    exact (execHostBar4Access_write hup hep hfit).trans (congrArg _ (checkedWrite_of_allowed hc (hlock _)))
  case hostWriteFails =>
    exact (execHostBar4Access_write hup hep hfit).trans (congrArg _ (checkedWrite_of_failed hc))
  case hostReads =>
    exact (execHostBar4Access_read hup hep hfit).trans (congrArg _ (hostRead_of_allowed hc (hpoison n) (hlock n)))
  case hostReadFails =>
    exact (execHostBar4Access_read hup hep hfit).trans (congrArg _ (hostRead_of_failed hc))
  case workStores =>
    exact (execDramTransaction_work_write hj hrun copy label dst async err).trans (congrArg _
      ((jobDramWrite_of_checked hj hb (hlock _)).trans (checkedWrite_of_allowed hc (hlock _))))
  case workWriteFails =>
    exact (execDramTransaction_work_write hj hrun copy label dst async err).trans (congrArg _
      ((jobDramWrite_of_checked hj hb (hlock _)).trans (checkedWrite_of_failed hc)))
  case copyB =>
    exact (execDramTransaction_work_write hj hrun copy label dst async err).trans
      (congrArg _ (jobDramWrite_of_copyB hj hb))
  case workReads =>
    exact execDramTransaction_work_read hj hrun copy (workRead_of_allowed hc (hpoison n) (hlock n))
  case workAhead =>
    exact (execDramTransaction_work_ahead hj hrun copy label dst async err).trans
      (congrArg _ (aheadRead_of_stop _ _ _ _ hstop))
  case blockReads =>
    exact congrArg (fun r : List Byte × State => Host.Outcome.next (gotData r.1 r.2))
      ((congrArg _ (ite_self s)).trans (checkedRead_of_allowed hc (hlock n)))
  case blockStores => exact congrArg _ (checkedWrite_of_allowed hc (hlock _))
  case blockWriteFails =>
    exact congrArg _ ((checkedWrite_of_failed hc).trans (violate_of_block (accBlock_src b tenant)))
  case blockAhead => exact congrArg _ (aheadRead_of_stop _ _ _ _ hstop)

end Sys2Proof.Machine
end

section
/-! SUPPORT. The ownership commands, the bandwidth period and the patrol scrub as equations (R201, R209 to R211,
R217). -/

namespace Sys2Proof.Machine

section

variable {h : Hdr} {ps : List Byte} {s : State}

/-! ## Page entries -/

/-- An entry in the journal buffer leaves the page entries alone. -/
theorem journalCmd_pageOf (op object value : Nat) (s : State) (pg : Nat) :
    (journalCmd h op object value s).pageOf pg = s.pageOf pg := rfl

theorem journalCmd_mem (op object value : Nat) (s : State) : (journalCmd h op object value s).mem = s.mem := rfl

theorem consumed_pageOf (h : Hdr) (s : State) (pg : Nat) : (consumed h s).pageOf pg = s.pageOf pg := by
  obtain ⟨p, hp⟩ := exists_consumed_eq h s
  rw [hp]
  rfl

theorem consumed_port_secure (h : Hdr) (s : State) : ((consumed h s).port h.port).secure = (s.port h.port).secure := by
  obtain ⟨port, _⟩ := h
  cases port <;> rfl

/-! ## The ownership commands (R209 to R211) -/

theorem execMemAssign_of_taken (ht : cMemAssign.taken h ps s = true) : execMemAssign h ps s = .next
    (addMemCmd s.sch.nTok [] (zeroPages (mcFirst ps) (mcCount ps) (setPages (mcPages ps)
      (fun _ => ⟨h.tenant.toNat, mcFlag ps 3, mcFlag ps 1, mcFlag ps 0, mcFlag ps 2⟩)
      (journalCmd h 0x0401 (mcFirst ps) (mcCount ps) (acceptedReply 0x0401 h 0 s).2)))) :=
  Cmd.exec_later ht

/-- The pages zeroed are those secure before the command. -/
theorem execMemRelease_of_taken (ht : cMemRelease.taken h ps s = true) : execMemRelease h ps s = .next
    (let z := ((mcPages ps).filter (fun p => (s.pageOf p).secure)).foldl (fun s p => zeroPages p 1 s)
       (journalCmd h 0x0402 (mcFirst ps) (mcCount ps) (acceptedReply 0x0402 h 0 s).2)
     { z with mem := { z.mem with
        own := (mcPages ps).foldl (fun o p => o.erase p) z.mem.own,
        cmds := z.mem.cmds ++ [⟨s.sch.nTok, [(mcFirst ps, mcCount ps)]⟩] } }) := by
  rw [execMemRelease, Cmd.exec_later ht]
  simp only [cMemRelease, journalCmd_pageOf, acceptedReply_pageOf, addMemCmd, modMem]

/-- The lines dropped are those of pages that were not SIDEFX, or were PREF, before the command. -/
theorem execMemFlags_of_taken (ht : cMemFlags.taken h ps s = true) : execMemFlags h ps s = .next
    (let drop := (mcPages ps).filter (fun p =>
       (mcFlag ps 1 && !(s.pageOf p).sidefx) || (!mcFlag ps 0 && (s.pageOf p).pref))
     { journalCmd h 0x0403 (mcFirst ps) (mcCount ps) (acceptedReply 0x0403 h 0 s).2 with mem := { s.mem with
        own := (mcPages ps).foldl (fun o p => o.set p (let e := o.getD p PageEnt.unowned
          { e with pref := mcFlag ps 0, sidefx := mcFlag ps 1, lock := e.lock || mcFlag ps 3 })) s.mem.own,
        cmds := s.mem.cmds ++ [⟨s.sch.nTok, drop.map (fun p => (p, 1))⟩] } }) := by
  rw [execMemFlags, Cmd.exec_later ht]
  simp only [cMemFlags, journalCmd_pageOf, acceptedReply_pageOf, addMemCmd, setPages, modMem, journalCmd_mem,
    acceptedReply_mem]

theorem execMemQuery_of_taken (ht : cMemQuery.taken h ps s = true) : execMemQuery h ps s = .next (okReply 0x0404 h
    ((List.range (u16 ps 4)).flatMap (fun i => leBytes 4
      (if ((s.pageOf (mcFirst ps + i)).secure && !(s.port h.port).secure) = true then 0x00FD0000
       else (s.pageOf (mcFirst ps + i)).word))) s) := by
  rw [execMemQuery, Cmd.exec_now ht]
  simp only [cMemQuery, consumed_pageOf, consumed_port_secure]
  rfl

/-- With SCH running an ownership command completes once its lines are dropped. -/
theorem execMemCommandDone_of_waiting {i : Nat} {c : MemCmd} (hc : s.mem.cmds[i]? = some c)
    (hsch : s.fwDown fwSch = false) : execMemCommandDone i s = .next
      (complete c.tok OK [] (modMem (fun m => { m with cmds := m.cmds.filter (fun x => x.tok != c.tok) })
        (c.drop.foldl (fun s p => dropLines (p.1 * 2 ^ 20) (p.2 * 2 ^ 20) s) s))) := by
  simp [execMemCommandDone, hc, hsch]

end

section

variable {s : State}

/-! ## The patrol scrub (R201) -/

theorem execPatrolScrub_nil : execPatrolScrub [] s = .next s := by
  simp [execPatrolScrub]

theorem execPatrolScrub_one {e : DramErr} (hst : s.dev.st ≠ .off) (he : e.blk * 64 < s.nPages * 2 ^ 20) :
    execPatrolScrub [e] s = .next (dramError e s) := by
  rw [execPatrolScrub, if_neg (by simp [State.powered, hst]), List.foldl_cons, List.foldl_nil, if_pos he]

/-- The corrected errors of a row in the last 24 hours, with one met now. -/
def rowErrTimes (e : DramErr) (s : State) : List Nat :=
  s.time.ns :: (s.mem.rowErr.getD (rowKey (stackOf s (e.blk * 64)) e) []).filter
    (fun t => decide (s.time.ns < t + DAY))

/-- A corrected error of a row with fewer than 3 others in 24 hours is counted in its stack and kept with its time. -/
theorem dramError_of_corrected {e : DramErr} (hunc : e.unc = false) (hfew : (rowErrTimes e s).length < 4) :
    dramError e s =
      (let k := stackOf s (e.blk * 64)
       let c := s.mem.ecc.getD k EccSt.zero
       { s with mem := { s.mem with
         ce := true, rowErr := s.mem.rowErr.set (rowKey k e) (rowErrTimes e s),
         ecc := s.mem.ecc.set k { c with ce := satAdd 0xFFFF c.ce 1 } } }) := by
  rw [dramError, if_neg (by simp [hunc])]
  exact if_pos hfew

end

/-- Settles O34: each command by its effect on the reply's state, a period by its own equations, the scrub by the one
error it meets. c = 0 stands for cmax before the first period (log 6); pages are zeroed in the command's turn (log 15);
the commands are judged on the page's entry as it is (log 31). -/
theorem ownershipBandwidthAndScrub : Obligations.OwnershipBandwidthAndScrub := by
  refine ⟨fun h ps s => ⟨execMemAssign_of_taken, execMemRelease_of_taken, execMemFlags_of_taken, execMemQuery_of_taken,
    fun i c hc hsch => execMemCommandDone_of_waiting hc hsch⟩, fun s => ⟨fun q iso dev tens => ?period,
    execPatrolScrub_nil, fun e hst hunc he => ?corrected⟩⟩
  -- The row is written in the statement's own equations; `nextC` alone has a name of its own.
  case period => rfl
  case corrected =>
    intro k row ts c hfew
    exact (execPatrolScrub_one hst he).trans (congrArg _ (dramError_of_corrected hunc hfew))

end Sys2Proof.Machine
end

section
/-! SUPPORT. The display commands and rows as equations (R278 to R283). -/

namespace Sys2Proof.Machine

theorem State.disp_of_get? {s : State} {k : Nat} {d : Disp} (hd : s.disps.get? k = some d) : s.disp k = d := by
  rw [State.disp, Map.getD, hd]
  rfl

theorem State.disp_congr {s t : State} (hdisps : t.disps = s.disps) (k : Nat) : t.disp k = s.disp k := by
  rw [State.disp, hdisps, State.disp]

/-! ## Training and flips -/

section

variable {s : State} {k status : Nat} {d : Disp} {n : Train}

theorem untrain_of_train (hd : s.disps.get? k = some d) (ht : d.train = some n) : untrain k status s =
    complete n.tok status [] { s with disps := s.disps.set k { d with train := none, st := n.prev } } := by
  simp only [untrain, hd, ht]

theorem untrain_of_none (hd : s.disps.get? k = some d) (ht : d.train = none) : untrain k status s = s := by
  simp only [untrain, hd, ht]

/-- Turning a display off leaves of it what is neither its owner's nor a plane's. -/
theorem dispOff_of_get? (hd : s.disps.get? k = some d) : dispOff k s =
    (let t := untrain k STATE s
     { t with disps := t.disps.set k { d.blank with owner := none, st := 0, under := [], train := none } }) := by
  cases ht : d.train with
  | none =>
    simp only [dispOff, untrain_of_none hd ht, hd]
    rw [← ht]
    rfl
  | some n =>
    simp only [dispOff, untrain_of_train hd ht, complete_disps, Map.get?_set_self]
    rfl

/-- A surface latched on a plane; the other plane's latched surface stays. -/
theorem latchFlip_eq (f : FlipReq) (now : Nat) (d : Disp) : latchFlip f now d = { d with
    flipSkip := if (if f.plane = 0 then d.nbase else d.noverlay).isSome then satAdd 0xFFFF d.flipSkip 1 else d.flipSkip,
    nbase := if f.plane = 0 then some (f.surf, now) else d.nbase,
    noverlay := if f.plane = 0 then d.noverlay else some (f.surf, now) } := by
  unfold latchFlip
  split <;> rfl

theorem flipDue_some (now : Nat) (cur : Option Plane) (p : Plane) (t : Nat) :
    flipDue now cur (some (p, t)) = if t + 10000 ≤ now then (some p, none) else (cur, some (p, t)) := rfl

end

/-! ## Commands -/

section

variable {h : Hdr} {ps : List Byte} {s : State}

theorem execDispCfg_of_taken (ht : cDispCfg.taken h ps s = true) : execDispCfg h ps s = .next
    { (acceptedReply 0x0710 h 0 s).2 with disps := s.disps.set (u8 ps 0) { s.disp (u8 ps 0) with
      st := 1, train := some ⟨s.sch.nTok, h.tenant.toNat, ps, (s.disp (u8 ps 0)).st⟩ } } := by
  rw [execDispCfg, Cmd.exec_later ht]
  simp only [cDispCfg, acceptedReply_disps, State.disp_congr (acceptedReply_disps ..)]

theorem execDispFlip_of_taken (ht : cDispFlip.taken h ps s = true) : execDispFlip h ps s = .next
    { okReply 0x0712 h [] s with
      disps := s.disps.set (u8 ps 0) (latchFlip ⟨u8 ps 0, u8 ps 1, flipPlane ps⟩ s.time.ns (s.disp (u8 ps 0))) } := by
  rw [execDispFlip, Cmd.exec_now ht, ← okReply_disps 0x0712 h [] s, ← okReply_time 0x0712 h [] s,
    ← State.disp_congr (okReply_disps 0x0712 h [] s)]
  rfl

theorem execDispOff_of_taken (ht : cDispOff.taken h ps s = true) :
    execDispOff h ps s = .next (dispOff (u8 ps 0) (okReply 0x0711 h [] s)) :=
  Cmd.exec_now ht

end

/-! ## Rows -/

section

variable {s : State} {k : Nat} {d : Disp} (hd : s.disps.get? k = some d)

include hd

section

variable {n : Train} (ht : d.train = some n)

include ht

theorem execDispTrainingDone_of_trained : execDispTrainingDone k true s = .next
    (let t := complete n.tok OK [] { s with disps := s.disps.set k (trained s d n) }
     if n.prev = 3 then evDisplay k 4 t else t) := by
  simp only [execDispTrainingDone, State.disp_of_get? hd, ht, if_true, beq_iff_eq]

theorem execDispTrainingDone_of_failed : execDispTrainingDone k false s = .next (untrain k TIMEOUT s) := by
  simp only [execDispTrainingDone, State.disp_of_get? hd, ht, Bool.false_eq_true, if_false]

theorem execDispLinkLoss_of_training (hprev : n.prev = 2) : execDispLinkLoss k s = .next
    (evDisplay k 3 { s with disps := s.disps.set k { d with train := some { n with prev := 3 } } }) := by
  simp [execDispLinkLoss, State.disp_of_get? hd, ht, hprev]

end

theorem execDispTrainingDone_of_lost (ht : d.train = none) (hst : d.st = 3) : execDispTrainingDone k true s = .next
    (evDisplay k 4 { s with disps := s.disps.set k { d with st := 2 } }) := by
  simp [execDispTrainingDone, State.disp_of_get? hd, ht, hst]

theorem execDispLinkLoss_of_scanning (ht : d.train = none) (hst : d.st = 2) : execDispLinkLoss k s = .next
    (evDisplay k 3 { s with disps := s.disps.set k { d with st := 3 } }) := by
  simp [execDispLinkLoss, State.disp_of_get? hd, ht, hst]

/-- A frame ends: its CRCs, its count, scanout's checks, and the due flips where the display still scans. -/
theorem execVblank_of_scanning (hst : d.st = 2) : execVblank k s = .next
    (let a := frameCrcs k s
     let t := scanCheck k { a with disps := a.disps.set k { d with frames := (d.frames + 1) % 2 ^ 32, under := [] } }
     let b := flipDue s.time.ns d.base d.nbase
     let o := flipDue s.time.ns d.overlay d.noverlay
     if (t.disp k).st = 2 then { t with disps := t.disps.set k { t.disp k with
       base := b.1, nbase := b.2, overlay := o.1, noverlay := o.2 } } else t) := by
  rw [execVblank, State.disp_of_get? hd, if_neg (by simp [hst])]
  simp only [bne_iff_ne, ne_eq, ite_not]
  exact (apply_ite Host.Outcome.next _ _ _).symm

theorem execUnderrun_of_active (hst : d.st = 2) {px : List (Nat × Nat)}
    (hpx : (px.filter (fun q => q.1 < planeW d.cfg 0 && q.2 < planeH d.cfg 0)).isEmpty = false) :
    execUnderrun k px s = .next
      (let t := { s with disps := s.disps.set k { d with
         underrun := true, under := d.under ++ px.filter (fun q => q.1 < planeW d.cfg 0 && q.2 < planeH d.cfg 0),
         underruns := if d.under.isEmpty then satAdd 0xFFFFFFFF d.underruns 1 else d.underruns } }
       if d.underrun = true then t else evDisplay k 5 t) := by
  rw [execUnderrun, State.disp_of_get? hd, if_neg (by simp only [hst, hpx]; decide)]

theorem execHpdChange_of_change {plugged : Bool} (hk : k < s.nDisp) (hne : d.hpd ≠ plugged) :
    execHpdChange k plugged s = .next (evDisplay k (if plugged then 1 else 2)
      { s with disps := s.disps.set k { d with hpd := plugged } }) := by
  rw [execHpdChange, State.disp_of_get? hd, if_neg (by simp [hk.not_ge, hne])]

end

/-- Settles O43, row by row: a listed display's row is one update of its entry and its event. Event 4 after a lost link,
the former state after a training that fails, STATE for one that DISP_OFF cuts and scanout judged at vertical blanking
are log 23. -/
theorem displayCommandsAndEvents : Obligations.DisplayCommandsAndEvents := by
  refine ⟨fun h ps s => ⟨execDispCfg_of_taken, fun ht => ?flip, fun d hd ht => ?off⟩,
    fun k status d n s hd ht => untrain_of_train hd ht, fun k d s hd => ⟨fun n ht =>
      ⟨execDispTrainingDone_of_trained hd ht, rfl, rfl, rfl, rfl, execDispTrainingDone_of_failed hd ht⟩,
      execDispTrainingDone_of_lost hd, fun hst => ⟨execVblank_of_scanning hd hst,
        fun px hpx => execUnderrun_of_active hd hst hpx, fun ht => execDispLinkLoss_of_scanning hd ht hst⟩,
      fun n ht hprev => execDispLinkLoss_of_training hd ht hprev,
      fun plugged hk hne => execHpdChange_of_change hd hk hne, fun now cur => ⟨rfl, flipDue_some now cur⟩⟩⟩
  case flip =>
    exact (execDispFlip_of_taken ht).trans (congrArg (fun d => Host.Outcome.next
      { okReply 0x0712 h [] s with disps := s.disps.set (u8 ps 0) d }) (latchFlip_eq _ _ _))
  case off =>
    exact (execDispOff_of_taken ht).trans (congrArg _ (dispOff_of_get? ((congrArg (Map.get? · _)
      (okReply_disps ..)).trans hd)))

end Sys2Proof.Machine
end

section
/-! SUPPORT. Device time and its domains: what the servo, EV_TIME, a step of time and a change of the active domain
leave alone, and the rows of network time as equations (R234 to R237). -/

namespace Sys2Proof.Machine

section

variable {s : State}

/-! ## The servo (R236) -/

/-- The servo moves the rate of device time only. -/
theorem exists_servo_eq (s : State) : ∃ r a, servo s = { s with time := { s.time with rate := r, rateAt := a } } := by
  unfold servo
  dsimp only
  split
  · exact ⟨_, _, rfl⟩
  · split <;> exact ⟨_, _, rfl⟩

theorem servo_dom (s : State) (k : Nat) : (servo s).dom k = s.dom k := by
  obtain ⟨r, a, hv⟩ := exists_servo_eq s
  rw [hv]
  rfl

/-! ## The active domain (R235, R237) -/

@[simp] theorem evTime_time (new prev cause : Nat) (s : State) : (evTime new prev cause s).time = s.time := rfl

@[simp] theorem noteDeg_active (s : State) : (noteDeg s).time.active = s.time.active := by
  rcases noteDeg_cases s with h | h <;> rw [h]

@[simp] theorem noteDeg_dom (s : State) (k : Nat) : (noteDeg s).dom k = s.dom k := by
  rcases noteDeg_cases s with h | h
  · rw [h]
  · rw [h]; rfl

@[simp] theorem stepTime_active (d : Nat) (s : State) : (stepTime d s).time.active = s.time.active := rfl

/-- A step of time takes the step off a domain's offset; its VALID stays (R236). -/
@[simp] theorem stepTime_dom_valid (d k : Nat) (s : State) : ((stepTime d s).dom k).valid = (s.dom k).valid := by
  unfold State.dom
  split <;> rfl

@[simp] theorem autostep_active (prev : Nat) (s : State) : (autostep prev s).time.active = s.time.active := by
  unfold autostep
  dsimp only
  split <;> simp

@[simp] theorem autostep_dom_valid (prev k : Nat) (s : State) : ((autostep prev s).dom k).valid = (s.dom k).valid := by
  unfold autostep
  dsimp only
  split <;> simp

/-- The domain named becomes the active one. -/
@[simp] theorem setActive_active (n cause : Nat) (s : State) : (setActive n cause s).time.active = n := by
  unfold setActive
  dsimp only
  split
  · next h => exact (beq_iff_eq.mp h).symm
  · simp

/-- A change of the active domain leaves VALID of both domains alone. -/
@[simp] theorem setActive_dom_valid (n cause k : Nat) (s : State) :
    ((setActive n cause s).dom k).valid = (s.dom k).valid := by
  unfold setActive
  dsimp only
  split
  · rfl
  · rw [autostep_dom_valid]
    exact congrArg Dom.valid (noteDeg_dom _ k)

/-- The domain that R235 chooses is none, or one that is VALID. -/
theorem wantActive_valid (s : State) : wantActive s = 3 ∨ (s.dom (wantActive s)).valid = true := by
  unfold wantActive
  dsimp only
  split
  · split
    · next h => exact .inr (Bool.and_eq_true _ _ ▸ h).2
    · exact .inr ‹_›
  · split
    · exact .inr ‹_›
    · exact .inl rfl

/-- The active domain after a choice is none, or one that is VALID. -/
theorem reselect_valid (cause : Nat) (s : State) :
    (reselect cause s).time.active = 3 ∨ ((reselect cause s).dom (reselect cause s).time.active).valid = true := by
  unfold reselect
  rw [setActive_active, setActive_dom_valid]
  exact wantActive_valid s

/-! ## Syncs and timeouts (R234) -/

section

variable {k mac n : Nat}

/-- A domain after a Sync of a grandmaster on its MAC. -/
def Dom.synced (d : Dom) (gm : Nat) (offset rate : Int) (cap : Bool) (now : Nat) : Dom :=
  let chg := d.lastSync.isSome && d.gm != gm
  let run := if chg = true then 1 else min 4 (d.run + 1)
  { d with
    gm := gm, run := run, gmchg := if chg = true then min 0xFF (d.gmchg + 1) else d.gmchg, offset := offset,
    serv := offset, drift := 0, rate := rate, lastSync := some now, valid := cap && decide (4 ≤ run) }

/-- The domain that a Sync names: domain 0 where it fits, else domain 1. -/
def syncDom (s : State) (mac n : Nat) : Option Nat :=
  if s.time.d0.enabled && s.time.d0.mac == mac && s.time.d0.domNum == n then some 0
  else if s.time.d1.enabled && s.time.d1.mac == mac && s.time.d1.domNum == n then some 1 else none

theorem syncDom_of_configured (hk : k < 2) (hen : (s.dom k).enabled = true) (hmac : (s.dom k).mac = mac)
    (hn : (s.dom k).domNum = n)
    (hother : k = 1 → s.time.d0.enabled = false ∨ s.time.d0.mac ≠ mac ∨ s.time.d0.domNum ≠ n) :
    syncDom s mac n = some k := by
  obtain rfl | rfl : k = 0 ∨ k = 1 := by omega
  · have hd : s.dom 0 = s.time.d0 := rfl
    rw [hd] at hen hmac hn
    simp [syncDom, hen, hmac, hn]
  · have hd : s.dom 1 = s.time.d1 := rfl
    rw [hd] at hen hmac hn
    have h0 : ¬ (s.time.d0.enabled && s.time.d0.mac == mac && s.time.d0.domNum == n) = true := by
      rcases hother rfl with h | h | h <;> simp [h]
    rw [syncDom, if_neg h0]
    simp [hen, hmac, hn]

theorem execSyncReceived_of_dom {gm : Nat} {offset rate : Int} (hk : syncDom s mac n = some k)
    (hpmc : s.fwDown fwPmc = false) (hup : macUp s mac = true) :
    execSyncReceived mac n gm offset rate s = .next (reselect 3 ((servo s).setDom k
      ((s.dom k).synced gm offset rate (macCap s mac) s.time.ns))) := by
  unfold syncDom at hk
  simp only [execSyncReceived, hk, hpmc, hup]
  obtain ⟨r, a, hv⟩ := exists_servo_eq s
  rw [hv]
  rfl

theorem execSyncTimeout_of_enabled (hk : k < 2) (hen : (s.dom k).enabled = true) : execSyncTimeout k s = .next
    (reselect 1 ((servo s).setDom k { s.dom k with valid := false, run := 0 })) := by
  rw [execSyncTimeout, if_pos (by simp [hk, hen])]
  simp only [servo_dom]

/-! ## Links and peer delay -/

/-- The loss of a link ends its asCapable status and VALID of the domains on its MAC. -/
theorem execEthLinkLoss_of_present (hmac : mac < s.nMacs) : execEthLinkLoss mac s = .next
    (let f := fun (d : Dom) => if d.mac = mac then { d with valid := false, run := 0 } else d
     reselect 2 { servo s with
      eth := s.eth.set mac { s.ethSt mac with link := false, asCap := false },
      time := { (servo s).time with d0 := f s.time.d0, d1 := f s.time.d1 } }) := by
  rw [execEthLinkLoss, if_pos hmac]
  obtain ⟨r, a, hv⟩ := exists_servo_eq s
  simp only [invalidMac, hv, beq_iff_eq]

theorem execEthLinkUp_of_down {mbps : Nat} (hmac : mac < s.nMacs) (hdown : macUp s mac = false) :
    execEthLinkUp mac mbps s = .next { s with eth := s.eth.set mac ⟨true, false, mbps⟩ } := by
  simp [execEthLinkUp, hmac, hdown]

/-- A peer-delay message names a domain that is enabled on the MAC. -/
theorem peerDelay_named (hk : k < 2) (hen : (s.dom k).enabled = true) (hmac : (s.dom k).mac = mac)
    (hn : (s.dom k).domNum = n) :
    ((s.time.d0.enabled && s.time.d0.mac == mac) && s.time.d0.domNum == n
      || (s.time.d1.enabled && s.time.d1.mac == mac) && s.time.d1.domNum == n) = true := by
  obtain rfl | rfl : k = 0 ∨ k = 1 := by omega
  · have hd : s.dom 0 = s.time.d0 := rfl
    rw [hd] at hen hmac hn
    simp [hen, hmac, hn]
  · have hd : s.dom 1 = s.time.d1 := rfl
    rw [hd] at hen hmac hn
    simp [hen, hmac, hn]

theorem execPeerDelayMessage_of_named {cap : Bool} (hk : k < 2) (hen : (s.dom k).enabled = true)
    (hmac : (s.dom k).mac = mac) (hn : (s.dom k).domNum = n) (hpmc : s.fwDown fwPmc = false)
    (hup : macUp s mac = true) : execPeerDelayMessage mac n cap s = .next
      (let f := fun (d : Dom) => if d.enabled = true ∧ d.mac = mac then { d with valid := cap && decide (4 ≤ d.run) } else d
       reselect 2 { macSend mac (Config.peerDelay mac n s.freeCtr) { servo s with freeCtr := s.freeCtr + 1 } with
        eth := s.eth.set mac { s.ethSt mac with asCap := cap },
        time := { (servo s).time with d0 := f s.time.d0, d1 := f s.time.d1 } }) := by
  have hnamed := peerDelay_named hk hen hmac hn
  simp only [execPeerDelayMessage, hpmc, hup, hnamed]
  obtain ⟨r, a, hv⟩ := exists_servo_eq s
  simp only [hv, Bool.and_eq_true, beq_iff_eq]
  rfl

end

/-! ## Reversion (R235) -/

theorem execDomainRevert_of_due (hv : (s.dom s.time.pref).valid = true) (ha : s.time.active = 1 - s.time.pref)
    (hr : s.time.revertS ≠ 0) : execDomainRevert s = .next (setActive s.time.pref 4 (servo s)) := by
  rw [execDomainRevert, if_pos (by simp [hv, ha, hr])]

end

/-- Settles O38: each row is the servo, its change of the domains and a choice of the active one, which is none or one
that is VALID. The loss of asCapable ending VALID with cause 2, and the opaque frame of a peer-delay message, are
log 22. -/
theorem timeEventsSelectTheDomain : Obligations.TimeEventsSelectTheDomain := by
  intro s v
  refine ⟨fun k mac n gm offset rate hk hen hmac hn hother hpmc hup => ?sync, fun k => execSyncTimeout_of_enabled,
    fun mac => execEthLinkLoss_of_present, fun mac mbps => execEthLinkUp_of_down,
    fun k mac n cap => execPeerDelayMessage_of_named, execDomainRevert_of_due,
    fun n cause _ => setActive_active n cause s, fun cause => reselect_valid cause s⟩
  case sync => exact execSyncReceived_of_dom (syncDom_of_configured hk hen hmac hn hother) hpmc hup

end Sys2Proof.Machine
end

section
/-! SUPPORT. The idle step (R222, R223; log 10). -/

namespace Sys2Proof.Machine

section

variable {s : State}

/-- Device time in units of 2^-32 ns. -/
def Time.fine (t : Time) : Nat := t.ns * 2 ^ 32 + t.frac

theorem timeRuns_iff (s : State) : s.timeRuns = true ↔ s.dev.st ≠ .off ∧ s.dev.st ≠ .init := by
  simp [State.timeRuns]

theorem step_of_no_command (hp : s.pending = []) : step s = .next (idle s) := by
  rw [step, hp]

theorem idle_of_stopped (hst : s.dev.st = .off ∨ s.dev.st = .init) : idle s = s :=
  if_neg (by rw [timeRuns_iff]; tauto)

theorem idle_of_running (hst : s.dev.st ≠ .off ∧ s.dev.st ≠ .init) :
    idle s = sendChain (sendFrames (servo (countHold (tick s)))) :=
  if_pos ((timeRuns_iff s).mpr hst)

/-- A tick adds INC to device time. -/
theorem tick_fine (s : State) : (tick s).time.fine = s.time.fine + incOf s.time.rate := by
  simp only [tick, Time.fine]
  omega

theorem incOf_zero : incOf 0 = 2 ^ 35 := by decide

theorem countHold_of_no_hold (hh : s.clk.hold = false) : countHold s = s :=
  if_neg (by simp [hh])

theorem countHold_of_hold (hh : s.clk.hold = true) : countHold s = { s with clk := { s.clk with
    holdT := s.clk.holdT + 1, holdRunT := s.clk.holdRunT + (if s.running = true then 1 else 0) } } :=
  if_pos hh

end

/-- Settles O2: a tick carries the fraction of device time into its whole ns, so that their sum grows by INC. That an
empty queue lets one tick pass is log 10. -/
theorem idleStepAddsInc : Obligations.IdleStepAddsInc := by
  intro s hp
  refine ⟨fun hst => ?stopped, fun hst => ?running, tick_fine s, fun hrate => ?nominal,
    Nat.mod_lt _ (Nat.two_pow_pos 32), rfl, rfl, rfl, rfl, countHold_of_no_hold, countHold_of_hold⟩
  case stopped => rw [step_of_no_command hp, idle_of_stopped hst]
  case running => rw [step_of_no_command hp, idle_of_running hst]
  case nominal => exact (tick_fine s).trans (by rw [hrate, incOf_zero]; rfl)

end Sys2Proof.Machine
end

section
/-! SUPPORT. The time commands as equations (R236, R243, Table 14 of chapter 08). -/

namespace Sys2Proof.Machine

section

variable {h : Hdr} {ps : List Byte} {s : State}

/-- A taken command that completes at once with OK acts on the state with that reply. -/
theorem Cmd.exec_ok {c : Cmd} (ht : c.taken h ps s = true) (hc : c.cpl = none) (hok : c.okStatus = OK) :
    c.exec h ps s = .next (c.effect 0 h ps (okReply c.opcode h (c.data h ps (consumed h s)) s)) := by
  rw [exec_now ht hc, hok]
  rfl

theorem execTimeCfg_of_taken (ht : cTimeCfg.taken h ps s = true) : execTimeCfg h ps s = .next
    (let t := servo (journalCmd h 0x0510 (u8 ps 16) 0 (okReply 0x0510 h [] s))
     reselect 1 { t with time := { t.time with
       d0 := cfgDom t.time.d0 ps 0, d1 := cfgDom t.time.d1 ps 8, pref := u8 ps 16, tauS := u8 ps 17,
       revertS := u16 ps 18, autostep := u8 ps 20 == 1 } }) :=
  Cmd.exec_ok ht rfl rfl

/-- The 32 bytes of TIME_STATUS. -/
def timeStatusData (s : State) : List Byte :=
  leBytes 1 s.time.active
    ++ leBytes 1 (b2n (s.time.active == 3) + 2 * b2n s.clk.hold + 4 * b2n (slewing s)) ++ zeros 2
    ++ satBytes 4 (servo s).time.rate ++ domStatus s s.time.d0 ++ domStatus s s.time.d1

/-- The servo moves the rate only, and what a packet has made of its port is not in the answer. -/
theorem timeStatusData_consumed (h : Hdr) (ps : List Byte) (s : State) :
    cTimeStatus.data h ps (consumed h s) = timeStatusData s := by
  obtain ⟨p, hp⟩ := exists_consumed_eq h s
  have hrate : (servo (s.onPorts p)).time.rate = (servo s).time.rate := by
    simp only [servo, apply_ite State.time, apply_ite Time.rate]
    rfl
  obtain ⟨r, a, hv⟩ := exists_servo_eq (s.onPorts p)
  rw [hp, timeStatusData, ← hrate, hv]
  simp only [cTimeStatus, hv]
  rfl

theorem execTimeStatus_of_taken (ht : cTimeStatus.taken h ps s = true) :
    execTimeStatus h ps s = .next (okReply 0x0511 h (timeStatusData s) s) := by
  rw [execTimeStatus, Cmd.exec_ok ht rfl rfl, timeStatusData_consumed]
  rfl

/-! ## TIME_STEP -/

/-- A step goes forward. -/
theorem lt_stepTarget_of_taken (ht : cTimeStep.taken h ps s = true) : (s.time.ns : Int) < stepTarget ps s := by
  have hparam := Cmd.paramOk_of_taken ht
  simp only [cTimeStep, Bool.and_eq_true, decide_eq_true_eq] at hparam
  exact hparam.2

theorem execTimeStep_of_taken (ht : cTimeStep.taken h ps s = true) : execTimeStep h ps s = .next
    (let n := stepTarget ps s
     let t := stepTime (n - s.time.ns).toNat
       (journalCmd h 0x0512 (u8 ps 0) (n.toNat % 2 ^ 32) (okReply 0x0512 h [] s))
     if u8 ps 0 = 0 then { t with time := { t.time with frac := 0 } } else t) := by
  obtain ⟨p, hp⟩ := exists_okReply_eq 0x0512 h [] s
  rw [execTimeStep, Cmd.exec_ok ht rfl rfl]
  change Host.Outcome.next (cTimeStep.effect 0 h ps (okReply 0x0512 h [] s)) = _
  rw [hp]
  simp only [cTimeStep, beq_iff_eq]
  rfl

end

/-- Settles O37: each command is its effect on the state with its reply. OBJECT and VALUE of the journal entries are
log 26, the offset of EV_TIME log 22; cause 1 after a TIME_CFG that changes the active domain is the model's reading. -/
theorem timeCommands : Obligations.TimeCommands :=
  ⟨fun _ _ _ => ⟨execTimeCfg_of_taken, execTimeStatus_of_taken,
    fun ht => ⟨lt_stepTarget_of_taken ht, execTimeStep_of_taken ht⟩⟩, fun _ _ => rfl⟩

end Sys2Proof.Machine
end

section
/-! SUPPORT. Doorbell pages, pulse outputs, capture inputs and timed launch as equations (R228, R239 to R242). -/

namespace Sys2Proof.Machine

/-! ## Doorbell pages -/

/-- The first word of a doorbell page. -/
theorem doorWord_at {base pages k : Nat} (v : Nat) (hbase : base % 4096 = 0) (hk : k < pages) :
    doorWord base pages ⟨base + k * 0x1000, 4, v⟩ = some (k, 0) := by
  rw [doorWord, if_pos (by dsimp only; omega)]
  simp

/-- No other access names the first word of a page. -/
theorem doorWord_ne_of_other {base pages : Nat} {w : DoorWrite} (hbase : base % 4096 = 0)
    (hw : w.size ≠ 4 ∨ w.off % 0x1000 ≠ 0) (k : Nat) : doorWord base pages w ≠ some (k, 0) := by
  unfold doorWord
  split
  · next h =>
    rw [Ne, Option.some.injEq, Prod.mk.injEq]
    omega
  · simp

section

variable {h : Hdr} {ps : List Byte} {s : State}

/-! ## Commands -/

theorem execPulseArm_of_taken (ht : cPulseArm.taken h ps s = true) : execPulseArm h ps s = .next
    (let k := u8 ps 0
     let g : PulseProg := ⟨pulseStart ps, u32 ps 16 * 65536, u32 ps 20 * 65536,
       if bit (u8 ps 1) 0 then u32 ps 24 else 1, bit (u8 ps 1) 1⟩
     let p := if (s.tpo k).inPulse then { s.tpo k with next := some g }
       else { s.tpo k with prog := some g, next := none, n := 0, cancelled := false, driven := true, low := g.low }
     { okReply 0x0520 h [] s with tpos := s.tpos.set k p }) := by
  rw [execPulseArm, Cmd.exec_ok ht rfl rfl, ← okReply_tpos 0x0520 h [] s]
  simp only [State.tpo, ← okReply_tpos 0x0520 h [] s]
  rfl

theorem execPulseCancel_of_taken (ht : cPulseCancel.taken h ps s = true) : execPulseCancel h ps s = .next
    (let k := u8 ps 0
     let p := if (s.tpo k).inPulse then { s.tpo k with cancelled := true, next := none }
       else { s.tpo k with prog := none, next := none }
     { okReply 0x0521 h [] s with tpos := s.tpos.set k p }) := by
  rw [execPulseCancel, Cmd.exec_ok ht rfl rfl, ← okReply_tpos 0x0521 h [] s]
  simp only [State.tpo, ← okReply_tpos 0x0521 h [] s]
  rfl

theorem execCaptureCfg_of_taken (ht : cCaptureCfg.taken h ps s = true) : execCaptureCfg h ps s = .next
    (drainTci (u8 ps 0) { okReply 0x0530 h [] s with
      tcis := s.tcis.set (u8 ps 0) { s.tci (u8 ps 0) with edge := u8 ps 1 } }) := by
  rw [execCaptureCfg, Cmd.exec_ok ht rfl rfl, ← okReply_tcis 0x0530 h [] s]
  simp only [State.tci, ← okReply_tcis 0x0530 h [] s]
  rfl

theorem execLaunchCfg_of_taken (ht : cLaunchCfg.taken h ps s = true) : execLaunchCfg h ps s = .next
    { okReply 0x0540 h [] s with
      launch := if u8 ps 1 = 0 then s.launch.erase (u8 ps 0)
        else s.launch.set (u8 ps 0) ⟨h.tenant.toNat, u16 ps 2, u32 ps 4, u64 ps 8, 0, 0⟩ } := by
  rw [execLaunchCfg, Cmd.exec_ok ht rfl rfl, ← okReply_launch 0x0540 h [] s]
  by_cases hoff : u8 ps 1 = 0
  · simp only [cLaunchCfg, hoff, beq_self_eq_true, if_true]
    rfl
  · simp only [cLaunchCfg, beq_iff_eq, hoff, if_false]
    rfl

end

section

variable {s : State}

/-! ## Pulses (R239) -/

section

variable {o : Nat} {g : PulseProg}

theorem execPulseEdge_of_begin (hg : (s.tpo o).prog = some g) (hout : (s.tpo o).inPulse = false)
    (hdue : g.start + (s.tpo o).n * g.period ≤ s.now) : execPulseEdge o s = .next
      { s with tpos := s.tpos.set o { s.tpo o with inPulse := true, edgeAt := s.now } } := by
  simp only [execPulseEdge, hg, hout, Bool.false_eq_true, if_false, hdue, if_true]

theorem execPulseEdge_of_end (hg : (s.tpo o).prog = some g) (hin : (s.tpo o).inPulse = true)
    (hdue : (s.tpo o).edgeAt + g.width ≤ s.now) : execPulseEdge o s = .next
      { s with tpos := s.tpos.set o ((s.tpo o).ended g) } := by
  simp only [execPulseEdge, hg, hin, hdue, if_true]

end

/-! ## Captures (R241) -/

section

variable {i : Nat}

/-- A selected edge, of code 1 when rising and 2 when falling, enters the FIFO or is lost. -/
theorem execTciEdge_of_selected {rising : Bool} (err : Int) (hi : i < 4 * s.edies)
    (hsel : (s.tci i).edge = (if rising = true then 1 else 2) ∨ (s.tci i).edge = 3) : execTciEdge i rising err s = .next
      (let e := (if rising = true then 1 else 2, ((s.now : Int) + max (-8) (min err 8) * 65536).toNat)
       let t := if (s.tci i).fifo.length < 16 then { s.tci i with fifo := (s.tci i).fifo ++ [e] }
         else { s.tci i with lost := (s.tci i).lost + 1 }
       drainTci i { s with tcis := s.tcis.set i t }) := by
  rw [execTciEdge, if_pos (by simpa [hi] using hsel)]

theorem drainTci_of_down (hpmc : s.fwDown fwPmc = true) : drainTci i s = s :=
  if_pos hpmc

/-- An edge that waits alone leaves the FIFO as one event. -/
theorem drainTci_of_one {e : Nat × Nat} (hpmc : s.fwDown fwPmc = false) (he : (s.tci i).fifo = [e]) : drainTci i s =
    { offer0 0x05F2 (leBytes 1 i ++ leBytes 1 e.1 ++ leBytes 2 (min (s.tci i).lost 0xFFFF)
        ++ leBytes 8 (e.2 / 65536) ++ leBytes 2 (e.2 % 65536) ++ zeros 2) s with
      tcis := s.tcis.set i { s.tci i with fifo := [], lost := 0 } } := by
  rw [drainTci, if_neg (by simp [hpmc])]
  simp only [he, List.foldl_cons, List.foldl_nil]
  rfl

end

/-! ## Timed launch (R242) -/

section

variable {mac : Nat} {l : Launch}

theorem execLtailWrite_at (v : Nat) (hl : s.launch.get? mac = some l) (hmac : mac < 8) :
    execLtailWrite ⟨0x100000 + mac * 0x1000, 4, v⟩ s = .next { s with
      launch := s.launch.set mac { l with ltail := v % 65536 } } := by
  simp only [execLtailWrite, doorWord_at v (show 0x100000 % 4096 = 0 from rfl) hmac, hl]

theorem execLtailWrite_of_other {w : DoorWrite} (hw : w.size ≠ 4 ∨ w.off % 0x1000 ≠ 0) :
    execLtailWrite w s = .next s := by
  unfold execLtailWrite
  split
  · exact absurd ‹_› (doorWord_ne_of_other rfl hw _)
  · rfl

/-- An entry whose time has come, not late, with its frame in pages of the tenant: sent, at LTIME or after. -/
theorem launchStatus_of_due {e : List Byte} (busy : Bool) (hdue : u64 e 0 ≤ s.time.ns)
    (hlate : s.time.ns ≤ u64 e 0 + l.lateUs * 1000)
    (hframe : accessCheck s (accTenant s l.tenant) (u64 e 8) (u16 e 16) = 0) :
    launchStatus s l e busy = some (if busy then 2 else 1) := by
  rw [launchStatus, if_neg hlate.not_gt, if_neg hdue.not_gt, if_neg (by simp [hframe])]

theorem execLaunchEntry_of_due {busy : Bool} (err : Int) (hl : s.launch.get? mac = some l) (hne : l.ltail ≠ l.lhead)
    (hown : ownedBy s l.tenant (l.base + l.lhead % l.depth * 32) 32 = true)
    (hc : accessCheck s (accTenant s l.tenant) (l.base + l.lhead % l.depth * 32) 32 = 0)
    (hlock : rtLocked s (l.base + l.lhead % l.depth * 32) 32 = false)
    (hst : launchStatus s l (dramRead s (l.base + l.lhead % l.depth * 32) 32) busy = some (if busy then 2 else 1)) :
    execLaunchEntry mac busy err s = .next
      (let a := l.base + l.lhead % l.depth * 32
       let e := dramRead s a 32
       let t := ownWrite l.tenant (a + 18) (leBytes 1 (if busy = true then 2 else 1))
         { s with launch := s.launch.set mac { l with lhead := (l.lhead + 1) % 65536 } }
       let f := checkedRead (accTenant t l.tenant) (u64 e 8) (u16 e 16) t
       macSend mac f.1 (ownWrite l.tenant (a + 20)
         (leBytes 8 ((s.time.ns : Int) + max (-8) (min err 16)).toNat) f.2)) := by
  simp only [execLaunchEntry, hl, checkedRead_of_allowed hc hlock]
  rw [if_neg (by simpa using hne), if_neg (by simp [hown]), hst]
  cases busy <;> rfl

end

end

/-- Settles O39: each command is its effect on the state with its reply, and each row its equation. A pulse edge at the
device time of its row is log 22, with log 10. -/
theorem pulsesCapturesAndLaunch : Obligations.PulsesCapturesAndLaunch := by
  refine ⟨fun h ps s => ⟨execPulseArm_of_taken, execPulseCancel_of_taken, execCaptureCfg_of_taken,
    execLaunchCfg_of_taken⟩, fun s => ⟨fun o g hg => ⟨execPulseEdge_of_begin hg, execPulseEdge_of_end hg⟩,
    fun i rising err => execTciEdge_of_selected err, fun i => drainTci_of_down, fun i e => drainTci_of_one,
    fun mac l hl => ⟨fun v => execLtailWrite_at v hl, fun busy err hne hown hc hlock hdue hlate hframe => ?launch⟩,
    fun w => execLtailWrite_of_other⟩⟩
  case launch => exact execLaunchEntry_of_due err hl hne hown hc hlock (launchStatus_of_due busy hdue hlate hframe)

end Sys2Proof.Machine
end

section
/-! SUPPORT. The stream commands, the states of a context and its doorbell page as equations (R225 to R233). -/

namespace Sys2Proof.Machine

section

variable {s : State} {k : Nat} {c : StreamCtx}

/-! ## One context -/

theorem modCtx_of_get? (f : StreamCtx → StreamCtx) (hk : s.ctxs.get? k = some c) :
    modCtx k f s = { s with ctxs := s.ctxs.set k (f c) } := by
  simp only [modCtx, hk]

/-- A context in another state, with what SEEKING and STALLED do to it. -/
def StreamCtx.moved (c : StreamCtx) (n : CtxSt) : StreamCtx := { c with
  st := n, resync := c.resync || n == .seeking || n == .stalled,
  stalls := if n = .stalled then min 0xFF (c.stalls + 1) else c.stalls }

/-- EV_STREAM (R232). -/
def evStream (k : Nat) (n old : CtxSt) (reason units : Nat) (s : State) : State :=
  offer0 0x05F0 (leBytes 1 k ++ leBytes 1 n.code ++ leBytes 1 old.code ++ leBytes 1 reason ++ leBytes 4 units) s

theorem setCtxSt_of_ne {n : CtxSt} (reason : Nat) (hk : s.ctxs.get? k = some c) (hne : c.st ≠ n) :
    setCtxSt k n reason s = evStream k n c.st reason c.units { s with ctxs := s.ctxs.set k (c.moved n) } := by
  simp only [setCtxSt, hk]
  rw [if_neg (by simpa using hne)]
  simp only [beq_iff_eq]
  rfl

/-- A context that closes leaves its counts: closing changes none of them. -/
theorem closeStream_of_get? (hk : s.ctxs.get? k = some c) : closeStream k s =
    (let t := setCtxSt k .closed 0 s
     { t with ctxs := t.ctxs.erase k, ctxLeft := s.ctxLeft.set k ⟨c.truncs, c.stalls, c.drops, c.discards⟩ }) := by
  by_cases hst : c.st = .closed
  · have hset : setCtxSt k .closed 0 s = s := by simp [setCtxSt, hk, hst]
    simp only [closeStream, hset, hk]
  · have hget : (s.ctxs.set k (c.moved .closed)).get? k = some (c.moved .closed) := Map.get?_set_self ..
    rw [closeStream, setCtxSt_of_ne 0 hk hst]
    simp only [evStream, offer0, offer_ctxs, hget, offer_ctxLeft]
    rfl

/-! ## The doorbell page (R228) -/

theorem execStreamDoneWrite_at (v : Nat) (hk : k < 96) (hc : s.ctxs.get? k = some c) :
    execStreamDoneWrite ⟨0x40000 + k * 0x1000, 4, v⟩ s = .next { s with
      ctxs := s.ctxs.set k { c with done_ := v % 65536 } } := by
  simp only [execStreamDoneWrite, doorWord_at v (show 0x40000 % 4096 = 0 from rfl) hk, modCtx_of_get? _ hc]

theorem execStreamDoneWrite_of_other {w : DoorWrite} (hw : w.size ≠ 4 ∨ w.off % 0x1000 ≠ 0) :
    execStreamDoneWrite w s = .next s := by
  unfold execStreamDoneWrite
  split
  · exact absurd ‹_› (doorWord_ne_of_other rfl hw _)
  · rfl

end

section

variable {h : Hdr} {ps : List Byte} {s : State} {c : StreamCtx}

/-! ## Commands (Table 13 of chapter 08) -/

theorem execStreamOpen_of_taken (ht : cStreamOpen.taken h ps s = true) : execStreamOpen h ps s = .next
    (let k := u8 ps 0
     setCtxSt k .idle 0 { okReply 0x0501 h [] s with
       maps := s.maps.erase k, ctxLeft := s.ctxLeft.erase k,
       ctxs := s.ctxs.set k { openCtx h.tenant.toNat ps with st := .closed } }) := by
  rw [execStreamOpen, Cmd.exec_ok ht rfl rfl, ← okReply_maps 0x0501 h [] s, ← okReply_ctxLeft 0x0501 h [] s,
    ← okReply_ctxs 0x0501 h [] s]
  rfl

/-- A reply leaves the contexts alone. -/
theorem okReply_ctx (op : Nat) (data : List Byte) {k : Nat} (hk : s.ctxs.get? k = some c) :
    (okReply op h data s).ctxs.get? k = some c := by
  rw [okReply_ctxs, hk]

theorem execStreamStart_of_taken (hk : s.ctxs.get? (u8 ps 0) = some c) (ht : cStreamStart.taken h ps s = true) :
    execStreamStart h ps s = .next (syncStreams { okReply 0x0503 h [] s with
      ctxs := s.ctxs.set (u8 ps 0) (if c.started then c else { c with started := true, units := 0 }) }) := by
  rw [execStreamStart, Cmd.exec_ok ht rfl rfl, ← okReply_ctxs 0x0503 h [] s]
  exact congrArg (fun t => Host.Outcome.next (syncStreams t)) (modCtx_of_get? _ (okReply_ctx _ _ hk))

theorem execStreamStop_of_taken (hk : s.ctxs.get? (u8 ps 0) = some c) (ht : cStreamStop.taken h ps s = true) :
    execStreamStop h ps s = .next (syncStreams { okReply 0x0504 h [] s with
      ctxs := s.ctxs.set (u8 ps 0) { c with started := false } }) := by
  rw [execStreamStop, Cmd.exec_ok ht rfl rfl, ← okReply_ctxs 0x0504 h [] s]
  exact congrArg (fun t => Host.Outcome.next (syncStreams t)) (modCtx_of_get? _ (okReply_ctx _ _ hk))

theorem execStreamClose_of_taken (hk : s.ctxs.get? (u8 ps 0) = some c) (ht : cStreamClose.taken h ps s = true) :
    execStreamClose h ps s = .next
      (let t := setCtxSt (u8 ps 0) .closed 0 (okReply 0x0502 h [] s)
       { t with
         ctxs := t.ctxs.erase (u8 ps 0),
         ctxLeft := s.ctxLeft.set (u8 ps 0) ⟨c.truncs, c.stalls, c.drops, c.discards⟩ }) := by
  rw [execStreamClose, Cmd.exec_ok ht rfl rfl, ← okReply_ctxLeft 0x0502 h [] s]
  exact congrArg Host.Outcome.next (closeStream_of_get? (okReply_ctx _ _ hk))

theorem execStreamStatus_of_taken (hk : s.ctxs.get? (u8 ps 0) = some c) (ht : cStreamStatus.taken h ps s = true) :
    execStreamStatus h ps s = .next (okReply 0x0505 h
      (leBytes 1 c.st.code ++ leBytes 1 (b2n c.started) ++ leBytes 1 c.reason ++ [0x00] ++ leBytes 4 c.units
        ++ leBytes 4 c.truncs ++ leBytes 4 c.drops) s) := by
  have hk' : (consumed h s).ctxs.get? (u8 ps 0) = some c := by
    rw [consumed, State.setPort_ctxs, hk]
  rw [execStreamStatus, Cmd.exec_ok ht rfl rfl]
  simp only [cStreamStatus, hk']
  rfl

end

/-- Settles O35: each command is its effect on the state with its reply, and a change of a context's state is one entry
of the table and its event. EV_STREAM behind the reply is log 18. -/
theorem streamCommands : Obligations.StreamCommands :=
  ⟨fun _ _ _ => ⟨execStreamOpen_of_taken, fun _ hk => ⟨execStreamStart_of_taken hk, execStreamStop_of_taken hk,
    execStreamClose_of_taken hk, execStreamStatus_of_taken hk⟩⟩, fun _ reason _ _ _ => setCtxSt_of_ne reason,
    fun _ v _ _ => execStreamDoneWrite_at v, fun _ _ => execStreamDoneWrite_of_other⟩

end Sys2Proof.Machine
end

section
/-! SUPPORT. The start, the packets and the end of a unit as equations (R224 to R231), and what the clock map, an
undefined buffer and a write of DRAM leave alone. -/

namespace Sys2Proof.Machine

section

variable {s : State}

/-! ## What a unit's record and its buffer leave alone -/

/-- A new state of a map touches HP0 and the maps only. -/
theorem exists_setMst_eq (k n uno : Nat) (s : State) : ∃ p m, setMst k n uno s = { s with hp0 := p, maps := m } := by
  unfold setMst
  dsimp only
  split <;> exact ⟨_, _, rfl⟩

theorem exists_mapUnit_eq (k : Nat) (u : UnitSt) (ok : Bool) (s : State) :
    ∃ p m n, mapUnit k u ok s = { s with hp0 := p, maps := m, freeCtr := n } := by
  unfold mapUnit
  dsimp only
  split
  · obtain ⟨p, m, h⟩ := exists_setMst_eq k 2 u.no s
    exact ⟨p, m, s.freeCtr, h⟩
  · obtain ⟨p, m, h⟩ := exists_setMst_eq k _ u.no _
    exact ⟨p, m, s.freeCtr + 1, h⟩

/-- A unit's record touches HP0, the maps and the count of free values only. -/
theorem exists_recordUnit_eq (k : Nat) (u : UnitSt) (ok keep : Bool) (s : State) :
    ∃ p m n, recordUnit k u ok keep s = { s with hp0 := p, maps := m, freeCtr := n } := by
  obtain ⟨p, m, n, h⟩ := exists_mapUnit_eq k u ok s
  unfold recordUnit
  dsimp only
  split
  · exact ⟨s.hp0, s.maps, s.freeCtr, rfl⟩
  · rw [h]
    split
    · exact ⟨p, m, n, rfl⟩
    · exact ⟨p, _, n + 1, rfl⟩

@[simp] theorem recordUnit_ctxs (k : Nat) (u : UnitSt) (ok keep : Bool) (s : State) :
    (recordUnit k u ok keep s).ctxs = s.ctxs := by
  obtain ⟨p, m, n, h⟩ := exists_recordUnit_eq k u ok keep s
  rw [h]

@[simp] theorem recordUnit_rctxs (k : Nat) (u : UnitSt) (ok keep : Bool) (s : State) :
    (recordUnit k u ok keep s).rctxs = s.rctxs := by
  obtain ⟨p, m, n, h⟩ := exists_recordUnit_eq k u ok keep s
  rw [h]

/-- A write changes bytes and their poison, and drops cache lines. -/
theorem exists_dramWrite_eq (a : Nat) (bs : List Byte) (s : State) : ∃ d p c,
    dramWrite a bs s = { s with mem := { s.mem with dram := d, poison := p }, cls := c } := by
  unfold dramWrite
  dsimp only
  split
  · exact ⟨s.mem.dram, s.mem.poison, s.cls, rfl⟩
  · exact ⟨_, _, _, rfl⟩

@[simp] theorem dramWrite_ctxs (a : Nat) (bs : List Byte) (s : State) : (dramWrite a bs s).ctxs = s.ctxs := by
  obtain ⟨d, p, c, h⟩ := exists_dramWrite_eq a bs s
  rw [h]

/-- A buffer that becomes undefined changes bytes, and takes a free value. -/
theorem exists_scrambleBuf_eq (c : StreamCtx) (u : UnitSt) (s : State) : ∃ d p l n,
    scrambleBuf c u s = { s with mem := { s.mem with dram := d, poison := p }, cls := l, freeCtr := n } := by
  unfold scrambleBuf
  dsimp only
  split
  · obtain ⟨d, p, l, h⟩ := exists_dramWrite_eq (c.bufBase + u.buf * c.bufBytes) _ (takeFree s).2
    exact ⟨d, p, l, s.freeCtr + 1, h⟩
  · exact ⟨s.mem.dram, s.mem.poison, s.cls, s.freeCtr, rfl⟩

@[simp] theorem scrambleBuf_ctxs (c : StreamCtx) (u : UnitSt) (s : State) : (scrambleBuf c u s).ctxs = s.ctxs := by
  obtain ⟨d, p, l, n, h⟩ := exists_scrambleBuf_eq c u s
  rw [h]

@[simp] theorem scrambleBuf_rctxs (c : StreamCtx) (u : UnitSt) (s : State) : (scrambleBuf c u s).rctxs = s.rctxs := by
  obtain ⟨d, p, l, n, h⟩ := exists_scrambleBuf_eq c u s
  rw [h]

/-- A tenant's accesses are checked against page entries, which an undefined buffer leaves alone. -/
@[simp] theorem scrambleBuf_accessCheck (c : StreamCtx) (u : UnitSt) (s : State) (t a n : Nat) :
    accessCheck (scrambleBuf c u s) (accTenant (scrambleBuf c u s) t) a n = accessCheck s (accTenant s t) a n := by
  obtain ⟨d, p, l, n, h⟩ := exists_scrambleBuf_eq c u s
  rw [h]
  rfl

/-- Locks are those of the render contexts. -/
theorem rtLocked_congr {t : State} (h : t.rctxs = s.rctxs) (a n : Nat) : rtLocked t a n = rtLocked s a n := by
  rw [rtLocked, h, rtLocked]

@[simp] theorem modCtx_rctxs (k : Nat) (f : StreamCtx → StreamCtx) (s : State) : (modCtx k f s).rctxs = s.rctxs := by
  unfold modCtx
  split <;> rfl

theorem modCtx_get?_self (k : Nat) (f : StreamCtx → StreamCtx) (s : State) :
    (modCtx k f s).ctxs.get? k = (s.ctxs.get? k).map f := by
  cases hk : s.ctxs.get? k with
  | none => simp only [modCtx, hk, Option.map_none]
  | some c => simp only [modCtx, hk, Map.get?_set_self, Option.map_some]

end

section

variable {s : State} {k : Nat} {c : StreamCtx} {u : UnitSt} {f : Ingress} {err : Int}

/-- What arrives for one context acts on that context alone. -/
theorem foldl_takers (htake : ctxTakers s f = [k]) (g : State → Nat → State) : (ctxTakers s f).foldl g s = g s k := by
  rw [htake]
  rfl

/-! ## A unit ends (R228, R229, R247) -/

/-- A unit with the flags of its end, which TEND carries as TSTART does (R224). -/
def UnitSt.atEnd (u : UnitSt) (s : State) : UnitSt :=
  { u with noref := u.noref || s.clk.hold, holdover := u.holdover || s.time.active == 3 }

/-- The slot of the next descriptor. -/
def StreamCtx.slot (c : StreamCtx) : Nat := c.ring + c.tail % c.nbuf * 64

/-- A context after the end of its unit, and after the unit's descriptor. -/
def StreamCtx.unitOver (ok : Bool) (reason : Nat) (c : StreamCtx) : StreamCtx := { c with
  unit := none, reason := if ok then c.reason else reason,
  truncs := if ok then c.truncs else min 0xFFFFFFFF (c.truncs + 1) }
def StreamCtx.described (c : StreamCtx) : StreamCtx := { c with tail := (c.tail + 1) % 65536, dropsSince := 0 }

theorem finishUnit_of_no_unit (hk : s.ctxs.get? k = some c) (hu : c.unit = none) (ok : Bool) (reason tend : Nat) :
    finishUnit k ok reason tend s = s := by
  simp only [finishUnit, hk, hu]

/-- A unit whose descriptor passes its check, free of locks: its record is frozen, its descriptor written, TAIL rises. -/
theorem finishUnit_of_described (hk : s.ctxs.get? k = some c) (hu : c.unit = some u) (ok : Bool) (reason tend : Nat)
    (hc : accessCheck s (accTenant s c.tenant) c.slot 64 = 0) (hlock : rtLocked s c.slot 64 = false) :
    finishUnit k ok reason tend s = modCtx k StreamCtx.described
      (dramWrite c.slot (descBytes c (u.atEnd s) ok reason tend) (modCtx k (StreamCtx.unitOver ok reason)
        (recordUnit k (u.atEnd s) ok true (if ok then s else scrambleBuf c (u.atEnd s) s)))) := by
  generalize ht : (if ok then s else scrambleBuf c (u.atEnd s) s) = t
  have hct : accessCheck t (accTenant t c.tenant) c.slot 64 = 0 := by
    rw [← ht]
    cases ok <;> simp [hc]
  have hlt : rtLocked t c.slot 64 = false := by
    rw [← hlock, ← ht]
    cases ok
    · exact rtLocked_congr (scrambleBuf_rctxs ..) _ _
    · rfl
  have hlr : rtLocked (modCtx k (StreamCtx.unitOver ok reason) (recordUnit k (u.atEnd s) ok true t)) c.slot 64
      = false := by
    rw [← hlt]
    exact rtLocked_congr (by simp) _ _
  unfold UnitSt.atEnd StreamCtx.slot at *
  simp only [finishUnit, hk, hu, ht, hct, hlt, if_true]
  rw [if_neg (by exact ne_true_of_eq_false hlr)]
  rfl

theorem endUnit_of_live (hk : s.ctxs.get? k = some c) (hst : c.st = .live) (hu : c.unit = some u)
    (he : endsUnit c u f = some 0) : endUnit k f err s = finishUnit k true 0 (stampOf s c err) s := by
  simp only [endUnit, hk, hu, he]
  rw [if_neg (by simp [hst])]

/-- The context after its unit's descriptor. -/
theorem finishUnit_get?_of_described (hk : s.ctxs.get? k = some c) (hu : c.unit = some u) (ok : Bool) (reason tend : Nat)
    (hc : accessCheck s (accTenant s c.tenant) c.slot 64 = 0) (hlock : rtLocked s c.slot 64 = false) :
    (finishUnit k ok reason tend s).ctxs.get? k = some (c.unitOver ok reason).described := by
  have hctxs : (if ok then s else scrambleBuf c (u.atEnd s) s).ctxs.get? k = some c := by
    cases ok <;> simp [hk]
  rw [finishUnit_of_described hk hu ok reason tend hc hlock, modCtx_get?_self, dramWrite_ctxs, modCtx_get?_self,
    recordUnit_ctxs, hctxs]
  rfl

/-! ## HOLD passes (R231) -/

theorem execStreamHoldExpiry_of_unit (hk : s.ctxs.get? k = some c) (hst : c.st = .live) (hu : c.unit = some u)
    (hc : accessCheck s (accTenant s c.tenant) c.slot 64 = 0) (hlock : rtLocked s c.slot 64 = false) :
    execStreamHoldExpiry k s = .next (setCtxSt k .stalled 1 (finishUnit k false 1 s.now s)) := by
  have hget := finishUnit_get?_of_described hk hu false 1 s.now hc hlock
  have hlive : ((c.unitOver false 1).described.st == .live) = true := by
    simp [StreamCtx.described, StreamCtx.unitOver, hst]
  simp only [execStreamHoldExpiry, hk, truncate, hget, hlive, if_true]
  rw [if_pos (by simp [hst, hu])]

theorem execStreamHoldExpiry_of_no_unit (hk : s.ctxs.get? k = some c) (hst : c.st = .seeking ∨ c.st = .live)
    (hu : c.unit = none) (hp : c.period ≠ 0) : execStreamHoldExpiry k s = .next (setCtxSt k .stalled 0 s) := by
  simp only [execStreamHoldExpiry, hk]
  rw [if_neg (by simp [hu]), if_pos (by simp [hst, hp])]

/-! ## A unit starts (R224, R228) -/

/-- The unit that starts, stamped, in the next buffer. -/
def newUnit (s : State) (c : StreamCtx) (f : Ingress) (err : Int) : UnitSt := {
  no := c.units + 1, tstart := stampOf s c err, resync := c.resync, noref := s.clk.hold,
  holdover := s.time.active == 3, domain := domByte s.time.active, buf := c.tail % c.nbuf,
  bytes := 0, pkts := 0, pktErrs := 0, frame := frameNo f, portInfo := portInfo f, bad := 0,
  keyed := false, field := none }

section

variable (hk : s.ctxs.get? k = some c) (hopen : c.st ≠ .closed ∧ c.st ≠ .idle) (hu : c.unit = none)
  (hstart : startsUnit c f = true)

include hk hopen hu hstart

theorem startUnit_of_free (hfree : (c.tail + 65536 - c.done_) % 65536 < c.nbuf) : startUnit k f err s =
    modCtx k (fun d => { d with resync := false, unit := some (newUnit s c f err) })
      (setCtxSt k .live 0 { s with ctxs := s.ctxs.set k { c with units := (c.units + 1) % 2 ^ 32 } }) := by
  have htrunc : truncate k 2 s = s := finishUnit_of_no_unit hk hu ..
  simp only [startUnit, hk, htrunc, modCtx_of_get? _ hk]
  rw [if_neg (by simp [hopen, hstart]), if_neg (by simp [hopen]), if_pos hfree]
  rfl

theorem startUnit_of_full (hfull : c.nbuf ≤ (c.tail + 65536 - c.done_) % 65536) : startUnit k f err s =
    { s with ctxs := s.ctxs.set k { c with
      units := (c.units + 1) % 2 ^ 32, drops := min 0xFFFFFFFF (c.drops + 1), dropsSince := c.dropsSince + 1 } } := by
  have htrunc : truncate k 2 s = s := finishUnit_of_no_unit hk hu ..
  simp only [startUnit, hk, htrunc, modCtx_of_get? _ hk]
  rw [if_neg (by simp [hopen, hstart]), if_neg (by simp [hopen]), if_neg hfull.not_gt]
  rfl

end

/-! ## Packets (R226) -/

/-- The 16-byte record of a packet and its padded data. -/
def packetRecord (s : State) (c : StreamCtx) (err : Int) (kd fl inf : Nat) (d : List Byte) : List Byte :=
  leBytes 2 d.length ++ leBytes 1 kd ++ leBytes 1 fl ++ leBytes 4 inf
    ++ leBytes 8 (stampOf s c err / 65536) ++ padTo (roundup d.length 16) d

/-- Reading the sensor time in a packet touches the unit's field only. -/
theorem exists_keyUnit_eq (m : ClockMap) (kd : Nat) (d : List Byte) (u : UnitSt) :
    ∃ b x, keyUnit m kd d u = { u with keyed := b, field := x } := by
  unfold keyUnit
  split <;> exact ⟨_, _, rfl⟩

theorem execStreamPacket_of_packet {p : Nat × Nat × Nat × List Byte} (hp : packetOf c f = some p) :
    execStreamPacket f err s = .next ((ctxTakers s f).foldl (fun s k => addPacket k f err s) s) := by
  unfold execStreamPacket
  split
  · simp [packetOf] at hp
  · rfl

theorem addPacket_of_stored {kd fl inf : Nat} {d r : List Byte} (hk : s.ctxs.get? k = some c) (hst : c.st = .live)
    (hu : c.unit = some u) (hp : packetOf c f = some (kd, fl, inf, d)) (hr : packetRecord s c err kd fl inf d = r)
    (hbad : u.bad = 0) (hfit : u.bytes + r.length ≤ c.bufBytes)
    (hlock : rtLocked s (c.bufBase + u.buf * c.bufBytes + u.bytes) r.length = false)
    (hc : accessCheck s (accTenant s c.tenant) (c.bufBase + u.buf * c.bufBytes + u.bytes) r.length = 0) :
    addPacket k f err s = dramWrite (c.bufBase + u.buf * c.bufBytes + u.bytes) r { s with
      ctxs := s.ctxs.set k { c with
        unit := some { keyUnit (s.map k) kd d u with bytes := u.bytes + r.length, pkts := u.pkts + 1 } } } := by
  obtain ⟨b, x, hkey⟩ := exists_keyUnit_eq (s.map k) kd d u
  unfold packetRecord at hr
  simp only [addPacket, hk, hp, hu, hkey, hr, modCtx_of_get? _ hk]
  rw [if_neg (by simp [hst]), if_neg (by simp [hbad]), if_neg hfit.not_gt, if_neg (by simp [hlock]),
    checkedWrite_of_allowed (by exact hc) (by exact hlock)]

end

/-- Settles O36: the rows act on the one context that takes what arrives; a unit's start, its packets and its end are
each one equation, and HOLD cuts a unit short by the same end. The first unit numbered 1 and the locked bytes of a
truncated unit's buffer are log 22. -/
theorem unitsAreStampedAndDescribed : Obligations.UnitsAreStampedAndDescribed := by
  intro k c f err s hk hclosed hidle
  refine ⟨fun htake hu hstart => ⟨fun hfree => ?starts, fun hfull => ?drops⟩,
    fun u kd fl inf d htake hst hu hp _ hbad hfit hlock hc => ?packet,
    fun u hu hc hlock => ⟨fun htake hst he => ?ends, fun hst => ?cut⟩, execStreamHoldExpiry_of_no_unit hk⟩
  case starts =>
    exact congrArg Host.Outcome.next ((foldl_takers htake _).trans
      (startUnit_of_free hk ⟨hclosed, hidle⟩ hu hstart hfree))
  case drops =>
    exact congrArg Host.Outcome.next ((foldl_takers htake _).trans
      (startUnit_of_full hk ⟨hclosed, hidle⟩ hu hstart hfull))
  case packet =>
    exact (execStreamPacket_of_packet hp).trans (congrArg Host.Outcome.next ((foldl_takers htake _).trans
      (addPacket_of_stored hk hst hu hp rfl hbad hfit hlock hc)))
  case ends =>
    exact congrArg Host.Outcome.next ((foldl_takers htake _).trans
      ((endUnit_of_live hk hst hu he).trans (finishUnit_of_described hk hu true 0 _ hc hlock)))
  case cut =>
    exact (execStreamHoldExpiry_of_unit hk hst hu hc hlock).trans
      (congrArg (fun t => Host.Outcome.next (setCtxSt k .stalled 1 t))
        (finishUnit_of_described hk hu false 1 _ hc hlock))

end Sys2Proof.Machine
end
